-- ==== Sys2Proof/Word.lean ====
section
/-! DEFINITION. Word.lean: the word type of the general registers and its plainest arithmetic (02:R41, 00:R6). -/

namespace Sys2Proof

/-- A general register's contents, 64 bits (R41). -/
abbrev Word := BitVec 64

/-- The smallest addressable unit (R6). -/
abbrev Byte := BitVec 8

/-- An instruction word (R31). -/
abbrev IWord := BitVec 32

/-- A virtual or device physical address of 48 bits (R32, R170). -/
abbrev Addr := BitVec 48

/-- The number 0 or 1 as a register value. -/
def Word.ofBool (b : Bool) : Word := if b then 1 else 0

end Sys2Proof
end

