-- ==== Sys2Proof/Syntax.lean ====
section
/-! DEFINITION. Syntax.lean: operand types and the one inductive of instructions and events
(02:R34 to R37 for the forms, the opcode table for the rows). -/

namespace Sys2Proof

/-- A general register number g0 to g31 (R35). -/
abbrev GReg := BitVec 5
/-- A vector register number v0 to v15 (R35). -/
abbrev VReg := BitVec 4
/-- A predicate register number p0 to p31 (R35). -/
abbrev PReg := BitVec 5
/-- A Poerius port number 0 to 7 (R27). -/
abbrev Port := BitVec 3

/-- Rounding modes 0 to 5 (R69). -/
inductive Rm where
  | rne | rtz | rdn | rup | rna | rsr
  deriving DecidableEq, Repr

/-- Formats of the scalar float instructions, FMT 0 to 3 (R88). -/
inductive FFmt where
  | bf16 | fp16 | fp32 | fp64
  deriving DecidableEq, Repr

/-- Integer kinds of fcvt.if and fcvt.fi, b[1:0] (R92). -/
inductive IntKind where
  | i64 | u64 | i32 | u32
  deriving DecidableEq, Repr

/-- Element types, ET 0 to 15 (R49). -/
inductive ElemType where
  | i8 | u8 | i16 | u16 | i32 | u32 | i64 | u64
  | e4m3 | e5m2 | e2m1 | bf16 | fp16 | fp32 | fp64 | e8m0
  deriving DecidableEq, Repr

/-- Ordering of an atomic or fence, ORD 0 to 3 (R188, R217, R222). -/
inductive MemOrd where
  | rlx | acq | rel | ar
  deriving DecidableEq, Repr

/-- Scope of an atomic or fence, SCOPE 0 to 3 (R189). -/
inductive Scope where
  | core | gang | pkg | sys
  deriving DecidableEq, Repr

/-- The combination of a gred, OP 0 to 8 (R276). -/
inductive GredOp where
  | add | and | or | xor | min | max | minu | maxu | faddD
  deriving DecidableEq, Repr

/-- The operation of an atomic, OP 0 to 11 (R218). -/
inductive AmoOp where
  | ald | ast | add | swap | and | or | xor | min | max | minu | maxu | cas
  deriving DecidableEq, Repr

/-- The second operand of a V-form or compare instruction: operand kinds 0b00, 0b01, 0b10 (R35). -/
inductive VSrc where
  | vec (b : VReg)
  | scal (g : GReg)
  | imm (i : BitVec 5)
  deriving DecidableEq, Repr

/-- The system registers (R312). -/
inductive SysReg where
  | hartid | gangid | gidx | gsize | taskrec | ctxid | prio | cycle | instret
  | mode | vl | vstart | vlmax | vlceil | lanes | rds | vfsr | vdirty | pdirty | srseed | srcount
  | fcr | fsr
  | ltime | lease | syncst | hyp | hypdepth | lockq | lockuse | benchchk | waymode
  | trapcause | trappc | trapval | trapvec | status | ptroot | csaptr | savepc
  | errstat | erraddr | chkctl | rbcount
  deriving DecidableEq, Repr

/-- What a checked access of another core leaves in the race records (R198): its gang's stamp and the bytes of the line
it touches, from off upward, n of them. -/
structure RaceMark where
  stamp : BitVec 20
  off : Nat
  n : Nat
  deriving DecidableEq, Repr

/-- How an access of another core through a leaf with CNT counts (R307, R347): its context, and ACX and ACQUEUE of that
context's descriptor. -/
structure CountMark where
  ctx : BitVec 8
  acx : BitVec 4
  queue : BitVec 12
  deriving DecidableEq, Repr

/-- A request of another core: its number, LTIME and LEASE, the HYP the access carries, its entry in the race records
when its gang runs with RACECHK, and how it counts. -/
structure CoreRequest where
  core : BitVec 9
  t : BitVec 16
  lease : BitVec 8
  hyp : BitVec 12
  race : Option RaceMark
  count : Option CountMark
  deriving DecidableEq, Repr

/-- Who sends a request to a home (R203): the modelled hart, or another core. -/
inductive Requester where
  | self
  | other (r : CoreRequest)
  deriving DecidableEq, Repr

/-- What a write-back carries (R169, R324, R359): the line image, the bytes stored under the tag of a version, and the
poisoned words. -/
structure LineImage where
  data : BitVec 512
  mask : BitVec 64
  poison : BitVec 8
  deriving DecidableEq, Repr

/-- An atomic carried to a peer package's home (R220): operation, operand and expected value. -/
structure PeerAtomic where
  op : AmoOp
  v : Word
  cmp : Word
  deriving DecidableEq, Repr

/-- What a PEEL_ELEMENT does: an element of the operation's own moves, the lowest not yet moved or another one, with the code by
which a successor core refused it (R210, R251); or an element of an rrot's predecessor arrives, the lowest not yet there or another
one, poisoned or not. -/
inductive PeelMove where
  | own (e : Option Nat) (refused : Option (BitVec 4))
  | incoming (e : Option Nat) (v : Word) (poison : Bool)
  deriving DecidableEq, Repr

/-- A pan of a core of a package: the target fields of a descriptor or token (R247). -/
structure PanRef where
  core : BitVec 9
  pan : BitVec 6
  seq : BitVec 16
  deriving DecidableEq, Repr

/-- A reservation request as it reaches the target core (R247): holder, its tag, the port it came over
(none over the mesh), the PORT field of its descriptor, and the pan asked for (none for ANY). -/
structure Reservation where
  hpkg : BitVec 12
  hcore : BitVec 9
  htag : BitVec 16
  port : Option Port
  sport : Port
  core : BitVec 9
  pan : Option (BitVec 6)
  deriving DecidableEq, Repr

/-- One piece of a put as it reaches the pan (R248): the pan, offset of the whole put, its byte count, its
final flag and residue, then the bytes carried by this flit, the offset of the first of them inside the put,
and the 8-byte words of the pan, by offset / 8, that land poisoned. -/
structure PutFlit where
  ref : PanRef
  spkg : BitVec 12
  port : Option Port
  base : Nat
  count : Nat
  final : Bool
  residue : BitVec 16
  start : Nat
  data : List Byte
  poison : List Nat
  deriving DecidableEq, Repr

/-- A put-status message: the code of the put that names this pan, and the bytes of it performed before
(R376, R383). -/
structure PutStatusMsg where
  ref : PanRef
  ec : BitVec 4
  done : Nat
  deriving DecidableEq, Repr

/-- What a synchronising instruction asks of the barrier unit (R265, R275, R276). -/
inductive SyncKind where
  | gbar
  | gred (op : GredOp) (rm : Rm)
  deriving DecidableEq, Repr

/-- Another member's arrival at the gang barrier: its gang index, what it arrives with, its operand and its
LTIME; kind none is the arrival of a tend (R265, R272). -/
structure Arrival where
  gidx : BitVec 10
  kind : Option SyncKind
  operand : Word
  ltime : BitVec 16
  deriving DecidableEq, Repr

/-- What the lane allocator chose for the request it grants (R263): the cores, the ways on each that the modelled core
takes when it is one of them, and the GANGID. -/
structure GrantChoice where
  cores : List (BitVec 9)
  ways : BitVec 8
  gangid : BitVec 20
  deriving DecidableEq, Repr

/-- Lane groups of a Poerius port (R380). -/
inductive LaneGroup where
  | all | low8 | high8 | quarter (q : BitVec 2)
  deriving DecidableEq, Repr

/-- A peer package's answer to a read (R352): bytes, a refusal, or poison. -/
inductive PeerReply where
  | data (bs : List Byte)
  | refused
  | poison
  deriving DecidableEq, Repr

/-- A read or an atomic that another package asks for (R220, R352). -/
structure PeerAsk where
  size : Nat
  op : Option PeerAtomic
  deriving DecidableEq, Repr

/-- The bytes of another package's write, and whether they are poisoned (R352, R359). -/
structure PeerBytes where
  bytes : List Byte
  poison : Bool
  deriving DecidableEq, Repr

/-- Whose answer arrives, about which DPA of that package (R352). -/
structure PeerPlace where
  src : BitVec 12
  dpa : Nat
  deriving DecidableEq, Repr

/-- A peer write that was dropped: its DPA, and the context and cookie of the task that made it (R345, R352). -/
structure PeerNotice where
  dpa : Addr
  ctx : BitVec 8
  cookie : Word
  deriving DecidableEq, Repr

/-- What a flit carries, by TYPE (R376). The byte layout of most payloads is not given, so a payload is a value of
its own beside the bytes. -/
inductive Payload where
  | idle
  | putFirst (p : PutFlit)
  | putContinuation (p : PutFlit)
  | reservationRequest (r : Reservation)
  | reservationAnswer (core : BitVec 9) (v : Word)
  | putStatus (p : PutStatusMsg)
  | peerRead (dpa size : Nat) (op : Option PeerAtomic)
  | peerReply (dpa : Nat) (answer : PeerReply)
  | peerWrite (dpa : Nat) (data : List Byte) (poison : Bool)
  | reserved
  deriving DecidableEq, Repr

/-- A 256-byte flit as it arrives: header words 0 and 1, the 240 payload bytes, and what they say (R376). refused names the
flits among those that its ACK covers which the far end has performed as refused: no field of the flit says so, and until the
put-status comes only the far end knows it (R383). -/
structure Flit where
  w0 : Word
  w1 : Word
  body : List Byte
  payload : Payload
  refused : List (BitVec 12)
  deriving DecidableEq, Repr

/-- One constructor per row of the opcode table: the 259 encoded instructions (R34 to R37), then the 90
events of the package that the table lists as indivisible steps. An event's arguments are what the outside
of the modelled core supplies. The comment of each constructor names its rule. The order is: encoded instructions
with operands in the table's order, the seven mts rows of their own and hint (Lean's compiler can build no constructor with
fields beyond the 244th, so what the decoder builds comes first), events with arguments, then those without. -/
inductive Instr where
  | add (d : GReg) (a : GReg) (b : GReg) -- R82
  | sub (d : GReg) (a : GReg) (b : GReg) -- R82
  | addw (d : GReg) (a : GReg) (b : GReg) -- R82
  | subw (d : GReg) (a : GReg) (b : GReg) -- R82
  | and_ (d : GReg) (a : GReg) (b : GReg) -- R82
  | or_ (d : GReg) (a : GReg) (b : GReg) -- R82
  | xor_ (d : GReg) (a : GReg) (b : GReg) -- R82
  | andn (d : GReg) (a : GReg) (b : GReg) -- R82
  | orn (d : GReg) (a : GReg) (b : GReg) -- R82
  | sll (d : GReg) (a : GReg) (b : GReg) -- R82
  | srl (d : GReg) (a : GReg) (b : GReg) -- R82
  | sra (d : GReg) (a : GReg) (b : GReg) -- R82
  | rol (d : GReg) (a : GReg) (b : GReg) -- R82
  | ror (d : GReg) (a : GReg) (b : GReg) -- R82
  | slt (d : GReg) (a : GReg) (b : GReg) -- R82
  | sltu (d : GReg) (a : GReg) (b : GReg) -- R82
  | min_ (d : GReg) (a : GReg) (b : GReg) -- R82
  | max_ (d : GReg) (a : GReg) (b : GReg) -- R82
  | minu (d : GReg) (a : GReg) (b : GReg) -- R82
  | maxu (d : GReg) (a : GReg) (b : GReg) -- R82
  | clz (d : GReg) (a : GReg) -- R82
  | ctz (d : GReg) (a : GReg) -- R82
  | popc (d : GReg) (a : GReg) -- R82
  | sextB (d : GReg) (a : GReg) -- R82
  | sextH (d : GReg) (a : GReg) -- R82
  | sextW (d : GReg) (a : GReg) -- R82
  | zextB (d : GReg) (a : GReg) -- R82
  | zextH (d : GReg) (a : GReg) -- R82
  | zextW (d : GReg) (a : GReg) -- R82
  | addi (d : GReg) (a : GReg) (imm : BitVec 16) -- R83
  | andi (d : GReg) (a : GReg) (imm : BitVec 16) -- R83
  | ori (d : GReg) (a : GReg) (imm : BitVec 16) -- R83
  | xori (d : GReg) (a : GReg) (imm : BitVec 16) -- R83
  | slti (d : GReg) (a : GReg) (imm : BitVec 16) -- R83
  | sltiu (d : GReg) (a : GReg) (imm : BitVec 16) -- R83
  | slli (d : GReg) (a : GReg) (n : BitVec 6) -- R84
  | srli (d : GReg) (a : GReg) (n : BitVec 6) -- R84
  | srai (d : GReg) (a : GReg) (n : BitVec 6) -- R84
  | rori (d : GReg) (a : GReg) (n : BitVec 6) -- R84
  | ldhi (d : GReg) (imm : BitVec 21) -- R85
  | pcrel (d : GReg) (imm : BitVec 21) -- R85
  | mul (d : GReg) (a : GReg) (b : GReg) -- R86
  | mulh (d : GReg) (a : GReg) (b : GReg) -- R86
  | mulhu (d : GReg) (a : GReg) (b : GReg) -- R86
  | mulhsu (d : GReg) (a : GReg) (b : GReg) -- R86
  | mulw (d : GReg) (a : GReg) (b : GReg) -- R86
  | div (d : GReg) (a : GReg) (b : GReg) -- R87
  | divu (d : GReg) (a : GReg) (b : GReg) -- R87
  | rem (d : GReg) (a : GReg) (b : GReg) -- R87
  | remu (d : GReg) (a : GReg) (b : GReg) -- R87
  | fadd (f : FFmt) (d : GReg) (a : GReg) (b : GReg) (rm : Rm) -- R90
  | fsub (f : FFmt) (d : GReg) (a : GReg) (b : GReg) (rm : Rm) -- R90
  | fmul (f : FFmt) (d : GReg) (a : GReg) (b : GReg) (rm : Rm) -- R90
  | fdiv (f : FFmt) (d : GReg) (a : GReg) (b : GReg) (rm : Rm) -- R90
  | fsqrt (f : FFmt) (d : GReg) (a : GReg) (rm : Rm) -- R90
  | fma (f : FFmt) (d : GReg) (a : GReg) (b : GReg) (rm : Rm) -- R90
  | fmin (f : FFmt) (d : GReg) (a : GReg) (b : GReg) -- R90
  | fmax (f : FFmt) (d : GReg) (a : GReg) (b : GReg) -- R90
  | feq (f : FFmt) (d : GReg) (a : GReg) (b : GReg) -- R90
  | flt (f : FFmt) (d : GReg) (a : GReg) (b : GReg) -- R90
  | fle (f : FFmt) (d : GReg) (a : GReg) (b : GReg) -- R90
  | fclass (f : FFmt) (d : GReg) (a : GReg) -- R91
  | fcvtIf (f : FFmt) (d : GReg) (a : GReg) (k : IntKind) (rm : Rm) -- R92
  | fcvtFi (f : FFmt) (d : GReg) (a : GReg) (k : IntKind) (rm : Rm) -- R92
  | fcvtFf (f : FFmt) (d : GReg) (a : GReg) (src : FFmt) (rm : Rm) -- R92
  | ldb (d : GReg) (a : GReg) (imm : BitVec 16) -- R214
  | ldh (d : GReg) (a : GReg) (imm : BitVec 16) -- R214
  | ldw (d : GReg) (a : GReg) (imm : BitVec 16) -- R214
  | ldd (d : GReg) (a : GReg) (imm : BitVec 16) -- R214
  | ldbu (d : GReg) (a : GReg) (imm : BitVec 16) -- R214
  | ldhu (d : GReg) (a : GReg) (imm : BitVec 16) -- R214
  | ldwu (d : GReg) (a : GReg) (imm : BitVec 16) -- R214
  | stb (y : GReg) (a : GReg) (imm : BitVec 16) -- R214
  | sth (y : GReg) (a : GReg) (imm : BitVec 16) -- R214
  | stw (y : GReg) (a : GReg) (imm : BitVec 16) -- R214
  | std (y : GReg) (a : GReg) (imm : BitVec 16) -- R214
  | beq (y : GReg) (a : GReg) (imm : BitVec 16) -- R267
  | bne (y : GReg) (a : GReg) (imm : BitVec 16) -- R267
  | blt (y : GReg) (a : GReg) (imm : BitVec 16) -- R267
  | bge (y : GReg) (a : GReg) (imm : BitVec 16) -- R267
  | bltu (y : GReg) (a : GReg) (imm : BitVec 16) -- R267
  | bgeu (y : GReg) (a : GReg) (imm : BitVec 16) -- R267
  | jal (d : GReg) (imm : BitVec 21) -- R268
  | jalr (d : GReg) (a : GReg) (imm : BitVec 16) -- R268
  | ald (d : GReg) (a : GReg) (ord : MemOrd) (sc : Scope) (w4 : Bool) -- R219
  | ast (a : GReg) (b : GReg) (ord : MemOrd) (sc : Scope) (w4 : Bool) -- R219
  | amoadd (d : GReg) (a : GReg) (b : GReg) (ord : MemOrd) (sc : Scope) (w4 : Bool) -- R218
  | amoswap (d : GReg) (a : GReg) (b : GReg) (ord : MemOrd) (sc : Scope) (w4 : Bool) -- R218
  | amoand (d : GReg) (a : GReg) (b : GReg) (ord : MemOrd) (sc : Scope) (w4 : Bool) -- R218
  | amoor (d : GReg) (a : GReg) (b : GReg) (ord : MemOrd) (sc : Scope) (w4 : Bool) -- R218
  | amoxor (d : GReg) (a : GReg) (b : GReg) (ord : MemOrd) (sc : Scope) (w4 : Bool) -- R218
  | amomin (d : GReg) (a : GReg) (b : GReg) (ord : MemOrd) (sc : Scope) (w4 : Bool) -- R218
  | amomax (d : GReg) (a : GReg) (b : GReg) (ord : MemOrd) (sc : Scope) (w4 : Bool) -- R218
  | amominu (d : GReg) (a : GReg) (b : GReg) (ord : MemOrd) (sc : Scope) (w4 : Bool) -- R218
  | amomaxu (d : GReg) (a : GReg) (b : GReg) (ord : MemOrd) (sc : Scope) (w4 : Bool) -- R218
  | cas (d : GReg) (a : GReg) (b : GReg) (ord : MemOrd) (sc : Scope) (w4 : Bool) -- R218
  | fence (sc : Scope) (ord : MemOrd) -- R222
  | gred (d : GReg) (a : GReg) (op : GredOp) (rm : Rm) -- R276
  | mfs (d : GReg) (r : SysReg) -- R314
  | mts (r : SysReg) (a : GReg) -- R314
  | svc (imm : BitVec 12) -- R315
  | brk (imm : BitVec 12) -- R315
  | idle (a : GReg) -- R316
  | tlbiVa (d : GReg) (a : GReg) (pkg : Bool) -- R318
  | tlbiCtx (d : GReg) (pkg : Bool) -- R318
  | tlbiAll (pkg : Bool) -- R318
  | spawn (d : GReg) (a : GReg) -- R273
  | qput (d : GReg) (a : GReg) -- R273
  | join (d : GReg) (a : GReg) -- R274
  | gmode (m : BitVec 21) -- R46
  | vsetl (d : GReg) (a : GReg) -- R94
  | wconvArray (d : GReg) (a : GReg) -- R180
  | wconvBench (d : GReg) (a : GReg) -- R180
  | wrel (d : GReg) (a : GReg) -- R181
  | vadd (d : VReg) (a : VReg) (y : VSrc) -- R111
  | vsub (d : VReg) (a : VReg) (y : VSrc) -- R111
  | vrsub (d : VReg) (a : VReg) (y : VSrc) -- R111
  | vmul (d : VReg) (a : VReg) (y : VSrc) -- R111
  | vmulh (d : VReg) (a : VReg) (y : VSrc) -- R111
  | vmacc (d : VReg) (a : VReg) (y : VSrc) -- R111
  | vnmsac (d : VReg) (a : VReg) (y : VSrc) -- R111
  | vdiv (d : VReg) (a : VReg) (y : VSrc) -- R114
  | vdivu (d : VReg) (a : VReg) (y : VSrc) -- R114
  | vrem (d : VReg) (a : VReg) (y : VSrc) -- R114
  | vmin (d : VReg) (a : VReg) (y : VSrc) -- R111
  | vmax (d : VReg) (a : VReg) (y : VSrc) -- R111
  | vminu (d : VReg) (a : VReg) (y : VSrc) -- R111
  | vmaxu (d : VReg) (a : VReg) (y : VSrc) -- R111
  | vand (d : VReg) (a : VReg) (y : VSrc) -- R111
  | vor (d : VReg) (a : VReg) (y : VSrc) -- R111
  | vxor (d : VReg) (a : VReg) (y : VSrc) -- R111
  | vandn (d : VReg) (a : VReg) (y : VSrc) -- R111
  | vsll (d : VReg) (a : VReg) (y : VSrc) -- R115
  | vsrl (d : VReg) (a : VReg) (y : VSrc) -- R115
  | vsra (d : VReg) (a : VReg) (y : VSrc) -- R115
  | vabs (d : VReg) (a : VReg) -- R111
  | vabsd (d : VReg) (a : VReg) (y : VSrc) -- R111
  | vmerge (d : VReg) (a : VReg) (y : VSrc) -- R117
  | vmv (d : VReg) (a : VReg) (y : VSrc) -- R117
  | vid (d : VReg) -- R117
  | vclip (d : VReg) (a : VReg) (y : VSrc) -- R116
  | vfadd (d : VReg) (a : VReg) (y : VSrc) -- R119
  | vfsub (d : VReg) (a : VReg) (y : VSrc) -- R119
  | vfmul (d : VReg) (a : VReg) (y : VSrc) -- R119
  | vfma (d : VReg) (a : VReg) (y : VSrc) -- R119
  | vfnma (d : VReg) (a : VReg) (y : VSrc) -- R119
  | vfdiv (d : VReg) (a : VReg) (y : VSrc) -- R119
  | vfsqrt (d : VReg) (a : VReg) -- R119
  | vfmin (d : VReg) (a : VReg) (y : VSrc) -- R119
  | vfmax (d : VReg) (a : VReg) (y : VSrc) -- R119
  | vfsgn (d : VReg) (a : VReg) (b : VReg) -- R121
  | vfsgnN (d : VReg) (a : VReg) (b : VReg) -- R121
  | vfsgnX (d : VReg) (a : VReg) (b : VReg) -- R121
  | vfexp2 (d : VReg) (a : VReg) -- R120
  | vflog2 (d : VReg) (a : VReg) -- R120
  | vfrecip (d : VReg) (a : VReg) -- R120
  | vfrsqrt (d : VReg) (a : VReg) -- R120
  | vcvt (d : VReg) (a : VReg) (t : ElemType) -- R122
  | vcmpeq (p : PReg) (a : VReg) (y : VSrc) -- R124
  | vcmpne (p : PReg) (a : VReg) (y : VSrc) -- R124
  | vcmplt (p : PReg) (a : VReg) (y : VSrc) -- R124
  | vcmple (p : PReg) (a : VReg) (y : VSrc) -- R124
  | vcmpltu (p : PReg) (a : VReg) (y : VSrc) -- R124
  | vcmpleu (p : PReg) (a : VReg) (y : VSrc) -- R124
  | vfcmpeq (p : PReg) (a : VReg) (y : VSrc) -- R124
  | vfcmplt (p : PReg) (a : VReg) (y : VSrc) -- R124
  | vfcmple (p : PReg) (a : VReg) (y : VSrc) -- R124
  | vfcmpun (p : PReg) (a : VReg) (y : VSrc) -- R124
  | pand (d : PReg) (a : PReg) (b : PReg) -- R127
  | por (d : PReg) (a : PReg) (b : PReg) -- R127
  | pxor (d : PReg) (a : PReg) (b : PReg) -- R127
  | pandn (d : PReg) (a : PReg) (b : PReg) -- R127
  | pmov (d : PReg) (a : PReg) -- R127
  | psbf (d : PReg) (a : PReg) (b : PReg) -- R127
  | psif (d : PReg) (a : PReg) (b : PReg) -- R127
  | pfirst (d : PReg) (a : PReg) (b : PReg) -- R127
  | pcount (d : GReg) (a : PReg) -- R127
  | pset (d : PReg) (a : GReg) -- R127
  | vloop (d : PReg) (a : VReg) (off : BitVec 9) -- R128
  | vredsum (g : GReg) (a : VReg) -- R133
  | vredosum (g : GReg) (a : VReg) -- R137
  | vredmin (g : GReg) (a : VReg) -- R133
  | vredmax (g : GReg) (a : VReg) -- R133
  | vredbitAnd (g : GReg) (a : VReg) -- R133
  | vredbitOr (g : GReg) (a : VReg) -- R133
  | vredbitXor (g : GReg) (a : VReg) -- R133
  | vscan (d : VReg) (a : VReg) -- R136
  | vslideup (d : VReg) (a : VReg) (y : VSrc) -- R138
  | vslidedn (d : VReg) (a : VReg) (y : VSrc) -- R138
  | vslide1up (d : VReg) (a : VReg) (g : GReg) -- R138
  | vslide1dn (d : VReg) (a : VReg) (g : GReg) -- R138
  | vpick (d : VReg) (a : VReg) (b : VReg) -- R138
  | vsqueeze (d : VReg) (a : VReg) (g : GReg) -- R138
  | vbcast (d : VReg) (a : VReg) (y : VSrc) -- R138
  | vextr (g : GReg) (a : VReg) -- R138
  | vinsr (d : VReg) (g : GReg) -- R138
  | vld (x : VReg) (a : GReg) -- R226
  | vlds (x : VReg) (a : GReg) (b : GReg) -- R226
  | vldx (x : VReg) (a : GReg) (b : VReg) -- R226
  | vldff (d : GReg) (x : VReg) (a : GReg) -- R228
  | vst (x : VReg) (a : GReg) -- R226
  | vsts (x : VReg) (a : GReg) (b : GReg) -- R226
  | vstx (x : VReg) (a : GReg) (b : VReg) -- R226
  | pcopy (d : GReg) (a : GReg) (b : GReg) -- R240
  | pcopyX (d : GReg) (a : GReg) (b : GReg) (x : VReg) -- R240
  | ownE (a : GReg) (b : GReg) -- R241
  | ownH (d : GReg) (a : GReg) (b : GReg) -- R241
  | tbi (a : GReg) (b : GReg) -- R242
  | tbarr (a : GReg) -- R242
  | tbwait (d : GReg) (a : GReg) (b : GReg) -- R243
  | tbtest (d : GReg) (a : GReg) -- R243
  | rkdef (d : GReg) (a : GReg) (b : GReg) -- R244
  | prsv (d : GReg) (a : GReg) (b : GReg) -- R247
  | prel (d : GReg) (a : GReg) -- R250
  | pstat (d : GReg) (a : GReg) -- R245
  | bput (d : GReg) (a : GReg) (b : GReg) -- R248
  | bputF (d : GReg) (a : GReg) (b : GReg) -- R248
  | vput (d : GReg) (x : VReg) (b : GReg) -- R248
  | vputF (d : GReg) (x : VReg) (b : GReg) -- R248
  | rrot (d : GReg) (a : GReg) (b : GReg) -- R251
  | fcfg (a : GReg) -- R142
  | mmo (a : VReg) (b : VReg) (xb : Bool) -- R156
  | mmoSp (a : VReg) (b : VReg) (v : VReg) (xb : Bool) -- R153
  | mmoSt (d : VReg) (a : GReg) (b : GReg) (v : VReg) (s24 : Bool) (xb : Bool) -- R157
  | fdrain (d : VReg) (c : VReg) -- R161
  | fdrainNcs (d : VReg) -- R161
  | fdrainZ (d : VReg) (c : VReg) -- R161
  | fdrainZNcs (d : VReg) -- R161
  | frowadd (a : VReg) -- R162
  | frowaddC (a : VReg) -- R162
  | fsave (a : GReg) -- R163
  | fload (a : GReg) -- R163
  | hopen (d : GReg) -- R330
  | henter (d : GReg) (a : GReg) -- R331
  | hleave (d : GReg) -- R331
  | hresConfirm (d : GReg) (a : GReg) -- R332
  | hresRefute (d : GReg) (a : GReg) -- R335
  | hstat (d : GReg) (a : GReg) -- R336
  | cflush (a : GReg) -- R184
  | cclean (a : GReg) -- R184
  | cinv (a : GReg) -- R184
  | lock (d : GReg) (a : GReg) -- R185
  | unlock (d : GReg) (a : GReg) -- R185
  | bclr (a : GReg) (b : GReg) -- R186
  | mtsMode (a : GReg) -- R46
  | mtsVl (a : GReg) -- R95
  | mtsVstart (a : GReg) -- R95
  | mtsFcr (a : GReg) -- R142
  | mtsLtime (a : GReg) -- R201
  | mtsBenchchk (a : GReg) -- R175
  | mtsChkctl (a : GReg) -- R374
  | hint (h : BitVec 26) -- R39
  | illegalInstruction (w : IWord) -- R38
  | lineFill (line : Nat) -- R169
  | ownerRecall (line : Nat) -- R169
  | homeRead (who : Requester) (line : Nat) -- R203
  | homeAcquireRead (who : Requester) (line : Nat) -- R203
  | homeOwnership (who : Requester) (line : Nat) -- R203
  | homeAtomic (who : Requester) (dpa : Nat) (op : AmoOp) (w4 : Bool) (v : Word) (cmp : Word) -- R219
  | homeWriteBack (who : Requester) (line : Nat) (data : Option LineImage) -- R203
  | sliceRaceSweep (line : Nat) -- R200
  | hbmScrub (block : Nat) -- R358
  | peelElement (k : Nat) (m : PeelMove) -- R210, R240, R251
  | reservationRequest (r : Reservation) -- R246
  | reservationAnswer (v : Word) -- R247
  | putFirstFlit (p : PutFlit) -- R248
  | putContinuationFlit (p : PutFlit) -- R248
  | putStatus (p : PutStatusMsg) -- R383
  | barrierArrival (m : Arrival) -- R275
  | queuePop (disp : Nat) -- R278
  | agingTick (req : Nat) -- R279
  | laneGrant (c : GrantChoice) -- R280
  | resume (ways : BitVec 8) -- R285
  | hypothesisFree (id : BitVec 12) -- R321
  | ringRecordWrite (ring : Nat) -- R344
  | qtailWrite (q : BitVec 12) (v : Word) -- R343
  | fansReplay (fid : BitVec 32) -- R344
  | fansUnresolved (fid : BitVec 32) -- R344
  | ctxkill (v : Word) -- R346
  | biasToHost (page : Nat) -- R350
  | biasToDevice (page : Nat) -- R350
  | hostCxlMemRequest (dpa : Nat) (data : Option (List Byte)) -- R349
  | hostSnoop (line : Nat) (data : Option (BitVec 512)) -- R342
  | hostRegisterWrite (off : Nat) (v : Word) -- R340
  | attestationRequest (nonce : BitVec 256) -- R395
  | peerRead (src : BitVec 12) (dpa : Nat) (ask : PeerAsk) -- R220, R352
  | peerWrite (src : BitVec 12) (dpa : Nat) (data : PeerBytes) -- R352
  | peerReadReply (place : PeerPlace) (answer : PeerReply) -- R352
  | flitReceive (port : Port) (f : Flit) -- R377
  | nkResendTimeout (port : Port) -- R377
  | replayTimeout (port : Port) -- R379
  | ackIdleFlit (port : Port) -- R378
  | laneFail (port : Port) (lane : BitVec 4) -- R380
  | retrainSuccess (port : Port) -- R380
  | linkLost (port : Port) -- R381
  | newSession (port : Port) (g : LaneGroup) -- R382
  | selch (v : BitVec 16) -- R385
  | wrch (image : List Byte) -- R385
  | halt (core : BitVec 9) -- R391
  | go (core : BitVec 9) -- R391
  | armbrk (core : BitVec 9) (arm : Bool) -- R385
  | rstcore (core : BitVec 9) -- R392
  | rstport (port : Port) -- R392
  | dbgauth (verified : Bool) -- R386
  | coreReset (core : BitVec 9) -- R392
  | coreResetComplete (core : BitVec 9) -- R393
  | corePowerGate (core : BitVec 9) -- R396
  | panDiscardNotice (r : PanRef) -- R370
  | peerWriteRefusal (n : PeerNotice) -- R345, R352
  | gbar -- R275
  | eret -- R315
  | ifence -- R317
  | tend -- R272
  | fzero -- R160
  | fzeroC -- R160
  | frc -- R160
  | faultRecordPost -- R306
  | storeDepart -- R215
  | horizonBroadcast -- R206
  | coreRaceSweep -- R200
  | idleWake -- R316
  | idleTimeout -- R316
  | kneaderSlot -- R98
  | arrayDataErrorTrap -- R361
  | frameKstep -- R156
  | peelOpStart -- R231
  | tbwaitAnswer -- R243
  | barrierRelease -- R265
  | preemption -- R282
  | gangSaved -- R282
  | orphanTrap -- R335
  | hartStateError -- R365
  | rollbackComplete -- R367
  | biasFlipComplete -- R350
  | frz -- R387
  | freezeComplete -- R387
  | adapterHoldTimeout -- R387
  | frzh -- R388
  | thaw -- R389
  | rdch -- R385
  | rstpkg -- R392
  | stat -- R385
  | bypass -- R385
  | packageReset -- R392
  | thermalWarning -- R396
  | thermalLimit -- R396
  | powerLimit -- R396
  | thermalResetTimer -- R396
  | rodTreeComplete -- R133
  deriving DecidableEq, Repr

end Sys2Proof
end

