-- ==== Sys2Proof/Decode.lean ====
section
/-! DEFINITION. Decode.lean: the decoder, total on every 32-bit word and rejecting by name (02:R34 to R38),
then the encoder written from the same encoding tables. -/

namespace Sys2Proof

/-- Why a word is no instruction (R36, R38). -/
inductive DecodeError where
  | illegalOpcode
  | unassignedFunction
  | reservedField
  | illegalKind
  deriving DecidableEq, Repr

/-- The registers whose mts has a row of its own in the opcode table (R46, R95, R142, R175, R201, R374). -/
inductive MtsRow where
  | mode | vl | vstart | fcr | ltime | benchchk | chkctl
  deriving DecidableEq, Repr

/-- What the decoder finds: an instruction, or an mts of a row of its own or a hint, kept apart only because Lean's
compiled code can build at most 244 constructors with fields. decode below joins the two. -/
inductive Op where
  | instr (i : Instr)
  | hint (h : BitVec 26)
  | mtsRow (r : MtsRow) (a : GReg)
  deriving DecidableEq, Repr

abbrev Decoded := Except DecodeError Op

/-- A word that is the instruction i. -/
abbrev found (i : Instr) : Decoded := .ok (.instr i)

/-! ### Field readers (R34). -/
def opF (w : IWord) : BitVec 6 := w.extractLsb' 26 6
def dF (w : IWord) : BitVec 5 := w.extractLsb' 21 5
def aF (w : IWord) : BitVec 5 := w.extractLsb' 16 5
def bF (w : IWord) : BitVec 5 := w.extractLsb' 11 5
def fnF (w : IWord) : BitVec 11 := w.extractLsb' 0 11
def imm16F (w : IWord) : BitVec 16 := w.extractLsb' 0 16
def imm21F (w : IWord) : BitVec 21 := w.extractLsb' 0 21
def hintF (w : IWord) : BitVec 26 := w.extractLsb' 0 26
def vdF (w : IWord) : BitVec 4 := w.extractLsb' 22 4
def vaF (w : IWord) : BitVec 4 := w.extractLsb' 18 4
def vbF (w : IWord) : BitVec 4 := w.extractLsb' 14 4
def gsF (w : IWord) : BitVec 5 := w.extractLsb' 9 5
def vkindF (w : IWord) : BitVec 2 := w.extractLsb' 7 2
def vfnF (w : IWord) : BitVec 7 := w.extractLsb' 0 7
def pvaF (w : IWord) : BitVec 4 := w.extractLsb' 17 4
def pvbF (w : IWord) : BitVec 4 := w.extractLsb' 13 4
def pgsF (w : IWord) : BitVec 5 := w.extractLsb' 8 5
def pkindF (w : IWord) : BitVec 2 := w.extractLsb' 6 2
def pfnF (w : IWord) : BitVec 6 := w.extractLsb' 0 6
def pfn8F (w : IWord) : BitVec 8 := w.extractLsb' 0 8
def vxF (w : IWord) : BitVec 4 := w.extractLsb' 7 4
def off9F (w : IWord) : BitVec 9 := w.extractLsb' 8 9
def bitF (w : IWord) (i : Nat) : Bool := w.getLsbD i
/-- Bits [hi:lo] of the word as a number, for fields read once. -/
def bitsF (w : IWord) (hi lo : Nat) : Nat := (w.extractLsb' lo (hi + 1 - lo)).toNat

/-! ### Field values (R47, R49, R88, R92, R217, R222, R276). -/
def FFmt.ofBits : BitVec 2 → FFmt
  | 0#2 => .bf16 | 1#2 => .fp16 | 2#2 => .fp32 | 3#2 => .fp64
def FFmt.bits : FFmt → BitVec 2
  | .bf16 => 0#2 | .fp16 => 1#2 | .fp32 => 2#2 | .fp64 => 3#2
def IntKind.ofBits : BitVec 2 → IntKind
  | 0#2 => .i64 | 1#2 => .u64 | 2#2 => .i32 | 3#2 => .u32
def IntKind.bits : IntKind → BitVec 2
  | .i64 => 0#2 | .u64 => 1#2 | .i32 => 2#2 | .u32 => 3#2
/-- Rounding mode field values; 6 and 7 are reserved (R47, R88). -/
def Rm.ofBits : BitVec 3 → Option Rm
  | 0#3 => some .rne | 1#3 => some .rtz | 2#3 => some .rdn | 3#3 => some .rup
  | 4#3 => some .rna | 5#3 => some .rsr | 6#3 => none | 7#3 => none
def Rm.bits : Rm → BitVec 3
  | .rne => 0#3 | .rtz => 1#3 | .rdn => 2#3 | .rup => 3#3 | .rna => 4#3 | .rsr => 5#3
def MemOrd.ofBits : BitVec 2 → MemOrd
  | 0#2 => .rlx | 1#2 => .acq | 2#2 => .rel | 3#2 => .ar
def MemOrd.bits : MemOrd → BitVec 2
  | .rlx => 0#2 | .acq => 1#2 | .rel => 2#2 | .ar => 3#2
def Scope.ofBits : BitVec 2 → Scope
  | 0#2 => .core | 1#2 => .gang | 2#2 => .pkg | 3#2 => .sys
def Scope.bits : Scope → BitVec 2
  | .core => 0#2 | .gang => 1#2 | .pkg => 2#2 | .sys => 3#2
/-- ET values (R49). -/
def ElemType.ofBits (b : BitVec 4) : ElemType :=
  match b.toNat with
  | 0 => .i8
  | 1 => .u8
  | 2 => .i16
  | 3 => .u16
  | 4 => .i32
  | 5 => .u32
  | 6 => .i64
  | 7 => .u64
  | 8 => .e4m3
  | 9 => .e5m2
  | 10 => .e2m1
  | 11 => .bf16
  | 12 => .fp16
  | 13 => .fp32
  | 14 => .fp64
  | _ => .e8m0
def ElemType.bits : ElemType → BitVec 4
  | .i8 => 0#4 | .u8 => 1#4 | .i16 => 2#4 | .u16 => 3#4 | .i32 => 4#4 | .u32 => 5#4 | .i64 => 6#4 | .u64 => 7#4
  | .e4m3 => 8#4 | .e5m2 => 9#4 | .e2m1 => 10#4 | .bf16 => 11#4 | .fp16 => 12#4 | .fp32 => 13#4 | .fp64 => 14#4
  | .e8m0 => 15#4
/-- OP of a gred; 9 to 15 are illegal (R276). -/
def GredOp.ofBits : BitVec 4 → Option GredOp
  | 0#4 => some .add | 1#4 => some .and | 2#4 => some .or | 3#4 => some .xor | 4#4 => some .min | 5#4 => some .max
  | 6#4 => some .minu | 7#4 => some .maxu | 8#4 => some .faddD | _ => none
def GredOp.bits : GredOp → BitVec 4
  | .add => 0#4 | .and => 1#4 | .or => 2#4 | .xor => 3#4 | .min => 4#4 | .max => 5#4 | .minu => 6#4 | .maxu => 7#4
  | .faddD => 8#4

/-- System register numbers (R312). -/
def SysReg.number : SysReg → BitVec 12
  | .hartid => 0x000#12
  | .gangid => 0x001#12
  | .gidx => 0x002#12
  | .gsize => 0x003#12
  | .taskrec => 0x004#12
  | .ctxid => 0x005#12
  | .prio => 0x006#12
  | .cycle => 0x010#12
  | .instret => 0x011#12
  | .mode => 0x100#12
  | .vl => 0x101#12
  | .vstart => 0x102#12
  | .vlmax => 0x103#12
  | .vlceil => 0x104#12
  | .lanes => 0x105#12
  | .rds => 0x106#12
  | .vfsr => 0x107#12
  | .vdirty => 0x108#12
  | .pdirty => 0x109#12
  | .srseed => 0x10A#12
  | .srcount => 0x10B#12
  | .fcr => 0x120#12
  | .fsr => 0x121#12
  | .ltime => 0x200#12
  | .lease => 0x201#12
  | .syncst => 0x202#12
  | .hyp => 0x203#12
  | .hypdepth => 0x204#12
  | .lockq => 0x205#12
  | .lockuse => 0x206#12
  | .benchchk => 0x207#12
  | .waymode => 0x208#12
  | .trapcause => 0x300#12
  | .trappc => 0x301#12
  | .trapval => 0x302#12
  | .trapvec => 0x303#12
  | .status => 0x304#12
  | .ptroot => 0x305#12
  | .csaptr => 0x306#12
  | .savepc => 0x307#12
  | .errstat => 0x400#12
  | .erraddr => 0x401#12
  | .chkctl => 0x402#12
  | .rbcount => 0x403#12

/-- The register a number names; every other number is unassigned (R312). -/
def SysReg.ofNumber (n : BitVec 12) : Option SysReg :=
  match n.toNat with
  | 0x000 => some .hartid
  | 0x001 => some .gangid
  | 0x002 => some .gidx
  | 0x003 => some .gsize
  | 0x004 => some .taskrec
  | 0x005 => some .ctxid
  | 0x006 => some .prio
  | 0x010 => some .cycle
  | 0x011 => some .instret
  | 0x100 => some .mode
  | 0x101 => some .vl
  | 0x102 => some .vstart
  | 0x103 => some .vlmax
  | 0x104 => some .vlceil
  | 0x105 => some .lanes
  | 0x106 => some .rds
  | 0x107 => some .vfsr
  | 0x108 => some .vdirty
  | 0x109 => some .pdirty
  | 0x10A => some .srseed
  | 0x10B => some .srcount
  | 0x120 => some .fcr
  | 0x121 => some .fsr
  | 0x200 => some .ltime
  | 0x201 => some .lease
  | 0x202 => some .syncst
  | 0x203 => some .hyp
  | 0x204 => some .hypdepth
  | 0x205 => some .lockq
  | 0x206 => some .lockuse
  | 0x207 => some .benchchk
  | 0x208 => some .waymode
  | 0x300 => some .trapcause
  | 0x301 => some .trappc
  | 0x302 => some .trapval
  | 0x303 => some .trapvec
  | 0x304 => some .status
  | 0x305 => some .ptroot
  | 0x306 => some .csaptr
  | 0x307 => some .savepc
  | 0x400 => some .errstat
  | 0x401 => some .erraddr
  | 0x402 => some .chkctl
  | 0x403 => some .rbcount
  | _ => none

/-! ### Guards. -/
/-- The word is legal only if its unused field is zero (R36). -/
def whenZero (ok : Bool) (i : Instr) : Decoded := if ok then found i else .error .reservedField
/-- The word is legal only if its field has an assigned value (R38). -/
def whenAssigned (ok : Bool) (i : Instr) : Decoded := if ok then found i else .error .unassignedFunction

/-- The second operand of a V-form word by its kind (R35); vb is reserved in kinds 0b01 and 0b10 and gs in
kind 0b00. -/
def vsrcF (w : IWord) : Except DecodeError VSrc :=
  match vkindF w with
  | 0#2 => if gsF w = 0#5 then .ok (.vec (vbF w)) else .error .reservedField
  | 1#2 => if vbF w = 0#4 then .ok (.scal (gsF w)) else .error .reservedField
  | 2#2 => if vbF w = 0#4 then .ok (.imm (gsF w)) else .error .reservedField
  | 3#2 => .error .illegalKind

/-- The same for a compare, whose kind is fn8[7:6] (R124). -/
def pvsrcF (w : IWord) : Except DecodeError VSrc :=
  match pkindF w with
  | 0#2 => if pgsF w = 0#5 then .ok (.vec (pvbF w)) else .error .reservedField
  | 1#2 => if pvbF w = 0#4 then .ok (.scal (pgsF w)) else .error .reservedField
  | 2#2 => if pvbF w = 0#4 then .ok (.imm (pgsF w)) else .error .reservedField
  | 3#2 => .error .illegalKind

def VSrc.isVec : VSrc → Bool
  | .vec _ => true
  | _ => false
def VSrc.isImm : VSrc → Bool
  | .imm _ => true
  | _ => false

/-- Any kind (R111, R124). -/
def vAny (y : Except DecodeError VSrc) (f : VSrc → Instr) : Decoded :=
  match y with
  | .ok y => found (f y)
  | .error e => .error e
/-- Kinds 0b00 and 0b01 only (R118, R124). -/
def vNoImm (y : Except DecodeError VSrc) (f : VSrc → Instr) : Decoded :=
  match y with
  | .ok (.imm _) => .error .illegalKind
  | .ok y => found (f y)
  | .error e => .error e
/-- Kinds 0b01 and 0b10 only (R116, R131). -/
def vNoVec (y : Except DecodeError VSrc) (f : VSrc → Instr) : Decoded :=
  match y with
  | .ok (.vec _) => .error .illegalKind
  | .ok y => found (f y)
  | .error e => .error e
/-- vmv: kind 0b00 needs vb = 0, the other kinds va = 0 (R117). -/
def VSrc.vmvOk (va : VReg) : VSrc → Bool
  | .vec b => b = 0#4
  | .scal _ => va = 0#4
  | .imm _ => va = 0#4

/-! ### Opcode groups. -/
/-- Opcode 0x01, integer register-register (R82). -/
def decodeAlu (w : IWord) : Decoded :=
  match (fnF w).toNat with
  | 0x000 => found (.add (dF w) (aF w) (bF w))
  | 0x001 => found (.sub (dF w) (aF w) (bF w))
  | 0x002 => found (.addw (dF w) (aF w) (bF w))
  | 0x003 => found (.subw (dF w) (aF w) (bF w))
  | 0x004 => found (.and_ (dF w) (aF w) (bF w))
  | 0x005 => found (.or_ (dF w) (aF w) (bF w))
  | 0x006 => found (.xor_ (dF w) (aF w) (bF w))
  | 0x007 => found (.andn (dF w) (aF w) (bF w))
  | 0x008 => found (.orn (dF w) (aF w) (bF w))
  | 0x009 => found (.sll (dF w) (aF w) (bF w))
  | 0x00A => found (.srl (dF w) (aF w) (bF w))
  | 0x00B => found (.sra (dF w) (aF w) (bF w))
  | 0x00C => found (.rol (dF w) (aF w) (bF w))
  | 0x00D => found (.ror (dF w) (aF w) (bF w))
  | 0x00E => found (.slt (dF w) (aF w) (bF w))
  | 0x00F => found (.sltu (dF w) (aF w) (bF w))
  | 0x010 => found (.min_ (dF w) (aF w) (bF w))
  | 0x011 => found (.max_ (dF w) (aF w) (bF w))
  | 0x012 => found (.minu (dF w) (aF w) (bF w))
  | 0x013 => found (.maxu (dF w) (aF w) (bF w))
  | 0x020 => whenZero (bF w = 0#5) (.clz (dF w) (aF w))
  | 0x021 => whenZero (bF w = 0#5) (.ctz (dF w) (aF w))
  | 0x022 => whenZero (bF w = 0#5) (.popc (dF w) (aF w))
  | 0x023 => whenZero (bF w = 0#5) (.sextB (dF w) (aF w))
  | 0x024 => whenZero (bF w = 0#5) (.sextH (dF w) (aF w))
  | 0x025 => whenZero (bF w = 0#5) (.sextW (dF w) (aF w))
  | 0x026 => whenZero (bF w = 0#5) (.zextB (dF w) (aF w))
  | 0x027 => whenZero (bF w = 0#5) (.zextH (dF w) (aF w))
  | 0x028 => whenZero (bF w = 0#5) (.zextW (dF w) (aF w))
  | _ => .error .unassignedFunction

/-- Opcode 0x0B, multiply and divide (R86). -/
def decodeMulDiv (w : IWord) : Decoded :=
  match (fnF w).toNat with
  | 0x000 => found (.mul (dF w) (aF w) (bF w))
  | 0x001 => found (.mulh (dF w) (aF w) (bF w))
  | 0x002 => found (.mulhu (dF w) (aF w) (bF w))
  | 0x003 => found (.mulhsu (dF w) (aF w) (bF w))
  | 0x004 => found (.mulw (dF w) (aF w) (bF w))
  | 0x008 => found (.div (dF w) (aF w) (bF w))
  | 0x009 => found (.divu (dF w) (aF w) (bF w))
  | 0x00A => found (.rem (dF w) (aF w) (bF w))
  | 0x00B => found (.remu (dF w) (aF w) (bF w))
  | _ => .error .unassignedFunction

/-- Opcode 0x08, shift-immediate: imm16[15:12] is the kind, [11:6] reserved (R84). -/
def decodeShiftImm (w : IWord) : Decoded :=
  let n : BitVec 6 := w.extractLsb' 0 6
  let ok : Bool := bitsF w 11 6 = 0
  match bitsF w 15 12 with
  | 0 => whenZero ok (.slli (dF w) (aF w) n)
  | 1 => whenZero ok (.srli (dF w) (aF w) n)
  | 2 => whenZero ok (.srai (dF w) (aF w) n)
  | 3 => whenZero ok (.rori (dF w) (aF w) n)
  | _ => .error .unassignedFunction

/-- Opcode 0x0C, scalar float: FMT, FRM and FOP in fn (R88, R90, R92). -/
def decodeFloat (w : IWord) : Decoded :=
  let f := FFmt.ofBits (w.extractLsb' 9 2)
  let frm : BitVec 3 := w.extractLsb' 6 3
  let sel : BitVec 2 := w.extractLsb' 11 2
  let selOk : Bool := bitsF w 15 13 = 0
  match Rm.ofBits frm with
  | none => .error .unassignedFunction
  | some rm =>
    match bitsF w 5 0 with
    | 0x00 => found (.fadd f (dF w) (aF w) (bF w) rm)
    | 0x01 => found (.fsub f (dF w) (aF w) (bF w) rm)
    | 0x02 => found (.fmul f (dF w) (aF w) (bF w) rm)
    | 0x03 => found (.fdiv f (dF w) (aF w) (bF w) rm)
    | 0x05 => found (.fma f (dF w) (aF w) (bF w) rm)
    | 0x04 => whenZero (bF w = 0#5) (.fsqrt f (dF w) (aF w) rm)
    | 0x06 => whenZero (frm = 0#3) (.fmin f (dF w) (aF w) (bF w))
    | 0x07 => whenZero (frm = 0#3) (.fmax f (dF w) (aF w) (bF w))
    | 0x08 => whenZero (frm = 0#3) (.feq f (dF w) (aF w) (bF w))
    | 0x09 => whenZero (frm = 0#3) (.flt f (dF w) (aF w) (bF w))
    | 0x0A => whenZero (frm = 0#3) (.fle f (dF w) (aF w) (bF w))
    | 0x0B => whenZero (frm = 0#3 && bF w = 0#5) (.fclass f (dF w) (aF w))
    | 0x0C => whenZero selOk (.fcvtIf f (dF w) (aF w) (.ofBits sel) rm)
    | 0x0D => whenZero selOk (.fcvtFi f (dF w) (aF w) (.ofBits sel) rm)
    | 0x0E => whenZero selOk (.fcvtFf f (dF w) (aF w) (.ofBits sel) rm)
    | _ => .error .unassignedFunction

/-- Opcode 0x20, atomics (R217, R218). -/
def decodeAtomic (w : IWord) : Decoded :=
  let ord := MemOrd.ofBits (w.extractLsb' 9 2)
  let sc := Scope.ofBits (w.extractLsb' 7 2)
  let w4 := bitF w 5
  if bitF w 6 then .error .reservedField
  else match bitsF w 4 0 with
  | 0x00 => if bF w = 0#5 then whenAssigned (ord = .rlx || ord = .acq) (.ald (dF w) (aF w) ord sc w4) else .error .reservedField
  | 0x01 => if dF w = 0#5 then whenAssigned (ord = .rlx || ord = .rel) (.ast (aF w) (bF w) ord sc w4) else .error .reservedField
  | 0x02 => found (.amoadd (dF w) (aF w) (bF w) ord sc w4)
  | 0x03 => found (.amoswap (dF w) (aF w) (bF w) ord sc w4)
  | 0x04 => found (.amoand (dF w) (aF w) (bF w) ord sc w4)
  | 0x05 => found (.amoor (dF w) (aF w) (bF w) ord sc w4)
  | 0x06 => found (.amoxor (dF w) (aF w) (bF w) ord sc w4)
  | 0x07 => found (.amomin (dF w) (aF w) (bF w) ord sc w4)
  | 0x08 => found (.amomax (dF w) (aF w) (bF w) ord sc w4)
  | 0x09 => found (.amominu (dF w) (aF w) (bF w) ord sc w4)
  | 0x0A => found (.amomaxu (dF w) (aF w) (bF w) ord sc w4)
  | 0x0B => found (.cas (dF w) (aF w) (bF w) ord sc w4)
  | _ => .error .unassignedFunction

/-- Opcode 0x21: fence, gbar and gred by GRP in sel16[15:8] (R222, R270, R276). -/
def decodeSync (w : IWord) : Decoded :=
  let ord := MemOrd.ofBits (w.extractLsb' 0 2)
  let da0 : Bool := dF w = 0#5 && aF w = 0#5
  match bitsF w 15 8 with
  | 0x00 =>
    if da0 && bitsF w 7 4 = 0 then whenAssigned (ord != .rlx) (.fence (.ofBits (w.extractLsb' 2 2)) ord)
    else .error .reservedField
  | 0x01 => whenZero (da0 && bitsF w 7 0 = 0) .gbar
  | 0x02 =>
    if bitF w 7 then .error .reservedField
    else match GredOp.ofBits (w.extractLsb' 0 4), Rm.ofBits (w.extractLsb' 4 3) with
    | some op, some rm =>
      whenAssigned (if op = .faddD then rm != .rsr else rm = .rne) (.gred (dF w) (aF w) op rm)
    | _, _ => .error .unassignedFunction
  | _ => .error .unassignedFunction

/-- mts: the registers whose write has its own row, and the others (R314). -/
def mtsOf (r : SysReg) (a : GReg) : Op :=
  match r with
  | .mode => .mtsRow .mode a
  | .vl => .mtsRow .vl a
  | .vstart => .mtsRow .vstart a
  | .fcr => .mtsRow .fcr a
  | .ltime => .mtsRow .ltime a
  | .benchchk => .mtsRow .benchchk a
  | .chkctl => .mtsRow .chkctl a
  | r => .instr (.mts r a)

/-- Opcode 0x22, system instructions by FN in sel16[15:12] (R313, R318). -/
def decodeSystem (w : IWord) : Decoded :=
  let sel : BitVec 12 := w.extractLsb' 0 12
  let d0 : Bool := dF w = 0#5
  let a0 : Bool := aF w = 0#5
  match bitsF w 15 12 with
  | 0 => match SysReg.ofNumber sel with
    | some r => whenZero a0 (.mfs (dF w) r)
    | none => .error .unassignedFunction
  | 1 => match SysReg.ofNumber sel with
    | some r => if d0 then .ok (mtsOf r (aF w)) else .error .reservedField
    | none => .error .unassignedFunction
  | 2 => whenZero (d0 && a0) (.svc sel)
  | 3 => whenZero (d0 && a0) (.brk sel)
  | 4 => whenZero (d0 && a0 && sel = 0#12) .eret
  | 5 => whenZero (d0 && sel = 0#12) (.idle (aF w))
  | 6 => whenZero (d0 && a0 && sel = 0#12) .ifence
  | 7 =>
    if bitsF w 11 3 = 0 then
      match bitsF w 1 0 with
      | 0 => found (.tlbiVa (dF w) (aF w) (bitF w 2))
      | 1 => whenZero a0 (.tlbiCtx (dF w) (bitF w 2))
      | 2 => whenZero (d0 && a0) (.tlbiAll (bitF w 2))
      | _ => .error .unassignedFunction
    else .error .reservedField
  | _ => .error .unassignedFunction

/-- Opcode 0x23, task instructions (R270). -/
def decodeTask (w : IWord) : Decoded :=
  match (imm16F w).toNat with
  | 0 => whenZero (dF w = 0#5 && aF w = 0#5) .tend
  | 1 => found (.spawn (dF w) (aF w))
  | 2 => found (.qput (dF w) (aF w))
  | 3 => found (.join (dF w) (aF w))
  | _ => .error .unassignedFunction

/-- Opcode 0x25, vector and way configuration (R94, R178). -/
def decodeWay (w : IWord) : Decoded :=
  let b0 : Bool := bF w = 0#5
  match (fnF w).toNat with
  | 0x000 => whenZero b0 (.vsetl (dF w) (aF w))
  | 0x010 => whenZero b0 (.wconvArray (dF w) (aF w))
  | 0x011 => whenZero b0 (.wconvBench (dF w) (aF w))
  | 0x012 => whenZero b0 (.wrel (dF w) (aF w))
  | _ => .error .unassignedFunction

/-- Opcode 0x26, vector integer (R111, R116, R117). -/
def decodeVInt (w : IWord) : Decoded :=
  let d := vdF w
  let a := vaF w
  match (vfnF w).toNat with
  | 0x00 => vAny (vsrcF w) (.vadd d a)
  | 0x01 => vAny (vsrcF w) (.vsub d a)
  | 0x02 => vAny (vsrcF w) (.vrsub d a)
  | 0x03 => vAny (vsrcF w) (.vmul d a)
  | 0x04 => vAny (vsrcF w) (.vmulh d a)
  | 0x05 => vAny (vsrcF w) (.vmacc d a)
  | 0x06 => vAny (vsrcF w) (.vnmsac d a)
  | 0x07 => vAny (vsrcF w) (.vdiv d a)
  | 0x08 => vAny (vsrcF w) (.vdivu d a)
  | 0x09 => vAny (vsrcF w) (.vrem d a)
  | 0x0A => vAny (vsrcF w) (.vmin d a)
  | 0x0B => vAny (vsrcF w) (.vmax d a)
  | 0x0C => vAny (vsrcF w) (.vminu d a)
  | 0x0D => vAny (vsrcF w) (.vmaxu d a)
  | 0x10 => vAny (vsrcF w) (.vand d a)
  | 0x11 => vAny (vsrcF w) (.vor d a)
  | 0x12 => vAny (vsrcF w) (.vxor d a)
  | 0x13 => vAny (vsrcF w) (.vandn d a)
  | 0x14 => vAny (vsrcF w) (.vsll d a)
  | 0x15 => vAny (vsrcF w) (.vsrl d a)
  | 0x16 => vAny (vsrcF w) (.vsra d a)
  | 0x19 => vAny (vsrcF w) (.vabsd d a)
  | 0x1A => vAny (vsrcF w) (.vmerge d a)
  | 0x18 => if vkindF w = 0#2 then whenZero (vbF w = 0#4 && gsF w = 0#5) (.vabs d a) else .error .illegalKind
  | 0x1B => match vsrcF w with
    | .ok y => whenZero (y.vmvOk a) (.vmv d a y)
    | .error e => .error e
  | 0x1C =>
    if vkindF w = 0#2 then whenZero (a = 0#4 && vbF w = 0#4 && gsF w = 0#5) (.vid d) else .error .illegalKind
  | 0x1D => vNoVec (vsrcF w) (.vclip d a)
  | _ => .error .unassignedFunction

/-- Opcode 0x27, vector float (R118, R121). -/
def decodeVFloat (w : IWord) : Decoded :=
  let d := vdF w
  let a := vaF w
  let k0 : Bool := vkindF w = 0#2
  let unary : Bool := vbF w = 0#4 && gsF w = 0#5
  match (vfnF w).toNat with
  | 0x00 => vNoImm (vsrcF w) (.vfadd d a)
  | 0x01 => vNoImm (vsrcF w) (.vfsub d a)
  | 0x02 => vNoImm (vsrcF w) (.vfmul d a)
  | 0x03 => vNoImm (vsrcF w) (.vfma d a)
  | 0x04 => vNoImm (vsrcF w) (.vfnma d a)
  | 0x05 => vNoImm (vsrcF w) (.vfdiv d a)
  | 0x07 => vNoImm (vsrcF w) (.vfmin d a)
  | 0x08 => vNoImm (vsrcF w) (.vfmax d a)
  | 0x06 => if k0 then whenZero unary (.vfsqrt d a) else .error .illegalKind
  | 0x10 => if k0 then whenZero unary (.vfexp2 d a) else .error .illegalKind
  | 0x11 => if k0 then whenZero unary (.vflog2 d a) else .error .illegalKind
  | 0x12 => if k0 then whenZero unary (.vfrecip d a) else .error .illegalKind
  | 0x13 => if k0 then whenZero unary (.vfrsqrt d a) else .error .illegalKind
  | 0x09 =>
    if k0 then
      match (gsF w).toNat with
      | 0 => found (.vfsgn d a (vbF w))
      | 1 => found (.vfsgnN d a (vbF w))
      | 2 => found (.vfsgnX d a (vbF w))
      | _ => .error .unassignedFunction
    else .error .illegalKind
  | _ => .error .unassignedFunction

/-- Opcode 0x28, vcvt (R122). -/
def decodeVCvt (w : IWord) : Decoded :=
  if vkindF w = 0#2 then
    match (vfnF w).toNat with
    | 0 => whenZero (vbF w = 0#4 && !bitF w 13) (.vcvt (vdF w) (vaF w) (.ofBits (w.extractLsb' 9 4)))
    | _ => .error .unassignedFunction
  else .error .illegalKind

/-- Opcode 0x29, compares (R124). -/
def decodeVCmp (w : IWord) : Decoded :=
  let p := dF w
  let a := pvaF w
  match (pfnF w).toNat with
  | 0x00 => vAny (pvsrcF w) (.vcmpeq p a)
  | 0x01 => vAny (pvsrcF w) (.vcmpne p a)
  | 0x02 => vAny (pvsrcF w) (.vcmplt p a)
  | 0x03 => vAny (pvsrcF w) (.vcmple p a)
  | 0x04 => vAny (pvsrcF w) (.vcmpltu p a)
  | 0x05 => vAny (pvsrcF w) (.vcmpleu p a)
  | 0x08 => vNoImm (pvsrcF w) (.vfcmpeq p a)
  | 0x09 => vNoImm (pvsrcF w) (.vfcmplt p a)
  | 0x0A => vNoImm (pvsrcF w) (.vfcmple p a)
  | 0x0B => vNoImm (pvsrcF w) (.vfcmpun p a)
  | _ => .error .unassignedFunction

/-- Opcode 0x2A, predicates and vloop (R126, R128). -/
def decodePred (w : IWord) : Decoded :=
  let d := dF w
  let a := aF w
  let b := pgsF w
  let top0 : Bool := bitsF w 15 13 = 0
  match (pfn8F w).toNat with
  | 0x00 => whenZero top0 (.pand d a b)
  | 0x01 => whenZero top0 (.por d a b)
  | 0x02 => whenZero top0 (.pxor d a b)
  | 0x03 => whenZero top0 (.pandn d a b)
  | 0x05 => whenZero top0 (.psbf d a b)
  | 0x06 => whenZero top0 (.psif d a b)
  | 0x07 => whenZero top0 (.pfirst d a b)
  | 0x04 => whenZero (top0 && b = 0#5) (.pmov d a)
  | 0x08 => whenZero (top0 && b = 0#5) (.pcount d a)
  | 0x09 => whenZero (top0 && b = 0#5) (.pset d a)
  | 0x0A => whenAssigned (d != 0#5 && off9F w != 0#9) (.vloop d (pvaF w) (off9F w))
  | _ => .error .unassignedFunction

/-- Opcode 0x2B, rod tree (R131). -/
def decodeRod (w : IWord) : Decoded :=
  let d := vdF w
  let a := vaF w
  let b := vbF w
  let g := gsF w
  let kind := vkindF w
  let red (i : Instr) : Decoded := if kind = 1#2 then whenZero (d = 0#4 && b = 0#4) i else .error .illegalKind
  let oneS (i : Instr) : Decoded := if kind = 1#2 then whenZero (b = 0#4) i else .error .illegalKind
  match (vfnF w).toNat with
  | 0x00 => red (.vredsum g a)
  | 0x01 => red (.vredosum g a)
  | 0x02 => red (.vredmin g a)
  | 0x03 => red (.vredmax g a)
  | 0x04 => red (.vredbitAnd g a)
  | 0x05 => red (.vredbitOr g a)
  | 0x06 => red (.vredbitXor g a)
  | 0x18 => red (.vextr g a)
  | 0x12 => oneS (.vslide1up d a g)
  | 0x13 => oneS (.vslide1dn d a g)
  | 0x15 => oneS (.vsqueeze d a g)
  | 0x10 => vNoVec (vsrcF w) (.vslideup d a)
  | 0x11 => vNoVec (vsrcF w) (.vslidedn d a)
  | 0x16 => vNoVec (vsrcF w) (.vbcast d a)
  | 0x08 => if kind = 0#2 then whenZero (b = 0#4 && g = 0#5) (.vscan d a) else .error .illegalKind
  | 0x14 => if kind = 0#2 then whenZero (g = 0#5) (.vpick d a b) else .error .illegalKind
  | 0x19 =>
    if kind = 1#2 then
      if a = 0#4 && b = 0#4 then whenAssigned (!g.getLsbD 0) (.vinsr d g) else .error .reservedField
    else .error .illegalKind
  | _ => .error .unassignedFunction

/-- Opcode 0x2C, vector memory (R223). -/
def decodeVMem (w : IWord) : Decoded :=
  let d0 : Bool := dF w = 0#5
  let b0 : Bool := bF w = 0#5
  let x := vxF w
  let bv : VReg := w.extractLsb' 11 4
  let ixOk : Bool := d0 && !bitF w 15
  match (vfnF w).toNat with
  | 0x00 => whenZero (d0 && b0) (.vld x (aF w))
  | 0x01 => whenZero d0 (.vlds x (aF w) (bF w))
  | 0x02 => whenZero ixOk (.vldx x (aF w) bv)
  | 0x03 => whenZero b0 (.vldff (dF w) x (aF w))
  | 0x08 => whenZero (d0 && b0) (.vst x (aF w))
  | 0x09 => whenZero d0 (.vsts x (aF w) (bF w))
  | 0x0A => whenZero ixOk (.vstx x (aF w) bv)
  | _ => .error .unassignedFunction

/-- An even register (R238). -/
def evenReg (g : GReg) : Bool := !g.getLsbD 0
/-- An even register other than g0 (R238). -/
def evenNZ (g : GReg) : Bool := evenReg g && g != 0#5

/-- Opcode 0x2D, peel (R238). -/
def decodePeel (w : IWord) : Decoded :=
  let d := dF w
  let a := aF w
  let b := bF w
  let x := vxF w
  let d0 : Bool := d = 0#5
  let a0 : Bool := a = 0#5
  let b0 : Bool := b = 0#5
  let x0 : Bool := x = 0#4
  match (vfnF w).toNat with
  | 0x00 => whenZero x0 (.pcopy d a b)
  | 0x01 => found (.pcopyX d a b x)
  | 0x08 => whenZero (d0 && x0) (.ownE a b)
  | 0x09 => whenZero x0 (.ownH d a b)
  | 0x10 => whenZero (d0 && x0) (.tbi a b)
  | 0x11 => whenZero (d0 && b0 && x0) (.tbarr a)
  | 0x12 => whenZero x0 (.tbwait d a b)
  | 0x13 => whenZero (b0 && x0) (.tbtest d a)
  | 0x18 => if x0 then whenAssigned (evenNZ b) (.rkdef d a b) else .error .reservedField
  | 0x19 => whenZero x0 (.prsv d a b)
  | 0x1A => whenZero (b0 && x0) (.prel d a)
  | 0x1B => if b0 && x0 then whenAssigned (evenReg d) (.pstat d a) else .error .reservedField
  | 0x20 => if x0 then whenAssigned (evenNZ d) (.bput d a b) else .error .reservedField
  | 0x21 => if x0 then whenAssigned (evenNZ d) (.bputF d a b) else .error .reservedField
  | 0x22 => if a0 then whenAssigned (evenNZ d) (.vput d x b) else .error .reservedField
  | 0x23 => if a0 then whenAssigned (evenNZ d) (.vputF d x b) else .error .reservedField
  | 0x28 => whenZero x0 (.rrot d a b)
  | _ => .error .unassignedFunction

/-- Opcode 0x2E, frame (R154). Vector register fields use bits [3:0] of their field. -/
def decodeFrame (w : IWord) : Decoded :=
  let d := dF w
  let a := aF w
  let b := bF w
  let d0 : Bool := d = 0#5
  let a0 : Bool := a = 0#5
  let b0 : Bool := b = 0#5
  let dv : VReg := w.extractLsb' 21 4
  let av : VReg := w.extractLsb' 16 4
  let bv : VReg := w.extractLsb' 11 4
  let d4 : Bool := !bitF w 25
  let a4 : Bool := !bitF w 20
  let b4 : Bool := !bitF w 15
  let hi := bitsF w 10 4
  match bitsF w 3 0 with
  | 0x0 => whenZero (d0 && b0 && hi = 0) (.fcfg a)
  | 0x1 =>
    if d0 && a0 && b0 then
      match hi with
      | 0 => found .fzero
      | 1 => found .fzeroC
      | _ => .error .reservedField
    else .error .reservedField
  | 0x2 => whenZero (d0 && a4 && b4 && bitsF w 10 5 = 0) (.mmo av bv (bitF w 4))
  | 0x3 => whenZero (d0 && a4 && b4 && bitsF w 6 5 = 0) (.mmoSp av bv (vxF w) (bitF w 4))
  | 0x4 =>
    whenZero (d4 && !bitF w 6 && (bitF w 5 || vxF w = 0#4)) (.mmoSt dv a b (vxF w) (bitF w 5) (bitF w 4))
  | 0x5 => whenZero (d0 && a0 && b0 && hi = 0) .frc
  | 0x6 =>
    if d4 && a4 && b0 then
      match hi with
      | 0 => found (.fdrain dv av)
      | 1 => found (.fdrainZ dv av)
      | 2 => whenZero (av = 0#4) (.fdrainNcs dv)
      | 3 => whenZero (av = 0#4) (.fdrainZNcs dv)
      | _ => .error .reservedField
    else .error .reservedField
  | 0x7 =>
    if d0 && a4 && b0 then
      match hi with
      | 0 => found (.frowadd av)
      | 1 => found (.frowaddC av)
      | _ => .error .reservedField
    else .error .reservedField
  | 0x8 => whenZero (d0 && b0 && hi = 0) (.fsave a)
  | 0x9 => whenZero (d0 && b0 && hi = 0) (.fload a)
  | _ => .error .unassignedFunction

/-- Opcode 0x2F, hypothesis (R329). -/
def decodeHyp (w : IWord) : Decoded :=
  match (imm16F w).toNat with
  | 0 => whenZero (aF w = 0#5) (.hopen (dF w))
  | 1 => found (.henter (dF w) (aF w))
  | 2 => whenZero (aF w = 0#5) (.hleave (dF w))
  | 3 => found (.hresConfirm (dF w) (aF w))
  | 4 => found (.hresRefute (dF w) (aF w))
  | 5 => found (.hstat (dF w) (aF w))
  | _ => .error .unassignedFunction

/-- Opcode 0x30, cache operations (R183). -/
def decodeCache (w : IWord) : Decoded :=
  let d0 : Bool := dF w = 0#5
  let b0 : Bool := bF w = 0#5
  match (fnF w).toNat with
  | 0 => whenZero (d0 && b0) (.cflush (aF w))
  | 1 => whenZero (d0 && b0) (.cclean (aF w))
  | 2 => whenZero (d0 && b0) (.cinv (aF w))
  | 3 => whenZero b0 (.lock (dF w) (aF w))
  | 4 => whenZero b0 (.unlock (dF w) (aF w))
  | 5 => whenZero d0 (.bclr (aF w) (bF w))
  | _ => .error .unassignedFunction

/-- What a word stands for, or the name of what makes it illegal (R37, R38, R39). -/
def decodeWord (w : IWord) : Decoded :=
  match (opF w).toNat with
  | 0x01 => decodeAlu w
  | 0x02 => found (.addi (dF w) (aF w) (imm16F w))
  | 0x03 => found (.andi (dF w) (aF w) (imm16F w))
  | 0x04 => found (.ori (dF w) (aF w) (imm16F w))
  | 0x05 => found (.xori (dF w) (aF w) (imm16F w))
  | 0x06 => found (.slti (dF w) (aF w) (imm16F w))
  | 0x07 => found (.sltiu (dF w) (aF w) (imm16F w))
  | 0x08 => decodeShiftImm w
  | 0x09 => found (.ldhi (dF w) (imm21F w))
  | 0x0A => found (.pcrel (dF w) (imm21F w))
  | 0x0B => decodeMulDiv w
  | 0x0C => decodeFloat w
  | 0x0D => found (.ldb (dF w) (aF w) (imm16F w))
  | 0x0E => found (.ldh (dF w) (aF w) (imm16F w))
  | 0x0F => found (.ldw (dF w) (aF w) (imm16F w))
  | 0x10 => found (.ldd (dF w) (aF w) (imm16F w))
  | 0x11 => found (.ldbu (dF w) (aF w) (imm16F w))
  | 0x12 => found (.ldhu (dF w) (aF w) (imm16F w))
  | 0x13 => found (.ldwu (dF w) (aF w) (imm16F w))
  | 0x14 => found (.stb (dF w) (aF w) (imm16F w))
  | 0x15 => found (.sth (dF w) (aF w) (imm16F w))
  | 0x16 => found (.stw (dF w) (aF w) (imm16F w))
  | 0x17 => found (.std (dF w) (aF w) (imm16F w))
  | 0x18 => found (.beq (dF w) (aF w) (imm16F w))
  | 0x19 => found (.bne (dF w) (aF w) (imm16F w))
  | 0x1A => found (.blt (dF w) (aF w) (imm16F w))
  | 0x1B => found (.bge (dF w) (aF w) (imm16F w))
  | 0x1C => found (.bltu (dF w) (aF w) (imm16F w))
  | 0x1D => found (.bgeu (dF w) (aF w) (imm16F w))
  | 0x1E => found (.jal (dF w) (imm21F w))
  | 0x1F => found (.jalr (dF w) (aF w) (imm16F w))
  | 0x20 => decodeAtomic w
  | 0x21 => decodeSync w
  | 0x22 => decodeSystem w
  | 0x23 => decodeTask w
  | 0x24 => whenZero (dF w = 0#5) (.gmode (imm21F w))
  | 0x25 => decodeWay w
  | 0x26 => decodeVInt w
  | 0x27 => decodeVFloat w
  | 0x28 => decodeVCvt w
  | 0x29 => decodeVCmp w
  | 0x2A => decodePred w
  | 0x2B => decodeRod w
  | 0x2C => decodeVMem w
  | 0x2D => decodePeel w
  | 0x2E => decodeFrame w
  | 0x2F => decodeHyp w
  | 0x30 => decodeCache w
  | 0x3E => .ok (.hint (hintF w))
  | _ => .error .illegalOpcode

/-- The instruction found. Not compiled, for the limit named at Op; Lean's kernel evaluates it. -/
noncomputable def Op.toInstr : Op → Instr
  | .instr i => i
  | .hint h => .hint h
  | .mtsRow .mode a => .mtsMode a
  | .mtsRow .vl a => .mtsVl a
  | .mtsRow .vstart a => .mtsVstart a
  | .mtsRow .fcr a => .mtsFcr a
  | .mtsRow .ltime a => .mtsLtime a
  | .mtsRow .benchchk a => .mtsBenchchk a
  | .mtsRow .chkctl a => .mtsChkctl a

/-- The instruction a word stands for, or the name of what makes it illegal (R37, R38, R39). -/
noncomputable def decode (w : IWord) : Except DecodeError Instr :=
  match decodeWord w with
  | .ok o => .ok o.toInstr
  | .error e => .error e

/-! ### Encoder. -/
/-- Form A (R34). -/
def packA (op : BitVec 6) (d a b : BitVec 5) (fn : BitVec 11) : IWord := op ++ d ++ a ++ b ++ fn
/-- Forms I, S and Z (R34). -/
def packI (op : BitVec 6) (d a : BitVec 5) (imm : BitVec 16) : IWord := op ++ d ++ a ++ imm
/-- Form U (R34). -/
def packU (op : BitVec 6) (d : BitVec 5) (imm : BitVec 21) : IWord := op ++ d ++ imm
/-- Form V with its kind and function code (R34, R35). -/
def packV (op : BitVec 6) (d a b : BitVec 4) (gs : BitVec 5) (k : BitVec 2) (fn : BitVec 7) : IWord :=
  op ++ d ++ a ++ b ++ gs ++ k ++ fn
/-- Form P of a compare (R124). -/
def packP (op : BitVec 6) (p : BitVec 5) (a b : BitVec 4) (gs : BitVec 5) (k : BitVec 2) (fn : BitVec 6) : IWord :=
  op ++ p ++ a ++ b ++ gs ++ k ++ fn
/-- Opcode 0x2A with its own boundaries (R126). -/
def packQ (d a : BitVec 5) (b : BitVec 5) (fn : BitVec 8) : IWord := (0x2A#6 ++ d ++ a ++ 0#3 ++ b ++ fn : BitVec 32)
/-- Form M (R34). -/
def packM (op : BitVec 6) (d a b : BitVec 5) (x : BitVec 4) (fn : BitVec 7) : IWord := op ++ d ++ a ++ b ++ x ++ fn

/-- The kind, vb and gs fields of a second operand (R35). -/
def VSrc.kind : VSrc → BitVec 2
  | .vec _ => 0#2
  | .scal _ => 1#2
  | .imm _ => 2#2
def VSrc.vb : VSrc → BitVec 4
  | .vec b => b
  | _ => 0#4
def VSrc.gs : VSrc → BitVec 5
  | .vec _ => 0#5
  | .scal g => g
  | .imm i => i

/-- Form V with a second operand. -/
def packVY (op : BitVec 6) (d a : BitVec 4) (y : VSrc) (fn : BitVec 7) : IWord :=
  packV op d a y.vb y.gs y.kind fn
/-- Form P with a second operand. -/
def packPY (p : BitVec 5) (a : BitVec 4) (y : VSrc) (fn : BitVec 6) : IWord :=
  packP 0x29#6 p a y.vb y.gs y.kind fn
/-- Opcode 0x0C: FMT, FRM and FOP (R88). -/
def packF (f : FFmt) (frm : BitVec 3) (fop : BitVec 6) (d a b : BitVec 5) : IWord :=
  packA 0x0C#6 d a b (f.bits ++ frm ++ fop)
/-- Opcode 0x20 (R217). -/
def packAmo (d a b : BitVec 5) (o : MemOrd) (s : Scope) (w4 : Bool) (op : BitVec 5) : IWord :=
  packA 0x20#6 d a b (o.bits ++ s.bits ++ 0#1 ++ BitVec.ofBool w4 ++ op)
/-- Opcode 0x2E with a vector register in a 5-bit field (R154). -/
def vreg5 (v : VReg) : BitVec 5 := 0#1 ++ v

/-- The word of an instruction; an event has none. -/
def encode : Instr → Option IWord
  | .add d a b => some (packA 0x01#6 d a b 0x000#11)
  | .sub d a b => some (packA 0x01#6 d a b 0x001#11)
  | .addw d a b => some (packA 0x01#6 d a b 0x002#11)
  | .subw d a b => some (packA 0x01#6 d a b 0x003#11)
  | .and_ d a b => some (packA 0x01#6 d a b 0x004#11)
  | .or_ d a b => some (packA 0x01#6 d a b 0x005#11)
  | .xor_ d a b => some (packA 0x01#6 d a b 0x006#11)
  | .andn d a b => some (packA 0x01#6 d a b 0x007#11)
  | .orn d a b => some (packA 0x01#6 d a b 0x008#11)
  | .sll d a b => some (packA 0x01#6 d a b 0x009#11)
  | .srl d a b => some (packA 0x01#6 d a b 0x00A#11)
  | .sra d a b => some (packA 0x01#6 d a b 0x00B#11)
  | .rol d a b => some (packA 0x01#6 d a b 0x00C#11)
  | .ror d a b => some (packA 0x01#6 d a b 0x00D#11)
  | .slt d a b => some (packA 0x01#6 d a b 0x00E#11)
  | .sltu d a b => some (packA 0x01#6 d a b 0x00F#11)
  | .min_ d a b => some (packA 0x01#6 d a b 0x010#11)
  | .max_ d a b => some (packA 0x01#6 d a b 0x011#11)
  | .minu d a b => some (packA 0x01#6 d a b 0x012#11)
  | .maxu d a b => some (packA 0x01#6 d a b 0x013#11)
  | .clz d a => some (packA 0x01#6 d a 0#5 0x020#11)
  | .ctz d a => some (packA 0x01#6 d a 0#5 0x021#11)
  | .popc d a => some (packA 0x01#6 d a 0#5 0x022#11)
  | .sextB d a => some (packA 0x01#6 d a 0#5 0x023#11)
  | .sextH d a => some (packA 0x01#6 d a 0#5 0x024#11)
  | .sextW d a => some (packA 0x01#6 d a 0#5 0x025#11)
  | .zextB d a => some (packA 0x01#6 d a 0#5 0x026#11)
  | .zextH d a => some (packA 0x01#6 d a 0#5 0x027#11)
  | .zextW d a => some (packA 0x01#6 d a 0#5 0x028#11)
  | .addi d a imm => some (packI 0x02#6 d a imm)
  | .andi d a imm => some (packI 0x03#6 d a imm)
  | .ori d a imm => some (packI 0x04#6 d a imm)
  | .xori d a imm => some (packI 0x05#6 d a imm)
  | .slti d a imm => some (packI 0x06#6 d a imm)
  | .sltiu d a imm => some (packI 0x07#6 d a imm)
  | .slli d a n => some (packI 0x08#6 d a (0x0#4 ++ 0#6 ++ n))
  | .srli d a n => some (packI 0x08#6 d a (0x1#4 ++ 0#6 ++ n))
  | .srai d a n => some (packI 0x08#6 d a (0x2#4 ++ 0#6 ++ n))
  | .rori d a n => some (packI 0x08#6 d a (0x3#4 ++ 0#6 ++ n))
  | .ldhi d imm => some (packU 0x09#6 d imm)
  | .pcrel d imm => some (packU 0x0A#6 d imm)
  | .mul d a b => some (packA 0x0B#6 d a b 0x000#11)
  | .mulh d a b => some (packA 0x0B#6 d a b 0x001#11)
  | .mulhu d a b => some (packA 0x0B#6 d a b 0x002#11)
  | .mulhsu d a b => some (packA 0x0B#6 d a b 0x003#11)
  | .mulw d a b => some (packA 0x0B#6 d a b 0x004#11)
  | .div d a b => some (packA 0x0B#6 d a b 0x008#11)
  | .divu d a b => some (packA 0x0B#6 d a b 0x009#11)
  | .rem d a b => some (packA 0x0B#6 d a b 0x00A#11)
  | .remu d a b => some (packA 0x0B#6 d a b 0x00B#11)
  | .fadd f d a b rm => some (packF f rm.bits 0x00#6 d a b)
  | .fsub f d a b rm => some (packF f rm.bits 0x01#6 d a b)
  | .fmul f d a b rm => some (packF f rm.bits 0x02#6 d a b)
  | .fdiv f d a b rm => some (packF f rm.bits 0x03#6 d a b)
  | .fsqrt f d a rm => some (packF f rm.bits 0x04#6 d a 0#5)
  | .fma f d a b rm => some (packF f rm.bits 0x05#6 d a b)
  | .fmin f d a b => some (packF f 0#3 0x06#6 d a b)
  | .fmax f d a b => some (packF f 0#3 0x07#6 d a b)
  | .feq f d a b => some (packF f 0#3 0x08#6 d a b)
  | .flt f d a b => some (packF f 0#3 0x09#6 d a b)
  | .fle f d a b => some (packF f 0#3 0x0A#6 d a b)
  | .fclass f d a => some (packF f 0#3 0x0B#6 d a 0#5)
  | .fcvtIf f d a k rm => some (packF f rm.bits 0x0C#6 d a (0#3 ++ k.bits))
  | .fcvtFi f d a k rm => some (packF f rm.bits 0x0D#6 d a (0#3 ++ k.bits))
  | .fcvtFf f d a src rm => some (packF f rm.bits 0x0E#6 d a (0#3 ++ src.bits))
  | .ldb d a imm => some (packI 0x0D#6 d a imm)
  | .ldh d a imm => some (packI 0x0E#6 d a imm)
  | .ldw d a imm => some (packI 0x0F#6 d a imm)
  | .ldd d a imm => some (packI 0x10#6 d a imm)
  | .ldbu d a imm => some (packI 0x11#6 d a imm)
  | .ldhu d a imm => some (packI 0x12#6 d a imm)
  | .ldwu d a imm => some (packI 0x13#6 d a imm)
  | .stb y a imm => some (packI 0x14#6 y a imm)
  | .sth y a imm => some (packI 0x15#6 y a imm)
  | .stw y a imm => some (packI 0x16#6 y a imm)
  | .std y a imm => some (packI 0x17#6 y a imm)
  | .beq y a imm => some (packI 0x18#6 y a imm)
  | .bne y a imm => some (packI 0x19#6 y a imm)
  | .blt y a imm => some (packI 0x1A#6 y a imm)
  | .bge y a imm => some (packI 0x1B#6 y a imm)
  | .bltu y a imm => some (packI 0x1C#6 y a imm)
  | .bgeu y a imm => some (packI 0x1D#6 y a imm)
  | .jal d imm => some (packU 0x1E#6 d imm)
  | .jalr d a imm => some (packI 0x1F#6 d a imm)
  | .ald d a ord sc w4 => some (packAmo d a 0#5 ord sc w4 0x00#5)
  | .ast a b ord sc w4 => some (packAmo 0#5 a b ord sc w4 0x01#5)
  | .amoadd d a b ord sc w4 => some (packAmo d a b ord sc w4 0x02#5)
  | .amoswap d a b ord sc w4 => some (packAmo d a b ord sc w4 0x03#5)
  | .amoand d a b ord sc w4 => some (packAmo d a b ord sc w4 0x04#5)
  | .amoor d a b ord sc w4 => some (packAmo d a b ord sc w4 0x05#5)
  | .amoxor d a b ord sc w4 => some (packAmo d a b ord sc w4 0x06#5)
  | .amomin d a b ord sc w4 => some (packAmo d a b ord sc w4 0x07#5)
  | .amomax d a b ord sc w4 => some (packAmo d a b ord sc w4 0x08#5)
  | .amominu d a b ord sc w4 => some (packAmo d a b ord sc w4 0x09#5)
  | .amomaxu d a b ord sc w4 => some (packAmo d a b ord sc w4 0x0A#5)
  | .cas d a b ord sc w4 => some (packAmo d a b ord sc w4 0x0B#5)
  | .fence sc ord => some (packI 0x21#6 0#5 0#5 (0x00#12 ++ sc.bits ++ ord.bits))
  | .gbar => some (packI 0x21#6 0#5 0#5 0x0100#16)
  | .gred d a op rm => some (packI 0x21#6 d a (0x02#8 ++ 0#1 ++ rm.bits ++ op.bits))
  | .mfs d r => some (packI 0x22#6 d 0#5 (0x0#4 ++ r.number))
  | .mts r a => some (packI 0x22#6 0#5 a (0x1#4 ++ r.number))
  | .mtsMode a => some (packI 0x22#6 0#5 a 0x1100#16)
  | .mtsVl a => some (packI 0x22#6 0#5 a 0x1101#16)
  | .mtsVstart a => some (packI 0x22#6 0#5 a 0x1102#16)
  | .mtsFcr a => some (packI 0x22#6 0#5 a 0x1120#16)
  | .mtsLtime a => some (packI 0x22#6 0#5 a 0x1200#16)
  | .mtsBenchchk a => some (packI 0x22#6 0#5 a 0x1207#16)
  | .mtsChkctl a => some (packI 0x22#6 0#5 a 0x1402#16)
  | .svc imm => some (packI 0x22#6 0#5 0#5 (0x2#4 ++ imm))
  | .brk imm => some (packI 0x22#6 0#5 0#5 (0x3#4 ++ imm))
  | .eret => some (packI 0x22#6 0#5 0#5 0x4000#16)
  | .idle a => some (packI 0x22#6 0#5 a 0x5000#16)
  | .ifence => some (packI 0x22#6 0#5 0#5 0x6000#16)
  | .tlbiVa d a pkg => some (packI 0x22#6 d a (0x7#4 ++ 0#9 ++ BitVec.ofBool pkg ++ 0#2))
  | .tlbiCtx d pkg => some (packI 0x22#6 d 0#5 (0x7#4 ++ 0#9 ++ BitVec.ofBool pkg ++ 1#2))
  | .tlbiAll pkg => some (packI 0x22#6 0#5 0#5 (0x7#4 ++ 0#9 ++ BitVec.ofBool pkg ++ 2#2))
  | .tend => some (packI 0x23#6 0#5 0#5 0#16)
  | .spawn d a => some (packI 0x23#6 d a 0x0001#16)
  | .qput d a => some (packI 0x23#6 d a 0x0002#16)
  | .join d a => some (packI 0x23#6 d a 0x0003#16)
  | .gmode m => some (packU 0x24#6 0#5 m)
  | .vsetl d a => some (packA 0x25#6 d a 0#5 0x000#11)
  | .wconvArray d a => some (packA 0x25#6 d a 0#5 0x010#11)
  | .wconvBench d a => some (packA 0x25#6 d a 0#5 0x011#11)
  | .wrel d a => some (packA 0x25#6 d a 0#5 0x012#11)
  | .vadd d a y => some (packVY 0x26#6 d a y 0x00#7)
  | .vsub d a y => some (packVY 0x26#6 d a y 0x01#7)
  | .vrsub d a y => some (packVY 0x26#6 d a y 0x02#7)
  | .vmul d a y => some (packVY 0x26#6 d a y 0x03#7)
  | .vmulh d a y => some (packVY 0x26#6 d a y 0x04#7)
  | .vmacc d a y => some (packVY 0x26#6 d a y 0x05#7)
  | .vnmsac d a y => some (packVY 0x26#6 d a y 0x06#7)
  | .vdiv d a y => some (packVY 0x26#6 d a y 0x07#7)
  | .vdivu d a y => some (packVY 0x26#6 d a y 0x08#7)
  | .vrem d a y => some (packVY 0x26#6 d a y 0x09#7)
  | .vmin d a y => some (packVY 0x26#6 d a y 0x0A#7)
  | .vmax d a y => some (packVY 0x26#6 d a y 0x0B#7)
  | .vminu d a y => some (packVY 0x26#6 d a y 0x0C#7)
  | .vmaxu d a y => some (packVY 0x26#6 d a y 0x0D#7)
  | .vand d a y => some (packVY 0x26#6 d a y 0x10#7)
  | .vor d a y => some (packVY 0x26#6 d a y 0x11#7)
  | .vxor d a y => some (packVY 0x26#6 d a y 0x12#7)
  | .vandn d a y => some (packVY 0x26#6 d a y 0x13#7)
  | .vsll d a y => some (packVY 0x26#6 d a y 0x14#7)
  | .vsrl d a y => some (packVY 0x26#6 d a y 0x15#7)
  | .vsra d a y => some (packVY 0x26#6 d a y 0x16#7)
  | .vabs d a => some (packV 0x26#6 d a 0#4 0#5 0#2 0x18#7)
  | .vabsd d a y => some (packVY 0x26#6 d a y 0x19#7)
  | .vmerge d a y => some (packVY 0x26#6 d a y 0x1A#7)
  | .vmv d a y => some (packVY 0x26#6 d a y 0x1B#7)
  | .vid d => some (packV 0x26#6 d 0#4 0#4 0#5 0#2 0x1C#7)
  | .vclip d a y => some (packVY 0x26#6 d a y 0x1D#7)
  | .vfadd d a y => some (packVY 0x27#6 d a y 0x00#7)
  | .vfsub d a y => some (packVY 0x27#6 d a y 0x01#7)
  | .vfmul d a y => some (packVY 0x27#6 d a y 0x02#7)
  | .vfma d a y => some (packVY 0x27#6 d a y 0x03#7)
  | .vfnma d a y => some (packVY 0x27#6 d a y 0x04#7)
  | .vfdiv d a y => some (packVY 0x27#6 d a y 0x05#7)
  | .vfsqrt d a => some (packV 0x27#6 d a 0#4 0#5 0#2 0x06#7)
  | .vfmin d a y => some (packVY 0x27#6 d a y 0x07#7)
  | .vfmax d a y => some (packVY 0x27#6 d a y 0x08#7)
  | .vfsgn d a b => some (packV 0x27#6 d a b 0#5 0#2 0x09#7)
  | .vfsgnN d a b => some (packV 0x27#6 d a b 1#5 0#2 0x09#7)
  | .vfsgnX d a b => some (packV 0x27#6 d a b 2#5 0#2 0x09#7)
  | .vfexp2 d a => some (packV 0x27#6 d a 0#4 0#5 0#2 0x10#7)
  | .vflog2 d a => some (packV 0x27#6 d a 0#4 0#5 0#2 0x11#7)
  | .vfrecip d a => some (packV 0x27#6 d a 0#4 0#5 0#2 0x12#7)
  | .vfrsqrt d a => some (packV 0x27#6 d a 0#4 0#5 0#2 0x13#7)
  | .vcvt d a t => some (packV 0x28#6 d a 0#4 (0#1 ++ t.bits) 0#2 0#7)
  | .vcmpeq p a y => some (packPY p a y 0x00#6)
  | .vcmpne p a y => some (packPY p a y 0x01#6)
  | .vcmplt p a y => some (packPY p a y 0x02#6)
  | .vcmple p a y => some (packPY p a y 0x03#6)
  | .vcmpltu p a y => some (packPY p a y 0x04#6)
  | .vcmpleu p a y => some (packPY p a y 0x05#6)
  | .vfcmpeq p a y => some (packPY p a y 0x08#6)
  | .vfcmplt p a y => some (packPY p a y 0x09#6)
  | .vfcmple p a y => some (packPY p a y 0x0A#6)
  | .vfcmpun p a y => some (packPY p a y 0x0B#6)
  | .pand d a b => some (packQ d a b 0x00#8)
  | .por d a b => some (packQ d a b 0x01#8)
  | .pxor d a b => some (packQ d a b 0x02#8)
  | .pandn d a b => some (packQ d a b 0x03#8)
  | .pmov d a => some (packQ d a 0#5 0x04#8)
  | .psbf d a b => some (packQ d a b 0x05#8)
  | .psif d a b => some (packQ d a b 0x06#8)
  | .pfirst d a b => some (packQ d a b 0x07#8)
  | .pcount d a => some (packQ d a 0#5 0x08#8)
  | .pset d a => some (packQ d a 0#5 0x09#8)
  | .vloop d a off => some (((0x2A#6 ++ d ++ a ++ off ++ 0x0A#8 : BitVec 32)))
  | .vredsum g a => some (packV 0x2B#6 0#4 a 0#4 g 1#2 0x00#7)
  | .vredosum g a => some (packV 0x2B#6 0#4 a 0#4 g 1#2 0x01#7)
  | .vredmin g a => some (packV 0x2B#6 0#4 a 0#4 g 1#2 0x02#7)
  | .vredmax g a => some (packV 0x2B#6 0#4 a 0#4 g 1#2 0x03#7)
  | .vredbitAnd g a => some (packV 0x2B#6 0#4 a 0#4 g 1#2 0x04#7)
  | .vredbitOr g a => some (packV 0x2B#6 0#4 a 0#4 g 1#2 0x05#7)
  | .vredbitXor g a => some (packV 0x2B#6 0#4 a 0#4 g 1#2 0x06#7)
  | .vscan d a => some (packV 0x2B#6 d a 0#4 0#5 0#2 0x08#7)
  | .vslideup d a y => some (packVY 0x2B#6 d a y 0x10#7)
  | .vslidedn d a y => some (packVY 0x2B#6 d a y 0x11#7)
  | .vslide1up d a g => some (packV 0x2B#6 d a 0#4 g 1#2 0x12#7)
  | .vslide1dn d a g => some (packV 0x2B#6 d a 0#4 g 1#2 0x13#7)
  | .vpick d a b => some (packV 0x2B#6 d a b 0#5 0#2 0x14#7)
  | .vsqueeze d a g => some (packV 0x2B#6 d a 0#4 g 1#2 0x15#7)
  | .vbcast d a y => some (packVY 0x2B#6 d a y 0x16#7)
  | .vextr g a => some (packV 0x2B#6 0#4 a 0#4 g 1#2 0x18#7)
  | .vinsr d g => some (packV 0x2B#6 d 0#4 0#4 g 1#2 0x19#7)
  | .vld x a => some (packM 0x2C#6 0#5 a 0#5 x 0x00#7)
  | .vlds x a b => some (packM 0x2C#6 0#5 a b x 0x01#7)
  | .vldx x a b => some (packM 0x2C#6 0#5 a (vreg5 b) x 0x02#7)
  | .vldff d x a => some (packM 0x2C#6 d a 0#5 x 0x03#7)
  | .vst x a => some (packM 0x2C#6 0#5 a 0#5 x 0x08#7)
  | .vsts x a b => some (packM 0x2C#6 0#5 a b x 0x09#7)
  | .vstx x a b => some (packM 0x2C#6 0#5 a (vreg5 b) x 0x0A#7)
  | .pcopy d a b => some (packM 0x2D#6 d a b 0#4 0x00#7)
  | .pcopyX d a b x => some (packM 0x2D#6 d a b x 0x01#7)
  | .ownE a b => some (packM 0x2D#6 0#5 a b 0#4 0x08#7)
  | .ownH d a b => some (packM 0x2D#6 d a b 0#4 0x09#7)
  | .tbi a b => some (packM 0x2D#6 0#5 a b 0#4 0x10#7)
  | .tbarr a => some (packM 0x2D#6 0#5 a 0#5 0#4 0x11#7)
  | .tbwait d a b => some (packM 0x2D#6 d a b 0#4 0x12#7)
  | .tbtest d a => some (packM 0x2D#6 d a 0#5 0#4 0x13#7)
  | .rkdef d a b => some (packM 0x2D#6 d a b 0#4 0x18#7)
  | .prsv d a b => some (packM 0x2D#6 d a b 0#4 0x19#7)
  | .prel d a => some (packM 0x2D#6 d a 0#5 0#4 0x1A#7)
  | .pstat d a => some (packM 0x2D#6 d a 0#5 0#4 0x1B#7)
  | .bput d a b => some (packM 0x2D#6 d a b 0#4 0x20#7)
  | .bputF d a b => some (packM 0x2D#6 d a b 0#4 0x21#7)
  | .vput d x b => some (packM 0x2D#6 d 0#5 b x 0x22#7)
  | .vputF d x b => some (packM 0x2D#6 d 0#5 b x 0x23#7)
  | .rrot d a b => some (packM 0x2D#6 d a b 0#4 0x28#7)
  | .fcfg a => some (packA 0x2E#6 0#5 a 0#5 0x000#11)
  | .fzero => some (packA 0x2E#6 0#5 0#5 0#5 0x001#11)
  | .fzeroC => some (packA 0x2E#6 0#5 0#5 0#5 0x011#11)
  | .mmo a b xb => some (packA 0x2E#6 0#5 (vreg5 a) (vreg5 b) (0#6 ++ BitVec.ofBool xb ++ 0x2#4))
  | .mmoSp a b v xb => some (packA 0x2E#6 0#5 (vreg5 a) (vreg5 b) (v ++ 0#2 ++ BitVec.ofBool xb ++ 0x3#4))
  | .mmoSt d a b v s24 xb => some (packA 0x2E#6 (vreg5 d) a b (v ++ 0#1 ++ BitVec.ofBool s24 ++ BitVec.ofBool xb ++ 0x4#4))
  | .frc => some (packA 0x2E#6 0#5 0#5 0#5 0x005#11)
  | .fdrain d c => some (packA 0x2E#6 (vreg5 d) (vreg5 c) 0#5 0x006#11)
  | .fdrainNcs d => some (packA 0x2E#6 (vreg5 d) 0#5 0#5 0x026#11)
  | .fdrainZ d c => some (packA 0x2E#6 (vreg5 d) (vreg5 c) 0#5 0x016#11)
  | .fdrainZNcs d => some (packA 0x2E#6 (vreg5 d) 0#5 0#5 0x036#11)
  | .frowadd a => some (packA 0x2E#6 0#5 (vreg5 a) 0#5 0x007#11)
  | .frowaddC a => some (packA 0x2E#6 0#5 (vreg5 a) 0#5 0x017#11)
  | .fsave a => some (packA 0x2E#6 0#5 a 0#5 0x008#11)
  | .fload a => some (packA 0x2E#6 0#5 a 0#5 0x009#11)
  | .hopen d => some (packI 0x2F#6 d 0#5 0x0000#16)
  | .henter d a => some (packI 0x2F#6 d a 0x0001#16)
  | .hleave d => some (packI 0x2F#6 d 0#5 0x0002#16)
  | .hresConfirm d a => some (packI 0x2F#6 d a 0x0003#16)
  | .hresRefute d a => some (packI 0x2F#6 d a 0x0004#16)
  | .hstat d a => some (packI 0x2F#6 d a 0x0005#16)
  | .cflush a => some (packA 0x30#6 0#5 a 0#5 0x000#11)
  | .cclean a => some (packA 0x30#6 0#5 a 0#5 0x001#11)
  | .cinv a => some (packA 0x30#6 0#5 a 0#5 0x002#11)
  | .lock d a => some (packA 0x30#6 d a 0#5 0x003#11)
  | .unlock d a => some (packA 0x30#6 d a 0#5 0x004#11)
  | .bclr a b => some (packA 0x30#6 0#5 a b 0x005#11)
  | .hint h => some (((0x3E#6 ++ h : BitVec 32)))
  | .illegalInstruction _ => none
  | .faultRecordPost => none
  | .storeDepart => none
  | .lineFill _ => none
  | .ownerRecall _ => none
  | .homeRead _ _ => none
  | .homeAcquireRead _ _ => none
  | .homeOwnership _ _ => none
  | .homeAtomic _ _ _ _ _ _ => none
  | .homeWriteBack _ _ _ => none
  | .horizonBroadcast => none
  | .sliceRaceSweep _ => none
  | .coreRaceSweep => none
  | .hbmScrub _ => none
  | .idleWake => none
  | .idleTimeout => none
  | .kneaderSlot => none
  | .arrayDataErrorTrap => none
  | .frameKstep => none
  | .peelOpStart => none
  | .peelElement _ _ => none
  | .tbwaitAnswer => none
  | .reservationRequest _ => none
  | .reservationAnswer _ => none
  | .putFirstFlit _ => none
  | .putContinuationFlit _ => none
  | .putStatus _ => none
  | .barrierArrival _ => none
  | .barrierRelease => none
  | .queuePop _ => none
  | .agingTick _ => none
  | .laneGrant _ => none
  | .preemption => none
  | .gangSaved => none
  | .resume _ => none
  | .orphanTrap => none
  | .hypothesisFree _ => none
  | .hartStateError => none
  | .rollbackComplete => none
  | .ringRecordWrite _ => none
  | .qtailWrite _ _ => none
  | .fansReplay _ => none
  | .fansUnresolved _ => none
  | .ctxkill _ => none
  | .biasToHost _ => none
  | .biasToDevice _ => none
  | .biasFlipComplete => none
  | .hostCxlMemRequest _ _ => none
  | .hostSnoop _ _ => none
  | .hostRegisterWrite _ _ => none
  | .attestationRequest _ => none
  | .peerRead _ _ _ => none
  | .peerWrite _ _ _ => none
  | .peerReadReply _ _ => none
  | .flitReceive _ _ => none
  | .nkResendTimeout _ => none
  | .replayTimeout _ => none
  | .ackIdleFlit _ => none
  | .laneFail _ _ => none
  | .retrainSuccess _ => none
  | .linkLost _ => none
  | .newSession _ _ => none
  | .frz => none
  | .freezeComplete => none
  | .adapterHoldTimeout => none
  | .frzh => none
  | .thaw => none
  | .selch _ => none
  | .rdch => none
  | .wrch _ => none
  | .halt _ => none
  | .go _ => none
  | .armbrk _ _ => none
  | .rstcore _ => none
  | .rstport _ => none
  | .rstpkg => none
  | .dbgauth _ => none
  | .stat => none
  | .bypass => none
  | .packageReset => none
  | .coreReset _ => none
  | .coreResetComplete _ => none
  | .corePowerGate _ => none
  | .thermalWarning => none
  | .thermalLimit => none
  | .powerLimit => none
  | .thermalResetTimer => none
  | .rodTreeComplete => none
  | .panDiscardNotice _ => none
  | .peerWriteRefusal _ => none

/-- The instruction read from a word given as the opcode table numbers its bits (R31: the four bytes are
little-endian, so the number is the word itself). -/
noncomputable def decodeTableWord (nbits w : Nat) : Option Instr :=
  match decode (BitVec.ofNat 32 (w % 2 ^ nbits)) with
  | .ok i => some i
  | .error _ => none

end Sys2Proof
end

