-- ==== Sys2Proof/Config.lean ====
section
/-! DEFINITION. Config.lean: what an implementation fixes, and the free values. A free value is a constant
without a body: no proof can see what it is. -/

namespace Sys2Proof.Config

/-- FREE VALUE (log 4). The clk that pass, beyond one, in the n-th step of the machine: the spec bounds times
but does not fix them all. -/
opaque clk : Nat → Nat

/-- FREE VALUE (log 7). Which value a fetch returns for a word that was written and not refreshed by an
ifence: true the new word, false an old one (R33). -/
opaque fetchNew : Nat → Bool

/-- FREE VALUE (log 7). Which of the old words a fetch returns where the word was written more than once since the ifence. -/
opaque fetchOld : Nat → Nat

/-- FREE VALUE (log 8). Which of two racing values an overlapping peel copy takes: true the new bytes of its
source, false the old ones (R240). -/
opaque peelOverlapNew : Nat → Nat → Bool

/-- FREE VALUE (log 32). CAUSE of the report of a gang that is discarded for a reason without a TRAPCAUSE: a core reset,
a destroyed context, a loss of the captured state (R345, R346, R367, R392). -/
opaque discardCause : Nat → BitVec 8

/-- FREE VALUE (log 32). VAL of such a report. -/
opaque discardVal : Nat → BitVec 64

/-- FREE VALUE (log 33). ERRADDR of a hart state error, which has no location (R365, R373). -/
opaque hartErrorLoc : Nat → BitVec 64

/-- FREE VALUE (log 34). The dwords of the report of a thermal or power limit, whose form is not given (R396). -/
opaque thermalReport : Nat → Nat → BitVec 64

/-- FREE VALUE (log 41). Which of the entries with C64 of a 64 KiB block a walk takes when they are not written alike, by the
step and the address (R298). -/
opaque c64Entry : Nat → Nat → BitVec 4

/-- FREE VALUE (log 102). Whether a core answers the recall of its owned lines at a core reset: true they are written back,
false their words are poisoned at home (R392). -/
opaque coreAnswers : Nat → Bool

/-- FREE VALUE (log 45). The digest of the management controller's firmware, and the fuse state, in attestation evidence
(R395). -/
opaque firmwareDigest : List (BitVec 8)
opaque fuseState : List (BitVec 8)

/-- FREE VALUE (log 83). The payload bytes of a flit whose layout is not given: a put header, a reservation, its answer, a peer
read, reply or write, and an idle flit (R376). -/
opaque flitByte : Payload → Nat → BitVec 8

/-- FREE VALUE (log 83). SEQ and DPKG of an idle flit, which the receiver ignores (R376, R377). -/
opaque idleField : BitVec 3 → Nat → BitVec 12

/-- The number of entries of the second-level TLB (R301). -/
def tlbEntries : Nat := 2048

/-- The number of entries of the first-level TLB (R301). -/
def tlbFirst : Nat := 64

/-- The lines of the adapter's 16 MiB cache (R339). -/
def adapterLines : Nat := 262144

/-- FREE VALUE (log 9). The set of its hearth slice in which a line stands, modulo 32,768: the spec gives the number of sets
and not the bits that choose one (R172). -/
opaque sliceSet : Nat → Nat

/-- FREE VALUE (log 9). Which entry of a full set a hearth slice evicts, by the step and the line it takes in (R172). -/
opaque sliceVictim : Nat → Nat → Nat

end Sys2Proof.Config
end

