-- ==== Sys2Proof/Machine/Sparse.lean ====
section
/-! DEFINITION. Machine/Sparse.lean: maps from numbers to values held as lists in one canonical form: keys
strictly rising, and no entry equal to the default, so equal maps are equal lists. Memory, bench, register rows
and home records use them. -/

namespace Sys2Proof.Machine

/-- A map from Nat held as a list. -/
abbrev Sparse (α : Type) := List (Nat × α)

/-- The value at k; an unlisted key holds the default d. -/
def sparseGet {α : Type} (d : α) : Sparse α → Nat → α
  | [], _ => d
  | (k', v) :: m, k => if k' < k then sparseGet d m k else if k' = k then v else d

/-- Write v at k: writing the default removes the entry. -/
def sparseSet {α : Type} [DecidableEq α] (d : α) : Sparse α → Nat → α → Sparse α
  | [], k, v => if v = d then [] else [(k, v)]
  | (k', v') :: m, k, v =>
    if k' < k then (k', v') :: sparseSet d m k v
    else if k' = k then (if v = d then m else (k, v) :: m)
    else if v = d then (k', v') :: m else (k, v) :: (k', v') :: m

/-- The canonical form, for keys not below lo. -/
def sparseWfFrom {α : Type} [DecidableEq α] (d : α) : Nat → Sparse α → Bool
  | _, [] => true
  | lo, (k, v) :: m => lo ≤ k && v != d && sparseWfFrom d (k + 1) m

/-- The canonical form. -/
def sparseWf {α : Type} [DecidableEq α] (d : α) (m : Sparse α) : Bool := sparseWfFrom d 0 m

/-- Drop every entry whose key satisfies p. -/
def sparseDrop {α : Type} (p : Nat → Bool) (m : Sparse α) : Sparse α := m.filter (fun e => !p e.1)

/-- A set of numbers: a rising list without repeats. -/
abbrev NatSet := Sparse Bool

/-- Membership. -/
def natSetHas (s : NatSet) (k : Nat) : Bool := sparseGet false s k
/-- Put k in or take it out. -/
def natSetPut (s : NatSet) (k : Nat) (b : Bool) : NatSet := sparseSet false s k b

/-- Update the first element that satisfies p, or append the new one. -/
def upsert {α : Type} (p : α → Bool) (f : α → α) (new : α) : List α → List α
  | [] => [new]
  | x :: xs => if p x then f x :: xs else x :: upsert p f new xs

/-- The numbers from a up to but not including a + n. -/
def natRange (a n : Nat) : List Nat := (List.range n).map (a + ·)

end Sys2Proof.Machine
end

