-- ==== Sys2Proof/Machine/State.lean ====
section
/-! DEFINITION. Machine/State.lean: the state as plain data, holding every piece of state the spec gives the
machine, the reasons a step can stop, and the state after reset. INVENTORY.md lists each field with the rule that
names it. -/

namespace Sys2Proof.Machine

/-- A prsv that waits for its answer: its registers and what it sampled at issue (11:R231, R247, 13:R288). -/
structure PrsvOp where
  d : GReg
  a : GReg
  b : GReg
  mode : BitVec 21
  vl : BitVec 20
  vstart : Nat
  srseed : Word
  srcount : Word
  ga : Word
  gb : Word
  deriving DecidableEq, Repr

/-- What the hart is doing. -/
inductive RunState where
  /-- No task runs on the hart (12:R262, R272). -/
  | idle
  /-- Instructions execute at PC. -/
  | running
  /-- The instruction at PC waits for the answer to a fault record (16:R304, R306). -/
  | parked (fid : BitVec 32)
  /-- The arrival at the gang barrier is recorded (12:R265). -/
  | barrier
  /-- A tbwait at PC whose condition does not hold: destination, barrier address, phase and prefix (11:R243). -/
  | waitTb (d : GReg) (tb : Addr) (phase : BitVec 4) (llmin : BitVec 32)
  /-- A prsv before PC waits for its answer in g(d) (11:R247). -/
  | waitPrsv (p : PrsvOp)
  /-- An idle before PC watches a line, none when only the time limit ends it; hit once another agent's write to the
  line has been performed (16:R316). -/
  | watch (line : Option Nat) (hit : Bool)
  /-- The tend has arrived at the barrier and waits for its release (12:R272). -/
  | ending
  deriving DecidableEq, Repr

/-- How an instruction word's address was used, for fault records (16:R305). -/
inductive FaultAccess where
  | read | write | fetch | atomic
  deriving DecidableEq, Repr

/-- Which path met a fault (16:R305). -/
inductive FaultSource where
  | fetch | scalar | vector | frame | peel
  deriving DecidableEq, Repr

/-- The copy of the context descriptor's queues read when the task last started or resumed (16:R295). -/
structure Descriptor where
  faultq : BitVec 12
  acqueue : BitVec 12
  acx : BitVec 4
  deriving DecidableEq, Repr

/-- The overflow area of a context, as its descriptor gave it when a task of it last started or resumed (16:R295,
17:R327). -/
structure Area where
  base : Word
  size : Word
  deriving DecidableEq, Repr

/-- An arrival of this hart at the gang barrier (12:R265, R287). -/
structure Pending where
  kind : SyncKind
  operand : Word
  dest : GReg
  word : IWord
  deriving DecidableEq, Repr

/-- An instruction word that a write since the last ifence has replaced, as the hart's fetch under hyp saw it before
(02:R33): DPA / 4, and the old word. -/
structure StaleWord where
  word : Nat
  hyp : BitVec 12
  old : BitVec 32
  deriving DecidableEq, Repr

/-- The hart: control processor registers (02:R41, R45) and the scalar state of the task it runs. -/
structure Hart where
  run : RunState
  /-- PC (02:R32). -/
  pc : Addr
  /-- g0 to g31 (02:R41); g0 is read through State.g. -/
  g : Vector Word 32
  /-- MODE (02:R47). -/
  mode : BitVec 21
  vl : BitVec 20
  vstartArm : Bool
  vstartIdx : BitVec 20
  vlmax : BitVec 20
  vlceil : BitVec 20
  lanesW : BitVec 4
  lanesWays : BitVec 8
  rds : Word
  vfsr : BitVec 5
  vdirty : BitVec 16
  pdirty : BitVec 32
  srseed : Word
  srcount : Word
  fcrShape : BitVec 2
  fcrFe : BitVec 16
  fsr : BitVec 5
  ltime : BitVec 16
  lease : BitVec 8
  syncst : BitVec 20
  /-- The largest wts returned to a read since the last fence.acq or gbar (09:R205). -/
  maxRead : Option (BitVec 16)
  hyp : BitVec 12
  hypdepth : BitVec 4
  lockq : BitVec 13
  wcount : BitVec 32
  act : BitVec 2
  trapcause : BitVec 8
  trappc : Addr
  trapval : Word
  trapvec : Addr
  /-- STATUS.TH, SYS, MAINT, SNAP and RACECHK (16:R310). -/
  th : Bool
  sys : Bool
  maint : Bool
  snap : Bool
  racechk : Bool
  ptroot : Addr
  csaptr : Addr
  savepc : Addr
  gangid : BitVec 20
  gidx : BitVec 10
  gsize : BitVec 10
  taskrec : Addr
  prio : BitVec 3
  ctxid : BitVec 8
  instret : Word
  rbTotal : BitVec 32
  rbCur : BitVec 2
  desc : Descriptor
  /-- COOKIE and CSA of the record, and the queue it was popped from (12:R257, R273). -/
  cookie : Word
  csa : Addr
  queue : BitVec 12
  /-- The arrival recorded at the pending synchronising instruction (12:R265). -/
  arrival : Option Pending
  /-- The virtual address, access and reason of the parked instruction's record (16:R305). -/
  faultVa : Addr
  /-- A refutation whose orphan trap is still to be taken: the refuted id (17:R335). -/
  orphan : Option (BitVec 12)
  /-- An array data error still to be taken: PC of the detecting instruction (21:R361). -/
  arrayError : Option Word
  /-- The gang is in ROLLBACK: a trigger arrived and the restore is not complete (21:R366, R367). -/
  trigger : Bool
  /-- Debugger halt and armed brk (23:R391). -/
  halted : Bool
  brkArmed : Bool
  /-- Words written after they may have been fetched, with their old contents, until ifence (02:R33). -/
  stale : List StaleWord
  deriving DecidableEq, Repr

/-- Mode of a way (08:R165). -/
inductive WayMode where
  | cache | bench | array
  deriving DecidableEq, Repr

/-- A way of the core (08:R165, R166). -/
structure Way where
  mode : WayMode
  ctx : BitVec 8
  deriving DecidableEq, Repr

/-- State of a cached line; I is absence (08:R169). -/
inductive LineState where
  | v | o | d
  deriving DecidableEq, Repr

/-- A line held in a CACHE way (08:R167, R169, R185, 17:R324): line number DPA / 64, the HYP it was served
under, timestamps, data, poisoned words, the contexts that lock it, and when it was last used. -/
structure Line where
  way : BitVec 3
  line : Nat
  hyp : BitVec 12
  st : LineState
  wts : BitVec 16
  rts : BitVec 16
  data : BitVec 512
  poison : BitVec 8
  lock : List (BitVec 8)
  use : Nat
  deriving DecidableEq, Repr

/-- Memory type of an access after translation (16:R299); hostUc by the adapter's HUC (18:R341). -/
inductive MemType where
  | wb | uc | host | hostUc | peer
  deriving DecidableEq, Repr

/-- Where an access goes: a bench offset, or a DPA with its type and whether the leaf counts (16:R307). -/
inductive Target where
  | bench (off : Nat)
  | mem (dpa : Nat) (mt : MemType) (cnt : Bool)
  deriving DecidableEq, Repr

/-- A store in the store queue (10:R215): target, size in bytes, value, the HYP it carries, and for an ast its
ordering and scope. -/
structure QStore where
  target : Target
  size : Nat
  value : Word
  hyp : BitVec 12
  atomic : Option (MemOrd × Scope)
  pc : Addr
  deriving DecidableEq, Repr

/-- An array, rod-tree, vector-memory or frame instruction that has issued, with what it sampled (05:R97,
07:R155, 13:R288). -/
structure UnitOp where
  instr : Instr
  pc : Addr
  mode : BitVec 21
  vl : Nat
  vstart : Nat
  srseed : Word
  srcount : Word
  shape : BitVec 2
  fe : BitVec 16
  gd : Word
  gd1 : Word
  ga : Word
  gb : Word
  hyp : BitVec 12
  /-- Counted in the check column's instruction count (21:R360). -/
  started : Bool
  /-- Waits for the answer to this fault record, about this address (10:R227, 07:R158, R163). -/
  parked : Option (BitVec 32 × Addr)
  unresolved : Bool
  /-- An access within a slot or a 64-byte block waits, so a stop must wait for its end (07:R163, 10:R230). -/
  busy : Bool
  /-- Elements of the rows of the k-step or group that have been read from memory so far (07:R157). -/
  got : List Nat
  /-- Refilled by a resume: its unit completes it before it accepts new instructions (13:R285). -/
  restored : Bool
  /-- Of a vector store whose remaining elements have all been translated and checked: each of them with the store it is, not
  yet performed; none before (10:R224). -/
  checked : Option (List (Nat × QStore))
  deriving DecidableEq, Repr

/-- A peel operation, queued or active (11:R231, R236). -/
structure PeelOp where
  /-- Names the operation among those resident. -/
  id : Nat
  instr : Instr
  pc : Addr
  mode : BitVec 21
  vl : Nat
  vstart : Nat
  srseed : Word
  srcount : Word
  gd : Word
  gd1 : Word
  ga : Word
  gb : Word
  /-- The implicit superstep hypothesis under which it was issued, 0 for none (11:R240). -/
  hyp : BitVec 12
  /-- Phase index of element VSTART on its barrier (11:R236). -/
  base : Nat
  /-- Elements when it was issued, n of 11:R236. -/
  count : Nat
  /-- Old bytes, by virtual address, that a copy has overwritten and an overlapping element may still take
  (11:R240). -/
  old : List (Nat × Byte)
  active : Bool
  /-- Indices of elements moved but not landed: sent to a pan and not acknowledged (11:R248). -/
  sent : List Nat
  /-- For an rrot, how many elements of the predecessor are still to come, and which have come above the lowest that has not
  (09:R210, 11:R251). -/
  incoming : Nat
  arrived : NatSet
  parked : Option (BitVec 32 × Addr)
  unresolved : Bool
  /-- For an rrot, its outgoing side has ended. -/
  ended : Bool
  /-- The flits of a put have left (11:R248). -/
  gone : Bool
  /-- Elements above VSTART that have been moved before it: the elements of an operation are not ordered among
  themselves (09:R210). -/
  moved : NatSet
  /-- A save found every element started, so the operation stayed behind and is not saved or waited for (11:R254). -/
  out : Bool
  /-- Refilled by a resume: the engine completes it before it accepts new operations (13:R285). -/
  restored : Bool
  deriving DecidableEq, Repr

/-- What a barrier's engine remembers beside its 16 bytes: elements counted so far in the phase, and the phase
indices that have landed above the prefix (11:R236). -/
structure TbTrack where
  off : Nat
  base : Nat
  landed : NatSet
  deriving DecidableEq, Repr

/-- State of a pan (11:R245). -/
inductive PanState where
  | free | resv | fill | full | poison
  deriving DecidableEq, Repr

/-- The record of a pan (11:R245, R246); port is where the holder's puts arrive, none over the mesh. finalPut:
a final put has been counted. -/
structure Pan where
  st : PanState
  seq : BitVec 16
  landed : Nat
  htag : BitVec 16
  hcore : BitVec 9
  hpkg : BitVec 12
  port : Option Port
  finalPut : Bool
  deriving DecidableEq, Repr

/-- A put that is landing at a pan of this core (11:R248, R249, 21:R363, 22:R383): who sends it and how, what its
header said, the bytes landed and their sum, whether it was refused, and whether the core was reset under it. -/
structure Landing where
  spkg : BitVec 12
  port : Option Port
  ref : PanRef
  base : Nat
  count : Nat
  final : Bool
  residue : BitVec 16
  done : Nat
  sum : Nat
  refused : Bool
  gone : Bool
  deriving DecidableEq, Repr

/-- The core's rack (11:R244): owner context, base and barrier array as bench offsets, pan size, pans. -/
structure Rack where
  ctx : BitVec 8
  base : Nat
  tbs : Nat
  panSize : Nat
  pans : List Pan
  deriving DecidableEq, Repr

/-- A cached translation (16:R301): context, page number and its size in address bits, leaf fields. -/
structure TlbEntry where
  ctx : BitVec 8
  va : Nat
  bits : Nat
  pa : Nat
  mt : BitVec 2
  r : Bool
  w : Bool
  x : Bool
  sysp : Bool
  cnt : Bool
  /-- DPA of the leaf and whether its D bit is known set. -/
  leaf : Nat
  dirty : Bool
  deriving DecidableEq, Repr

/-- The open window's pair (07:R145, R287). -/
inductive WinPair where
  | none | ss | su | uu
  deriving DecidableEq, Repr

/-- The three residue channels of a cell (07:R141). -/
structure Chan where
  a : BitVec 8
  b : BitVec 8
  c : BitVec 9
  deriving DecidableEq, Repr

/-- Hart state captured at a superstep's opening release (12:R266): the general registers, PC and the scalar
state that the task start sets, by name or to zero (12:R264, log 92). peelMark is the first identifier of a peel operation
issued in the superstep; tbs, what the engine kept of the barriers (11:R236); spoilt, that the captured state holds an
uncorrectable word (21:R367). -/
structure Captured where
  g : Vector Word 32
  pc : Addr
  mode : BitVec 21
  vl : BitVec 20
  vlmax : BitVec 20
  vlceil : BitVec 20
  rds : Word
  srseed : Word
  srcount : Word
  fcrShape : BitVec 2
  fcrFe : BitVec 16
  lease : BitVec 8
  act : BitVec 2
  wcount : BitVec 32
  th : Bool
  trapcause : BitVec 8
  trappc : Addr
  trapval : Word
  trapvec : Addr
  peelMark : Nat
  tbs : List TbTrack
  spoilt : Bool
  deriving DecidableEq, Repr

/-- A shadowed bench granule (17:R337): its bytes, owner bit, invalid and poisoned words at the first write; slot is the
first of the 33 overflow slots it holds, none until they are taken. -/
structure Shadow where
  gran : Nat
  bytes : Sparse Byte
  engine : Bool
  invalid : NatSet
  poison : NatSet
  slot : Option Nat
  deriving DecidableEq, Repr

/-- A record held for a report ring (18:R344): ring and the 32 bytes as four words. -/
structure RingRecord where
  ring : BitVec 12
  w0 : Word
  w1 : Word
  w2 : Word
  w3 : Word
  deriving DecidableEq, Repr

/-- A queue slot that a SNAP superstep of a gang has reserved: the queue and the record (12:R273). -/
structure Reserved where
  gangid : BitVec 20
  queue : BitVec 12
  words : List Word
  deriving DecidableEq, Repr

/-- The core: ways and what they hold, the units' queues, the peel engine, caches of translations, the error
registers. -/
structure Core where
  /-- The core's number, 0x000 to 0x1FF (01:R17, log 1). -/
  num : BitVec 9
  ways : Vector Way 8
  /-- Rows of v0 to v15: key k * 2^17 + way * 2^14 + lane in the way; the 32 rows of one lane (02:R43, R52). -/
  vrows : Sparse (BitVec 32)
  /-- Rows of p1 to p31, same keys; the 4 rows of one lane (02:R44). -/
  prows : Sparse (BitVec 4)
  lines : List Line
  /-- Counts uses of lines, for the least recently used choice (08:R167). -/
  useClock : Nat
  /-- Bench bytes by window offset, words whose valid bit is clear, granules owned by ENGINE (08:R173, R174). -/
  bench : Sparse Byte
  benchInvalid : NatSet
  benchEngine : NatSet
  benchPoison : NatSet
  /-- Frame cells, channels, window count and open pair (07:R140, R141, R145, R146). -/
  cells : Sparse (BitVec 64)
  chans : Sparse Chan
  winCount : Nat
  winPair : WinPair
  storeQ : List QStore
  /-- Fault records of parked agents that have not reached a report ring (16:R306). -/
  faultRecs : List RingRecord
  /-- Reports of discarded gangs that wait until the gang's accesses have been performed (21:R370). -/
  reports : List RingRecord
  units : List UnitOp
  /-- Invalid bench words that the vector load in progress has counted, and, from (k + 1) * 2^21 on, that row k of the mmo.st in
  progress has (08:R175). -/
  counted : NatSet
  peel : List PeelOp
  peelIds : Nat
  tbs : List TbTrack
  rack : Option Rack
  /-- The rack's context was destroyed and no rack was defined since (11:R247, R249). -/
  rackGone : Bool
  landing : List Landing
  /-- The second-level TLB, the last used entry first, and the 64 entries of the first level (16:R301, log 11). -/
  tlb : List TlbEntry
  tlb1 : List TlbEntry
  /-- Pages walked for the vector, peel and frame instructions in progress: each is walked once (16:R301). -/
  walks : List TlbEntry
  /-- Lines that the L1 data and instruction caches hold, with the HYP of the copy, the last used first (08:R168). -/
  l1d : List (Nat × BitVec 12)
  l1i : List (Nat × BitVec 12)
  /-- VV, PV and FV of the member's save area (13:R287). -/
  vv : BitVec 16
  pv : BitVec 32
  fv : Bool
  /-- ERRSTAT and ERRADDR (21:R371, R373). -/
  cecnt : BitVec 16
  uesrc : BitVec 4
  uectx : BitVec 8
  ovf : Bool
  ue : Bool
  ce : Bool
  erraddr : Word
  /-- CHKCTL (21:R374). -/
  inj : BitVec 4
  injArm : Bool
  /-- Array instructions started since package reset, modulo 256 (21:R360). -/
  arrayCount : BitVec 8
  /-- Array rows whose stored parity does not match, by way, subarray and row (01:R22, 21:R360). -/
  badRows : NatSet
  /-- Single-bit errors not yet read: bench words, and words of lines in CACHE ways by DPA / 8 (21:R358, R374). -/
  softBench : NatSet
  softLine : NatSet
  /-- Faults that strike the next array slot's check, the next frame contribution (true: on the exponent path), or the next
  line a home answers with; frame cells whose residue does not match (21:R357, R360, R362). -/
  columnFault : Bool
  productFault : Option Bool
  meshFault : Bool
  badCells : NatSet
  /-- SNAP superstep: captured state, shadows, queue slots reserved by spawn, qput and join (12:R266, R273). -/
  captured : Option Captured
  shadows : List Shadow
  reserved : List Reserved
  /-- Core reset in progress and power gating (23:R393, R396). -/
  inReset : Bool
  gated : Bool
  deriving DecidableEq, Repr

/-- A line at its home (09:R203): timestamps and the core that owns it. -/
structure HomeLine where
  wts : BitVec 16
  rts : BitVec 16
  owner : Option (BitVec 9)
  deriving DecidableEq, Repr

/-- Where a version is held while it is not in an overflow slot (17:R326). -/
inductive Place where
  | way (w : BitVec 3)
  | home
  | other (core : BitVec 9)
  deriving DecidableEq, Repr

/-- A version of a line (17:R324). Versions in overflow slots are read from memory (17:R327). -/
structure Version where
  line : Nat
  id : BitVec 12
  mask : BitVec 64
  data : BitVec 512
  poison : BitVec 8
  place : Place
  /-- The contexts that lock it in its way (08:R169, R177). -/
  lock : List (BitVec 8)
  use : Nat
  deriving DecidableEq, Repr

/-- State of a hypothesis (17:R320). -/
inductive HypState where
  | free | open | merged | refuted
  deriving DecidableEq, Repr

/-- An entry of the hypothesis table (17:R320). -/
structure HypEntry where
  parent : BitVec 12
  depth : BitVec 4
  owner : BitVec 8
  st : HypState
  deriving DecidableEq, Repr

/-- One side of a race record (09:R198), with the hypothesis of the access. -/
structure RaceSide where
  core : BitVec 9
  stamp : BitVec 20
  mask : BitVec 8
  hyp : BitVec 12
  deriving DecidableEq, Repr

/-- A race record of an 8-byte word (09:R198). -/
structure RaceRec where
  writer : Option RaceSide
  reader : Option RaceSide
  deriving DecidableEq, Repr

/-- What a grant request asks for (13:R280): a popped record or a saved gang. -/
inductive GrantKind where
  | record (queue : BitVec 12) (words : List Word)
  | resume (gangid : BitVec 20)
  deriving DecidableEq, Repr

/-- A grant request: level now, order of first entry (13:R279, R280). -/
structure GrantReq where
  kind : GrantKind
  /-- The level at which it was popped (13:R278). -/
  popped : BitVec 3
  level : BitVec 3
  order : Nat
  ages : Bool
  disp : BitVec 2
  deriving DecidableEq, Repr

/-- A parked agent of a SAVED gang: its FID, the DPA of its operation entry, 0 for the hart itself, the address of the
fault, and whether the host declared it unresolved (13:R285, R288). -/
structure SavedFault where
  fid : BitVec 32
  entry : Nat
  va : Addr
  unresolved : Bool
  deriving DecidableEq, Repr

/-- A SAVED gang with a member on the modelled core (13:R284). -/
structure SavedGang where
  gangid : BitVec 20
  gsize : BitVec 10
  gidx : BitVec 10
  ctxid : BitVec 8
  level : BitVec 3
  csa : Addr
  queue : BitVec 12
  stamp : BitVec 20
  hyp : BitVec 12
  snap : Bool
  racechk : Bool
  cookie : Word
  rbTotal : BitVec 32
  rbCur : BitVec 2
  awaysW : BitVec 4
  bways : BitVec 8
  halted : Bool
  captured : Option Captured
  shadows : List Shadow
  /-- The largest wts returned since the last fence.acq or gbar, as Hart.maxRead. -/
  maxRead : Option (BitVec 16)
  /-- The arrival recorded at the pending synchronising instruction, of this hart and of other members. -/
  arrival : Option Pending
  arrivals : List Arrival
  ended : NatSet
  /-- The hart waited for the release of its tend. -/
  ending : Bool
  /-- What the operation entries do not hold: the order of the unit entries, true for the frame queue; whether the
  first had been counted for the check column; the peel operations as they were. -/
  order : List Bool
  headStarted : Bool
  peel : List PeelOp
  /-- The parked agents and their records (13:R285, R290). -/
  fids : List SavedFault
  /-- A prsv that waits for its answer: the DPA of its entry (11:R247, 13:R288). -/
  prsv : Option Nat
  /-- What the engine keeps of the barriers in the saved bench ways, and the words that a vector load or mmo.st under way has
  counted (11:R236, 08:R175). -/
  tbs : List TbTrack
  counted : NatSet
  orphan : Option (BitVec 12)
  /-- Its resume request has been granted. -/
  granted : Bool
  deriving DecidableEq, Repr

/-- State of a Poerius port (22:R380, R381). -/
inductive PortState where
  | up | down | lost
  deriving DecidableEq, Repr

/-- A flit sent and not yet acknowledged (22:R379): its SEQ, destination, payload, how often it was sent, for
a put of this core the operation and the phase indices that land when it is acknowledged (22:R378), and for a peer write
the CTXID and COOKIE of the task that made it (18:R345). -/
structure SentFlit where
  seq : BitVec 12
  dpkg : BitVec 12
  payload : Payload
  times : Nat
  lands : Option (Nat × List Nat)
  ctx : BitVec 8
  cookie : Word
  deriving DecidableEq, Repr

/-- A flit as its 256 bytes leave: header words 0 and 1 and the payload bytes (22:R376). -/
structure WireFlit where
  w0 : Word
  w1 : Word
  body : List Byte
  deriving DecidableEq, Repr

/-- A Poerius port (22:R377 to R382): state, active lane group, next SEQ, expected SEQ, last SEQ performed, the
replay buffer with how often each flit was sent, held new flits, the outstanding replay request; the flits accepted and not yet
performed, the oldest first; the flits that the last step in which the port sent has put on its lanes; and whether the far end
has begun a new session, or lost the port, while this package stood frozen (23:R389). -/
structure PortRec where
  st : PortState
  group : LaneGroup
  nextSeq : BitVec 12
  expected : BitVec 12
  acked : Option (BitVec 12)
  buffer : List SentFlit
  waiting : List SentFlit
  nkOut : Bool
  ackDue : Bool
  held : List Flit
  lanes : List WireFlit
  farLost : Bool
  deriving DecidableEq, Repr

/-- Who asks a peer package: the hart itself, a unit or the peel engine. -/
inductive PeerAsker where
  | hart | unit | engine
  deriving DecidableEq, Repr

/-- A request to a peer package (18:R352): the DPA here and at the peer, the port it left by, size, who asks, the atomic it
carries (10:R220), and the reply once it has come. -/
structure PeerWait where
  dpa : Nat
  remote : Nat
  port : Port
  size : Nat
  who : PeerAsker
  op : Option PeerAtomic
  answer : Option PeerReply
  deriving DecidableEq, Repr

/-- A reservation request sent and not yet answered: the gang whose prsv it is, none when that has been discarded or undone,
the port it left by, none over the mesh, and the package asked (11:R247). -/
structure PrsvOut where
  gangid : Option (BitVec 20)
  port : Option Port
  pkg : BitVec 12
  deriving DecidableEq, Repr

/-- Attestation evidence (23:R395): the requester's nonce, STAT, the digest of the firmware and the fuse state. -/
structure Evidence where
  nonce : BitVec 256
  stat : BitVec 8
  firmware : List Byte
  fuses : List Byte
  deriving DecidableEq, Repr

/-- An access counter (16:R307): the count, and whether a write was counted since it restarted (18:R347). -/
structure Counter where
  n : BitVec 16
  wr : Bool
  deriving DecidableEq, Repr

/-- Units of the package shared by all cores. -/
structure Pkg where
  /-- Committed contents of HBM, pantry and the host window at their homes, and of the peer window as last told
  (08:R170, 18:R341); unlisted bytes read 0 (log 5). -/
  mem : List Host.Cell
  /-- Poisoned 8-byte words of memory, by DPA / 8 (21:R359). -/
  memPoison : NatSet
  /-- Words of slices, HBM, pantry and host memory with a single-bit error, and with an uncorrectable one that nothing has
  met yet, by DPA / 8 (21:R357, R358). -/
  memSoft : NatSet
  memHard : NatSet
  /-- UESRC of poison by DPA / 8, 0 for poison made elsewhere (21:R372). -/
  poisonSrc : Sparse (BitVec 4)
  homes : Sparse (Option HomeLine)
  /-- The floor of each home: slices 0 to 31, then the pantry controllers (09:R399). -/
  floors : Vector (BitVec 16) 40
  /-- Horizon P and the largest wts assigned or requested since reset (09:R206). -/
  horizon : BitVec 16
  maxWts : BitVec 16
  /-- HR, and the lines the adapter's cache holds, the last fetched first (18:R339, R342). -/
  hr : BitVec 16
  hostHeld : List Nat
  hyps : Sparse HypEntry
  versions : List Version
  /-- The overflow areas, by CTXID (17:R327). -/
  areas : Sparse Area
  races : Sparse RaceRec
  stamp : BitVec 20
  /-- Stamps that gangs without a member on this core hold (09:R199). -/
  otherStamps : List (BitVec 20)
  /-- The adapter window (18:R340). -/
  qdtbase : Addr
  /-- Queues may be enabled: a package reset leaves every queue with EN = 0 until the host gives a table (23:R392). -/
  queuesOn : Bool
  cdtbase : Addr
  rrtbase : Addr
  prtbase : Addr
  sysring : BitVec 12
  mypkg : BitVec 12
  huc : BitVec 64
  rhead : Sparse (BitVec 64)
  rtail : Sparse (BitVec 64)
  biasPage : Addr
  biasCmd : BitVec 2
  biasBusy : Bool
  /-- Pages in host bias (18:R349). -/
  hostBias : NatSet
  ring : List RingRecord
  nextFid : BitVec 32
  counters : Sparse Counter
  /-- Contexts destroyed by CTXKILL (18:R346). -/
  killed : NatSet
  /-- Dispatchers: last queue popped at key dispatcher * 8 + level (13:R278), and the requests (13:R280). -/
  lastPop : Sparse Nat
  requests : List GrantReq
  nextOrder : Nat
  waits : Sparse Nat
  /-- Members of the modelled hart's gang that have arrived, and those that have ended, by gang index
  (12:R265). -/
  arrivals : List Arrival
  ended : NatSet
  saved : List SavedGang
  /-- Outstanding pre-emption of the running gang (13:R282). -/
  saving : Bool
  ports : Vector PortRec 8
  /-- Reservation requests whose answers have not come, the oldest first. -/
  prsvOut : List PrsvOut
  peerWaits : List PeerWait
  /-- Mbofeura: FROZEN, HARD, AUTH, DBGW, selected chain, QTAIL writes held over a freeze (23:R385, R387). -/
  frozen : Bool
  hard : Bool
  auth : Bool
  dbgw : Bool
  freezing : Bool
  chain : BitVec 16
  heldTails : List (BitVec 12 × Word)
  /-- Host CXL.mem requests that the adapter holds over a freeze (23:R387). -/
  heldReqs : List (Nat × Option (List Byte))
  /-- What the last STAT captured, and how many challenges its data phase has returned (23:R385, R386). -/
  statData : BitVec 8
  challenges : Nat
  /-- A thermal or power freeze awaits its package reset (23:R396). -/
  thermal : Bool
  /-- The evidence last made (23:R395). -/
  evidence : Option Evidence
  deriving DecidableEq, Repr

/-- What harts of other cores do at the hypothesis unit and at the stamp counter (17:R320, 09:R199). -/
inductive OtherAct where
  /-- hopen under parent, by a hart of context ctx (17:R330). -/
  | hopen (ctx : BitVec 8) (parent : BitVec 12)
  /-- hres.confirm of h by a hart of context ctx on a core, whose LTIME is t (17:R332 to R334). -/
  | confirm (ctx : BitVec 8) (core : BitVec 9) (h : BitVec 12) (t : BitVec 16)
  /-- hres.refute of h by a hart of context ctx whose own HYP is own (17:R332, R335). -/
  | refute (ctx : BitVec 8) (own h : BitVec 12)
  /-- A gang with no member here draws a stamp, in place of the one it held (09:R199). -/
  | drawStamp (old : Option (BitVec 20))
  /-- Such a gang ends. -/
  | dropStamp (old : BitVec 20)
  /-- A member of the running gang on another core meets a rollback trigger, which for the fourth time discards the gang with
  this CAUSE, VAL and PC (21:R366, R367). -/
  | trigger (core : BitVec 9) (cause : BitVec 8) (val pc : Word)
  /-- A member of the running gang on another core meets what discards the gang: a fatal trap, or a save that fails (21:R367,
  16:R308). -/
  | discard (core : BitVec 9) (cause : BitVec 8) (val pc : Word)
  /-- A task of a context starts or resumes on another core, which reads its descriptor (16:R295, 17:R327). -/
  | start (ctx : BitVec 8)
  /-- A tlbi of another core at package scope: of one page or all, of one context or all (16:R318, R319). -/
  | tlbi (ctx : Option (BitVec 8)) (va : Option Addr)
  deriving DecidableEq, Repr

/-- A natural error, where it strikes (21:R357): single-bit and double-bit flips of a word, an odd flip of an array row
segment, lane logic, frame contributions and cells, the captured state of a superstep, and the mesh. -/
inductive HwError where
  | l1
  | line (line : Nat) (hyp : BitVec 12) (word : BitVec 3) (double : Bool)
  | tag (line : Nat) (hyp : BitVec 12)
  | bench (word : Nat) (double : Bool)
  | memory (word : Nat) (double : Bool)
  | row (way : BitVec 3) (sub : BitVec 6) (row : BitVec 10)
  | column
  | product (exponent : Bool)
  | cell (n : BitVec 12)
  | register
  | captured
  | meshRetry
  | meshData
  | meshLost
  deriving DecidableEq, Repr

/-- Who moves next (log 2): the hart, a named event of the package or the outside, a hart of another core, or an error. -/
inductive Turn where
  | hart
  | event (i : Instr)
  | other (a : OtherAct)
  | error (e : HwError)
  deriving DecidableEq, Repr

/-- The whole machine. turns and tick are the model's own (log 2, log 4). -/
structure State where
  hart : Hart
  core : Core
  pkg : Pkg
  turns : List Turn
  tick : Nat
  deriving DecidableEq, Repr

/-- Change the hart. -/
def State.mapHart (s : State) (f : Hart → Hart) : State := { s with hart := f s.hart }
/-- Change the core. -/
def State.mapCore (s : State) (f : Core → Core) : State := { s with core := f s.core }
/-- Change the package. -/
def State.mapPkg (s : State) (f : Pkg → Pkg) : State := { s with pkg := f s.pkg }

/-- Why the machine stops with a fault. There is no such reason: every error that the spec names is taken as the trap,
rollback, discard, report or status it describes, so no step ends in a fault. Safe. -/
inductive Fault where
  deriving DecidableEq, Repr

/-- Why an instruction has no meaning here. -/
inductive Refusal where
  /-- Raised by exec for an instruction whose meaning is not written yet. Safe. -/
  | notModelled (mnemonic : String)
  deriving DecidableEq, Repr

/-- How a step of this machine ends. -/
abbrev Result := Host.Outcome State Fault Refusal

/-! ### Reset (23:R392). -/

/-- The hart after package reset: Reset columns of the field maps; where there is none, 0 (log 3). -/
def Hart.reset : Hart where
  run := .idle
  pc := 0
  g := Vector.replicate 32 0
  mode := 0
  vl := 0
  vstartArm := false
  vstartIdx := 0
  vlmax := 65536#20
  vlceil := 65536#20
  lanesW := 1
  lanesWays := 0x02#8
  rds := 0
  vfsr := 0
  vdirty := 0
  pdirty := 0
  srseed := 0
  srcount := 0
  fcrShape := 0
  fcrFe := 0
  fsr := 0
  ltime := 0
  lease := 16
  syncst := 0
  maxRead := none
  hyp := 0
  hypdepth := 0
  lockq := 0
  wcount := 0
  act := 0
  trapcause := 0
  trappc := 0
  trapval := 0
  trapvec := 0
  th := false
  sys := false
  maint := false
  snap := false
  racechk := false
  ptroot := 0
  csaptr := 0
  savepc := 0
  gangid := 0
  gidx := 0
  gsize := 1
  taskrec := 0
  prio := 0
  ctxid := 0
  instret := 0
  rbTotal := 0
  rbCur := 0
  desc := { faultq := 0, acqueue := 0, acx := 0 }
  cookie := 0
  csa := 0
  queue := 0
  arrival := none
  faultVa := 0
  orphan := none
  arrayError := none
  trigger := false
  halted := false
  brkArmed := false
  stale := []

/-- The core after package reset: every way CACHE and empty, every queue empty (23:R392). Its number is 0 here (log 1). -/
def Core.reset : Core where
  num := 0
  ways := Vector.replicate 8 { mode := .cache, ctx := 0 }
  vrows := []
  prows := []
  lines := []
  useClock := 0
  bench := []
  benchInvalid := []
  benchEngine := []
  benchPoison := []
  cells := []
  chans := []
  winCount := 0
  winPair := .none
  storeQ := []
  faultRecs := []
  reports := []
  units := []
  counted := []
  peel := []
  peelIds := 0
  tbs := []
  rack := none
  rackGone := false
  landing := []
  tlb := []
  tlb1 := []
  walks := []
  l1d := []
  l1i := []
  vv := 0
  pv := 0
  fv := false
  cecnt := 0
  uesrc := 0
  uectx := 0
  ovf := false
  ue := false
  ce := false
  erraddr := 0
  inj := 0
  injArm := false
  arrayCount := 0
  badRows := []
  softBench := []
  softLine := []
  columnFault := false
  productFault := none
  meshFault := false
  badCells := []
  captured := none
  shadows := []
  reserved := []
  inReset := false
  gated := false

/-- A port after package reset: up at full width, sequence numbers 0 (22:R382, log 6). -/
def PortRec.reset : PortRec where
  st := .up
  group := .all
  nextSeq := 0
  expected := 0
  acked := none
  buffer := []
  waiting := []
  nkOut := false
  ackDue := false
  held := []
  lanes := []
  farLost := false

/-- The package after package reset, over the given memory contents, which a reset keeps (23:R392). -/
def Pkg.resetOver (mem : List Host.Cell) (poison : NatSet) (mypkg : BitVec 12) : Pkg where
  mem := mem
  memPoison := poison
  memSoft := []
  memHard := []
  poisonSrc := []
  homes := []
  floors := Vector.replicate 40 0
  horizon := 0
  maxWts := 0
  hr := 0
  hostHeld := []
  hyps := []
  versions := []
  areas := []
  races := []
  stamp := 0
  otherStamps := []
  qdtbase := 0
  queuesOn := false
  cdtbase := 0
  rrtbase := 0
  prtbase := 0
  sysring := 0
  mypkg := mypkg
  huc := 0
  rhead := []
  rtail := []
  biasPage := 0
  biasCmd := 0
  biasBusy := false
  hostBias := []
  ring := []
  nextFid := 0
  counters := []
  killed := []
  lastPop := []
  requests := []
  nextOrder := 0
  waits := []
  arrivals := []
  ended := []
  saved := []
  saving := false
  ports := Vector.replicate 8 PortRec.reset
  prsvOut := []
  peerWaits := []
  frozen := false
  hard := false
  auth := false
  dbgw := false
  freezing := false
  chain := 0
  heldTails := []
  heldReqs := []
  statData := 0
  challenges := 0
  thermal := false
  evidence := none

/-- The machine right after package reset (23:R392, R394). -/
def State.reset : State where
  hart := Hart.reset
  core := Core.reset
  pkg := Pkg.resetOver [] [] 0
  turns := []
  tick := 0

/-- An unlisted hypothesis is FREE (17:R320). -/
def HypEntry.free : HypEntry := { parent := 0, depth := 0, owner := 0, st := .free }

/-- An unlisted context has no overflow area (17:R327). -/
def Area.none : Area := { base := 0, size := 0 }

/-- An unlisted counter is 0 (16:R307). -/
def Counter.zero : Counter := { n := 0, wr := false }

/-- An unlisted word has no race record (09:R198). -/
def RaceRec.empty : RaceRec := { writer := none, reader := none }

/-- Unlisted channels are zero (07:R141). -/
def Chan.zero : Chan := { a := 0, b := 0, c := 0 }

/-- The canonical form of memory: addresses strictly rising, and no byte equal to what an unlisted address reads
as, which is 0 (log 5). -/
def Memory.wf (m : List Host.Cell) : Bool := sparseWf (0 : Byte) m

end Sys2Proof.Machine
end

