-- ==== Sys2Proof/Machine/Memory.lean ====
section
/-! DEFINITION. Machine/Memory.lean: bytes, words and lines of memory, the device physical address map
(08:R170, 18:R341), and the poison that words carry (21:R359). -/

namespace Sys2Proof.Machine

/-! ### Bytes and numbers (00:R6). -/

/-- The n low bytes of v, least significant first. -/
def leBytes : Nat → Nat → List Byte
  | 0, _ => []
  | n + 1, v => BitVec.ofNat 8 v :: leBytes n (v / 256)

/-- The number whose little-endian bytes are given. -/
def ofBytes : List Byte → Nat
  | [] => 0
  | b :: bs => b.toNat + 256 * ofBytes bs

/-- Sign extension of the n low bits to 64. -/
def sext64 (v : Nat) (bits : Nat) : Word := (BitVec.ofNat bits v).signExtend 64

/-! ### Cells. -/

/-- The byte at a DPA; an unlisted byte reads 0 (log 5). -/
def cellGet (m : List Host.Cell) (a : Nat) : Byte := sparseGet (0 : Byte) m a

/-- Write one byte. -/
def cellSet (m : List Host.Cell) (a : Nat) (b : Byte) : List Host.Cell := sparseSet (0 : Byte) m a b

/-- n bytes from a. -/
def cellsGet (m : List Host.Cell) (a : Nat) : Nat → List Byte
  | 0 => []
  | n + 1 => cellGet m a :: cellsGet m (a + 1) n

/-- Write bytes from a upward. -/
def cellsSet (m : List Host.Cell) (a : Nat) : List Byte → List Host.Cell
  | [] => m
  | b :: bs => cellsSet (cellSet m a b) (a + 1) bs

/-- The little-endian number in n bytes from a. -/
def cellsNat (m : List Host.Cell) (a n : Nat) : Nat := ofBytes (cellsGet m a n)

/-! ### Package memory. -/

/-- The n bytes of committed memory at a DPA, as a number. -/
def Pkg.read (p : Pkg) (a n : Nat) : Nat := cellsNat p.mem a n

/-- A 64-bit dword of committed memory. -/
def Pkg.readWord (p : Pkg) (a : Nat) : Word := BitVec.ofNat 64 (p.read a 8)

/-- A write of bytes at a DPA. A whole aligned word replaces poison and errors; a narrower store leaves them (21:R358,
R359). -/
def Pkg.write (p : Pkg) (a : Nat) (bs : List Byte) : Pkg :=
  let whole (w : Nat) : Bool := a ≤ w * 8 && w * 8 + 8 ≤ a + bs.length
  { p with
    mem := cellsSet p.mem a bs
    memPoison := sparseDrop whole p.memPoison
    memSoft := sparseDrop whole p.memSoft
    memHard := sparseDrop whole p.memHard
    poisonSrc := sparseDrop whole p.poisonSrc }

/-- Write the n low bytes of v. -/
def Pkg.writeNat (p : Pkg) (a n v : Nat) : Pkg := p.write a (leBytes n v)

/-- A whole word made from what stood there, as an atomic makes it: its poison stays (00:R5, 21:R359). -/
def Pkg.writeOver (p : Pkg) (a v : Nat) : Pkg :=
  { p.writeNat a 8 v with memPoison := p.memPoison, poisonSrc := p.poisonSrc }

/-- A word within [a, a + n) is poisoned. -/
def Pkg.poisoned (p : Pkg) (a n : Nat) : Bool :=
  p.memPoison.any (fun e => e.1 * 8 < a + n && a < e.1 * 8 + 8)

/-- Mark or clear the poison of the word that holds a. -/
def Pkg.setPoison (p : Pkg) (a : Nat) (b : Bool) : Pkg := { p with memPoison := natSetPut p.memPoison (a / 8) b }

/-! ### The address map (08:R170, 18:R341). -/

/-- What stands at a DPA. -/
inductive Region where
  | hbm | pantry | host | peer
  deriving DecidableEq, Repr

/-- The region of a DPA, none where nothing is (08:R170). -/
def regionOf (a : Nat) : Option Region :=
  if a < 0x80_0000_0000 then some .hbm
  else if 0x0200_0000_0000 ≤ a && a < 0x0400_0000_0000 then some .pantry
  else if 0x0400_0000_0000 ≤ a && a < 0x0800_0000_0000 then some .host
  else if 0x8000_0000_0000 ≤ a && a < 0x1_0000_0000_0000 then some .peer
  else none

/-- Device memory is HBM or pantry. -/
def isDevice (a : Nat) : Bool :=
  match regionOf a with
  | some .hbm => true
  | some .pantry => true
  | _ => false

/-- The hearth slice of an HBM address (08:R171). -/
def sliceOf (x : Nat) : Nat :=
  (x / 2 ^ 12 % 32) ^^^ (x / 2 ^ 17 % 32) ^^^ (x / 2 ^ 22 % 32) ^^^ (x / 2 ^ 27 % 32) ^^^ (x / 2 ^ 32 % 32)
    ^^^ (x / 2 ^ 37 % 4)

/-- The pantry controller of a pantry address (08:R170). -/
def pantryOf (x : Nat) : Nat := (x / 2 ^ 12 % 8) ^^^ (x / 2 ^ 15 % 8) ^^^ (x / 2 ^ 18 % 8)

/-! ### Lines of 64 bytes (08:R167). -/

/-- The eight-word image of a line in committed memory. -/
def Pkg.lineData (p : Pkg) (line : Nat) : BitVec 512 := BitVec.ofNat 512 (p.read (line * 64) 64)

/-- The poison of its eight words. -/
def Pkg.linePoison (p : Pkg) (line : Nat) : BitVec 8 :=
  BitVec.ofNat 8 ((List.range 8).foldl
    (fun n i => n + (if natSetHas p.memPoison (line * 8 + i) then 2 ^ i else 0)) 0)

/-- Replace a line and its poison. -/
def Pkg.putLine (p : Pkg) (line : Nat) (d : BitVec 512) (q : BitVec 8) : Pkg :=
  let p := p.writeNat (line * 64) 64 d.toNat
  (List.range 8).foldl (fun p i => if q.getLsbD i then p.setPoison (line * 64 + i * 8) true else p) p

/-- The number in n bytes at offset o of a line image. -/
def lineNat (d : BitVec 512) (o n : Nat) : Nat := d.toNat / 2 ^ (8 * o) % 2 ^ (8 * n)

/-- A line image with n bytes at offset o replaced. -/
def lineSet (d : BitVec 512) (o n v : Nat) : BitVec 512 :=
  let m := (2 ^ (8 * n) - 1) * 2 ^ (8 * o)
  (d &&& ~~~(BitVec.ofNat 512 m)) ||| BitVec.ofNat 512 (v % 2 ^ (8 * n) * 2 ^ (8 * o))

/-- The poison bits of a line after a store of n bytes at offset o: only a whole word is refreshed (21:R359). -/
def poisonAfter (q : BitVec 8) (o n : Nat) : BitVec 8 :=
  if n = 8 then q &&& ~~~(BitVec.ofNat 8 (2 ^ (o / 8))) else q

/-- A poisoned word lies under n bytes at offset o. -/
def poisonHit (q : BitVec 8) (o n : Nat) : Bool :=
  (List.range 8).any (fun i => q.getLsbD i && i * 8 < o + n && o < i * 8 + 8)

/-- The bit mask of a byte mask. -/
def byteMask (m : BitVec 64) : BitVec 512 :=
  BitVec.ofNat 512 ((List.range 64).foldl (fun n i => n + (if m.getLsbD i then 255 * 2 ^ (8 * i) else 0)) 0)

/-- The bytes of v under the mask over d. -/
def overlay (d v : BitVec 512) (m : BitVec 64) : BitVec 512 :=
  let k := byteMask m
  (d &&& ~~~k) ||| (v &&& k)

/-- Byte mask of n bytes at offset o. -/
def maskOf (o n : Nat) : BitVec 64 := BitVec.ofNat 64 ((2 ^ n - 1) * 2 ^ o)

/-- The words of a line that a mask covers whole. -/
def maskWords (m : BitVec 64) : BitVec 8 :=
  BitVec.ofNat 8 ((List.range 8).foldl
    (fun n i => n + (if (m.toNat / 2 ^ (8 * i)) % 256 = 255 then 2 ^ i else 0)) 0)

/-- Poison of an overlay: a word covered whole takes the upper word's poison, one covered in part either's. -/
def overlayPoison (q v : BitVec 8) (m : BitVec 64) : BitVec 8 := (q &&& ~~~(maskWords m)) ||| v

/-! ### Bench (08:R173, R174). -/

/-- The number in n bytes of bench at a window offset. -/
def Core.benchNat (c : Core) (o n : Nat) : Nat := cellsNat c.bench o n

/-- A granule is owned by ENGINE (08:R174). -/
def Core.engineOwned (c : Core) (g : Nat) : Bool := natSetHas c.benchEngine g

/-- Granules touched by n bytes at o. -/
def granules (o n : Nat) : List Nat := if n = 0 then [] else natRange (o / 4096) ((o + n - 1) / 4096 + 1 - o / 4096)

/-- While a superstep is captured, the first write to a granule, by whichever unit, copies it with its owner and valid bits
(12:R266, 17:R337). The slots of the copy are taken by State.fitShadows. -/
def Core.shadow (c : Core) (g : Nat) : Core :=
  if c.captured.isNone || c.shadows.any (fun x => x.gran = g) then c
  else
    let inG (k : Nat) : Bool := g * 4096 ≤ k && k < g * 4096 + 4096
    { c with shadows := c.shadows ++ [{
        gran := g
        bytes := c.bench.filter (fun e => inG e.1)
        engine := c.engineOwned g
        invalid := c.benchInvalid.filter (fun e => inG (e.1 * 8))
        poison := c.benchPoison.filter (fun e => inG (e.1 * 8))
        slot := none }] }

/-- An armed single-bit or double-bit injection strikes the bench word just written (21:R374). -/
def Core.injectBench (c : Core) (w : Nat) : Core :=
  if c.injArm && c.inj = 1#4 then { c with injArm := false, softBench := natSetPut c.softBench w true }
  else if c.injArm && c.inj = 2#4 then { c with injArm := false, benchPoison := natSetPut c.benchPoison w true }
  else c

/-- A write of bench bytes: a word that was invalid is zeroed first, and becomes valid (08:R174). Whole aligned
words lose their errors (21:R358, R359); an armed injection strikes the first word written (21:R374). -/
def Core.benchWrite (c : Core) (o : Nat) (bs : List Byte) : Core :=
  let c := (granules o bs.length).foldl Core.shadow c
  let ws := natRange (o / 8) ((o + bs.length + 7) / 8 - o / 8)
  let stale := ws.filter (natSetHas c.benchInvalid)
  let whole (w : Nat) : Bool := o ≤ w * 8 && w * 8 + 8 ≤ o + bs.length
  ({ c with
    bench := cellsSet (stale.foldl (fun m w => cellsSet m (w * 8) (List.replicate 8 0)) c.bench) o bs
    benchInvalid := ws.foldl (fun m w => natSetPut m w false) c.benchInvalid
    benchPoison := sparseDrop whole c.benchPoison
    softBench := sparseDrop whole c.softBench }).injectBench (o / 8)

/-- A poisoned bench word lies under n bytes at o. -/
def Core.benchPoisoned (c : Core) (o n : Nat) : Bool :=
  c.benchPoison.any (fun e => e.1 * 8 < o + n && o < e.1 * 8 + 8)

/-- Way k in BENCH mode for a context (08:R173). -/
def Core.benchWay (c : Core) (k : Nat) (ctx : BitVec 8) : Bool :=
  match c.ways[k]? with
  | some w => w.mode = .bench && w.ctx = ctx
  | none => false

/-- The n bytes at window offset o all lie in BENCH ways of the context. -/
def Core.benchIn (c : Core) (ctx : BitVec 8) (o n : Nat) : Bool :=
  o + n ≤ 7 * 2 ^ 20 &&
  (natRange (o / 2 ^ 20) ((o + n + 2 ^ 20 - 1) / 2 ^ 20 - o / 2 ^ 20)).all (fun k => c.benchWay (k + 1) ctx)

/-! ### Committed data as the core and the units of the package see it. -/

/-- The committed copy that the core owns (08:R169). -/
def Core.owned (c : Core) (line : Nat) : Option Line :=
  c.lines.find? (fun l => l.line = line && l.hyp = 0#12 && l.st != .v)

/-- The committed number in n bytes within a line: this core's dirty copy, else the home's (16:R296). -/
def State.peek (s : State) (dpa n : Nat) : Nat :=
  match s.core.owned (dpa / 64) with
  | some l => lineNat l.data (dpa % 64) n
  | none => s.pkg.read dpa n

/-- The committed word under n bytes is poisoned: found so, or it holds an uncorrectable error that nothing has met. -/
def State.peekPoison (s : State) (dpa n : Nat) : Bool :=
  match s.core.owned (dpa / 64) with
  | some l => poisonHit l.poison (dpa % 64) n
  | none => s.pkg.poisoned dpa n || s.pkg.memHard.any (fun e => e.1 * 8 < dpa + n && dpa < e.1 * 8 + 8)

/-- The bench window: every address of it (08:R173). -/
def inBenchWindow (a : Nat) : Bool := 0xFF00_0000_0000 ≤ a && a < 0xFF01_0000_0000

end Sys2Proof.Machine
end

