-- ==== Sys2Proof/Machine/Versions.lean ====
section
/-! DEFINITION. Machine/Versions.lean: the hypothesis table and the versions of lines (17:R320 to R328). -/

namespace Sys2Proof.Machine

/-! ### The table (17:R320). -/

/-- An entry; entry 0 is the committed root, always OPEN with depth 0 and its own parent (17:R320). -/
def Pkg.hypEntry (p : Pkg) (h : BitVec 12) : HypEntry :=
  if h = 0#12 then { parent := 0, depth := 0, owner := 0, st := .open }
  else sparseGet HypEntry.free p.hyps h.toNat

/-- Write an entry other than 0. -/
def Pkg.setHyp (p : Pkg) (h : BitVec 12) (e : HypEntry) : Pkg :=
  if h = 0#12 then p else { p with hyps := sparseSet HypEntry.free p.hyps h.toNat e }

/-- The lowest FREE id at or above n, none when none is left (17:R330). -/
def Pkg.lowestFree (p : Pkg) : Option (BitVec 12) :=
  ((List.range 4095).find? (fun i => (p.hypEntry (BitVec.ofNat 12 (i + 1))).st = .free)).map
    (fun i => BitVec.ofNat 12 (i + 1))

/-- The entry a tag now stands for: a MERGED id stands for its parent (17:R324, R333). Depth is at most 15. -/
def Pkg.resolve (p : Pkg) : Nat → BitVec 12 → BitVec 12
  | 0, h => h
  | n + 1, h => if (p.hypEntry h).st = .merged then p.resolve n (p.hypEntry h).parent else h

/-- The OPEN entry in which work under h goes on: h itself, or the nearest ancestor of one that has merged or been refuted
(17:R322, R335). Depth is at most 15. -/
def Pkg.openAbove (p : Pkg) : Nat → BitVec 12 → BitVec 12
  | 0, _ => 0#12
  | n + 1, h =>
    match (p.hypEntry h).st with
    | .open => h
    | .free => 0#12
    | _ => p.openAbove n (p.hypEntry h).parent

/-- The ids from h up to but not including the root, h first. -/
def Pkg.pathUp (p : Pkg) : Nat → BitVec 12 → List (BitVec 12)
  | 0, _ => []
  | n + 1, h => if h = 0#12 then [] else h :: p.pathUp n (p.hypEntry h).parent

/-- a is h or one of its ancestors. -/
def Pkg.isAncestor (p : Pkg) (a h : BitVec 12) : Bool := a = 0#12 || (p.pathUp 16 h).contains a

/-- Neither is an ancestor of the other (09:R193, R198). -/
def Pkg.unrelated (p : Pkg) (a b : BitVec 12) : Bool := !(p.isAncestor a b) && !(p.isAncestor b a)

/-- The ids whose entries lie in h's subtree and are OPEN or MERGED (17:R335). -/
def Pkg.subtree (p : Pkg) (h : BitVec 12) : List (BitVec 12) :=
  (p.hyps.map (fun e => BitVec.ofNat 12 e.1)).filter
    (fun x => ((p.hypEntry x).st = .open || (p.hypEntry x).st = .merged) && p.isAncestor h x)

/-! ### Versions that stand in a way, in a slice or with another core (17:R324, R326). -/

/-- The version (line, h), in a way, at its home or with another core. -/
def Pkg.findVersion (p : Pkg) (line : Nat) (h : BitVec 12) : Option Version :=
  p.versions.find? (fun v => v.line = line && v.id = h)

/-- Store a version: replaces the one of its line and id. -/
def Pkg.putVersion (p : Pkg) (v : Version) : Pkg :=
  { p with versions := upsert (fun x => x.line = v.line && x.id = v.id) (fun _ => v) v p.versions }

/-- Take a version out of the list. -/
def Pkg.takeVersion (p : Pkg) (v : Version) : Pkg :=
  { p with versions := p.versions.filter (fun x => !(x.line = v.line && x.id = v.id)) }

/-- Join version v into its new id: bytes in its mask replace, masks are ORed (17:R333). A locked one stays in its way
(08:R169). -/
def Version.joinInto (old v : Version) : Version :=
  { old with mask := old.mask ||| v.mask, data := overlay old.data v.data v.mask,
             poison := overlayPoison old.poison v.poison v.mask, lock := old.lock ++ v.lock,
             place := if v.lock.isEmpty then old.place else v.place }

/-! ### The overflow areas (17:R327). -/

/-- Number of 128-byte slots. -/
def Area.slots (d : Area) : Nat := d.size.toNat / 128

/-- DPA of slot n. -/
def Area.slotAt (d : Area) (n : Nat) : Nat := d.base.toNat + n * 128

/-- The area of a context. -/
def Pkg.areaOf (p : Pkg) (ctx : BitVec 8) : Area := sparseGet Area.none p.areas ctx.toNat

/-- The area of the context that owns a hypothesis (17:R326). -/
def Pkg.hypArea (p : Pkg) (h : BitVec 12) : Area := p.areaOf (p.hypEntry h).owner

/-- The area that a context's descriptor gives (16:R295). -/
def State.descArea (s : State) (c : BitVec 8) : Area :=
  let a := s.pkg.cdtbase.toNat + 64 * c.toNat
  { base := BitVec.ofNat 64 (s.peek (a + 16) 8), size := BitVec.ofNat 64 (s.peek (a + 24) 8) }

/-- The area as a start or a resume of a task finds it in its context descriptor (16:R295). -/
def Pkg.setArea (p : Pkg) (ctx : BitVec 8) (d : Area) : Pkg :=
  { p with areas := sparseSet Area.none p.areas ctx.toNat d }

/-- A dword of an area. -/
def State.slotWord (s : State) (a : Nat) : Word := BitVec.ofNat 64 (s.peek a 8)

/-- The first word of a slot cannot be read: the slot counts as occupied and as no version (00:R5, log 103). -/
def State.slotLost (s : State) (a : Nat) : Bool := s.peekPoison a 8

/-- A head slot of a bench shadow occupies itself and the 32 slots behind it (17:R327). -/
def State.slotUsedFrom (s : State) (d : Area) : Nat → Nat → List Nat
  | 0, _ => []
  | k + 1, n =>
    if n < d.slots then
      let w := s.slotWord (d.slotAt n)
      if s.slotLost (d.slotAt n) then n :: s.slotUsedFrom d k (n + 1)
      else if w.getLsbD 0 then
        if w.getLsbD 1 then natRange n 33 ++ s.slotUsedFrom d k (n + 33) else n :: s.slotUsedFrom d k (n + 1)
      else s.slotUsedFrom d k (n + 1)
    else []

/-- The occupied slots. -/
def State.usedSlots (s : State) (d : Area) : List Nat := s.slotUsedFrom d d.slots 0

/-- The first of k consecutive slots that are not among the used ones. -/
def Area.freeRun (d : Area) (used : List Nat) (k : Nat) : Option Nat :=
  (List.range (d.slots + 1 - k)).find? (fun n => (natRange n k).all (fun i => !used.contains i && i < d.slots))

/-- The first of k consecutive free slots. -/
def State.freeRun (s : State) (d : Area) (k : Nat) : Option Nat := d.freeRun (s.usedSlots d) k

/-- How many slots are free (17:R328). -/
def State.freeSlots (s : State) (d : Area) : Nat := d.slots - (s.usedSlots d).length

/-- The line version in slot n. -/
def State.slotVersion (s : State) (d : Area) (n : Nat) : Version :=
  let a := d.slotAt n
  let w := s.slotWord a
  { line := (w.toNat / 64) % 2 ^ 42, id := w.extractLsb' 48 12, mask := s.slotWord (a + 8),
    data := BitVec.ofNat 512 (s.peek (a + 64) 64),
    poison := BitVec.ofNat 8 ((List.range 8).foldl
      (fun k i => k + (if s.peekPoison (a + 64 + i * 8) 8 then 2 ^ i else 0)) 0),
    place := .home, lock := [], use := 0 }

/-- The line versions that slots hold: slot number and version (17:R327). -/
def State.slotVersions (s : State) (d : Area) : List (Nat × Version) :=
  (s.usedSlots d).filterMap (fun n =>
    let w := s.slotWord (d.slotAt n)
    if w.getLsbD 0 && !w.getLsbD 1 && !s.peekPoison (d.slotAt n) 16 then some (n, s.slotVersion d n) else none)

/-- The slot of version (line, h). -/
def State.findSlot (s : State) (line : Nat) (h : BitVec 12) : Option (Nat × Version) :=
  (s.slotVersions (s.pkg.hypArea h)).find? (fun e => e.2.line = line && e.2.id = h)

/-- The line versions in slots of an area that do not stand elsewhere as well: a slot stays with its version, which may be
in a core or a slice again (17:R327). -/
def State.spilled (s : State) (d : Area) : List Version :=
  ((s.slotVersions d).map (·.2)).filter (fun v => (s.pkg.findVersion v.line v.id).isNone)

/-- A version, in its place or in a slot, holds poison of word k of a line. -/
def State.versionPoisons (s : State) (line k : Nat) : Bool :=
  (s.pkg.versions ++ s.pkg.areas.flatMap (fun a => s.spilled a.2)).any (fun v => v.line = line && v.poison.getLsbD k)

/-! ### Reading by composition (17:R325). -/

/-- Every version of a line that stands for x, the shallower tag first so that a descendant's byte wins. -/
def State.versionsOf (s : State) (line : Nat) (x : BitVec 12) : List Version :=
  let all := s.pkg.versions ++ s.spilled (s.pkg.hypArea x)
  let mine := all.filter (fun v =>
    v.line = line && v.id != 0#12 && (s.pkg.hypEntry v.id).st != .refuted && s.pkg.resolve 16 v.id = x)
  (natRange 0 16).flatMap (fun k => mine.filter (fun v => (s.pkg.hypEntry v.id).depth.toNat = k))

/-- The line as h sees it, over the committed image: versions from the root's child down to h (17:R325). -/
def State.compose (s : State) (line : Nat) (h : BitVec 12) (base : BitVec 512 × BitVec 8) :
    BitVec 512 × BitVec 8 :=
  if h = 0#12 then base
  else (s.pkg.pathUp 16 h).reverse.foldl (fun acc x =>
    (s.versionsOf line x).foldl
      (fun (a : BitVec 512 × BitVec 8) v => (overlay a.1 v.data v.mask, overlayPoison a.2 v.poison v.mask)) acc) base

end Sys2Proof.Machine
end

