-- ==== Sys2Proof/Machine/Lease.lean ====
section
/-! DEFINITION. Machine/Lease.lean: serial timestamps, homes, the horizon, recalls, the overflow slots, evictions of a
hearth slice, access counters, corrected and uncorrectable errors, and report records (08:R169, R172, 09:R201 to R206, R399,
16:R307, 17:R326, R327, 18:R342, R344, R347, 21:R358, R371 to R373). -/

namespace Sys2Proof.Machine

/-! ### Serial-number arithmetic (09:R202). -/

/-- a ≤ b when (b - a) mod 65536 is below 32768. -/
def serLe (a b : BitVec 16) : Bool := (b - a).toNat < 32768

/-- The serial maximum. -/
def serMax (a b : BitVec 16) : BitVec 16 := if serLe a b then b else a

/-- x lies more than n behind p. -/
def serBehind (p x : BitVec 16) (n : Nat) : Bool := n < (p - x).toNat && (p - x).toNat < 32768

/-! ### CYCLE (16:R311, log 4). -/

/-- The clk since package reset after n steps: each takes one clk and a free number more. -/
def cycleOf : Nat → Nat
  | 0 => 0
  | n + 1 => cycleOf n + 1 + Config.clk n

/-- CYCLE as it reads now. -/
def State.cycle (s : State) : Word := BitVec.ofNat 64 (cycleOf s.tick)

/-! ### Records for report rings (18:R344). -/

/-- Give a record to its ring; it is written there by RING_RECORD_WRITE. -/
def Pkg.post (p : Pkg) (r : RingRecord) : Pkg := { p with ring := p.ring ++ [r] }

/-- A system report (18:R345). -/
def sysReport (ring : BitVec 12) (kind : Nat) (ctx : BitVec 8) (queue : BitVec 12) (core : BitVec 9)
    (cause : BitVec 8) (val pc cookie : Word) : RingRecord :=
  { ring := ring
    w0 := BitVec.ofNat 64 (kind * 2 ^ 56 + ctx.toNat * 2 ^ 48 + queue.toNat * 2 ^ 36 + core.toNat * 2 ^ 27 + cause.toNat)
    w1 := val
    w2 := pc
    w3 := cookie }

/-! ### Error registers (21:R371 to R373). -/

/-- Record an uncorrectable event: the first one's source, context and address stay until UE is cleared. -/
def State.recordUe (s : State) (src : BitVec 4) (addr : Word) : State :=
  s.mapCore (fun c =>
    if c.ue then { c with ovf := true }
    else { c with ue := true, uesrc := src, uectx := s.hart.ctxid, erraddr := addr })

/-- Record a corrected error (21:R358). -/
def Core.recordCe (c : Core) : Core :=
  { c with ce := true, cecnt := if c.cecnt = 0xFFFF#16 then c.cecnt else c.cecnt + 1#16 }
def State.recordCe (s : State) : State := s.mapCore Core.recordCe

/-- UESRC of poison consumed at a DPA: where the error struck, 14 when the poison was made elsewhere (21:R372). -/
def State.poisonSource (s : State) (dpa : Nat) : BitVec 4 :=
  let k := sparseGet 0#4 s.pkg.poisonSrc (dpa / 8)
  if k = 0#4 then 14#4 else k

/-- Poison of word k of a line stands somewhere: in memory, in a copy of this core or in a version. -/
def State.poisonStands (s : State) (line k : Nat) : Bool :=
  natSetHas s.pkg.memPoison (line * 8 + k) || s.core.lines.any (fun l => l.line = line && l.poison.getLsbD k) ||
    s.versionPoisons line k

/-- Where poison of a line stood that stands nowhere any more is forgotten (21:R372). -/
def State.forgetSource (s : State) (line : Nat) : State :=
  s.mapPkg (fun p => { p with
    poisonSrc := sparseDrop (fun w => w / 8 = line && !s.poisonStands line (w % 8)) p.poisonSrc })

/-- Poison at a DPA is consumed: the event with the DPA of its 8-byte word (21:R372, R373). -/
def State.consumePoison (s : State) (dpa : Nat) : State :=
  (s.recordUe (s.poisonSource dpa) (BitVec.ofNat 64 (dpa / 8 * 8))).forgetSource (dpa / 64)

/-- UESRC of an error in the memory that a line stands in: its slice, HBM, or the pantry and the overflow areas (21:R372). -/
def Pkg.memorySource (p : Pkg) (w : Nat) : BitVec 4 :=
  let a := w * 8
  if p.areas.any (fun e => e.2.base.toNat ≤ a && a < e.2.base.toNat + e.2.size.toNat) then 10#4
  else match regionOf a with
  | some .hbm => if (sparseGet none p.homes (w / 8)).isSome then 8#4 else 9#4
  | some .pantry => 10#4
  | _ => 14#4

/-- The errors of a line in memory are found: single-bit ones are corrected in place, words with an uncorrectable one are
poisoned (21:R357, R358). -/
def Pkg.clearErrors (p : Pkg) (line : Nat) : Pkg :=
  let here (w : Nat) : Bool := w / 8 = line
  let hard := p.memHard.filter (fun e => here e.1)
  { p with
    memSoft := sparseDrop here p.memSoft
    memHard := sparseDrop here p.memHard
    memPoison := hard.foldl (fun m e => natSetPut m e.1 true) p.memPoison
    poisonSrc := hard.foldl (fun m e => sparseSet 0#4 m e.1 (p.memorySource e.1)) p.poisonSrc }

/-- A home meets the errors of a line as it reads it. This core counts each word corrected for an access of its own, and none for
another agent's (21:R358, R371). -/
def State.meetErrors (s : State) (line : Nat) (own : Bool := true) : State :=
  let soft := s.pkg.memSoft.filter (fun e => e.1 / 8 = line)
  if soft.isEmpty && !s.pkg.memHard.any (fun e => e.1 / 8 = line) then s
  else (if own then soft else []).foldl (fun s _ => s.recordCe) (s.mapPkg (·.clearErrors line))

/-! ### Copies that leave the core, and locked ones that stay (08:R168, R169, R177). -/

/-- Remove the copies a test selects; a line that leaves the ways leaves the L1 data cache, and its errors are gone (08:R168). -/
def Core.dropLines (c : Core) (q : Line → Bool) : Core :=
  { c with
    lines := c.lines.filter (fun l => !q l)
    softLine := sparseDrop (fun w => c.lines.any (fun l => q l && l.line = w / 8)) c.softLine
    l1d := c.l1d.filter (fun e => !(c.lines.any (fun l => q l && l.line = e.1 && l.hyp = e.2))) }

/-- Remove the copies a test selects; poison that stood in one alone is gone (21:R372). -/
def State.dropLines (s : State) (q : Line → Bool) : State :=
  ((s.core.lines.filter (fun l => q l && l.poison != 0#8)).map (·.line)).foldl State.forgetSource
    (s.mapCore (·.dropLines q))

/-- A locked copy that no read may use any more stays in its way in state V, its lease over: the next read renews it (08:R169,
09:R204, log 20). -/
def Hart.leaseOver (h : Hart) : BitVec 16 := h.ltime - 1#16

/-- A locked copy counts as one of id t from now on: its lease is over; what the core has of the line under t takes its locks. -/
def State.moveCopy (s : State) (l : Line) (t : BitVec 12) : State :=
  let same (x : Line) : Bool := x.line = l.line && x.hyp = l.hyp
  let there (x : Line) : Bool := x.line = l.line && x.hyp = t
  let inWay (v : Version) : Bool := v.line = l.line && v.id = t && (match v.place with | .way _ => true | _ => false)
  if t = l.hyp then
    s.mapCore (fun c => { c with lines := c.lines.map (fun x => if same x then { x with rts := s.hart.leaseOver } else x) })
  else if s.pkg.versions.any inWay then
    (s.dropLines same).mapPkg (fun p => { p with
      versions := p.versions.map (fun v => if inWay v then { v with lock := v.lock ++ l.lock } else v) })
  else if s.core.lines.any there then
    (s.dropLines same).mapCore (fun c => { c with
      lines := c.lines.map (fun x => if there x then { x with lock := x.lock ++ l.lock } else x) })
  else
    (s.dropLines same).mapCore (fun c => { c with lines := c.lines ++ [{ l with hyp := t, st := .v, rts := s.hart.leaseOver }] })

/-- Copies that a test selects are read anew: those without a lock leave, and a locked one stays, under its id while that is OPEN,
else under the entry above (08:R169, 17:R324, log 20). -/
def State.refreshCopies (s : State) (q : Line → Bool) : State :=
  (s.core.lines.filter (fun l => q l && !l.lock.isEmpty)).foldl (fun s l => s.moveCopy l (s.pkg.openAbove 17 l.hyp))
    (s.dropLines (fun l => q l && l.lock.isEmpty))

/-! ### The horizon (09:R206, R399). -/

/-- A line of the core at a broadcast: an owned copy that lags takes the times of its home, and a locked V copy that lags stays
with its lease over, where one without a lock is dropped (08:R169, 09:R206, log 20). -/
def Line.lift (l : Line) (p low : BitVec 16) : Line :=
  if !serBehind p l.rts 0x2000 then l
  else if l.st = .v then { l with wts := low, rts := low - 1#16 } else { l with wts := low, rts := low }

/-- A broadcast: P rises to the largest wts assigned or requested; lagging hart, homes and floors are raised to
P - 2^13 and lagging V copies dropped; the largest wts returned to the hart is a timestamp that is stored too (09:R202). In the
maintenance regime LTIME is not changed (09:R208). -/
def State.broadcast (s : State) : State :=
  let p := serMax s.pkg.horizon s.pkg.maxWts
  let low := p - 0x2000#16
  let lift (h : HomeLine) : HomeLine := if serBehind p h.rts 0x2000 then { h with wts := low, rts := low } else h
  let s := s.dropLines (fun l => l.st = .v && serBehind p l.rts 0x2000 && l.lock.isEmpty)
  { s with
    hart := { s.hart with
      ltime := if !s.hart.maint && serBehind p s.hart.ltime 0x2000 then low else s.hart.ltime
      maxRead := s.hart.maxRead.map (fun w => if serBehind p w 0x2000 then low else w) }
    core := { s.core with lines := s.core.lines.map (fun l => l.lift p low) }
    pkg := { s.pkg with
      horizon := p
      floors := s.pkg.floors.map (fun f => if serBehind p f 0x2000 then low else f)
      homes := s.pkg.homes.map (fun e => (e.1, e.2.map lift)) } }

/-- A home assigns the timestamp w: one more than 2^12 ahead of P waits for the next broadcast, which happens
here (09:R206). -/
def State.assign (s : State) (w : BitVec 16) : State :=
  let s := s.mapPkg (fun p => { p with maxWts := serMax p.maxWts w })
  if serBehind w s.pkg.horizon 0x1000 then s.broadcast else s

/-! ### Homes (08:R170 to R172, 09:R203, R399). -/

/-- Lines whose home is the adapter: host lines and lines of pages in host bias (18:R341, R349). -/
def Pkg.atAdapter (p : Pkg) (line : Nat) : Bool :=
  regionOf (line * 64) = some .host || natSetHas p.hostBias (line * 64 / 4096)

/-- The home of a device line in device bias: its hearth slice, or 32 and its pantry controller (08:R170, R171). -/
def homeOf (line : Nat) : Nat :=
  if regionOf (line * 64) = some .pantry then 32 + pantryOf (line * 64) else sliceOf (line * 64)

/-- The floor of a line's home (09:R399). -/
def Pkg.floorOf (p : Pkg) (line : Nat) : BitVec 16 := (p.floors[homeOf line]?).getD 0#16

/-- The home's record of a line; a line it does not hold has the floor's times (09:R399). -/
def Pkg.home (p : Pkg) (line : Nat) : HomeLine :=
  (sparseGet none p.homes line).getD { wts := p.floorOf line, rts := p.floorOf line, owner := none }

/-- Write the home's record. -/
def Pkg.setHome (p : Pkg) (line : Nat) (h : HomeLine) : Pkg := { p with homes := sparseSet none p.homes line (some h) }

/-! ### Write-back and recall (08:R169, 09:R203). -/

/-- The time with which an owned line returns: wts = max(wts, owner's LTIME), which the maintenance regime does not read
(09:R203, R208, log 88). -/
def State.returnTime (s : State) (w : BitVec 16) : BitVec 16 := if s.hart.maint then w else serMax w s.hart.ltime

/-- A mesh error that the retries do not cure poisons the data of the transfer (21:R357). -/
def State.throughMesh (s : State) (line : Nat) (q : BitVec 8) : State × BitVec 8 :=
  if s.core.meshFault then
    ({ s with
      core := { s.core with meshFault := false }
      pkg := { s.pkg with poisonSrc := (natRange (line * 8) 8).foldl (fun m w => sparseSet 0#4 m w 11#4) s.pkg.poisonSrc } },
     255#8)
  else (s, q)

/-- n bytes of a line cross the mesh to their home, which writes them there: a mesh error poisons the words they
lie in. -/
def State.meshWrite (s : State) (dpa n v : Nat) : State :=
  let ws := natRange (dpa / 8) ((dpa + n + 7) / 8 - dpa / 8)
  if s.core.meshFault then
    ((s.throughMesh (dpa / 64) 0#8).1.mapPkg (fun p =>
      ws.foldl (fun p w => p.setPoison (w * 8) true) (p.writeNat dpa n v))).forgetSource (dpa / 64)
  else s.mapPkg (fun p => p.writeNat dpa n v)

/-- Data of a line is read in a way: single-bit errors are corrected, and each word counted (21:R358, R375). -/
def State.correctLine (s : State) (line : Nat) : State :=
  let ws := s.core.softLine.filter (fun e => e.1 / 8 = line)
  ws.foldl (fun s e => (s.mapCore (fun c => { c with softLine := natSetPut c.softLine e.1 false })).recordCe) s

/-- The owned committed line is written back or released: wts = max(wts, LTIME), rts = wts, data if dirty, and the
copy goes to the given state, none for I (08:R169, 09:R203; a release has the same stamps, log 85). Single-bit errors of a
dirty line are corrected on the way. -/
def State.writeBack (s : State) (l : Line) (next : Option LineState) : State :=
  let w := s.returnTime (s.pkg.home l.line).wts
  let m := if l.st = .d then (s.correctLine l.line).throughMesh l.line l.poison else (s, l.poison)
  let s := (m.1.assign w).mapPkg (fun p =>
    let p := if l.st = .d then p.putLine l.line l.data m.2 else p
    p.setHome l.line { wts := w, rts := w, owner := if next = some .o then some s.core.num else none })
  let same (x : Line) : Bool := x.line = l.line && x.hyp = l.hyp
  match next with
  | none => s.dropLines same
  | some st => s.mapCore (fun c => { c with
      lines := c.lines.map (fun x => if same x then { x with st := st, wts := w, rts := w } else x) })

/-- The home recalls the owner of a line: this core answers at once, another core's write-back must come first
(09:R203). The home then reads the line, for an access of this core or not (21:R371). -/
def State.recall (s : State) (line : Nat) (own : Bool := true) : Option State :=
  match (s.pkg.home line).owner with
  | none => some (s.meetErrors line own)
  | some c =>
    if c = s.core.num then
      match s.core.owned line with
      | some l => some ((s.writeBack l (some .v)).meetErrors line own)
      | none => some ((s.mapPkg (fun p => p.setHome line { p.home line with owner := none })).meetErrors line own)
    else none

/-- Another core owns the line and has not written it back. -/
def State.foreign (s : State) (line : Nat) : Bool :=
  match (s.pkg.home line).owner with
  | none => false
  | some c => c != s.core.num

/-- Another core owns a line of the n bytes at a DPA. -/
def State.foreignIn (s : State) (dpa n : Nat) : Bool :=
  n != 0 && (natRange (dpa / 64) ((dpa + n - 1) / 64 + 1 - dpa / 64)).any s.foreign

/-! ### Slots of the overflow area (17:R327). -/

/-- A write of the area, at its home; a copy that this core owns is recalled first. -/
def State.slotStore (s : State) (a n v : Nat) : State :=
  (natRange (a / 64) ((a + n - 1) / 64 + 1 - a / 64)).foldl (fun s l => (s.recall l false).getD s) s
    |>.mapPkg (fun p => p.writeNat a n v)

/-- Write a version into a slot (17:R327). -/
def State.putSlot (s : State) (d : Area) (n : Nat) (v : Version) : State :=
  let a := d.slotAt n
  let s := s.slotStore a 8 (v.id.toNat * 2 ^ 48 + v.line * 64 + 1)
  let s := s.slotStore (a + 8) 8 v.mask.toNat
  let s := s.slotStore (a + 16) 48 0
  let s := s.slotStore (a + 64) 64 v.data.toNat
  s.mapPkg (fun p => (List.range 8).foldl (fun p i => if v.poison.getLsbD i then p.setPoison (a + 64 + i * 8) true else p) p)

/-- Free a slot: V = 0 (17:R327). -/
def State.freeSlot (s : State) (d : Area) (n : Nat) : State :=
  s.slotStore (d.slotAt n) 8 ((s.slotWord (d.slotAt n)).toNat / 2 * 2)

/-- The slot that a spill of a version takes: the one it holds already, or a free one. -/
def State.slotFor (s : State) (v : Version) : Option Nat :=
  match s.findSlot v.line v.id with
  | some e => some e.1
  | none => s.freeRun (s.pkg.hypArea v.id) 1

/-- A version spills to the overflow area of its context with its tag (08:R180, 17:R326). Without a slot it stays. -/
def State.spill (s : State) (v : Version) : State :=
  match s.slotFor v with
  | some n => (s.mapPkg (fun p => p.takeVersion v)).putSlot (s.pkg.hypArea v.id) n v
  | none => s

/-- The locked versions of ids that a test selects leave copies in state V in their ways, which hold their locks (08:R169). -/
def State.unversion (s : State) (q : BitVec 12 → Bool) : State :=
  (s.pkg.versions.filter (fun v => q v.id && !v.lock.isEmpty)).foldl (fun s v =>
    match v.place with
    | .way w => s.mapCore (fun c => { c with lines := c.lines ++
        [{ way := w, line := v.line, hyp := v.id, st := .v, wts := s.hart.leaseOver, rts := s.hart.leaseOver, data := v.data,
           poison := v.poison, lock := v.lock, use := v.use }] })
    | _ => s) s

/-- Drop every version, in ways, homes and slots, whose id satisfies q (17:R334, R335); what was locked stays locked. -/
def State.dropVersions (s : State) (q : BitVec 12 → Bool) : State :=
  let s := s.unversion q
  let lost := s.pkg.versions.filter (fun v => q v.id && v.poison != 0#8)
  let s := (lost.map (·.line)).foldl State.forgetSource
    ((s.mapPkg (fun p => { p with versions := p.versions.filter (fun v => !q v.id) })).refreshCopies (fun l => q l.hyp))
  s.pkg.areas.foldl (fun s a =>
    (s.slotVersions a.2).foldl (fun s e => if q e.2.id then s.freeSlot a.2 e.1 else s) s) s

/-- Retag every version of h as a version of t (17:R333, step 3, made at once: log 10). A slot goes with its version, or is
freed when the version joins one that stands elsewhere. -/
def State.retag (s : State) (h t : BitVec 12) : State :=
  let d := s.pkg.hypArea h
  let live := s.pkg.versions.filter (fun v => v.id = h)
  let s := s.mapPkg (fun p => { p with versions := p.versions.filter (fun v => v.id != h) })
  let held := (s.slotVersions d).filter (fun e => e.2.id = h)
  let s := held.foldl (fun s e => s.freeSlot d e.1) s
  let sunk := held.filter (fun e => live.all (fun v => v.line != e.2.line))
  (live ++ sunk.map (·.2)).foldl (fun s v =>
    match s.pkg.findVersion v.line t, s.findSlot v.line t with
    | some o, _ => s.mapPkg (fun p => p.putVersion (o.joinInto v))
    | none, some (n, o) =>
      if live.contains v then
        s.mapPkg (fun p => p.putVersion { o.joinInto v with place := v.place, lock := v.lock, use := v.use })
      else s.putSlot d n (o.joinInto v)
    | none, none =>
      if live.contains v then s.mapPkg (fun p => p.putVersion { v with id := t })
      else match s.freeRun d 1 with
        | some n => s.putSlot d n { v with id := t }
        | none => s.mapPkg (fun p => p.putVersion { v with id := t })) s

/-! ### What a hearth slice evicts (08:R172, 09:R200, R399, 17:R326). -/

/-- An entry of a slice's set: a line it holds, or a version. -/
inductive SliceEntry where
  | line (line : Nat)
  | version (v : Version)
  deriving DecidableEq, Repr

/-- The lines and versions that slice k holds. -/
def Pkg.sliceEntries (p : Pkg) (k : Nat) : List SliceEntry :=
  let mine (line : Nat) : Bool := regionOf (line * 64) = some .hbm && homeOf line = k && !p.atAdapter line
  (p.homes.filter (fun e => e.2.isSome && mine e.1)).map (fun e => .line e.1) ++
  (p.versions.filter (fun v => v.place = .home && mine v.line)).map .version

/-- The line number of an entry. -/
def SliceEntry.number : SliceEntry → Nat
  | .line l => l
  | .version v => v.line

/-- An entry can be evicted: a line without an owner, a version for which there is a slot (17:R326). -/
def State.evictable (s : State) (e : SliceEntry) : Bool :=
  match e with
  | .line l => (s.pkg.home l).owner.isNone
  | .version v => (s.slotFor v).isSome

/-- A slice evicts an entry: a line's times go into the floor and its race records are lost; a version spills (09:R200,
R399, 17:R326). The line's bytes are in HBM already. -/
def State.evictEntry (s : State) (e : SliceEntry) : State :=
  match e with
  | .version v => s.spill v
  | .line l =>
    let k := homeOf l
    s.mapPkg (fun p => { p with
      homes := sparseSet none p.homes l none
      floors := p.floors.setIfInBounds k (serMax (p.floorOf l) (p.home l).rts)
      races := sparseDrop (fun w => w / 8 = l) p.races })

/-- A set with more than 16 entries evicts one that it can; the line served last goes when nothing else can (08:R172, 17:R326,
log 9). -/
def State.settleOnce (s : State) (line : Nat) (set : List SliceEntry) : State :=
  let others := set.filter (fun e => s.evictable e && e != .line line)
  let can := if others.isEmpty then set.filter s.evictable else others
  match can[Config.sliceVictim s.tick line % can.length]? with
  | some e => s.evictEntry e
  | none => s

/-- The set evicts while it holds more than 16 entries. -/
def State.settleFrom (s : State) (line : Nat) : Nat → State
  | 0 => s
  | n + 1 =>
    let held := s.pkg.sliceEntries (homeOf line)
    if held.length ≤ 16 then s
    else
      let set := held.filter (fun e => Config.sliceSet e.number % 32768 = Config.sliceSet line % 32768)
      if set.length ≤ 16 then s else (s.settleOnce line set).settleFrom line n

/-- After a slice has served or taken in a line: its set comes back to 16 entries as far as entries can leave (08:R172, 17:R326). -/
def State.settle (s : State) (line : Nat) : State :=
  if regionOf (line * 64) != some .hbm || s.pkg.atAdapter line then s
  else s.settleFrom line (s.pkg.sliceEntries (homeOf line)).length

/-! ### Times at a home (09:R203). -/

/-- The home takes the line in for a device request: the adapter sets wts = HR + 1 for a line it does not hold or
has lost to the host, and an rts below HR rises to it, so that a write is past HR too (log 89); its cache of 16 MiB lets the line
fetched longest ago go for it (18:R339, R342, log 9). -/
def State.takeIn (s : State) (line : Nat) : State :=
  if s.pkg.atAdapter line then
    if s.pkg.hostHeld.contains line then s
    else
      let w := s.pkg.hr + 1#16
      let s := s.assign w
      s.mapPkg (fun p => { (p.setHome line { p.home line with wts := w, rts := serMax (p.home line).rts s.pkg.hr }) with
        hostHeld := line :: p.hostHeld.take (Config.adapterLines - 1) })
  else s.mapPkg (fun p => p.setHome line (p.home line))

/-- The adapter has granted an rts: HR is the largest (18:R342). -/
def Pkg.grantRts (p : Pkg) (line : Nat) (r : BitVec 16) : Pkg :=
  if p.atAdapter line then { p with hr := serMax p.hr r } else p

/-- A plain or relaxed read, a renewal or an acquire read at the home with time t and lease: rts is extended; the
line's wts and rts are returned (09:R203). -/
def State.homeReadTimes (s : State) (line : Nat) (t : BitVec 16) (lease : BitVec 8) : State × HomeLine :=
  let s := s.takeIn line
  let h := s.pkg.home line
  let h := { h with rts := serMax h.rts (serMax t h.wts + lease.setWidth 16) }
  ((s.mapPkg (fun p => (p.setHome line h).grantRts line h.rts)).settle line, h)

/-- A write at the home with time t: wts = max(t, rts + 1), rts = wts, and the owner given (09:R203). -/
def State.homeWriteTimes (s : State) (line : Nat) (t : BitVec 16) (owner : Option (BitVec 9)) : State × BitVec 16 :=
  let s := s.takeIn line
  let w := serMax t ((s.pkg.home line).rts + 1#16)
  let s := s.assign w
  ((s.mapPkg (fun p => (p.setHome line { wts := w, rts := w, owner := owner }).grantRts line w)).settle line, w)

/-- A write by another agent is performed at a line: an idle hart that watches it is to wake (16:R316). -/
def State.wakeLine (s : State) (line : Nat) : State :=
  match s.hart.run with
  | .watch (some l) _ => if l = line then s.mapHart (fun h => { h with run := .watch (some l) true }) else s
  | _ => s

/-- An agent without an LTIME writes committed bytes inside one line at the home, after the recall of its owner. Its time is
the largest wts assigned, so that what it wrote before is ordered before what it writes later (09:R192, log 89). None while
another core owns the line. -/
def State.homeStore (s : State) (dpa n v : Nat) : Option State :=
  let line := dpa / 64
  (s.recall line false).map (fun s =>
    let s := s.wakeLine line
    (s.homeWriteTimes line s.pkg.maxWts none).1.mapPkg (fun p => p.writeNat dpa n v))

/-- The same where the operation has made sure that no other core owns the line. -/
def State.poke (s : State) (dpa n v : Nat) : State := (s.homeStore dpa n v).getD s

/-- A word of memory is made over from what it holds: its poison stays (00:R5). -/
def State.pokeOver (s : State) (a v : Nat) : State :=
  let src := sparseGet 0#4 s.pkg.poisonSrc (a / 8)
  let t := s.poke a 8 v
  if s.peekPoison a 8 then
    t.mapPkg (fun p => { p.setPoison a true with poisonSrc := sparseSet 0#4 p.poisonSrc (a / 8) src })
  else t

/-! ### Access counters (16:R307, 18:R347). -/

/-- Count an access that reached the pantry controller or the adapter. At 2^(ACX + 4) a notice goes to ACQUEUE and the
count restarts; ACX 12 to 15 count without notice. -/
def State.countMark (s : State) (dpa : Nat) (m : CountMark) (write : Bool) (core : BitVec 9) : State :=
  let host := regionOf dpa = some .host
  if host || regionOf dpa = some .pantry then
    let r := dpa / 65536
    let old := sparseGet Counter.zero s.pkg.counters r
    let n := old.n + 1#16
    let wr := old.wr || write
    if m.acx.toNat ≤ 11 && 2 ^ (m.acx.toNat + 4) ≤ n.toNat then
      s.mapPkg (fun p => ({ p with counters := sparseSet Counter.zero p.counters r Counter.zero }).post
        { ring := m.queue
          w0 := BitVec.ofNat 64 (m.ctx.toNat * 2 ^ 48 + r * 65536)
          w1 := BitVec.ofNat 64 ((if wr then 2 ^ 10 else 0) + (if host then 2 ^ 9 else 0) + core.toNat)
          w2 := s.cycle
          w3 := 0 })
    else s.mapPkg (fun p => { p with counters := sparseSet Counter.zero p.counters r { n := n, wr := wr } })
  else s

/-- An access of the hart through a leaf whose CNT is given. -/
def State.countAccess (s : State) (dpa : Nat) (cnt write : Bool) : State :=
  if cnt then
    s.countMark dpa { ctx := s.hart.ctxid, acx := s.hart.desc.acx, queue := s.hart.desc.acqueue } write s.core.num
  else s

end Sys2Proof.Machine
end

