-- ==== Sys2Proof/Machine/Cache.lean ====
section
/-! DEFINITION. Machine/Cache.lean: lines in CACHE ways, recalls, evictions, and reads and writes of memory by
type (08:R167 to R172, 09:R203, R204, R208, 17:R324 to R326, 18:R341). None where the request must wait for
another core's write-back or for a peer's reply. -/

namespace Sys2Proof.Machine

/-! ### Lines of the core. -/

/-- The set of a line (08:R167). -/
def setOf (line : Nat) : Nat := line % 16384

/-- The copy of a line served under h (17:R324). -/
def Core.findLine (c : Core) (line : Nat) (h : BitVec 12) : Option Line :=
  c.lines.find? (fun l => l.line = line && l.hyp = h)

/-- Replace or add the copy of a line and tag; it becomes the most recently used. -/
def Core.putLine (c : Core) (l : Line) : Core :=
  { c with
    lines := upsert (fun x => x.line = l.line && x.hyp = l.hyp) (fun _ => { l with use := c.useClock + 1 })
      { l with use := c.useClock + 1 } c.lines
    useClock := c.useClock + 1 }

/-- What stands in a way's set: nothing, an unlocked entry with its last use, or a locked line (08:R167). -/
inductive SlotState where
  | empty
  | used (use : Nat)
  | locked
  deriving DecidableEq, Repr

/-- A version of a pantry line leaves its way for an overflow slot only, so without a free one it stays (17:R326). -/
def State.versionStays (s : State) (v : Version) : Bool :=
  regionOf (v.line * 64) = some .pantry && (s.slotFor v).isNone

/-- The occupant of set `set` of way w: lines and versions (17:R324). -/
def State.slotState (s : State) (w : BitVec 3) (set : Nat) : SlotState :=
  match s.core.lines.find? (fun l => l.way = w && setOf l.line = set) with
  | some l => if !l.lock.isEmpty then .locked else .used l.use
  | none =>
    match s.pkg.versions.find? (fun v => v.place = .way w && setOf v.line = set) with
    | some v => if !v.lock.isEmpty || s.versionStays v then .locked else .used v.use
    | none => .empty

/-- The way a miss fills: an empty one, else the least recently used that holds no locked line; none when every
CACHE way of the set is locked (08:R167). -/
def State.chooseWay (s : State) (set : Nat) : Option (BitVec 3) :=
  let ws := ((List.range 8).map (BitVec.ofNat 3)).filter (fun w => (s.core.ways[w.toNat]).mode = .cache)
  match ws.find? (fun w => s.slotState w set = .empty) with
  | some w => some w
  | none =>
    (ws.foldl (fun (best : Option (BitVec 3 × Nat)) w =>
      match s.slotState w set, best with
      | .used u, none => some (w, u)
      | .used u, some (b, v) => if u < v then some (w, u) else some (b, v)
      | _, b => b) none).map (·.1)

/-- A line image with times that a home answered with, as a copy of the core. -/
def copyOf (line : Nat) (h : BitVec 12) (st : LineState) (wts rts : BitVec 16) (d : BitVec 512 × BitVec 8) : Line :=
  { way := 0, line := line, hyp := h, st := st, wts := wts, rts := rts, data := d.1, poison := d.2, lock := [], use := 0 }

/-- The committed image at the home. -/
def State.homeImage (s : State) (line : Nat) : BitVec 512 × BitVec 8 := (s.pkg.lineData line, s.pkg.linePoison line)

/-- A version returns to its home as an owned line does: wts = max(wts, LTIME); the line's one rts is not lowered (09:R203,
17:R324, log 90). -/
def State.versionTime (s : State) (v : Version) : State :=
  let h := s.pkg.home v.line
  let w := s.returnTime h.wts
  ((s.correctLine v.line).assign w).mapPkg (fun p => p.setHome v.line { h with wts := w, rts := serMax h.rts w })

/-- A version leaves a core way for its hearth slice, or for a pantry line for an overflow slot; without one it stays in the
way (17:R326). -/
def State.sinkVersion (s : State) (v : Version) : State :=
  let m := (s.versionTime v).throughMesh v.line v.poison
  if regionOf (v.line * 64) = some .pantry then m.1.spill { v with poison := m.2 }
  else (m.1.mapPkg (fun p => p.putVersion { v with place := .home, lock := [], poison := m.2 })).settle v.line

/-- Empty set `set` of way w (08:R169). -/
def State.evict (s : State) (w : BitVec 3) (set : Nat) : State :=
  match s.core.lines.find? (fun l => l.way = w && setOf l.line = set) with
  | some l =>
    if l.st = .v then s.dropLines (fun x => x.line = l.line && x.hyp = l.hyp) else s.writeBack l none
  | none =>
    match s.pkg.versions.find? (fun v => v.place = .way w && setOf v.line = set) with
    | some v => s.sinkVersion v
    | none => s

/-- A line is written into a way; an armed injection strikes its first word (21:R374). -/
def State.placeLine (s : State) (l : Line) : State :=
  let hit := s.core.injArm
  if hit && s.core.inj = 1#4 then
    s.mapCore (fun c => { c.putLine l with injArm := false, softLine := natSetPut c.softLine (l.line * 8) true })
  else if hit && s.core.inj = 2#4 then
    { s with
      core := { s.core.putLine { l with poison := l.poison ||| 1#8 } with injArm := false }
      pkg := { s.pkg with poisonSrc := sparseSet 0#4 s.pkg.poisonSrc (l.line * 8) 1#4 } }
  else s.mapCore (·.putLine l)

/-- Put a copy of a line into the core, in the way it has or one freed for it; false when every way of the set is
locked (08:R167). -/
def State.fill (s : State) (l : Line) : State × Bool :=
  match s.core.findLine l.line l.hyp with
  | some x => (s.placeLine { l with way := x.way, lock := x.lock }, true)
  | none =>
    match s.chooseWay (setOf l.line) with
    | some w => ((s.evict w (setOf l.line)).placeLine { l with way := w }, true)
    | none => (s, false)

/-! ### Recall of versions (17:R324). -/

/-- A page in host bias (18:R349). -/
def State.inHostBias (s : State) (dpa : Nat) : Bool := natSetHas s.pkg.hostBias (dpa / 4096)

/-- The home recalls one version: this core's goes back and its copy becomes V, where its page is cached at all (18:R349);
another core's write-back must come first. -/
def State.recallVersion (s : State) (v : Version) : Option State :=
  match v.place with
  | .home => some s
  | .other _ => none
  | .way w =>
    let s := s.sinkVersion v
    if (s.pkg.findVersion v.line v.id).any (fun x => x.place = v.place) || s.inHostBias (v.line * 64) then some s
    else
      let h := s.pkg.home v.line
      some (s.mapCore (fun c => c.putLine
        { copyOf v.line v.id .v h.wts h.rts (s.compose v.line v.id (s.homeImage v.line)) with way := w, lock := v.lock }))

/-- The versions that a read under h can see go back to their home, one entry of the path after the other. -/
def State.recallVersions (s : State) (line : Nat) (h : BitVec 12) : Option State :=
  if h = 0#12 then some s
  else ((s.pkg.pathUp 16 h).flatMap (s.versionsOf line)).foldl (fun o v => o.bind (·.recallVersion v)) (some s)

/-- A home reads a line for a request under h, of this core or not: owner and versions recalled (09:R203, 21:R371). -/
def State.recallFor (s : State) (line : Nat) (h : BitVec 12) (own : Bool := true) : Option State :=
  (s.recall line own).bind (·.recallVersions line h)

/-! ### Reads. -/

/-- A line touched in an L1 cache of 256 sets of 4 ways; the least recently used of its set leaves (08:R168). -/
def touchL1 (l : List (Nat × BitVec 12)) (line : Nat) (h : BitVec 12) : List (Nat × BitVec 12) :=
  let rest := l.filter (fun e => e != (line, h))
  let same := (rest.filter (fun e => e.1 % 256 = line % 256)).take 3
  (line, h) :: rest.filter (fun e => e.1 % 256 != line % 256 || same.contains e)

/-- The L1 data cache takes a line that stands in a CACHE way (08:R168). -/
def Core.touchData (c : Core) (line : Nat) (h : BitVec 12) : Core :=
  if (c.findLine line h).isSome then { c with l1d := touchL1 c.l1d line h } else c

/-- The largest wts returned since the last acquire (09:R205). -/
def State.noteRead (s : State) (w : BitVec 16) : State :=
  s.mapHart (fun h => { h with maxRead := some (match h.maxRead with | none => w | some m => serMax m w) })

/-- The acquire row: LTIME = max(t, wts) (09:R203). The wts of other reads stay behind no acquire: fence.acq takes them
(09:R192, R195). -/
def State.acquireRow (s : State) (w : BitVec 16) : State := s.mapHart (fun h => { h with ltime := serMax h.ltime w })

/-- An acquire of every read before it, as fence.acq and the end of a gbar make one: LTIME rises to the largest wts returned since
the last of these (09:R205). -/
def State.acquireAll (s : State) : State :=
  s.mapHart (fun h => { h with ltime := (match h.maxRead with | none => h.ltime | some w => serMax h.ltime w), maxRead := none })

/-- A read of a line served at its home under h, filled in state V when the memory is cached (09:R203). -/
def State.serveRead (s : State) (line : Nat) (h : BitVec 12) (acq cache : Bool) :
    Option (State × BitVec 512 × BitVec 8) :=
  (s.recallFor line h).map (fun s =>
    let r := s.homeReadTimes line s.hart.ltime s.hart.lease
    let s := (r.1.noteRead r.2.wts)
    let s := if acq then s.acquireRow r.2.wts else s
    let d := s.compose line h (s.homeImage line)
    let m := s.throughMesh line d.2
    let s := if cache then (m.1.fill (copyOf line h .v r.2.wts r.2.rts (d.1, m.2))).1 else m.1
    (s, d.1, m.2))

/-- The version (line, h) that this core owns in a way. -/
def State.ownVersion (s : State) (line : Nat) (h : BitVec 12) : Option Version :=
  (s.pkg.findVersion line h).filter (fun v => match v.place with
    | .way _ => true
    | _ => false)

/-- A version in a way is used: it is the most recently used of its set (08:R167). -/
def State.useVersion (s : State) (v : Version) : State :=
  (s.mapPkg (fun p => p.putVersion { v with use := s.core.useClock + 1 })).mapCore
    (fun c => { c with useClock := c.useClock + 1 })

/-- A plain or relaxed read of the bytes in m of a cached line: a version that the core owns and that holds all of them, an
owned copy, a V copy whose lease covers LTIME, or the home (08:R169, 09:R204, 17:R324). The wts of the copy counts as
returned (09:R205). -/
def State.cachedRead (s : State) (line : Nat) (h : BitVec 12) (m : BitVec 64) (dpa : Nat) (cnt : Bool) :
    Option (State × BitVec 512 × BitVec 8) :=
  match (s.ownVersion line h).filter (fun v => v.mask &&& m = m && m != 0#64), s.core.findLine line h with
  | some v, _ => some (s.useVersion v, v.data, v.poison)
  | none, some l =>
    if l.st != .v || serLe s.hart.ltime l.rts then
      some ((s.mapCore (fun c => c.putLine l)).noteRead l.wts, l.data, l.poison)
    else (s.countAccess dpa cnt false).serveRead line h false true
  | none, none => (s.countAccess dpa cnt false).serveRead line h false true

/-- How an access reaches memory: through the core caches, at a home that keeps timestamps but without a copy in
the core, at the home without timestamps, or in a peer package (16:R299, 09:R208, 18:R341, R349). -/
inductive Route where
  | cached | timed | plain | peer
  deriving DecidableEq, Repr

/-- The route of an access by memory type, regime and bias. UC lines keep timestamps at their home in the service
regime, so that an acquire of one orders cached reads after it (09:R192, log 15). -/
def State.route (s : State) (dpa : Nat) (mt : MemType) : Route :=
  match mt with
  | .peer => .peer
  | .hostUc => .plain
  | .uc => if s.hart.maint then .plain else .timed
  | .host => if s.hart.maint then .plain else .cached
  | .wb => if s.hart.maint then .plain else if s.inHostBias dpa then .timed else .cached

/-- The time that a read of memory whose home keeps no timestamps for this package returns, in the service regime: past every
wts assigned and every rts granted to a line the host has since written, so that an acquire of what another agent wrote there
orders cached reads after it (09:R192, R205, log 89). -/
def State.outsideTime (s : State) : BitVec 16 := serMax s.pkg.maxWts (s.pkg.hr + 1#16)

/-- A read of such memory has returned its data. -/
def State.noteOutside (s : State) : State := if s.hart.maint then s else s.noteRead s.outsideTime

/-- The request of an agent for n bytes at a DPA. -/
def PeerWait.is (w : PeerWait) (dpa n : Nat) (who : PeerAsker) : Bool := w.dpa = dpa && w.size = n && w.who = who

/-- A peer's answer to a request, if it has come (18:R352). -/
def Pkg.peerReply (p : Pkg) (dpa n : Nat) (who : PeerAsker) : Option PeerReply :=
  (p.peerWaits.find? (fun w => w.is dpa n who)).bind (·.answer)

/-- Take the request off with its reply. -/
def Pkg.takeReply (p : Pkg) (dpa n : Nat) (who : PeerAsker) : Pkg :=
  { p with peerWaits := p.peerWaits.eraseP (fun w => w.is dpa n who) }

/-- The requests of an agent that has given up are forgotten. -/
def Pkg.dropAsks (p : Pkg) (who : PeerAsker) : Pkg := { p with peerWaits := p.peerWaits.filter (fun w => w.who != who) }

/-- What a read of memory gives: the number read and whether a word under it is poisoned. -/
structure ReadVal where
  val : Nat
  poison : Bool
  deriving DecidableEq, Repr

/-- A plain read of n bytes inside one line under h (09:R203, R204, R208, 17:R325). Under h, only WB-device memory
shows versions (17:R323). -/
def State.readMem (s : State) (dpa n : Nat) (mt : MemType) (cnt : Bool) (h : BitVec 12) : Option (State × ReadVal) :=
  let line := dpa / 64
  let o := dpa % 64
  let out (r : State × BitVec 512 × BitVec 8) : State × ReadVal :=
    (r.1, { val := lineNat r.2.1 o n, poison := poisonHit r.2.2 o n })
  let h := if mt = .wb then h else 0#12
  match s.route dpa mt with
  | .cached => (s.cachedRead line h (maskOf o n) dpa cnt).map (fun r => out (r.1.mapCore (·.touchData line h), r.2))
  | .timed => ((s.countAccess dpa cnt false).serveRead line h false false).map out
  | .plain => ((s.countAccess dpa cnt false).recallFor line h).map (fun s =>
      let d := s.compose line h (s.homeImage line)
      let m := s.noteOutside.throughMesh line d.2
      out (m.1, d.1, m.2))
  | .peer => none

/-! ### Writes. -/

/-- Copies of a line served under hypotheses are read anew after a store of this hart (10:R216). -/
def State.dropTagged (s : State) (line : Nat) : State := s.refreshCopies (fun l => l.line = line && l.hyp != 0#12)

/-- An armed injection of a single-bit or a double-bit error strikes the word of a CACHE way just written: a word of a
dirty line, or of a version in a way (21:R374). -/
def State.injectLine (s : State) (line o : Nat) (h : BitVec 12) : State :=
  let w := line * 8 + o / 8
  if s.core.injArm && s.core.inj = 1#4 then
    s.mapCore (fun c => { c with injArm := false, softLine := natSetPut c.softLine w true })
  else if s.core.injArm && s.core.inj = 2#4 then
    let bit : BitVec 8 := BitVec.ofNat 8 (2 ^ (o / 8))
    { s with
      core := { s.core with
        injArm := false
        lines := if h = 0#12 then s.core.lines.map (fun l =>
            if l.line = line && l.hyp = 0#12 && l.st = .d then { l with poison := l.poison ||| bit } else l)
          else s.core.lines }
      pkg := { s.pkg with
        poisonSrc := sparseSet 0#4 s.pkg.poisonSrc w 1#4
        versions := if h = 0#12 then s.pkg.versions else s.pkg.versions.map (fun v =>
          if v.line = line && v.id = h then { v with poison := v.poison ||| bit } else v) } }
  else s

/-- A store of n bytes at offset o in a way: a whole word is free of the errors it had (21:R358, R359). -/
def State.freshWord (s : State) (line o n : Nat) : State :=
  if n = 8 then
    let w := line * 8 + o / 8
    { s with
      core := { s.core with softLine := natSetPut s.core.softLine w false }
      pkg := { s.pkg with poisonSrc := sparseSet 0#4 s.pkg.poisonSrc w 0#4 } }
  else s

/-- A committed write to a line the core may own: in place in state O or D, else after ownership from the home
(08:R169, 09:R203). -/
def State.ownedWrite (s : State) (line o n v dpa : Nat) (cnt : Bool) : Option State :=
  let write (l : Line) : Line := { l with st := .d, data := lineSet l.data o n v, poison := poisonAfter l.poison o n }
  match s.core.owned line with
  | some l =>
    some ((((s.mapCore (fun c => c.putLine (write l))).freshWord line o n).dropTagged line).injectLine line o 0#12)
  | none =>
    match (s.countAccess dpa cnt true).recall line with
    | none => none
    | some s =>
      let r := s.homeWriteTimes line s.hart.ltime (some s.core.num)
      let s := r.1.mapHart (fun h => { h with ltime := r.2 })
      let m := s.throughMesh line (s.pkg.linePoison line)
      let l := write (copyOf line 0#12 .d r.2 r.2 (s.pkg.lineData line, m.2))
      match m.1.fill l with
      | (s, true) => some (((s.freshWord line o n).dropTagged line).injectLine line o 0#12)
      | (_, false) =>
        some (((s.meshWrite dpa n v).mapPkg (fun p =>
          p.setHome line { wts := r.2, rts := r.2, owner := none })).dropTagged line)

/-- The bytes of a store under a tag enter the version's image and mask (17:R324). -/
def Version.store (x : Version) (o n v : Nat) : Version :=
  { x with data := lineSet x.data o n v, poison := poisonAfter x.poison o n, mask := x.mask ||| maskOf o n }

/-- A version in a way is written there. -/
def State.storeInWay (s : State) (x : Version) (o n v : Nat) : State :=
  (((s.useVersion (x.store o n v)).freshWord x.line o n).dropTagged x.line).injectLine x.line o x.id

/-- A version is written where no core holds it: in its slice, for a pantry line in an overflow slot, which must be free
(17:R326, log 90). -/
def State.storeAtHome (s : State) (x : Version) (o n v : Nat) : Option State :=
  if regionOf (x.line * 64) = some .pantry then
    (s.slotFor x).map (fun k =>
      ((s.mapPkg (fun p => p.takeVersion x)).putSlot (s.pkg.hypArea x.id) k (x.store o n v)).dropTagged x.line)
  else some (((s.mapPkg (fun p => p.putVersion { x.store o n v with place := .home })).settle x.line).dropTagged x.line)

/-- The version (line, h) as a home finds it: its own, the one in a slot, or a new one with an empty mask (17:R324). -/
def State.versionAt (s : State) (line : Nat) (h : BitVec 12) : Version :=
  match s.pkg.findVersion line h, s.findSlot line h with
  | some x, _ => x
  | none, some e => e.2
  | none, none => { line := line, id := h, mask := 0, data := 0, poison := 0, place := .home, lock := [], use := 0 }

/-- A version comes into a way: the one in which its copy stands, which keeps its locks (08:R169), or one freed for it. -/
def State.bringVersion (s : State) (x : Version) : Option (State × Version) :=
  match s.core.findLine x.line x.id with
  | some l =>
    some (s.dropLines (fun y => y.line = l.line && y.hyp = l.hyp), { x with place := .way l.way, lock := l.lock })
  | none => (s.chooseWay (setOf x.line)).map (fun w => (s.evict w (setOf x.line), { x with place := .way w }))

/-- A write by this hart at a line's home under a tag: a new wts, which LTIME takes; the maintenance regime neither reads nor
changes LTIME (09:R203, R208). The committed owner stays. -/
def State.tagTime (s : State) (line : Nat) : State :=
  if s.hart.maint then s
  else
    let r := s.homeWriteTimes line s.hart.ltime (s.pkg.home line).owner
    r.1.mapHart (fun t => { t with ltime := r.2 })

/-- A store under h writes the version (line, h): owned in a way it is written in place, else ownership is obtained
from the home and the version comes into a way (17:R324). The maintenance regime keeps nothing in ways (09:R208). A request to a
pantry home counts (16:R307). None while another core owns the version, or a pantry version has neither a way nor a slot. -/
def State.versionWrite (s : State) (line o n v : Nat) (h : BitVec 12) (cnt : Bool) : Option State :=
  let x := s.versionAt line h
  match x.place with
  | .other _ => none
  | .way _ => some (s.storeInWay x o n v)
  | .home =>
    let s := (s.countAccess (line * 64) cnt true).tagTime line
    if s.hart.maint then s.storeAtHome x o n v
    else match s.bringVersion x with
      | some (s, x) => some (s.storeInWay x o n v)
      | none => s.storeAtHome x o n v

/-- An atomic write to the version at its home: what a way holds goes back first, and the write takes a new wts (10:R220,
17:R337). A pantry version without a slot is written in the way it cannot leave. It counts as a write (16:R307). -/
def State.versionAtomic (s : State) (line o n v : Nat) (h : BitVec 12) (cnt : Bool) : Option State :=
  let back := match s.ownVersion line h with
    | some x => s.recallVersion x
    | none => some s
  back.bind (fun s =>
    let s := (s.countAccess (line * 64) cnt true).tagTime line
    let x := s.versionAt line h
    match x.place with
    | .other _ => none
    | .way _ => some (s.storeInWay x o n v)
    | .home => s.storeAtHome x o n v)

/-- A committed write performed at the home (18:R341, R349, 09:R208, R203). Of the requests to a home, those with a time bring the
line into its slice's cache; an untimed one of the maintenance regime, like a read or a write of the host or a peer, takes it in
nowhere (log 9). -/
def State.homeWrite (s : State) (line : Nat) (dpa n v : Nat) (timed cnt : Bool) : Option State :=
  ((s.countAccess dpa cnt true).recall line).map (fun s =>
    let s := if timed then
        let r := s.homeWriteTimes line s.hart.ltime none
        r.1.mapHart (fun h => { h with ltime := r.2 })
      else s
    (s.meshWrite dpa n v).dropTagged line)

/-- A write of n bytes inside one line that carries the tag h, h being resolved and not refuted (17:R323, R334).
A write to a peer leaves over its port (State.peerWrite in Links) and is not made here. -/
def State.writeMem (s : State) (dpa n v : Nat) (mt : MemType) (cnt : Bool) (h : BitVec 12) : Option State :=
  let line := dpa / 64
  let o := dpa % 64
  if h != 0#12 && mt = .wb then s.versionWrite line o n v h cnt
  else
    match s.route dpa mt with
    | .cached => if mt = .host then s.homeWrite line dpa n v true cnt else s.ownedWrite line o n v dpa cnt
    | .timed => s.homeWrite line dpa n v true cnt
    | .plain => s.homeWrite line dpa n v false cnt
    | .peer => some s

end Sys2Proof.Machine
end

