-- ==== Sys2Proof/Machine/Barrier.lean ====
section
/-! DEFINITION. Machine/Barrier.lean: bench writes with the superstep's shadows (17:R337), and transaction
barriers, 16 bytes of bench that the peel engine updates (11:R234 to R236). -/

namespace Sys2Proof.Machine

/-! ### Shadows of a SNAP superstep (17:R327, R337). -/

/-- The area of the running context. -/
def State.ownArea (s : State) : Area := s.pkg.areaOf s.hart.ctxid

/-- The first slots of n runs of 33, each the first that is free after the ones before it; none when they do not all fit. -/
def Area.takeRuns (d : Area) : Nat → List Nat → Option (List Nat)
  | 0, _ => some []
  | n + 1, used => (d.freeRun used 33).bind (fun k => (d.takeRuns n (natRange k 33 ++ used)).map (fun ks => k :: ks))

/-- A write of these granules finds slots for every shadow it still has to take (17:R328). -/
def State.shadowsFit (s : State) (gs : List Nat) : Bool :=
  let new := gs.filter (fun g => !s.core.shadows.any (fun x => x.gran = g))
  let due := s.core.shadows.countP (fun x => x.slot.isNone)
  new.isEmpty || (s.ownArea.takeRuns (new.length + due) (s.usedSlots s.ownArea)).isSome

/-- A shadow is written to the 33 slots from n: head, valid bits, the granule's bytes (17:R327). -/
def State.putShadow (s : State) (n : Nat) (x : Shadow) : State :=
  let a := s.ownArea.slotAt n
  let valid := (List.range 512).foldl
    (fun v i => v + (if natSetHas x.invalid (x.gran * 512 + i) then 0 else 2 ^ i)) 0
  let s := s.slotStore a 8 (s.hart.hyp.toNat * 2 ^ 48 + s.core.num.toNat * 2 ^ 20 + x.gran * 2 ^ 8
    + (if x.engine then 4 else 0) + 3)
  let s := s.slotStore (a + 8) 56 0
  let s := s.slotStore (a + 64) 64 valid
  let s := s.slotStore (a + 128) 4096 (ofBytes (cellsGet x.bytes (x.gran * 4096) 4096))
  s.mapCore (fun c => { c with shadows := c.shadows.map (fun y => if y.gran = x.gran then { y with slot := some n } else y) })

/-- Shadows without slots take them, while there are any (17:R327, log 91). -/
def State.fitShadows (s : State) : State :=
  (s.core.shadows.filter (fun x => x.slot.isNone)).foldl (fun s x =>
    match s.freeRun s.ownArea 33 with
    | some n => s.putShadow n x
    | none => s) s

/-- The shadows of a write whose checks have passed are taken: the hart's at issue, so that they fit when the store is
performed (17:R328). -/
def State.takeShadows (s : State) (gs : List Nat) : State :=
  if s.core.captured.isSome then (s.mapCore (fun c => gs.foldl Core.shadow c)).fitShadows else s

/-- A bench write by the hart or its engine (17:R337). -/
def State.benchStore (s : State) (o : Nat) (bs : List Byte) : State :=
  (s.mapCore (fun c => c.benchWrite o bs)).fitShadows

/-- Drop the shadows and free their slots: the superstep is confirmed or undone (17:R337). -/
def State.dropShadows (s : State) : State :=
  let s := s.core.shadows.foldl (fun s x =>
    match x.slot with
    | some n => s.freeSlot s.ownArea n
    | none => s) s
  s.mapCore (fun c => { c with shadows := [] })

/-- Write every shadowed granule back whole, with its owner and valid bits, and with it what the engine keeps of the barriers in it
(log 92); an armed injection strikes the first word written (21:R368, step 3, R374). -/
def State.restoreShadows (s : State) : State :=
  s.core.shadows.foldl (fun s x => s.mapCore (fun c =>
    let inG (k : Nat) : Bool := x.gran * 4096 ≤ k && k < x.gran * 4096 + 4096
    ({ c with
      tbs := c.tbs.filter (fun t => !inG t.off) ++ ((c.captured.map (·.tbs)).getD []).filter (fun t => inG t.off)
      bench := x.bytes.foldl (fun m e => cellSet m e.1 e.2) (sparseDrop inG c.bench)
      benchInvalid := x.invalid.foldl (fun m e => natSetPut m e.1 true) (sparseDrop (fun k => inG (k * 8)) c.benchInvalid)
      benchPoison := sparseDrop (fun k => inG (k * 8)) c.benchPoison
      softBench := sparseDrop (fun k => inG (k * 8)) c.softBench
      benchEngine := natSetPut c.benchEngine x.gran x.engine } : Core).injectBench (x.gran * 512))) s

/-! ### Transaction barriers (11:R234). -/

/-- The fields of a barrier. -/
structure Tb where
  ae : BitVec 16
  ap : BitVec 16
  ef : Bool
  ec : BitVec 4
  ph : BitVec 4
  ll : BitVec 32
  ep : BitVec 32
  deriving DecidableEq, Repr

/-- Word 0 of a barrier (11:R234). -/
def Tb.word0 (t : Tb) : Word :=
  BitVec.ofNat 64 (t.ae.toNat * 2 ^ 32 + t.ap.toNat * 2 ^ 16 + (if t.ef then 2 ^ 8 else 0) + t.ec.toNat * 16 + t.ph.toNat)

/-- Word 1 of a barrier. -/
def Tb.word1 (t : Tb) : Word := t.ll ++ t.ep

/-- Read a barrier at a bench offset. -/
def Core.tb (c : Core) (o : Nat) : Tb :=
  let w0 := BitVec.ofNat 64 (c.benchNat o 8)
  let w1 := BitVec.ofNat 64 (c.benchNat (o + 8) 8)
  { ae := w0.extractLsb' 32 16, ap := w0.extractLsb' 16 16, ef := w0.getLsbD 8, ec := w0.extractLsb' 4 4,
    ph := w0.extractLsb' 0 4, ll := w1.extractLsb' 32 32, ep := w1.extractLsb' 0 32 }

/-- Write a barrier anew: tbi, a reservation, the definition of a rack (11:R242, R244, R246). -/
def Core.newTb (c : Core) (o : Nat) (t : Tb) : Core :=
  c.benchWrite o (leBytes 8 t.word0.toNat ++ leBytes 8 t.word1.toNat)

/-- A word of a barrier is poisoned. -/
def Core.tbPoisoned (c : Core) (o : Nat) : Bool := c.benchPoisoned o 16

/-- Update a barrier: the engine has read it, so a single-bit error is corrected and a poisoned word stays poisoned, with what
was made from it (21:R358, R359, log 96). -/
def Core.setTb (c : Core) (o : Nat) (t : Tb) : Core :=
  let ws := [o / 8, o / 8 + 1]
  let c := (ws.filter (natSetHas c.softBench)).foldl (fun c _ => c.recordCe) c
  let bad := ws.filter (natSetHas c.benchPoison)
  let c := c.newTb o t
  { c with benchPoison := bad.foldl (fun m w => natSetPut m w true) c.benchPoison }

/-- The engine's count for a barrier. -/
def Core.tbTrack (c : Core) (o : Nat) : TbTrack :=
  (c.tbs.find? (fun x => x.off = o)).getD { off := o, base := 0, landed := [] }

/-- Write the engine's count. -/
def Core.setTrack (c : Core) (x : TbTrack) : Core :=
  { c with tbs := upsert (fun y => y.off = x.off) (fun _ => x) x c.tbs }

/-- After every update: a phase with AP = EP = 0 and no error completes; with AE = 0 none ever does (11:R236). -/
def Core.tbSettle (c : Core) (o : Nat) : Core :=
  let t := c.tb o
  if t.ae != 0#16 && t.ap = 0#16 && t.ep = 0#32 && !t.ef then
    (c.setTb o { t with ph := t.ph + 1#4, ap := t.ae, ll := 0#32 }).setTrack { off := o, base := 0, landed := [] }
  else c

/-- The error rule: the first error's code stays (11:R236). -/
def Tb.error (t : Tb) (code : BitVec 4) : Tb := { t with ec := if t.ef then t.ec else code, ef := true }

/-- An arrival (11:R236). -/
def Tb.arrival (t : Tb) : Tb := if t.ap = 0#16 then t.error 5#4 else { t with ap := t.ap - 1#16 }

/-- Record an error on a barrier. -/
def Core.tbError (c : Core) (o : Nat) (code : BitVec 4) : Core := (c.setTb o ((c.tb o).error code)).tbSettle o

/-- Count an arrival on a barrier. -/
def Core.tbArrive (c : Core) (o : Nat) : Core := (c.setTb o (c.tb o).arrival).tbSettle o

/-- Count n elements at the issue of an operation: the first phase index, none when EP would overflow, which is an
error and an arrival (11:R236). -/
def Core.tbCount (c : Core) (o n : Nat) : Core × Option Nat :=
  let t := c.tb o
  if 2 ^ 32 ≤ t.ep.toNat + n then ((c.setTb o ((t.error 5#4).arrival)).tbSettle o, none)
  else
    let x := c.tbTrack o
    (((c.setTb o { t with ep := t.ep + BitVec.ofNat 32 n }).setTrack { x with base := x.base + n }).tbSettle o,
      some x.base)

/-- The least index not landed at or above n. -/
def leastMissing (landed : NatSet) : Nat → Nat → Nat
  | 0, n => n
  | k + 1, n => if natSetHas landed n then leastMissing landed k (n + 1) else n

/-- An error that came with an update, if one did. -/
def Tb.errorOf (t : Tb) (e : Option (BitVec 4)) : Tb :=
  match e with
  | some e => t.error e
  | none => t

/-- An error leaves nothing of a pan's put to land; its one arrival is counted unless its final put has counted it
(11:R246). -/
def Tb.spoil (t : Tb) (code : BitVec 4) (counted : Bool) : Tb :=
  let t := { t.error code with ep := 0#32 }
  if counted then t else t.arrival

/-- Phase indices land and f gives what else is counted in the same update: EP falls, and LL is the least index not landed
(11:R236). -/
def Core.tbLanding (c : Core) (o : Nat) (idx : List Nat) (f : Tb → Tb) : Core :=
  let t := c.tb o
  let x := c.tbTrack o
  let landed := idx.foldl (fun m i => natSetPut m i true) x.landed
  let ll := leastMissing landed landed.length t.ll.toNat
  let t := f { t with ep := t.ep - BitVec.ofNat 32 idx.length, ll := BitVec.ofNat 32 ll }
  ((c.setTb o t).setTrack { x with landed := sparseDrop (fun k => k < ll) landed }).tbSettle o

/-- One update of a barrier as phase indices land; an error that came with them and, when they are an operation's last, its
arrival are counted in the same update (11:R236). -/
def Core.tbLand (c : Core) (o : Nat) (idx : List Nat) (err : Option (BitVec 4)) (arrives : Bool) : Core :=
  c.tbLanding o idx (fun t => if arrives then (t.errorOf err).arrival else t.errorOf err)

/-- An operation ends: elements not landed leave EP, an error is recorded if it ended by one, and its arrival is
counted (11:R236). -/
def Core.tbFinish (c : Core) (o left : Nat) (err : Option (BitVec 4)) : Core :=
  let t := c.tb o
  (c.setTb o (({ t with ep := t.ep - BitVec.ofNat 32 left }).errorOf err).arrival).tbSettle o

end Sys2Proof.Machine
end

