-- ==== Sys2Proof/Machine/Ports.lean ====
section
/-! DEFINITION. Machine/Ports.lean: giving a flit to a Poerius port and the routes to peer packages (22:R376 to
R379, 18:R352). -/

namespace Sys2Proof.Machine

/-- A port's record. -/
def Pkg.port (p : Pkg) (k : Port) : PortRec := p.ports[k.toNat]

/-- Write a port's record. -/
def Pkg.setPort (p : Pkg) (k : Port) (r : PortRec) : Pkg := { p with ports := p.ports.set k.toNat r }

/-! ### The 256 bytes of a flit (22:R376). -/

/-- One bit of the reflected CRC-32C. -/
def crcBit (c : BitVec 32) : BitVec 32 := if c.getLsbD 0 then (c >>> 1) ^^^ 0x82F63B78#32 else c >>> 1

/-- One byte of it. -/
def crcByte (c : BitVec 32) (b : Byte) : BitVec 32 :=
  crcBit (crcBit (crcBit (crcBit (crcBit (crcBit (crcBit (crcBit (c ^^^ b.setWidth 32))))))))

/-- CRC-32C as iSCSI defines it (22:R376). -/
def crc32c (bs : List Byte) : BitVec 32 := (bs.foldl crcByte 0xFFFFFFFF#32) ^^^ 0xFFFFFFFF#32

/-- TYPE of a payload. -/
def payloadType : Payload → Nat
  | .idle => 0
  | .putFirst _ => 1
  | .putContinuation _ => 2
  | .reservationRequest _ => 3
  | .reservationAnswer _ _ => 4
  | .putStatus _ => 5
  | .peerRead .. => 6
  | .peerReply .. => 7
  | .peerWrite .. => 8
  | .reserved => 9

/-- Bytes followed by zeros up to n. -/
def padTo (n : Nat) (bs : List Byte) : List Byte := bs ++ List.replicate (n - bs.length) 0

/-- Payload bytes 0 to 15 of a put-status flit: SEQR, PAN, CORE and EC, then the byte count (22:R376). -/
def statusBytes (p : PutStatusMsg) : List Byte :=
  leBytes 8 (p.ref.seq.toNat * 2 ^ 48 + p.ref.pan.toNat * 2 ^ 42 + p.ref.core.toNat * 2 ^ 33 + p.ec.toNat * 2 ^ 29) ++
  leBytes 8 p.done

/-- The 240 payload bytes: of a put its data after a first flit's header, the last flit padded with zeros; of a put-status its
fields. The bytes whose layout the rule does not give are free values (22:R376, log 83). -/
def payloadBytes (m : Payload) : List Byte :=
  let free (n : Nat) : List Byte := (List.range n).map (Config.flitByte m)
  match m with
  | .putFirst p => padTo 240 (free 16 ++ p.data)
  | .putContinuation p => padTo 240 p.data
  | .putStatus p => padTo 240 (statusBytes p)
  | _ => free 240

/-- A flit as it leaves by a port: ACK names the last flit performed in order; nk makes it a replay request from the number
expected (22:R376 to R378). -/
def Pkg.wire (p : Pkg) (k : Port) (nk : Bool) (f : SentFlit) : WireFlit :=
  let r := p.port k
  let w0 : Word := BitVec.ofNat 64 (payloadType f.payload * 2 ^ 60 + f.seq.toNat * 2 ^ 48
    + (match r.acked with | some a => a.toNat * 2 ^ 36 + 2 ^ 35 | none => 0) + (if nk then 2 ^ 34 else 0)
    + f.dpkg.toNat * 2 ^ 12 + p.mypkg.toNat)
  let low : BitVec 32 := if nk then r.expected.setWidth 32 <<< 20 else 0#32
  let body := payloadBytes f.payload
  { w0 := w0, w1 := crc32c (leBytes 8 w0.toNat ++ leBytes 4 low.toNat ++ body) ++ low, body := body }

/-- An idle flit; SEQ and DPKG of one are ignored where it arrives, and free values here (22:R376, R377, log 83). -/
def idleFlit (k : Port) : SentFlit :=
  { seq := Config.idleField k 0, dpkg := Config.idleField k 1, payload := .idle, times := 0, lands := none, ctx := 0, cookie := 0 }

/-- Flits go onto the lanes of a port; each carries the ACK that was due (22:R378). -/
def Pkg.carry (p : Pkg) (k : Port) (nk : Bool) (fs : List SentFlit) : Pkg :=
  let r := p.port k
  p.setPort k { r with lanes := r.lanes ++ fs.map (p.wire k nk), ackDue := r.ackDue && fs.isEmpty }

/-- A port sends: it is up, and the package is not to freeze (22:R380, 23:R387). -/
def Pkg.sends (p : Pkg) (k : Port) : Bool := (p.port k).st = .up && !p.freezing

/-- Send a replay request with NSEQ = expected (22:R377). -/
def Pkg.askReplay (p : Pkg) (k : Port) : Pkg := if p.sends k then p.carry k true [idleFlit k] else p

/-- Move waiting flits into the replay buffer while it holds fewer than 1,024 and the port sends, numbering them in
order (22:R379). -/
def Pkg.pump (p : Pkg) (k : Port) : Pkg :=
  let r := p.port k
  if p.sends k then
    let room := 1024 - r.buffer.length
    let go := (r.waiting.take room).mapIdx (fun i f => { f with seq := r.nextSeq + BitVec.ofNat 12 i, times := 1 })
    (p.setPort k { r with
      buffer := r.buffer ++ go
      waiting := r.waiting.drop room
      nextSeq := r.nextSeq + BitVec.ofNat 12 go.length }).carry k false go
  else p

/-- Send flits over a port in order; a lost port sends nothing. -/
def Pkg.send (p : Pkg) (k : Port) (fs : List SentFlit) : Pkg :=
  let r := p.port k
  if r.st = .lost then p else (p.setPort k { r with waiting := r.waiting ++ fs }).pump k

/-- What the ports put on their lanes in an earlier step is on its way. -/
def Pkg.quietLanes (p : Pkg) : Pkg := { p with ports := p.ports.map (fun r => { r with lanes := [] }) }

/-- A flit to be sent. -/
def mkFlit (dpkg : BitVec 12) (m : Payload) (lands : Option (Nat × List Nat)) : SentFlit :=
  { seq := 0, dpkg := dpkg, payload := m, times := 0, lands := lands, ctx := 0, cookie := 0 }

/-- The fields of a peer route entry (18:R352). -/
structure PeerRoute where
  v : Bool
  into : Bool
  port : Port
  rembase : BitVec 7
  deriving DecidableEq, Repr

/-- The route entry of a package at PRTBASE + 8 × PKG (18:R352), as this core sees it. A poisoned one names no route
(00:R5, log 103). -/
def State.peerRoute (s : State) (pkg : BitVec 12) : PeerRoute :=
  let a := s.pkg.prtbase.toNat + 8 * pkg.toNat
  let w : Word := BitVec.ofNat 64 (s.peek a 8)
  let good := !s.peekPoison a 8
  { v := w.getLsbD 63 && good, into := w.getLsbD 62 && good, port := w.extractLsb' 8 3, rembase := w.extractLsb' 0 7 }

/-- The package of a peer DPA (18:R341). -/
def peerPkg (dpa : Nat) : BitVec 12 := BitVec.ofNat 12 (dpa / 2 ^ 35)

/-- A peer access is refused locally when its route is not valid or names this package (18:R352). -/
def State.peerRefused (s : State) (dpa : Nat) : Bool :=
  !(s.peerRoute (peerPkg dpa)).v || peerPkg dpa = s.pkg.mypkg

/-- The remote DPA of a peer access (18:R352). -/
def State.peerRemote (s : State) (dpa : Nat) : Nat :=
  (s.peerRoute (peerPkg dpa)).rembase.toNat * 2 ^ 35 + dpa % 2 ^ 35

/-- The report of a peer write that was refused or lost: KIND 4, the DPA, and CTXID and COOKIE of the task that made the
write (18:R345, R352). -/
def Pkg.refusedWrite (p : Pkg) (dpa : Nat) (ctx : BitVec 8) (cookie : Word) : Pkg :=
  p.post (sysReport p.sysring 4 ctx 0 0 0 (BitVec.ofNat 64 dpa) 0 cookie)

/-- A write to a peer leaves over its port, with the poison it carries or a mesh error gives it; over a lost link it is dropped and
reported (18:R352, 21:R357, R359). -/
def State.peerWrite (s : State) (dpa : Nat) (bs : List Byte) (poison : Bool) : State :=
  let r := s.peerRoute (peerPkg dpa)
  let bad := poison || s.core.meshFault
  (s.mapPkg (fun p =>
    if (p.port r.port).st = .lost then p.refusedWrite dpa s.hart.ctxid s.hart.cookie
    else p.send r.port [{ mkFlit (peerPkg dpa) (.peerWrite (s.peerRemote dpa) bs bad) none with
      ctx := s.hart.ctxid, cookie := s.hart.cookie }])).mapCore (fun c => { c with meshFault := false })

/-- Ask a peer for bytes, or for an atomic on them, once; over a lost link the answer is poison (10:R220, 18:R352). -/
def State.peerAsk (s : State) (dpa n : Nat) (op : Option PeerAtomic) (who : PeerAsker) : State :=
  if s.pkg.peerWaits.any (fun w => w.is dpa n who) then s
  else
    let r := s.peerRoute (peerPkg dpa)
    let far := s.peerRemote dpa
    s.mapPkg (fun p =>
      let lost := (p.port r.port).st = .lost
      let w : PeerWait :=
        { dpa := dpa, remote := far, port := r.port, size := n, who := who, op := op, answer := if lost then some .poison else none }
      let p := { p with peerWaits := p.peerWaits ++ [w] }
      if lost then p else p.send r.port [mkFlit (peerPkg dpa) (.peerRead far n op) none])

/-- A reply can be that to a request: package, address at the peer, and size. -/
def PeerWait.fits (w : PeerWait) (src : BitVec 12) (far : Nat) (a : PeerReply) : Bool :=
  w.answer.isNone && peerPkg w.dpa = src && w.remote = far &&
    (match a with
     | .data bs => bs.length = w.size
     | _ => true)

/-- Change the first element that satisfies q. -/
def onFirst {α : Type} (q : α → Bool) (f : α → α) : List α → List α
  | [] => []
  | x :: xs => if q x then f x :: xs else x :: onFirst q f xs

/-- A reply of package src about its address reaches the oldest request that it fits; one that nobody waits for is dropped
(18:R352). -/
def Pkg.acceptReply (p : Pkg) (src : BitVec 12) (far : Nat) (a : PeerReply) : Pkg :=
  { p with peerWaits := onFirst (fun w => w.fits src far a) (fun w => { w with answer := some a }) p.peerWaits }

end Sys2Proof.Machine
end

