-- ==== Sys2Proof/Machine/StoreQueue.lean ====
section
/-! DEFINITION. Machine/StoreQueue.lean: stores leave the store queue in program order (10:R215). -/

namespace Sys2Proof.Machine

/-- The tag a queued store carries now: its hypothesis, the parent it merged into, or the root once it was
confirmed there; none when it was refuted (17:R334, R335). -/
def State.storeTag (s : State) (h : BitVec 12) : Option (BitVec 12) :=
  if h = 0#12 then some 0#12
  else
    let t := s.pkg.resolve 16 h
    match (s.pkg.hypEntry t).st with
    | .refuted => none
    | .free => some 0#12
    | _ => some t

/-- The line that holds a DPA as the hart's HYP sees it (17:R325). -/
def State.visible (s : State) (dpa : Nat) (h : BitVec 12) : BitVec 512 × BitVec 8 :=
  let line := dpa / 64
  let q := BitVec.ofNat 8 ((List.range 8).foldl (fun k i => k + (if s.peekPoison (line * 64 + i * 8) 8 then 2 ^ i else 0)) 0)
  s.compose line h (BitVec.ofNat 512 (s.peek (line * 64) 64), q)

/-- The instruction word at a DPA as the hart sees it. -/
def State.codeWord (s : State) (dpa : Nat) (h : BitVec 12) : BitVec 32 :=
  if h = 0#12 then BitVec.ofNat 32 (s.peek dpa 4) else BitVec.ofNat 32 (lineNat (s.visible dpa h).1 (dpa % 64) 4)

/-- The old words that a fetch of word w under h may return: those kept for h or, as its view was its parent's before it had one of
its own, for the nearest entry above (02:R33, 17:R325). -/
def State.oldWords (s : State) (w : Nat) (h : BitVec 12) : List IWord :=
  ((s.pkg.pathUp 16 h ++ [0#12]).findSome? (fun x =>
    let es := s.hart.stale.filter (fun e => e.word = w && e.hyp = x)
    if es.isEmpty then none else some (es.map (·.old)))).getD []

/-- Keep v beside old words of word w, as fetches under h saw them, until the next ifence. -/
def Hart.keepOld (t : Hart) (w : Nat) (h : BitVec 12) (olds : List IWord) (v : IWord) : Hart :=
  let all := if olds.contains v then olds else olds ++ [v]
  { t with
    stale := t.stale.filter (fun e => !(e.word = w && e.hyp = h)) ++ all.map (fun o => { word := w, hyp := h, old := o }) }

/-- The entries under which a hart may fetch: the root, HYP and every OPEN one. -/
def State.views (s : State) : List (BitVec 12) :=
  (0#12 :: s.hart.hyp :: (s.pkg.hyps.filter (fun e => e.2.st = .open)).map (fun e => BitVec.ofNat 12 e.1)).eraseDups

/-- Remember the old contents of instruction words under a write, as a fetch under each entry sees them, for a fetch without
ifence (02:R33). -/
def State.noteStale (s : State) (dpa n : Nat) : State :=
  let ws := natRange (dpa / 4) ((dpa + n + 3) / 4 - dpa / 4)
  s.mapHart (fun t => s.views.foldl (fun t h =>
    ws.foldl (fun t w => t.keepOld w h (s.oldWords w h) (s.codeWord (w * 4) h)) t) t)

/-- Perform one write of the hart under a resolved tag: bench at once, a peer over its port, memory by its type.
None while the line's owner is another core that has not written back (09:R203). -/
def State.perform (s : State) (t : Target) (n v : Nat) (h : BitVec 12) : Option State :=
  match t with
  | .bench o => some (s.benchStore o (leBytes n v))
  | .mem dpa mt cnt =>
    if mt = .peer then some (s.peerWrite dpa (leBytes n v) false)
    else (s.noteStale dpa n).writeMem dpa n v mt cnt h

/-- An atomic write performed: on WB-device memory at the home under the root, on the version in a SNAP superstep
(10:R220). -/
def State.performAtomic (s : State) (t : Target) (n v : Nat) (h : BitVec 12) : Option State :=
  match t with
  | .mem dpa .wb cnt =>
    if h = 0#12 then (s.noteStale dpa n).homeWrite (dpa / 64) dpa n v (!s.hart.maint) cnt
    else (s.noteStale dpa n).versionAtomic (dpa / 64) (dpa % 64) n v h cnt
  | _ => s.perform t n v h

/-- A write to a peer package that its port has not acknowledged (09:R205). -/
def Pkg.peerWritesOut (p : Pkg) : Bool :=
  p.ports.toList.any (fun r => (r.buffer ++ r.waiting).any (fun f =>
    match f.payload with
    | .peerWrite _ _ _ => true
    | _ => false))

/-- A release at a scope need not wait for earlier writes beyond the queue: at sys scope the ports have acknowledged
every peer write (09:R205). -/
def State.acked (s : State) (sc : Scope) : Bool := sc != .sys || !s.pkg.peerWritesOut

/-- What units have translated and checked of their stores and not yet performed, in order (10:R224). -/
def Core.checkedStores (c : Core) : List QStore := c.units.flatMap (fun u => (u.checked.getD []).map (·.2))

/-- A vector store is checked and not done: the store queue's stores are younger (10:R215, R224). -/
def Core.storePending (c : Core) : Bool := c.units.any (fun u => u.checked.isSome)

/-- The oldest store leaves the queue; a store of a refuted hypothesis is discarded (10:R215, 17:R335). None when
the queue is empty or the store must wait. -/
def State.departHead (s : State) : Option State :=
  match s.core.storeQ with
  | [] => none
  | q :: rest =>
    if s.core.storePending then none
    else
      let s := s.mapCore (fun c => { c with storeQ := rest })
      match s.storeTag q.hyp with
      | none => some s
      | some h =>
        match q.atomic with
        | none => s.perform q.target q.size q.value.toNat h
        | some (o, sc) =>
          if o = .rel && !s.acked sc then none else s.performAtomic q.target q.size q.value.toNat h

/-- Stores leave until the queue is empty or one must wait. -/
def State.departAll (s : State) : Nat → State
  | 0 => s
  | n + 1 => match s.departHead with
    | none => s
    | some s' => s'.departAll n

/-- The queue drains (10:R215). -/
def State.drain (s : State) : State := s.departAll s.core.storeQ.length

end Sys2Proof.Machine
end

