-- ==== Sys2Proof/Machine/Gang.lean ====
section
/-! DEFINITION. Machine/Gang.lean: what ends or undoes the work of a gang on this core: releasing ways (08:R181),
refuting a hypothesis (17:R335), rollback of a SNAP superstep (21:R366 to R368) and discard (21:R370). -/

namespace Sys2Proof.Machine

/-! ### Ways (08:R181). -/

/-- The way of a register-row key. -/
def keyWay (k : Nat) : Nat := k / 2 ^ 14 % 8

/-- Discard the contents of the masked ways that are not CACHE and return them to CACHE (08:R181). -/
def Core.wipeWays (c : Core) (m : BitVec 8) : Core :=
  let sel (k : Nat) : Bool := m.getLsbD k && (c.ways[k]?.map (·.mode)) != some .cache
  let off (b : Nat) : Bool := sel (b / 2 ^ 20 + 1)
  { c with
    ways := Vector.ofFn (fun i : Fin 8 => if sel i.val then { mode := .cache, ctx := 0#8 } else c.ways[i])
    vrows := sparseDrop (fun k => sel (keyWay k)) c.vrows
    prows := sparseDrop (fun k => sel (keyWay k)) c.prows
    badRows := sparseDrop (fun k => sel (k / 2 ^ 16)) c.badRows
    tbs := c.tbs.filter (fun x => !off x.off)
    bench := sparseDrop off c.bench
    benchInvalid := sparseDrop (fun w => off (w * 8)) c.benchInvalid
    benchPoison := sparseDrop (fun w => off (w * 8)) c.benchPoison
    softBench := sparseDrop (fun w => off (w * 8)) c.softBench
    benchEngine := sparseDrop (fun g => off (g * 4096)) c.benchEngine }

/-- Release the masked ways. When an ARRAY way is released, VDIRTY and PDIRTY become 0 and the saved copies count
as zero (08:R181, 13:R287). -/
def State.releaseWays (s : State) (m : BitVec 8) : State :=
  let arr := (List.range 8).any (fun k => m.getLsbD k && (s.core.ways[k]?.map (·.mode)) = some .array)
  let s := s.mapCore (fun c => c.wipeWays m)
  if arr then
    { s with hart := { s.hart with vdirty := 0, pdirty := 0 }, core := { s.core with vv := 0, pv := 0 } }
  else s

/-- The ways that hold part of the rack: its pans or its barrier array (08:R166, 11:R244). -/
def Core.rackWays (c : Core) : BitVec 8 :=
  match c.rack with
  | none => 0
  | some r =>
    let lo := r.base
    let hi := r.base + r.panSize * r.pans.length
    let t := r.tbs + 16 * r.pans.length
    BitVec.ofNat 8 ((List.range 7).foldl (fun n k =>
      let a := k * 2 ^ 20
      let b := a + 2 ^ 20
      n + (if (lo < b && a < hi) || (r.tbs < b && a < t) then 2 ^ (k + 1) else 0)) 0)

/-- The ways of the running context that a tend, a save or a discard returns to CACHE: its ARRAY ways, and its
BENCH ways without a rack (12:R272, 13:R282, 21:R370). -/
def State.ownWays (s : State) : BitVec 8 :=
  BitVec.ofNat 8 ((List.range 8).foldl (fun n k =>
    n + (if (s.core.ways[k]?.map (fun w => w.mode != .cache && w.ctx = s.hart.ctxid)) = some true
         then 2 ^ k else 0)) 0) &&& ~~~s.core.rackWays

/-! ### Hypotheses. -/

/-- A version, a slot, an access in flight, or the HYP of a hart that runs or is SAVED names an id (17:R321). -/
def State.hypNamed (s : State) (h : BitVec 12) : Bool :=
  s.pkg.versions.any (fun v => v.id = h) ||
  (s.slotVersions (s.pkg.hypArea h)).any (fun e => e.2.id = h) ||
  s.core.storeQ.any (fun q => q.hyp = h) ||
  s.core.units.any (fun u => u.hyp = h) ||
  s.core.peel.any (fun o => o.hyp = h) ||
  s.pkg.saved.any (fun g => g.hyp = h) ||
  (s.hart.run != .idle && s.hart.hyp = h)

/-- A MERGED or REFUTED id that nothing names becomes FREE; a child that is not FREE yet still names its parent, where its
versions or its orphans go (17:R321, R333, R335, log 10). What fetches under it saw goes with it. -/
def State.freeHyp (s : State) (h : BitVec 12) : State :=
  let e := s.pkg.hypEntry h
  if (e.st = .merged || e.st = .refuted) && !s.hypNamed h && !(s.pkg.hyps.any (fun x => x.2.parent = h)) then
    (s.mapPkg (fun p => p.setHyp h HypEntry.free)).mapHart (fun t => { t with stale := t.stale.filter (fun x => x.hyp != h) })
  else s

/-- Set HYP and its depth. -/
def State.setHypReg (s : State) (h : BitVec 12) : State :=
  s.mapHart (fun x => { x with hyp := h, hypdepth := (s.pkg.hypEntry h).depth })

/-- Refute the ids given: REFUTED, their versions and slots dropped, their queued stores discarded (17:R335). -/
def State.refuteIds (s : State) (ids : List (BitVec 12)) : State :=
  let s := (s.mapPkg (fun p => ids.foldl (fun p h => p.setHyp h { p.hypEntry h with st := .refuted }) p)).dropVersions
    ids.contains
  s.mapCore (fun c => { c with storeQ := c.storeQ.filter (fun q => !ids.contains q.hyp) })

/-! ### Rollback of a SNAP superstep (21:R366 to R369). -/

/-- What a gang's opening release captures of this member (12:R266). -/
def Hart.capture (h : Hart) (peelMark : Nat) (tbs : List TbTrack) : Captured :=
  { g := h.g, pc := h.pc, mode := h.mode, vl := h.vl, vlmax := h.vlmax, vlceil := h.vlceil, rds := h.rds,
    srseed := h.srseed, srcount := h.srcount, fcrShape := h.fcrShape, fcrFe := h.fcrFe, lease := h.lease,
    act := h.act, wcount := h.wcount, th := h.th, trapcause := h.trapcause, trappc := h.trappc, trapval := h.trapval,
    trapvec := h.trapvec, peelMark := peelMark, tbs := tbs, spoilt := false }

/-- The captured registers come back (21:R368, step 4). -/
def Hart.recapture (h : Hart) (k : Captured) : Hart :=
  { h with
    pc := k.pc &&& ~~~3#48, g := k.g, mode := k.mode, vl := k.vl, vlmax := k.vlmax, vlceil := k.vlceil,
    rds := k.rds, srseed := k.srseed, srcount := k.srcount, fcrShape := k.fcrShape, fcrFe := k.fcrFe,
    lease := k.lease, act := k.act, wcount := k.wcount, th := k.th, trapcause := k.trapcause, trappc := k.trappc,
    trapval := k.trapval, trapvec := k.trapvec }

/-- A stamp that no resident gang holds, at or above x (09:R199). -/
def State.freeStamp (s : State) : Nat → BitVec 20 → BitVec 20
  | 0, x => x
  | n + 1, x =>
    if (s.hart.run != .idle && s.hart.syncst = x) || s.pkg.saved.any (fun g => g.stamp = x) || s.pkg.otherStamps.contains x
    then s.freeStamp n (x + 1#20)
    else x

/-- The stamp that the package's counter issues next: it advances past every stamp that a resident gang holds (09:R199). -/
def State.nextStamp (s : State) : BitVec 20 :=
  s.freeStamp (s.pkg.saved.length + s.pkg.otherStamps.length + 2) (s.pkg.stamp + 1#20)

/-- Issue a fresh stamp to the running gang (09:R199). -/
def State.freshStamp (s : State) : State :=
  { s with hart := { s.hart with syncst := s.nextStamp }, pkg := { s.pkg with stamp := s.nextStamp } }

/-- Bench offset of the barrier an operation counts on. -/
def PeelOp.tbAddr (o : PeelOp) : Nat := o.gb.toNat - 0xFF00_0000_0000

/-- Elements of an operation not landed; for an rrot the incoming ones are counted apart (11:R251). -/
def PeelOp.left (o : PeelOp) : Nat := (o.vl - o.vstart) - o.moved.length + o.sent.length

/-- The package of the pan that a put names (11:R247). -/
def PeelOp.tokPkg (o : PeelOp) : BitVec 12 := o.gd.extractLsb' 0 12
/-- The pan that a put names. -/
def PeelOp.ref (o : PeelOp) : PanRef :=
  { core := o.gd.extractLsb' 12 9, pan := o.gd.extractLsb' 21 6, seq := o.gd.extractLsb' 32 16 }

/-- A put. -/
def isPut : Instr → Bool
  | .bput .. => true
  | .bputF .. => true
  | .vput .. => true
  | .vputF .. => true
  | _ => false

/-- An rrot. -/
def isRrot : Instr → Bool
  | .rrot .. => true
  | _ => false

/-- An error ends an operation: its elements not landed leave EP and its arrivals are counted, for an rrot the one
of each side that has not been (11:R236, R251). -/
def Core.endOp (c : Core) (o : PeelOp) (code : BitVec 4) : Core :=
  let c := if o.ended then c else c.tbFinish o.tbAddr o.left (some code)
  if isRrot o.instr && 0 < o.incoming then c.tbFinish o.tbAddr o.incoming (some code) else c

/-- The answer to a prsv that a gang waits for will find nobody: the gang is discarded or its superstep undone (11:R247). -/
def Pkg.dropPrsv (p : Pkg) (gangid : BitVec 20) : Pkg :=
  { p with prsvOut := p.prsvOut.map (fun x => if x.gangid = some gangid then { x with gangid := none } else x) }

/-! ### Pans (11:R246). -/

/-- Bench offset of the barrier of pan i. -/
def Rack.tbOf (r : Rack) (i : Nat) : Nat := r.tbs + 16 * i

/-- Replace pan i. -/
def Core.setPan (c : Core) (i : Nat) (p : Pan) : Core :=
  { c with rack := c.rack.map (fun r => { r with pans := r.pans.set i p }) }

/-- A pan in RESV or FILL becomes POISON: error, the remaining bytes leave EP, and its one arrival is counted unless
its final put has counted it (11:R246). -/
def Core.poisonPan (c : Core) (i : Nat) (code : BitVec 4) : Core :=
  match c.rack with
  | none => c
  | some r =>
    match r.pans[i]? with
    | none => c
    | some p =>
      if p.st = .resv || p.st = .fill then
        let o := r.tbOf i
        ((c.setTb o ((c.tb o).spoil code p.finalPut)).setPan i { p with st := .poison }).tbSettle o
      else c

/-- The discard of a put's gang reaches the pan: one in FILL under its sequence becomes POISON with EC 3 (11:R246,
21:R370). -/
def Core.discardPan (c : Core) (r : PanRef) : Core :=
  match (c.rack.bind (fun k => k.pans[r.pan.toNat]?)) with
  | some p => if p.seq = r.seq && p.st = .fill then c.poisonPan r.pan.toNat 3#4 else c
  | none => c

/-- Operations end with an error code; a put to a pan of this core that a discard abandons tells the pan (11:R236,
21:R370). -/
def State.endOps (s : State) (ops : List PeelOp) (code : BitVec 4) : State :=
  s.mapCore (fun c => ops.foldl (fun c o =>
    let c := c.endOp o code
    if code = 3#4 && isPut o.instr && o.tokPkg = s.pkg.mypkg && o.ref.core = s.core.num then c.discardPan o.ref
    else c) c)

/-- Every peel operation that a save has not left behind ends with an error code. -/
def State.endPeel (s : State) (code : BitVec 4) : State :=
  (s.endOps (s.core.peel.filter (fun o => !o.out)) code).mapCore (fun c => { c with peel := c.peel.filter (·.out) })

/-- The operations of a superstep that is undone end with EC 7. The barrier of one issued in the superstep stands again as
before its issue, so it takes the error alone (11:R253, 21:R368, log 92). -/
def State.undoPeel (s : State) (k : Captured) : State :=
  let ops := s.core.peel.filter (fun o => !o.out)
  let s := s.mapCore (fun c => { c with captured := none, peel := c.peel.filter (·.out) })
  let s := ops.foldl (fun s o =>
    if k.peelMark ≤ o.id then s.mapCore (fun c => c.tbError o.tbAddr 7#4) else s.endOps [o] 7#4) s
  s.mapCore (fun c => { c with captured := some { k with peelMark := c.peelIds } })

/-- Restore the captured superstep (21:R368). -/
def State.rollback (s : State) : State :=
  match s.core.captured with
  | none => s
  | some k =>
    let s := s.mapCore (fun c => { c with units := [] })
    let id := s.hart.hyp
    let e := s.pkg.hypEntry id
    let s := s.refuteIds [id]
    let s := (s.restoreShadows.dropShadows).undoPeel k
    let s := s.mapPkg (fun p => p.setHyp id { e with st := .open })
    let s := s.freshStamp
    { s with
      hart := { s.hart.recapture k with
        run := .running, fsr := 0, vfsr := 0, vstartArm := false, vstartIdx := 0, vdirty := 0, pdirty := 0,
        arrival := none, trigger := false, arrayError := none, orphan := none,
        rbCur := s.hart.rbCur + 1#2,
        rbTotal := if s.hart.rbTotal = BitVec.allOnes 32 then s.hart.rbTotal else s.hart.rbTotal + 1#32 }
      core := { s.core with vrows := [], prows := [], badRows := [], cells := [], chans := [], badCells := [], winCount := 0,
                            winPair := .none, vv := 0, pv := 0, fv := false,
                            reserved := s.core.reserved.filter (fun r => r.gangid != s.hart.gangid) }
      pkg := { s.pkg.dropPrsv s.hart.gangid with arrivals := [], peerWaits := [] } }

/-! ### Discard (21:R370). -/

/-- The report ring of a queue's records, or SYSRING for a device queue and for a poisoned descriptor (18:R343, R345, 00:R5,
log 103). -/
def State.reportRing (s : State) (q : BitVec 12) : BitVec 12 :=
  let a := s.pkg.qdtbase.toNat + 32 * q.toNat
  if s.peekPoison (a + 8) 16 then s.pkg.sysring
  else if (BitVec.ofNat 64 (s.peek (a + 8) 8)).getLsbD 21 then BitVec.ofNat 12 (s.peek (a + 16) 8) else s.pkg.sysring

/-- What units have checked of their stores stands before the store queue, and the units are empty: a store that passed its
checks is performed (21:R370). -/
def Core.abandonUnits (c : Core) : Core :=
  { c with storeQ := c.checkedStores ++ c.storeQ, units := [] }

/-- The running gang is discarded with a KIND 2 report of what a member's core met, which waits for the gang's accesses
(State.reportsDue): stores that passed their checks are performed, queued work is abandoned, puts end with EC 3, a SNAP
superstep is refuted, ways return to CACHE (21:R370). -/
def State.discardFor (s : State) (core : BitVec 9) (cause : BitVec 8) (val pc : Word) : State :=
  let s := (s.mapCore Core.abandonUnits).drain
  let s := s.endPeel 3#4
  let s := if s.hart.snap then
      let id := s.hart.hyp
      let s := s.refuteIds [id]
      (s.dropShadows.setHypReg 0#12).freeHyp id
    else s
  let s := s.releaseWays s.ownWays
  let s := s.mapCore (fun c => { c with reserved := c.reserved.filter (fun r => r.gangid != s.hart.gangid), captured := none })
  let s := s.mapHart (fun h => { h with run := .idle, arrival := none, orphan := none, arrayError := none,
                                        trigger := false, hyp := 0, hypdepth := 0 })
  let report := sysReport (s.reportRing s.hart.queue) 2 s.hart.ctxid 0#12 core cause val pc s.hart.cookie
  { s with core := { s.core with reports := s.core.reports ++ [report] }
           pkg := { s.pkg.dropPrsv s.hart.gangid with arrivals := [], ended := [], peerWaits := [] } }

/-- The same by this member. -/
def State.discardGang (s : State) (cause : BitVec 8) (val pc : Word) : State := s.discardFor s.core.num cause val pc

/-- A flit of a put, of a peer write or of its acknowledgement is still on its way from a port (09:R205, 21:R370). -/
def Pkg.accessesOut (p : Pkg) : Bool :=
  p.peerWritesOut || p.ports.toList.any (fun r => (r.buffer ++ r.waiting).any (fun f => f.lands.isSome))

/-- The release at sys scope before a report of a discarded gang: its stores have left the queue, and the ports have
acknowledged its writes (21:R370). -/
def State.reportsDue (s : State) : Bool := s.core.storeQ.isEmpty && !s.pkg.accessesOut

/-- A rollback trigger at a member of a SNAP gang: the fourth of one superstep discards the gang, any other puts it in
ROLLBACK, where the members have stopped and their queues and arrivals are gone; a trigger that arrives there is not counted
again (21:R366 to R368). -/
def State.triggerFor (s : State) (core : BitVec 9) (cause : BitVec 8) (val pc : Word) : State :=
  if s.hart.trigger then s
  else if s.hart.rbCur = 3#2 then s.discardFor core cause val pc
  else ({ s with core := { s.core with units := [] }, pkg := { s.pkg with arrivals := [] } }).mapHart
    (fun h => { h with trigger := true, arrival := none })

/-- A trigger at this member. -/
def State.triggerRollback (s : State) (cause : BitVec 8) (val : Word) : State :=
  s.triggerFor s.core.num cause val (s.hart.pc.setWidth 64)

/-- A hart state error: a trigger in a SNAP gang, else the gang is discarded with CAUSE 0x0B (21:R365). -/
def State.hartStateError (s : State) : State :=
  if s.hart.snap then s.triggerRollback 0x0B#8 0 else s.discardGang 0x0B#8 0 (s.hart.pc.setWidth 64)

end Sys2Proof.Machine
end

