-- ==== Sys2Proof/Machine/Ops.lean ====
section
/-! DEFINITION. Machine/Ops.lean: the named operations over registers, how an instruction ends (retired, trapped,
parked, waiting), taking a trap and returning from one (16:R304 to R310, R315). -/

namespace Sys2Proof.Machine

/-! ### General registers (02:R41). -/

/-- g(r); g0 reads zero. -/
def State.g (s : State) (r : GReg) : Word := if r = 0#5 then 0 else s.hart.g[r.toNat]

/-- Write g(r); a write to g0 is discarded. -/
def State.setG (s : State) (r : GReg) (v : Word) : State :=
  if r = 0#5 then s else s.mapHart (fun h => { h with g := h.g.set r.toNat v })

/-! ### Ending an instruction. -/

/-- Continue at PC + 4, modulo 2^48 (02:R32). -/
def State.advance (s : State) : State := s.mapHart (fun h => { h with pc := h.pc + 4#48 })

/-- Count a retired instruction (16:R311). -/
def State.countRetired (s : State) : State := s.mapHart (fun h => { h with instret := h.instret + 1#64 })

/-- Retire an instruction and continue at PC + 4. -/
def State.retire (s : State) : State := s.countRetired.advance

/-- Retire a jump: PC and the count. -/
def State.jump (s : State) (pc : Addr) : State := s.countRetired.mapHart (fun h => { h with pc := pc })

/-- Write a result and retire. -/
def State.result (s : State) (d : GReg) (v : Word) : State := (s.setG d v).retire

/-! ### Traps (16:R308 to R310). -/

/-- Enter the handler: cause, value and address recorded, TH set, PC = TRAPVEC; with TH set or TRAPVEC 0 the trap
is fatal and the gang is discarded (16:R308). An arrival at the barrier is withdrawn (12:R265). -/
def State.enterTrap (s : State) (cause : BitVec 8) (val : Word) (pc : Addr) : State :=
  let fatal := s.hart.th || s.hart.trapvec = 0#48
  let s := (s.mapHart (fun h => { h with trapcause := cause, trapval := val, trappc := pc, arrival := none })).mapPkg (·.dropAsks .hart)
  if fatal then s.discardGang cause val (pc.setWidth 64)
  else s.mapHart (fun h => { h with th := true, pc := h.trapvec &&& ~~~3#48, run := .running })

/-- Raise a trap: 0x0A and 0x0B of a SNAP gang are rollback triggers and do not enter the handler (21:R366). -/
def State.raise (s : State) (cause : BitVec 8) (val : Word) (pc : Addr) : State :=
  if s.hart.snap && (cause = 0x0A#8 || cause = 0x0B#8) then s.triggerRollback cause val
  else s.enterTrap cause val pc

/-- A trap raised by the instruction at PC (16:R308). -/
def State.trap (s : State) (cause : BitVec 8) (val : Word) : State := s.raise cause val s.hart.pc

/-- The illegal-instruction trap raised by an instruction's own word (02:R38, R40): TRAPVAL is the word. -/
def State.illegal (s : State) (w : IWord) : State := s.trap 0x01#8 (w.setWidth 64)

/-- Return from a trap: TH = 0, PC = TRAPPC with bits [1:0] cleared (16:R315). -/
def State.returnFromTrap (s : State) : State :=
  s.countRetired.mapHart (fun h => { h with th := false, pc := h.trappc &&& ~~~3#48 })

/-! ### Page faults (16:R304 to R306). -/

/-- Number of a fault's source and access in a record (16:R305). -/
def FaultSource.code : FaultSource → Nat
  | .fetch => 0 | .scalar => 1 | .vector => 2 | .frame => 3 | .peel => 4
def FaultAccess.code : FaultAccess → Nat
  | .read => 0 | .write => 1 | .fetch => 2 | .atomic => 3

/-- A page fault met by a translation: address, access, and whether the entry was malformed. -/
structure PageFault where
  va : Addr
  access : FaultAccess
  malformed : Bool
  deriving DecidableEq, Repr

/-- The identifiers of records that have not been answered: those of parked agents, running and SAVED, and of records that wait to
be written (16:R305, R306). -/
def State.usedFids (s : State) : List (BitVec 32) :=
  (match s.hart.run with
    | .parked x => [x]
    | _ => []) ++
  s.core.units.filterMap (fun u => u.parked.map (·.1)) ++ s.core.peel.filterMap (fun o => o.parked.map (·.1)) ++
  s.pkg.saved.flatMap (fun g => g.fids.map (·.fid)) ++ s.core.faultRecs.map (fun x => x.w1.extractLsb' 32 32)

/-- The first identifier at or after x that is not used. -/
def freeFid (used : List (BitVec 32)) : Nat → BitVec 32 → BitVec 32
  | 0, x => x
  | n + 1, x => if used.contains x then freeFid used n (x + 1#32) else x

/-- The identifier of the next fault record (16:R305). -/
def State.newFid (s : State) : BitVec 32 := freeFid s.usedFids s.usedFids.length s.pkg.nextFid

/-- The fault record (16:R305). -/
def State.faultRecord (s : State) (f : PageFault) (src : FaultSource) (hyp : BitVec 12) (pc : Addr) : RingRecord :=
  { ring := s.hart.desc.faultq
    w0 := BitVec.ofNat 64 (s.hart.ctxid.toNat * 2 ^ 48 + f.va.toNat)
    w1 := BitVec.ofNat 64 (s.newFid.toNat * 2 ^ 32 + (if f.malformed then 2 ^ 20 else 0) + f.access.code * 2 ^ 18
      + src.code * 2 ^ 12 + s.core.num.toNat)
    w2 := BitVec.ofNat 64 (hyp.toNat * 2 ^ 48 + pc.toNat)
    w3 := s.hart.cookie }

/-- Issue a fault record: its identifier, unique among those not answered, and the record in the core (16:R306). -/
def State.sendFault (s : State) (f : PageFault) (src : FaultSource) (hyp : BitVec 12) (pc : Addr) :
    State × BitVec 32 :=
  ({ s with core := { s.core with faultRecs := s.core.faultRecs ++ [s.faultRecord f src hyp pc] }
            pkg := { s.pkg with nextFid := s.newFid + 1#32 } }, s.newFid)

/-- Park the hart at the instruction at PC (16:R304). -/
def State.parkHart (s : State) (f : PageFault) (src : FaultSource) : State :=
  let r := s.sendFault f src s.hart.hyp s.hart.pc
  (r.1.mapHart (fun h => { h with run := .parked r.2, faultVa := f.va })).mapPkg (·.dropAsks .hart)

/-! ### How an access ends. -/

/-- The end of an access: done with a value; a trap with its cause and TRAPVAL; a page fault; or it must wait and
is made again later. States carry what the access had done when it stopped (16:R300). check is the order number of
10:R213 that failed, 0 for a check of another list. -/
inductive Res (α : Type) where
  | ok (a : α) (s : State)
  | trap (cause : BitVec 8) (val : Word) (check : Nat) (s : State)
  | fault (f : PageFault) (s : State)
  | wait (s : State)
  deriving Repr

/-- Continue after an access that was done. -/
def Res.andThen {α β : Type} (r : Res α) (k : α → State → Res β) : Res β :=
  match r with
  | .ok a s => k a s
  | .trap c v n s => .trap c v n s
  | .fault f s => .fault f s
  | .wait s => .wait s

/-- End a scalar instruction: k completes it, a trap or fault is taken at its PC, after a wait the instruction
executes again. -/
def Res.finish {α : Type} (r : Res α) (k : α → State → State) : Result :=
  match r with
  | .ok a s => .next (k a s)
  | .trap c v _ s => .next (s.trap c v)
  | .fault f s => .next (s.parkHart f .scalar)
  | .wait s => .next s

/-- The instruction waits: nothing happens in this step. -/
def State.waitHere (s : State) : Result := .next s

end Sys2Proof.Machine
end

