-- ==== Sys2Proof/Machine/Translate.lean ====
section
/-! DEFINITION. Machine/Translate.lean: page walks, permissions, A and D, and the TLBs (16:R296 to R303). -/

namespace Sys2Proof.Machine

/-- How a walk ends (16:R296, R297, R300). -/
inductive WalkEnd where
  | leaf (entry : Word) (at_ : Nat) (bits : Nat)
  | missing
  | malformed
  /-- A table lies where there is no device memory (08:R170, log 104). -/
  | nowhere
  deriving DecidableEq, Repr

/-- The table index of a level, 4 down to 1 (16:R296). -/
def walkIndex (va level : Nat) : Nat := va / 2 ^ (12 + 9 * (level - 1)) % 512

/-- An entry is malformed (16:R297). -/
def badEntry (e : Word) (level : Nat) : Bool :=
  let l := e.getLsbD 4
  e.extractLsb' 48 16 != 0#16 || (l && level = 4) || (!l && level = 1) ||
    (l && ((e.getLsbD 5 && level != 1) || (e.getLsbD 2 && !e.getLsbD 1)))

/-- An entry has C64 set (16:R297). -/
def State.entry64 (s : State) (a : Nat) : Bool := (BitVec.ofNat 64 (s.peek a 8)).getLsbD 5

/-- Where the level-1 entry for va is read: its own place, or in a block whose 16 entries differ in more than A and D and of
which some have C64, any one that has it (16:R298, log 41). -/
def State.levelOneAt (s : State) (va table : Nat) : Nat :=
  let base := table + 8 * (walkIndex va 1 / 16 * 16)
  let shape (k : Nat) : Word := BitVec.ofNat 64 (s.peek (base + 8 * k) 8) &&& ~~~0x300#64
  let own := table + 8 * walkIndex va 1
  if (List.range 16).all (fun k => shape k = shape 0) then own
  else
    let with64 := (List.range 16).filter (fun k => s.entry64 (base + 8 * k))
    match with64[(Config.c64Entry s.tick va).toNat % with64.length]? with
    | some k => base + 8 * k
    | none => own

/-- The walker reads an entry at its home as an acquire: the owner is recalled and the line's rts extended. LTIME is the
hart's and stays; the maintenance regime reads without times (09:R203, R208, 10:R213, 16:R296, log 93). None while another core
owns the line. The entry and whether it is poisoned, which is then recorded (21:R372). -/
def State.walkRead (s : State) (a : Nat) : Option (State × Word × Bool) :=
  (s.recall (a / 64)).map (fun s =>
    let s := if s.hart.maint then s
      else (s.homeReadTimes (a / 64) s.hart.ltime s.hart.lease).1
    let bad := s.pkg.poisoned a 8
    (if bad then s.consumePoison a else s, s.pkg.readWord a, bad))

/-- Walk from a table at a level down (16:R296, R297). A poisoned entry is taken as malformed (log 12); a table outside device
memory has no entry that can be read, and the access is refused (log 104). None while an entry's
line belongs to another core; what was read before stays read. -/
def State.walkFrom (va : Nat) : Nat → Nat → State → State × Option WalkEnd
  | 0, _, s => (s, some .malformed)
  | level + 1, table, s =>
    let a := if level = 0 then s.levelOneAt va table else table + 8 * walkIndex va (level + 1)
    if !isDevice a then (s, some .nowhere)
    else match s.walkRead a with
      | none => (s, none)
      | some (s, e, bad) =>
        if bad then (s, some .malformed)
        else if !e.getLsbD 0 then (s, some .missing)
        else if badEntry e (level + 1) then (s, some .malformed)
        else if e.getLsbD 4 then (s, some (.leaf e a (if e.getLsbD 5 then 16 else 12 + 9 * level)))
        else State.walkFrom va level (e.toNat / 4096 % 2 ^ 36 * 4096) s

/-- The four-level walk from ROOT. -/
def State.walk (s : State) (va : Nat) : State × Option WalkEnd := State.walkFrom va 4 s.hart.ptroot.toNat s

/-- The TLB entry of a leaf. -/
def leafEntry (ctx : BitVec 8) (va : Nat) (e : Word) (a bits : Nat) : TlbEntry :=
  { ctx := ctx, va := va / 2 ^ bits, bits := bits, pa := e.toNat / 4096 % 2 ^ 36 * 4096 / 2 ^ bits,
    mt := e.extractLsb' 6 2, r := e.getLsbD 1, w := e.getLsbD 2, x := e.getLsbD 3, sysp := e.getLsbD 10,
    cnt := e.getLsbD 11, leaf := a, dirty := e.getLsbD 9 }

/-- The entry grants the access (16:R300). -/
def TlbEntry.grants (e : TlbEntry) (acc : FaultAccess) (sys : Bool) : Bool :=
  (!e.sysp || sys) &&
  match acc with
  | .read => e.r
  | .write => e.w
  | .fetch => e.x
  | .atomic => e.r && e.w

/-- The access writes. -/
def FaultAccess.writes : FaultAccess → Bool
  | .write => true
  | .atomic => true
  | _ => false

/-- The PA an entry gives. -/
def TlbEntry.target (e : TlbEntry) (va : Nat) : Nat := e.pa * 2 ^ e.bits + va % 2 ^ e.bits

/-- The memory type of a PA, none on a mismatch of MT and range (16:R299, 18:R341); a host UC region of the
adapter is served without caching. -/
def State.memType (s : State) (mt : BitVec 2) (pa : Nat) : Option MemType :=
  match mt.toNat, regionOf pa with
  | 0, some .hbm => some .wb
  | 0, some .pantry => some .wb
  | 1, some .hbm => some .uc
  | 1, some .pantry => some .uc
  | 2, some .host =>
    if s.pkg.huc.getLsbD ((pa - 0x0400_0000_0000) / 2 ^ 38) then some .hostUc else some .host
  | 3, some .peer => if s.peerRefused pa then none else some .peer
  | _, _ => none

/-- The entry of a list that translates va for the running context (16:R301). -/
def State.entryIn (s : State) (l : List TlbEntry) (va : Nat) : Option TlbEntry :=
  l.find? (fun e => e.ctx = s.hart.ctxid && va / 2 ^ e.bits = e.va)

/-- A hit in the TLBs, the first level before the second (16:R301). -/
def State.tlbFind (s : State) (va : Nat) : Option TlbEntry := s.entryIn (s.core.tlb1 ++ s.core.tlb) va

/-- A translation for a unit's instruction: the TLBs, then the pages walked for the instructions in progress (16:R301). -/
def State.unitFind (s : State) (va : Nat) : Option TlbEntry := s.entryIn (s.core.tlb1 ++ s.core.tlb ++ s.core.walks) va

/-- A list with an entry in front, in place of the one it had for the page; beyond n entries the oldest leave (log 11). -/
def pushEntry (e : TlbEntry) (n : Nat) (l : List TlbEntry) : List TlbEntry :=
  e :: (l.filter (fun x => !(x.ctx = e.ctx && x.va = e.va && x.bits = e.bits))).take (n - 1)

/-- Keep a valid leaf in both levels, and for the instructions in progress (16:R301, log 11). -/
def State.tlbFill (s : State) (e : TlbEntry) (unit : Bool) : State :=
  s.mapCore (fun c => { c with
    tlb := pushEntry e Config.tlbEntries c.tlb
    tlb1 := pushEntry e Config.tlbFirst c.tlb1
    walks := if unit then pushEntry e (c.walks.length + 1) c.walks else c.walks })

/-- An entry that was used comes into the first level. -/
def State.tlbTouch (s : State) (e : TlbEntry) : State :=
  if s.core.tlb1.contains e then s else s.mapCore (fun c => { c with tlb1 := pushEntry e Config.tlbFirst c.tlb1 })

/-- Set bits of a leaf by an atomic at its home, when one is clear; a poisoned leaf stays poisoned, LTIME does not change
(16:R300, 00:R5, log 93). None while another core owns the line. -/
def State.setLeafBits (s : State) (a : Nat) (m : Nat) : Option State :=
  (s.recall (a / 64)).map (fun s =>
    let e := s.pkg.read a 8
    if e &&& m = m then s
    else
      let s := s.wakeLine (a / 64)
      let s := if s.hart.maint then s else (s.homeWriteTimes (a / 64) s.hart.ltime none).1
      s.mapPkg (fun p => p.writeOver a (e ||| m)))

/-- A translation by a cached entry that passed check 5: D is set before a write (16:R300). -/
def State.markLeaf (s : State) (e : TlbEntry) (acc : FaultAccess) (unit : Bool) : Option State :=
  if acc.writes && !e.dirty then (s.setLeafBits e.leaf 0x300).map (·.tlbFill { e with dirty := true } unit)
  else some (s.tlbTouch e)

/-- Translate by a fresh walk. -/
def State.translateWalk (s : State) (va : Addr) (acc : FaultAccess) (unit : Bool) : Res (Nat × MemType × Bool) :=
  match s.walk va.toNat with
  | (s, none) => .wait s
  | (s, some .missing) => .fault { va := va, access := acc, malformed := false } s
  | (s, some .malformed) => .fault { va := va, access := acc, malformed := true } s
  | (s, some .nowhere) => .trap 0x03#8 (va.setWidth 64) 5 s
  | (s, some (.leaf e a bits)) =>
    let t := leafEntry s.hart.ctxid va.toNat e a bits
    if !t.grants acc s.hart.sys then .trap 0x03#8 (va.setWidth 64) 5 s
    else match s.memType t.mt (t.target va.toNat) with
      | none => .trap 0x03#8 (va.setWidth 64) 5 s
      | some mt =>
        match s.setLeafBits a (if acc.writes then 0x300 else 0x100) with
        | none => .wait s
        | some s => .ok (t.target va.toNat, mt, t.cnt) (s.tlbFill { t with dirty := t.dirty || acc.writes } unit)

/-- Check 5: translation, permission and memory type of an address outside bench (10:R213, 16:R300). A permission
failure by a cached entry walks again. A unit's instruction walks each page once (16:R301). -/
def State.translate (s : State) (va : Addr) (acc : FaultAccess) (unit : Bool := false) : Res (Nat × MemType × Bool) :=
  match (if unit then s.unitFind va.toNat else s.tlbFind va.toNat) with
  | some e =>
    if e.grants acc s.hart.sys then
      match s.memType e.mt (e.target va.toNat) with
      | some mt =>
        match s.markLeaf e acc unit with
        | some s => .ok (e.target va.toNat, mt, e.cnt) s
        | none => .wait s
      | none => .trap 0x03#8 (va.setWidth 64) 5 s
    else s.translateWalk va acc unit
  | none => s.translateWalk va acc unit

end Sys2Proof.Machine
end

