-- ==== Sys2Proof/Machine/Access.lean ====
section
/-! DEFINITION. Machine/Access.lean: the checks of every access in their order and the hart's reads and writes
(10:R212 to R216, 09:R197, R198, 08:R173 to R176). -/

namespace Sys2Proof.Machine

/-! ### Checks 1 to 5 (10:R213). -/

/-- The access runs under an explicit hypothesis (17:R323). -/
def State.explicitHyp (s : State) (h : BitVec 12) : Bool := h != 0#12 && !s.hart.snap

/-- Checks 3 and 4 of a bench address whose offset is o: way mode and range, then owner (08:R173, R174). -/
def State.benchCheck (s : State) (ea : Word) (o n : Nat) : Res Target :=
  if !s.core.benchIn s.hart.ctxid o n then .trap 0x03#8 ea 3 s
  else if (granules o n).any s.core.engineOwned then .trap 0x09#8 ea 4 s
  else .ok (.bench o) s

/-- Checks 1 to 5 of an access of n bytes at ea, by the hart or for an instruction of a unit (10:R213). -/
def State.locate (s : State) (ea : Word) (n : Nat) (acc : FaultAccess) (unit : Bool := false) : Res Target :=
  if ea.extractLsb' 48 16 != 0#16 then .trap 0x03#8 ea 1 s
  else if ea.toNat % n != 0 then .trap 0x02#8 ea 2 s
  else if inBenchWindow ea.toNat then s.benchCheck ea (ea.toNat - 0xFF00_0000_0000) n
  else (s.translate (ea.setWidth 48) acc unit).andThen (fun t s => .ok (.mem t.1 t.2.1 t.2.2) s)

/-! ### Checks 6 and 7: writes under hypotheses (10:R213, 17:R328). -/

/-- A version (line, h) exists, in a way, at its home or in a slot. -/
def State.hasVersion (s : State) (line : Nat) (h : BitVec 12) : Bool :=
  (s.pkg.findVersion line h).isSome || (s.findSlot line h).isSome

/-- The cause and number of check 6 or 7 that a write to a target under h fails (08:R176, 09:R211, 17:R323, R328,
10:R220). -/
def State.writeCheck (s : State) (t : Target) (n : Nat) (atomic : Bool) (h : BitVec 12) : Option (BitVec 8 × Nat) :=
  if h = 0#12 then none
  else if atomic && s.explicitHyp h then some (0x07#8, 6)
  else match t with
  | .bench o =>
    if s.explicitHyp h then some (0x07#8, 6)
    else if !s.shadowsFit (granules o n) then some (0x06#8, 7)
    else none
  | .mem dpa mt _ =>
    match mt with
    | .wb => if !s.hasVersion (dpa / 64) h && s.freeSlots s.ownArea = 0 then some (0x06#8, 7) else none
    | .uc => if s.explicitHyp h then some (0x07#8, 6) else none
    | _ => some (0x07#8, 6)

/-! ### Check 9: races (09:R197, R198). -/

/-- A side of a record that conflicts with an access: another core's, under the same stamp, with a common byte, under nested
hypotheses, and not older than 2^19 issues of the counter, which are never compared (09:R198, R200). -/
def RaceSide.conflicts (e : RaceSide) (p : Pkg) (me : RaceSide) : Bool :=
  e.core != me.core && e.stamp = me.stamp && (e.mask &&& me.mask) != 0#8 && !p.unrelated e.hyp me.hyp &&
    (p.stamp - e.stamp).toNat ≤ 2 ^ 19

/-- Compare an access of n bytes by a core under a stamp and a hypothesis with its word's record and enter it; none for a
race. -/
def Pkg.raceCheck (p : Pkg) (core : BitVec 9) (stamp : BitVec 20) (h : BitVec 12) (dpa n : Nat) (write : Bool) :
    Option Pkg :=
  let w := dpa / 8
  let me : RaceSide := { core := core, stamp := stamp, mask := BitVec.ofNat 8 ((2 ^ n - 1) * 2 ^ (dpa % 8)), hyp := h }
  let r := sparseGet RaceRec.empty p.races w
  let hits (e : Option RaceSide) : Bool := match e with
    | some e => e.conflicts p me
    | none => false
  if hits r.writer || (write && hits r.reader) then none
  else
    let r' : RaceRec := if write then { r with writer := some me } else { r with reader := some me }
    some { p with races := sparseSet RaceRec.empty p.races w r' }

/-- Race checking applies: RACECHK set, service regime, WB-device memory (09:R197, R208). -/
def State.raceChecked (s : State) (t : Target) : Bool :=
  match t with
  | .mem _ mt _ => s.hart.racechk && !s.hart.maint && mt = .wb
  | .bench _ => false

/-- Check 9 of an access of this hart; none for a race. -/
def State.race (s : State) (t : Target) (n : Nat) (write : Bool) (h : BitVec 12) : Option State :=
  match t with
  | .mem dpa _ _ =>
    if s.raceChecked t then
      (s.pkg.raceCheck s.core.num s.hart.syncst h dpa n write).map (fun p => { s with pkg := p })
    else some s
  | .bench _ => some s

/-! ### Queued stores (10:R215). -/

/-- Address space and first byte of a target. -/
def Target.key : Target → Bool × Nat
  | .bench o => (true, o)
  | .mem dpa _ _ => (false, dpa)

/-- A queued store touches a byte of [t, t + n). -/
def QStore.overlaps (q : QStore) (t : Target) (n : Nat) : Bool :=
  q.target.key.1 = t.key.1 && q.target.key.2 < t.key.2 + n && t.key.2 < q.target.key.2 + q.size

/-- The load's bytes lie wholly within the store's. -/
def QStore.covers (q : QStore) (t : Target) (n : Nat) : Bool :=
  q.target.key.1 = t.key.1 && q.target.key.2 ≤ t.key.2 && t.key.2 + n ≤ q.target.key.2 + q.size

/-- What the store queue says to a load: no overlap, the bytes, or wait until the store is performed. -/
inductive Forward where
  | memory
  | value (v : Nat)
  | hold
  deriving DecidableEq, Repr

/-- The youngest store that overlaps decides; an element of a vector store forwards nothing (10:R215). -/
def State.forward (s : State) (t : Target) (n : Nat) (h : BitVec 12) : Forward :=
  match s.core.storeQ.reverse.find? (fun q => q.overlaps t n) with
  | none => if s.core.checkedStores.any (fun q => q.overlaps t n) then .hold else .memory
  | some q =>
    if q.covers t n && q.hyp = h then
      .value (q.value.toNat / 2 ^ (8 * (t.key.2 - q.target.key.2)) % 2 ^ (8 * n))
    else .hold

/-! ### Units that reach memory for the hart. -/

/-- The instruction reaches memory from a unit queue (10:R216): vector memory, mmo.st, fsave and fload. -/
def isUnitMem : Instr → Bool
  | .vld .. => true
  | .vlds .. => true
  | .vldx .. => true
  | .vldff .. => true
  | .vst .. => true
  | .vsts .. => true
  | .vstx .. => true
  | .mmoSt .. => true
  | .fsave .. => true
  | .fload .. => true
  | _ => false

/-- An earlier access of a unit is still to be checked, so the hart's own access waits (10:R216, R224, log 13). -/
def State.memBusy (s : State) : Bool := s.core.units.any (fun u => isUnitMem u.instr && u.checked.isNone)

/-! ### Reads. -/

/-- The invalid words under n bench bytes (08:R175). -/
def Core.invalidWords (c : Core) (o n : Nat) : List Nat :=
  (natRange (o / 8) ((o + n + 7) / 8 - o / 8)).filter (natSetHas c.benchInvalid)

/-- WCOUNT stops at 2^32 - 1 (08:R175). -/
def Hart.countInvalid (h : Hart) (k : Nat) : Hart :=
  { h with wcount := if h.wcount.toNat + k < 2 ^ 32 then h.wcount + BitVec.ofNat 32 k else BitVec.allOnes 32 }

/-- The hart read that an access belongs to: a scalar load or atomic of its own, or the vector load or mmo.st row of which
it is an element, with the first key of that read in the words counted (08:R175). -/
inductive ReadOf where
  | scalar
  | part (key : Nat)
  deriving DecidableEq, Repr

/-- Who asks a peer package for it. -/
def ReadOf.asker : ReadOf → PeerAsker
  | .scalar => .hart
  | .part _ => .unit

/-- A read under ACT 1 counts each invalid word once. -/
def State.countInvalid (s : State) (k : ReadOf) (bad : List Nat) : State :=
  match k with
  | .scalar => s.mapHart (·.countInvalid bad.length)
  | .part key =>
    let new := bad.filter (fun w => !natSetHas s.core.counted (key + w))
    (s.mapHart (·.countInvalid new.length)).mapCore (fun c =>
      { c with counted := new.foldl (fun m w => natSetPut m (key + w) true) c.counted })

/-- A read meets single-bit errors among its words: they are corrected in place, and each is counted (21:R358). -/
def State.correct (s : State) (t : Target) (n : Nat) : State :=
  match t with
  | .bench o =>
    let ws := (natRange (o / 8) ((o + n + 7) / 8 - o / 8)).filter (natSetHas s.core.softBench)
    ws.foldl (fun s w => (s.mapCore (fun c => { c with softBench := natSetPut c.softBench w false })).recordCe) s
  | .mem dpa _ _ =>
    if natSetHas s.core.softLine (dpa / 8) then
      (s.mapCore (fun c => { c with softLine := natSetPut c.softLine (dpa / 8) false })).recordCe
    else s

/-- Checks 8 to 10 of a read by the hart and the read itself; one that fails check 10 enters no race record (10:R213). The value
is little-endian. -/
def State.readTarget (s : State) (t : Target) (ea : Word) (n : Nat) (h : BitVec 12) (k : ReadOf := .scalar) : Res Nat :=
  match t with
  | .bench o =>
    let bad := s.core.invalidWords o n
    match bad, decide (s.hart.act = 2#2) with
    | w :: _, true => .trap 0x08#8 (BitVec.ofNat 64 (0xFF00_0000_0000 + max (w * 8) o)) 8 s
    | _, _ =>
      if s.core.benchPoisoned o n then
        .trap 0x0A#8 ea 10 (s.recordUe 2#4 (BitVec.ofNat 64 (3 * 2 ^ 62 + o / 8 * 8)))
      else
        .ok (s.core.benchNat o n) ((if s.hart.act = 1#2 then s.countInvalid k bad else s).correct t n)
  | .mem dpa mt cnt =>
    match s.race t n false h with
    | none => .trap 0x04#8 ea 9 s
    | some _ =>
      if mt = .peer then
        match s.pkg.peerReply dpa n k.asker with
        | some (.data bs) => .ok (ofBytes bs) (s.mapPkg (·.takeReply dpa n k.asker)).noteOutside
        | some .refused => .trap 0x03#8 ea 5 (s.mapPkg (·.takeReply dpa n k.asker))
        | some .poison => .trap 0x0A#8 ea 10 ((s.mapPkg (·.takeReply dpa n k.asker)).consumePoison dpa)
        | none => .wait (s.peerAsk dpa n none k.asker)
      else match s.readMem dpa n mt cnt h with
        | none => .wait s
        | some (r, v) =>
          if v.poison then .trap 0x0A#8 ea 10 (r.consumePoison dpa)
          else .ok v.val (((r.race t n false h).getD r).correct t n)

/-- A scalar load of n bytes at ea: every check, the store queue, then memory (10:R213 to R215). -/
def State.load (s : State) (ea : Word) (n : Nat) : Res Nat :=
  if s.memBusy then .wait s
  else (s.locate ea n .read).andThen (fun t s =>
    match s.forward t n s.hart.hyp with
    | .hold => .wait s
    | .value v =>
      match s.race t n false s.hart.hyp with
      | none => .trap 0x04#8 ea 9 s
      | some s => .ok v s
    | .memory => s.readTarget t ea n s.hart.hyp)

/-- An element read of a unit, part of the hart read k, made in program order after the queued stores it overlaps (10:R216,
R226). -/
def State.unitRead (s : State) (ea : Word) (n : Nat) (h : BitVec 12) (k : ReadOf) : Res Nat :=
  (s.locate ea n .read true).andThen (fun t s =>
    match s.forward t n h with
    | .memory => s.readTarget t ea n h k
    | _ => .wait s)

/-! ### Writes. -/

/-- The bench granules that a write to a target touches. -/
def Target.granules (t : Target) (n : Nat) : List Nat :=
  match t with
  | .bench o => Machine.granules o n
  | .mem .. => []

/-- Checks 1 to 9 of a write; one that passes them takes its bench shadows (10:R213, 17:R328, R337). -/
def State.writeChecks (s : State) (ea : Word) (n : Nat) (acc : FaultAccess) (atomic : Bool) (h : BitVec 12)
    (unit : Bool := false) : Res Target :=
  (s.locate ea n acc unit).andThen (fun t s =>
    match s.writeCheck t n atomic h with
    | some (c, k) => .trap c ea k s
    | none =>
      if atomic then .ok t (s.takeShadows (t.granules n))
      else match s.race t n true h with
        | none => .trap 0x04#8 ea 9 s
        | some s => .ok t (s.takeShadows (t.granules n)))

/-- Queue a store; issue waits while 16 are queued (10:R215). -/
def State.enqueueStore (s : State) (ea : Word) (n : Nat) (v : Word) (atomic : Option (MemOrd × Scope)) : Res Unit :=
  if s.memBusy || 16 ≤ s.core.storeQ.length then .wait s
  else (s.writeChecks ea n .write atomic.isSome s.hart.hyp).andThen (fun t s =>
    .ok () (s.mapCore (fun c => { c with storeQ := c.storeQ ++
      [{ target := t, size := n, value := BitVec.ofNat 64 (v.toNat % 2 ^ (8 * n)), hyp := s.hart.hyp,
         atomic := atomic, pc := s.hart.pc }] })))

/-- A write that has passed its checks is performed under what its tag stands for now: discarded when that was refuted
(17:R334, R335). None while it must wait. -/
def State.performTagged (s : State) (t : Target) (n v : Nat) (h : BitVec 12) : Option State :=
  match s.storeTag h with
  | none => some s
  | some x => s.perform t n v x

/-- An element write of a unit: performed after every earlier store of the queue (10:R215). One whose hypothesis has been refuted
is discarded (17:R335). -/
def State.unitWrite (s : State) (ea : Word) (n v : Nat) (h : BitVec 12) : Res Unit :=
  if s.core.storeQ.isEmpty then
    match s.storeTag h with
    | none => .ok () s
    | some x => (s.writeChecks ea n .write false x true).andThen (fun t s =>
        match s.perform t n v x with
        | some s => .ok () s
        | none => .wait s)
  else .wait s.drain

/-- The whole hart's earlier writes are performed (09:R205, 10:R222). -/
def State.quiet (s : State) : Bool := s.core.storeQ.isEmpty && !s.core.units.any (fun u => isUnitMem u.instr)

end Sys2Proof.Machine
end

