-- ==== Sys2Proof/Machine/Flags.lean ====
section
/-! DEFINITION. Machine/Flags.lean: the floating-point exception flags and how they accumulate (03:R74, 05:R103,
04:R89), and the reduction of exact integers (03:R63). -/

namespace Sys2Proof.Machine

/-- Flags in VFSR's order: NV, DZ, OF, UF, NX from bit 4 down (05:R103). -/
abbrev Flags := BitVec 5

def Flags.nv : Flags := 0x10#5
def Flags.dz : Flags := 0x08#5
def Flags.of_ : Flags := 0x04#5
def Flags.uf : Flags := 0x02#5
def Flags.nx : Flags := 0x01#5

/-- The flag when the condition holds. -/
def Flags.when (c : Bool) (f : Flags) : Flags := if c then f else 0#5

/-- OR flags into VFSR; no flag is ever cleared here (05:R103). -/
def State.orVfsr (s : State) (f : Flags) : State := s.mapHart (fun h => { h with vfsr := h.vfsr ||| f })

/-- FSR flags in the order FMC, FNV, FUNC, FNX, FOV from bit 4 down (07:R143). -/
def Flags.fmc : Flags := 0x10#5
def Flags.fnv : Flags := 0x08#5
def Flags.func : Flags := 0x04#5
def Flags.fnx : Flags := 0x02#5
def Flags.fov : Flags := 0x01#5

/-- OR flags into FSR. -/
def State.orFsr (s : State) (f : Flags) : State := s.mapHart (fun h => { h with fsr := h.fsr ||| f })

/-! ### Integers (00:R13, 03:R63). -/

/-- The low bits of an exact integer, as a number. -/
def wrapInt (v : Int) (bits : Nat) : Nat := (v % (2 ^ bits : Nat)).toNat

/-- The nearest value of a signed or unsigned type of the width, as its bits. -/
def satInt (v : Int) (bits : Nat) (signed : Bool) : Nat :=
  if signed then
    wrapInt (if v < -(2 ^ (bits - 1) : Nat) then -(2 ^ (bits - 1) : Nat)
      else if (2 ^ (bits - 1) : Nat) ≤ v then ((2 ^ (bits - 1) : Nat) : Int) - 1 else v) bits
  else if v < 0 then 0 else if (2 ^ bits : Nat) ≤ v then 2 ^ bits - 1 else v.toNat

/-- The value of bits under a signedness. -/
def readInt (v : Nat) (bits : Nat) (signed : Bool) : Int :=
  if signed && 2 ^ (bits - 1) ≤ v % 2 ^ bits then ((v % 2 ^ bits : Nat) : Int) - (2 ^ bits : Nat) else ((v % 2 ^ bits : Nat) : Int)

/-- The value lies in the type. -/
def fitsInt (v : Int) (bits : Nat) (signed : Bool) : Bool := readInt (wrapInt v bits) bits signed = v

/-- sat or wrap by MODE.SAT (03:R63). -/
def reduceInt (v : Int) (bits : Nat) (signed sat : Bool) : Nat :=
  if sat then satInt v bits signed else wrapInt v bits

end Sys2Proof.Machine
end

