-- ==== Sys2Proof/Machine/Float.lean ====
section
/-! DEFINITION. Machine/Float.lean: number formats, exact values, the one rounding, and conversions (03:R64 to
R76, 05:R120). Every operation computes an exact value first and rounds it once. -/

namespace Sys2Proof.Machine

/-! ### Formats (03:R64 to R66). -/

/-- Special encodings of a format (03:R65). -/
inductive Specials where
  /-- IEEE 754: infinities and NaNs at the all-ones exponent. -/
  | ieee
  /-- e4m3: one NaN pattern per sign, no infinities. -/
  | nanOnly
  /-- e2m1: every encoding finite. -/
  | none
  deriving DecidableEq, Repr

/-- A signed format: exponent and fraction widths, bias, specials (03:R64). -/
structure Fmt where
  eb : Nat
  fb : Nat
  bias : Int
  sp : Specials
  deriving DecidableEq, Repr

def Fmt.fp64 : Fmt := { eb := 11, fb := 52, bias := 1023, sp := .ieee }
def Fmt.fp32 : Fmt := { eb := 8, fb := 23, bias := 127, sp := .ieee }
def Fmt.fp16 : Fmt := { eb := 5, fb := 10, bias := 15, sp := .ieee }
def Fmt.bf16 : Fmt := { eb := 8, fb := 7, bias := 127, sp := .ieee }
def Fmt.e5m2 : Fmt := { eb := 5, fb := 2, bias := 15, sp := .ieee }
def Fmt.e4m3 : Fmt := { eb := 4, fb := 3, bias := 7, sp := .nanOnly }
def Fmt.e2m1 : Fmt := { eb := 2, fb := 1, bias := 1, sp := .none }

/-- Bits of a value. -/
def Fmt.width (f : Fmt) : Nat := 1 + f.eb + f.fb
/-- The sign bit's weight. -/
def Fmt.signBit (f : Fmt) : Nat := 2 ^ (f.eb + f.fb)
/-- Exponent of the smallest normal. -/
def Fmt.emin (f : Fmt) : Int := 1 - f.bias
/-- Magnitude bits of the largest finite value (03:R66). -/
def Fmt.maxFinite (f : Fmt) : Nat :=
  match f.sp with
  | .ieee => (2 ^ f.eb - 1) * 2 ^ f.fb - 1
  | .nanOnly => 2 ^ (f.eb + f.fb) - 2
  | .none => 2 ^ (f.eb + f.fb) - 1
/-- Canonical NaN (03:R66); e2m1 has none and gives +0 (03:R72). -/
def Fmt.nanBits (f : Fmt) : Nat :=
  match f.sp with
  | .ieee => (2 ^ f.eb - 1) * 2 ^ f.fb + 2 ^ (f.fb - 1)
  | .nanOnly => 2 ^ (f.eb + f.fb) - 1
  | .none => 0
/-- Magnitude bits of infinity in an IEEE format. -/
def Fmt.infBits (f : Fmt) : Nat := (2 ^ f.eb - 1) * 2 ^ f.fb

/-- A decoded value: m × 2^e with its sign, an infinity, or a NaN. -/
inductive FVal where
  | fin (neg : Bool) (m : Nat) (e : Int)
  | inf (neg : Bool)
  | nan (signalling : Bool)
  deriving DecidableEq, Repr

/-- The value of a pattern (03:R64, R65). -/
def Fmt.decode (f : Fmt) (b : Nat) : FVal :=
  let neg := b / f.signBit % 2 = 1
  let mag := b % f.signBit
  let ex := mag / 2 ^ f.fb
  let fr := mag % 2 ^ f.fb
  let top := ex = 2 ^ f.eb - 1
  if f.sp = .ieee && top then
    if fr = 0 then .inf neg else .nan (fr < 2 ^ (f.fb - 1))
  else if f.sp = .nanOnly && mag = f.signBit - 1 then .nan false
  else if ex = 0 then .fin neg fr (f.emin - f.fb)
  else .fin neg (fr + 2 ^ f.fb) ((ex : Int) - f.bias - f.fb)

/-- The value of an e8m0 pattern: a power of two or a quiet NaN (03:R65). -/
def decodeE8m0 (b : Nat) : FVal :=
  if b % 256 = 255 then .nan false else .fin false 1 (((b % 256 : Nat) : Int) - 127)

/-! ### Exact magnitudes. -/

/-- floor(√v) built from bit k down. -/
def isqrtFrom : Nat → Nat → Nat → Nat
  | 0, r, _ => r
  | k + 1, r, v => isqrtFrom k (if (r + 2 ^ k) * (r + 2 ^ k) ≤ v then r + 2 ^ k else r) v

/-- floor(√v). -/
def isqrt (v : Nat) : Nat := isqrtFrom (v.log2 / 2 + 1) 0 v

/-- A positive exact magnitude: n/d × 2^e, its square root, or a number known to lie strictly between k × 2^e and
(k + 1) × 2^e. -/
inductive Mag where
  | rat (n d : Nat) (e : Int)
  | root (n d : Nat) (e : Int)
  | between (k : Nat) (e : Int)
  deriving DecidableEq, Repr

/-- floor(n/d × 2^e) and whether a remainder is left. -/
def ratFloor (n d : Nat) (e : Int) : Nat × Bool :=
  let n' := n * 2 ^ e.toNat
  let d' := d * 2 ^ (-e).toNat
  (n' / d', n' % d' != 0)

/-- floor(x / 2^t) and whether a remainder is left. -/
def Mag.floorAt (x : Mag) (t : Int) : Nat × Bool :=
  match x with
  | .rat n d e => ratFloor n d (e - t)
  | .root n d e =>
    let v := ratFloor n d (e - 2 * t)
    let r := isqrt v.1
    (r, v.2 || r * r != v.1)
  | .between k e => (k * 2 ^ (e - t).toNat / 2 ^ (t - e).toNat, true)

/-- The k with 2^k ≤ n/d × 2^e < 2^(k+1). -/
def ratExp (n d : Nat) (e : Int) : Int :=
  let k : Int := (n.log2 : Int) - d.log2
  let k := if (ratFloor n d (-k)).1 = 0 then k - 1 else k
  k + e

/-- The k with 2^k ≤ x < 2^(k+1). -/
def Mag.exponent (x : Mag) : Int :=
  match x with
  | .rat n d e => ratExp n d e
  | .root n d e => ratExp n d e / 2
  | .between k e => (k.log2 : Int) + e

/-! ### Rounding (03:R69 to R71). -/

/-- What a rounding uses beside the value: RM, SAT, and the sampled SRSEED and SRCOUNT. -/
structure Rnd where
  rm : Rm
  sat : Bool
  seed : Word
  count : Word
  deriving DecidableEq, Repr

/-- z[63:32] of the draw for index e (03:R71). -/
def Rnd.draw (r : Rnd) (e : Nat) : Nat :=
  let z : Word := r.seed ^^^ (r.count <<< 20) ^^^ BitVec.ofNat 64 e
  let z := (z ^^^ (z >>> 30)) * 0xBF58476D1CE4E5B9#64
  let z := (z ^^^ (z >>> 27)) * 0x94D049BB133111EB#64
  let z := z ^^^ (z >>> 31)
  z.toNat / 2 ^ 32

/-- The choice between lo and hi: the discarded fraction's first 32 bits fr, whether more is left, whether lo is
odd, the sign, the draw (03:R69, R71). True for hi. -/
def roundsUp (rm : Rm) (neg odd : Bool) (fr : Nat) (more : Bool) (draw : Nat) : Bool :=
  match rm with
  | .rne => 2 ^ 31 < fr || (fr = 2 ^ 31 && (more || odd))
  | .rtz => false
  | .rdn => neg
  | .rup => !neg
  | .rna => 2 ^ 31 ≤ fr
  | .rsr => draw < fr

/-- A magnitude on the grid 2^q: the chosen multiple and whether it is inexact. -/
def roundGrid (rm : Rm) (neg : Bool) (x : Mag) (q : Int) (draw : Nat) : Nat × Bool :=
  let f := x.floorAt (q - 32)
  let lo := f.1 / 2 ^ 32
  let fr := f.1 % 2 ^ 32
  let inexact := fr != 0 || f.2
  (if inexact && roundsUp rm neg (lo % 2 = 1) fr f.2 draw then lo + 1 else lo, inexact)

/-- Bits and flags of a result. -/
structure FRes where
  bits : Nat
  fl : Flags
  deriving DecidableEq, Repr

/-- A sign over magnitude bits. -/
def Fmt.signed (f : Fmt) (neg : Bool) (mag : Nat) : Nat := (if neg then f.signBit else 0) + mag

/-- Overflow (03:R70). -/
def Fmt.overflow (f : Fmt) (neg : Bool) (rm : Rm) (sat : Bool) : Nat :=
  let toMax := sat || rm = .rtz || (rm = .rdn && !neg) || (rm = .rup && neg)
  if toMax then f.signed neg f.maxFinite
  else match f.sp with
    | .ieee => f.signed neg f.infBits
    | .nanOnly => f.nanBits
    | .none => f.signed neg f.maxFinite

/-- Round a nonzero magnitude into a format (03:R69, R70). A number beyond the largest finite value that the unbounded form of the
format holds exactly (65,536 into fp16) has no strict neighbours: it counts as chosen itself, an overflow with OF and NX in every
mode (DESIGN CHOICE, log 100). -/
def Fmt.roundMag (f : Fmt) (r : Rnd) (idx : Nat) (neg : Bool) (x : Mag) : FRes :=
  let q := max x.exponent f.emin - f.fb
  let g := roundGrid r.rm neg x q (r.draw idx)
  let mag := (q - (f.emin - f.fb)).toNat * 2 ^ f.fb + g.1
  let mag := if g.1 = 0 then 0 else mag
  if f.maxFinite < mag then { bits := f.overflow neg r.rm r.sat, fl := Flags.of_ ||| Flags.nx }
  else
    { bits := f.signed neg mag
      fl := Flags.when g.2 Flags.nx ||| Flags.when (g.2 && g.1 != 0 && mag < 2 ^ f.fb) Flags.uf }

/-- An exact result before rounding. -/
inductive XVal where
  | nan
  | inf (neg : Bool)
  | zero (neg : Bool)
  | num (neg : Bool) (x : Mag)
  deriving DecidableEq, Repr

/-- An exact result and the flags raised in forming it. -/
structure XRes where
  v : XVal
  fl : Flags
  deriving DecidableEq, Repr

/-- Round an exact result into a format (03:R67, R69, R70, R72). -/
def Fmt.round (f : Fmt) (r : Rnd) (idx : Nat) (x : XRes) : FRes :=
  match x.v with
  | .nan => { bits := f.nanBits, fl := x.fl ||| Flags.when (f.sp = .none) Flags.nv }
  | .inf neg =>
    match f.sp with
    | .ieee => { bits := f.signed neg f.infBits, fl := x.fl }
    | .nanOnly => { bits := if r.sat then f.signed neg f.maxFinite else f.nanBits, fl := x.fl ||| Flags.nv }
    | .none => { bits := f.signed neg f.maxFinite, fl := x.fl ||| Flags.nv }
  | .zero neg => { bits := f.signed neg 0, fl := x.fl }
  | .num neg m =>
    let y := f.roundMag r idx neg m
    { y with fl := x.fl ||| y.fl }

/-- Round into e8m0 (03:R76). For -Inf 03:R72 says 0xFE under SAT and 03:R76 says 0xFF: the model takes 0xFF (DESIGN CHOICE,
log 101). -/
def roundE8m0 (r : Rnd) (idx : Nat) (x : XRes) : FRes :=
  match x.v with
  | .nan => { bits := 0xFF, fl := x.fl }
  | .inf neg =>
    if neg then { bits := 0xFF, fl := x.fl ||| Flags.nv }
    else { bits := if r.sat then 0xFE else 0xFF, fl := x.fl ||| Flags.nv }
  | .zero _ => { bits := 0, fl := x.fl ||| Flags.uf ||| Flags.nx }
  | .num neg m =>
    if neg then { bits := 0xFF, fl := x.fl ||| Flags.nv }
    else
      let k := m.exponent
      let f := m.floorAt (k - 32)
      let fr := f.1 % 2 ^ 32
      let inexact := fr != 0 || f.2
      let odd := (k + 127) % 2 = 1
      let e := if inexact && roundsUp r.rm false odd fr f.2 (r.draw idx) then k + 1 else k
      if e < -127 then { bits := 0, fl := x.fl ||| Flags.uf ||| Flags.nx }
      else if 127 < e then { bits := if r.sat then 0xFE else 0xFF, fl := x.fl ||| Flags.of_ ||| Flags.nx }
      else { bits := (e + 127).toNat, fl := x.fl ||| Flags.when inexact Flags.nx }

/-! ### Exact operations (03:R67, R68). -/

/-- NV for a signalling NaN operand (03:R67). -/
def FVal.snan : FVal → Flags
  | .nan true => Flags.nv
  | _ => 0#5

def FVal.isNan : FVal → Bool
  | .nan _ => true
  | _ => false

def FVal.isNeg : FVal → Bool
  | .fin n _ _ => n
  | .inf n => n
  | .nan _ => false

def FVal.negate : FVal → FVal
  | .fin n m e => .fin (!n) m e
  | .inf n => .inf (!n)
  | .nan s => .nan s

/-- A finite value as an exact result. -/
def xfin (neg : Bool) (m : Nat) (e : Int) : XVal := if m = 0 then .zero neg else .num neg (.rat m 1 e)

/-- A value unchanged, for conversions: a NaN raises NV when signalling. -/
def FVal.exact (x : FVal) : XRes :=
  match x with
  | .fin n m e => { v := xfin n m e, fl := 0#5 }
  | .inf n => { v := .inf n, fl := 0#5 }
  | .nan s => { v := .nan, fl := Flags.when s Flags.nv }

/-- The integer value at the exponent e0 ≤ e. -/
def scaledInt (neg : Bool) (m : Nat) (e e0 : Int) : Int :=
  let v : Int := (m * 2 ^ (e - e0).toNat : Nat)
  if neg then -v else v

/-- Exact sum; an exact zero of operands of opposite sign is +0, or -0 under RDN (03:R68). -/
def exactAdd (rm : Rm) (x y : FVal) : XRes :=
  let fl := x.snan ||| y.snan
  match x, y with
  | .nan _, _ => { v := .nan, fl := fl }
  | _, .nan _ => { v := .nan, fl := fl }
  | .inf a, .inf b => if a = b then { v := .inf a, fl := fl } else { v := .nan, fl := fl ||| Flags.nv }
  | .inf a, .fin .. => { v := .inf a, fl := fl }
  | .fin .., .inf b => { v := .inf b, fl := fl }
  | .fin a m e, .fin b n d =>
    let e0 := min e d
    let s := scaledInt a m e e0 + scaledInt b n d e0
    if s = 0 then { v := .zero (if a = b then a else rm = .rdn), fl := fl }
    else { v := .num (s < 0) (.rat s.natAbs 1 e0), fl := fl }

/-- Exact product as a value with one sign, for products and fused sums (03:R68). -/
def exactProd (x y : FVal) : FVal × Flags :=
  let neg := x.isNeg != y.isNeg
  match x, y with
  | .nan _, _ => (.nan false, x.snan ||| y.snan)
  | _, .nan _ => (.nan false, x.snan ||| y.snan)
  | .inf _, .fin _ m _ => if m = 0 then (.nan false, Flags.nv) else (.inf neg, 0#5)
  | .fin _ m _, .inf _ => if m = 0 then (.nan false, Flags.nv) else (.inf neg, 0#5)
  | .inf _, .inf _ => (.inf neg, 0#5)
  | .fin _ m e, .fin _ n d => (.fin neg (m * n) (e + d), 0#5)

/-- Exact product. -/
def exactMul (x y : FVal) : XRes :=
  let p := exactProd x y
  { p.1.exact with fl := p.2 }

/-- x × y + z with one rounding to follow; 0 × ∞ raises NV whatever z (03:R67, R68). -/
def exactFma (rm : Rm) (x y z : FVal) : XRes :=
  let p := exactProd x y
  let r := exactAdd rm p.1 z
  { r with fl := r.fl ||| p.2 }

/-- Exact quotient (03:R68). -/
def exactDiv (x y : FVal) : XRes :=
  let fl := x.snan ||| y.snan
  let neg := x.isNeg != y.isNeg
  match x, y with
  | .nan _, _ => { v := .nan, fl := fl }
  | _, .nan _ => { v := .nan, fl := fl }
  | .inf _, .inf _ => { v := .nan, fl := Flags.nv }
  | .inf _, .fin .. => { v := .inf neg, fl := 0#5 }
  | .fin .., .inf _ => { v := .zero neg, fl := 0#5 }
  | .fin _ m e, .fin _ n d =>
    if n = 0 then
      if m = 0 then { v := .nan, fl := Flags.nv } else { v := .inf neg, fl := Flags.dz }
    else if m = 0 then { v := .zero neg, fl := 0#5 }
    else { v := .num neg (.rat m n (e - d)), fl := 0#5 }

/-- Exact square root; √(-0) = -0 (03:R68, 04:R90). -/
def exactSqrt (x : FVal) : XRes :=
  match x with
  | .nan _ => { v := .nan, fl := x.snan }
  | .inf neg => if neg then { v := .nan, fl := Flags.nv } else { v := .inf false, fl := 0#5 }
  | .fin neg m e =>
    if m = 0 then { v := .zero neg, fl := 0#5 }
    else if neg then { v := .nan, fl := Flags.nv }
    else { v := .num false (.root m 1 e), fl := 0#5 }

/-- 1 / x (05:R120). -/
def exactRecip (x : FVal) : XRes :=
  match x with
  | .nan _ => { v := .nan, fl := x.snan }
  | .inf neg => { v := .zero neg, fl := 0#5 }
  | .fin neg m e =>
    if m = 0 then { v := .inf neg, fl := Flags.dz } else { v := .num neg (.rat 1 m (-e)), fl := 0#5 }

/-- 1 / √x (05:R120). -/
def exactRsqrt (x : FVal) : XRes :=
  match x with
  | .nan _ => { v := .nan, fl := x.snan }
  | .inf neg => if neg then { v := .nan, fl := Flags.nv } else { v := .zero false, fl := 0#5 }
  | .fin neg m e =>
    if m = 0 then { v := .inf neg, fl := Flags.dz }
    else if neg then { v := .nan, fl := Flags.nv }
    else { v := .num false (.root 1 m (-e)), fl := 0#5 }

/-! ### 2^x and log2 x (05:R120): fixed point with 320 fraction bits, kept to 256 (log 14). -/

/-- floor(ln 2 × 2^320). -/
def ln2Fix : Nat := 0xB17217F7D1CF79ABC9E3B39803F2F6AF40F343267298B62D8A0D175B8BAAFA2BE7B876206DEBAC98

/-- Sum of y^k / k! from the term t on, in units of 2^-320. -/
def expSeries : Nat → Nat → Nat → Nat → Nat
  | 0, _, _, _ => 0
  | fuel + 1, k, t, y => t + expSeries fuel (k + 1) (t * y / 2 ^ 320 / (k + 1)) y

/-- Sum of z^(2j+1) / (2j+1) from the power p on. -/
def atanhSeries : Nat → Nat → Nat → Nat → Nat
  | 0, _, _, _ => 0
  | fuel + 1, j, p, z2 => p / (2 * j + 1) + atanhSeries fuel (j + 1) (p * z2 / 2 ^ 320) z2

/-- 2^x for finite x = ±m × 2^e (05:R120). -/
def exp2Mag (neg : Bool) (m : Nat) (e : Int) : Mag :=
  if 0 ≤ e then
    let n : Int := (min (m * 2 ^ (min e 20).toNat) 70000 : Nat)
    .rat 1 1 (if neg then -n else n)
  else if 17 ≤ (m.log2 : Int) + e then .rat 1 1 (if neg then -70000 else 70000)
  else
    let d : Nat := 2 ^ (-e).toNat
    let v : Int := if neg then -(m : Int) else m
    let i : Int := v / (d : Int)
    let f : Nat := (v - i * d).toNat
    if f = 0 then .rat 1 1 i
    else
      let y : Nat := f * 2 ^ 320 / d * ln2Fix / 2 ^ 320
      .between (expSeries 90 0 (2 ^ 320) y / 2 ^ 64) (i - 256)

/-- 2^x. -/
def exactExp2 (x : FVal) : XRes :=
  match x with
  | .nan _ => { v := .nan, fl := x.snan }
  | .inf neg => if neg then { v := .zero false, fl := 0#5 } else { v := .inf false, fl := 0#5 }
  | .fin neg m e =>
    if m = 0 then { v := .num false (.rat 1 1 0), fl := 0#5 } else { v := .num false (exp2Mag neg m e), fl := 0#5 }

/-- log2 of m × 2^e, m not 0. -/
def log2Val (m : Nat) (e : Int) : XVal :=
  let k : Int := (m.log2 : Int)
  let one := 2 ^ m.log2
  if m = one then
    let n := k + e
    if n = 0 then .zero false else .num (n < 0) (.rat n.natAbs 1 0)
  else
    let z := (m - one) * 2 ^ 320 / (m + one)
    let l := 2 * atanhSeries 110 0 z (z * z / 2 ^ 320)
    let t : Int := (k + e) * ((2 ^ 320 : Nat) : Int) + ((l * 2 ^ 320 / ln2Fix : Nat) : Int)
    .num (t < 0) (.between (t.natAbs / 2 ^ 64) (-256))

/-- log2 x. -/
def exactLog2 (x : FVal) : XRes :=
  match x with
  | .nan _ => { v := .nan, fl := x.snan }
  | .inf neg => if neg then { v := .nan, fl := Flags.nv } else { v := .inf false, fl := 0#5 }
  | .fin neg m e =>
    if m = 0 then { v := .inf true, fl := Flags.dz }
    else if neg then { v := .nan, fl := Flags.nv }
    else { v := log2Val m e, fl := 0#5 }

/-! ### Comparison, minimum and maximum (03:R67, 04:R90). -/

/-- x < y for values that are not NaN. -/
def FVal.lt (x y : FVal) : Bool :=
  match x, y with
  | .inf a, .inf b => a && !b
  | .inf a, .fin .. => a
  | .fin .., .inf b => !b
  | .fin a m e, .fin b n d =>
    let e0 := min e d
    scaledInt a m e e0 < scaledInt b n d e0
  | _, _ => false

/-- x = y for values that are not NaN; -0 = +0. -/
def FVal.eq (x y : FVal) : Bool := !x.isNan && !y.isNan && !x.lt y && !y.lt x

/-- minimumNumber or maximumNumber of two patterns: the chosen operand's bits, NV for a signalling NaN; -0 is below
+0; two NaNs give the canonical NaN (03:R67). -/
def Fmt.minMax (f : Fmt) (isMax : Bool) (a b : Nat) : FRes :=
  let x := f.decode a
  let y := f.decode b
  let fl := x.snan ||| y.snan
  if x.isNan && y.isNan then { bits := f.nanBits, fl := fl }
  else if x.isNan then { bits := b, fl := fl }
  else if y.isNan then { bits := a, fl := fl }
  else
    let less := x.lt y || (x.eq y && x.isNeg && !y.isNeg)
    { bits := if less != isMax then a else b, fl := fl }

/-! ### Conversions (03:R75). -/

/-- Float to integer: NaN gives 0 with NV; out of range gives the nearest value of the type with NV and without NX;
-0 gives 0. -/
def toInt (r : Rnd) (idx : Nat) (x : FVal) (bits : Nat) (signed : Bool) : FRes :=
  match x with
  | .nan _ => { bits := 0, fl := Flags.nv }
  | .inf neg =>
    { bits := satInt (if neg then -(2 ^ 128 : Nat) else (2 ^ 128 : Nat)) bits signed, fl := Flags.nv }
  | .fin neg m e =>
    if m = 0 then { bits := 0, fl := 0#5 }
    else
      let g := roundGrid r.rm neg (.rat m 1 e) 0 (r.draw idx)
      let v : Int := if neg then -(g.1 : Int) else g.1
      if fitsInt v bits signed then { bits := wrapInt v bits, fl := Flags.when g.2 Flags.nx }
      else { bits := satInt v bits signed, fl := Flags.nv }

/-- An integer as an exact value. -/
def intExact (v : Int) : XRes := { v := if v = 0 then .zero false else .num (v < 0) (.rat v.natAbs 1 0), fl := 0#5 }

/-! ### Classification (04:R91). -/

/-- The class word of a pattern. -/
def Fmt.classWord (f : Fmt) (b : Nat) : Word :=
  let x := f.decode b
  let s := b / f.signBit % 2
  let kind := match x with
    | .fin _ m _ => if m = 0 then 0 else if b % f.signBit < 2 ^ f.fb then 1 else 2
    | .inf _ => 3
    | .nan false => 4
    | .nan true => 5
  let ex : Int := match x with
    | .fin _ m e => if m = 0 then 0 else (m.log2 : Int) + e
    | _ => 0
  BitVec.ofNat 64 (wrapInt ex 16 * 2 ^ 16 + kind * 2 + s)

end Sys2Proof.Machine
end

