-- ==== Sys2Proof/Machine/Operands.lean ====
section
/-! DEFINITION. Machine/Operands.lean: the fields of MODE, element types, where an element lies in the lanes, the
operand kinds, and the element reads and writes every array-side unit uses (02:R43 to R52, 05:R93 to R110). -/

namespace Sys2Proof.Machine

/-! ### MODE (02:R47). -/

def modeGp (m : BitVec 21) : PReg := m.extractLsb' 0 5
def modeEt (m : BitVec 21) : ElemType := ElemType.ofBits (m.extractLsb' 5 4)
/-- RM; 6 and 7 are never in MODE (02:R46). -/
def modeRm (m : BitVec 21) : Rm := (Rm.ofBits (m.extractLsb' 9 3)).getD .rne
def modeSat (m : BitVec 21) : Bool := m.getLsbD 12
def modeWd (m : BitVec 21) : Bool := m.getLsbD 13
def modeSb (m : BitVec 21) : BitVec 2 := m.extractLsb' 14 2
def modeSr (m : BitVec 21) : BitVec 4 := m.extractLsb' 16 4
def modeNg (m : BitVec 21) : Bool := m.getLsbD 20

/-- The checks of a write to MODE (02:R46). -/
def modeLegal (m : BitVec 21) : Bool :=
  (m.extractLsb' 9 3).toNat < 6 && !(modeSb m != 0#2 && modeSr m = 15#4)

end Sys2Proof.Machine

namespace Sys2Proof

/-! ### Element types (02:R49, 03:R62, R64). -/

/-- SEW of a type. -/
def ElemType.sew : ElemType → Nat
  | .i8 => 8 | .u8 => 8 | .i16 => 16 | .u16 => 16 | .i32 => 32 | .u32 => 32 | .i64 => 64 | .u64 => 64
  | .e4m3 => 8 | .e5m2 => 8 | .e2m1 => 8 | .bf16 => 16 | .fp16 => 16 | .fp32 => 32 | .fp64 => 64 | .e8m0 => 8

/-- ET 0 to 7. -/
def ElemType.isInt : ElemType → Bool
  | .i8 => true | .u8 => true | .i16 => true | .u16 => true | .i32 => true | .u32 => true | .i64 => true
  | .u64 => true | _ => false

/-- The signed integer types. -/
def ElemType.signed : ElemType → Bool
  | .i8 => true | .i16 => true | .i32 => true | .i64 => true | _ => false

/-- The float format of a type; e8m0 and the integers have none. -/
def ElemType.fmt : ElemType → Option Machine.Fmt
  | .e4m3 => some .e4m3 | .e5m2 => some .e5m2 | .e2m1 => some .e2m1 | .bf16 => some .bf16 | .fp16 => some .fp16
  | .fp32 => some .fp32 | .fp64 => some .fp64 | _ => none

/-- The type twice as wide (05:R109). -/
def ElemType.wide : ElemType → Option ElemType
  | .i8 => some .i16 | .i16 => some .i32 | .i32 => some .i64
  | .u8 => some .u16 | .u16 => some .u32 | .u32 => some .u64
  | .bf16 => some .fp32 | .fp16 => some .fp32 | .fp32 => some .fp64
  | _ => none

end Sys2Proof

namespace Sys2Proof.Machine

/-- vlmax(L, sew) (02:R52). -/
def vlmaxOf (lanes sew : Nat) : Nat := if sew = 64 then lanes else lanes * 32 / sew

/-! ### The lane grant (02:R51, 05:R96). -/

/-- The granted ways, ascending. -/
def Hart.grantWays (h : Hart) : List Nat := (List.range 8).filter (fun k => h.lanesWays.getLsbD k)

/-- L. -/
def Hart.lanes (h : Hart) : Nat := 16384 * h.lanesW.toNat

/-- VLMAX at a width. -/
def Hart.vlmaxAt (h : Hart) (sew : Nat) : Nat := vlmaxOf h.lanes sew

/-- Every way of the grant is in ARRAY mode (05:R93). -/
def State.arrayReady (s : State) : Bool :=
  s.hart.grantWays.all (fun k => s.core.ways[k]?.map (·.mode) = some .array)

/-- A write to MODE with its effect on VLMAX and VL (02:R46). -/
def State.setMode (s : State) (m : BitVec 21) : State :=
  s.mapHart (fun h =>
    let v := BitVec.ofNat 20 (h.vlmaxAt (modeEt m).sew)
    { h with mode := m, vlmax := v, vl := if h.vl.toNat ≤ v.toNat then h.vl else v })

/-- The start index that an instruction reading VSTART takes (05:R101). -/
def Hart.start (h : Hart) : Nat := if h.vstartArm then h.vstartIdx.toNat else 0

/-- VSTART = 0. -/
def State.clearVstart (s : State) : State := s.mapHart (fun h => { h with vstartArm := false, vstartIdx := 0 })

/-- VSTART = e: IDX = e with ARM = 1, or cleared for 0 (05:R101, log 86). -/
def State.armVstart (s : State) (e : Nat) : State :=
  s.mapHart (fun h => { h with vstartArm := e != 0, vstartIdx := BitVec.ofNat 20 e })

/-! ### Elements (02:R52). -/

/-- Where element e lies: way, lane in the way, slot. -/
structure Spot where
  way : Nat
  lane : Nat
  slot : Nat
  deriving DecidableEq, Repr

/-- The spot of element e under a grant. -/
def Hart.spot (h : Hart) (e : Nat) : Spot :=
  let l := e % h.lanes
  { way := (h.grantWays[l / 16384]?).getD 0, lane := l % 16384, slot := e / h.lanes }

/-- The key of register k's rows of one lane. -/
def rowKey (k : Nat) (p : Spot) : Nat := k * 2 ^ 17 + p.way * 2 ^ 14 + p.lane

/-- The bits of element e of vK at a width; a 64-bit element lies in vK and vK+1. -/
def State.vGet (s : State) (k : VReg) (sew e : Nat) : Nat :=
  let p := s.hart.spot e
  let lo := (sparseGet 0#32 s.core.vrows (rowKey k.toNat p)).toNat
  if sew = 64 then lo + 2 ^ 32 * (sparseGet 0#32 s.core.vrows (rowKey (k.toNat + 1) p)).toNat
  else lo / 2 ^ (p.slot * sew) % 2 ^ sew

/-- Write element e of vK. -/
def State.vSet (s : State) (k : VReg) (sew e v : Nat) : State :=
  let p := s.hart.spot e
  s.mapCore (fun c =>
    if sew = 64 then
      { c with vrows := sparseSet 0#32 (sparseSet 0#32 c.vrows (rowKey k.toNat p) (BitVec.ofNat 32 v))
                 (rowKey (k.toNat + 1) p) (BitVec.ofNat 32 (v / 2 ^ 32)) }
    else
      let old := (sparseGet 0#32 c.vrows (rowKey k.toNat p)).toNat
      let u := 2 ^ (p.slot * sew)
      let new := old / (u * 2 ^ sew) * (u * 2 ^ sew) + v % 2 ^ sew * u + old % u
      { c with vrows := sparseSet 0#32 c.vrows (rowKey k.toNat p) (BitVec.ofNat 32 new) })

/-- Bit e of pK; p0 reads all true (02:R44). -/
def State.pGet (s : State) (k : PReg) (e : Nat) : Bool :=
  if k = 0#5 then true
  else
    let p := s.hart.spot e
    (sparseGet 0#4 s.core.prows (rowKey k.toNat p)).getLsbD p.slot

/-- Write bit e of pK; a write to p0 is discarded. -/
def State.pSet (s : State) (k : PReg) (e : Nat) (b : Bool) : State :=
  if k = 0#5 then s
  else
    let p := s.hart.spot e
    s.mapCore (fun c =>
      let old := sparseGet 0#4 c.prows (rowKey k.toNat p)
      let bit := BitVec.ofNat 4 (2 ^ p.slot)
      { c with prows := sparseSet 0#4 c.prows (rowKey k.toNat p) (if b then old ||| bit else old &&& ~~~bit) })

/-- active(e) under a sampled MODE (02:R48). -/
def State.active (s : State) (mode : BitVec 21) (e : Nat) : Bool := s.pGet (modeGp mode) e != modeNg mode

/-! ### Register fields (05:R108, R110). -/

/-- The registers an operand of a width occupies. -/
def vregsAt (k : VReg) (sew : Nat) : List Nat := if sew = 64 then [k.toNat, k.toNat + 1] else [k.toNat]

/-- At SEW 64 a register field must be even. -/
def evenAt (k : VReg) (sew : Nat) : Bool := sew != 64 || !k.getLsbD 0

/-- Two register lists share a register. -/
def overlap (a b : List Nat) : Bool := a.any b.contains

/-- The second operand's field is even where it must be. -/
def srcEven (y : VSrc) (sew : Nat) : Bool :=
  match y with
  | .vec b => evenAt b sew
  | _ => true

/-- The registers of the second operand. -/
def srcRegs (y : VSrc) (sew : Nat) : List Nat :=
  match y with
  | .vec b => vregsAt b sew
  | _ => []

/-- VDIRTY bits of a destination (05:R104). -/
def dirtyOf (k : VReg) (sew : Nat) : BitVec 16 :=
  BitVec.ofNat 16 ((vregsAt k sew).foldl (fun n i => n + 2 ^ i) 0)

/-- PDIRTY bit of a destination; p0 is never dirty. -/
def pdirtyOf (k : PReg) : BitVec 32 := if k = 0#5 then 0 else BitVec.ofNat 32 (2 ^ k.toNat)

/-! ### Sampled operations. -/

def UnitOp.et (u : UnitOp) : ElemType := modeEt u.mode
def UnitOp.sew (u : UnitOp) : Nat := u.et.sew
def UnitOp.sat (u : UnitOp) : Bool := modeSat u.mode
def UnitOp.wd (u : UnitOp) : Bool := modeWd u.mode

/-- The rounding of an operation: RM, SAT and the sampled seed and count (03:R71, R73). -/
def UnitOp.rnd (u : UnitOp) : Rnd := { rm := modeRm u.mode, sat := u.sat, seed := u.srseed, count := u.srcount }

/-- The value of the second operand for element e (05:R106); shift amounts zero-extend the immediate. -/
def UnitOp.src (u : UnitOp) (s : State) (y : VSrc) (shift : Bool) (e : Nat) : Nat :=
  match y with
  | .vec b => s.vGet b u.sew e
  | .scal _ => u.gb.toNat % 2 ^ u.sew
  | .imm i => if shift then i.toNat else wrapInt i.toInt u.sew

/-- The general register a second operand samples at issue. -/
def State.scalOf (s : State) (y : VSrc) : Word :=
  match y with
  | .scal g => s.g g
  | _ => 0

/-- What an instruction samples when it issues (05:R97, 07:R155, 13:R288). -/
def State.sample (s : State) (i : Instr) (start : Nat) (gd gd1 ga gb : Word) : UnitOp where
  instr := i
  pc := s.hart.pc
  mode := s.hart.mode
  vl := s.hart.vl.toNat
  vstart := start
  srseed := s.hart.srseed
  srcount := s.hart.srcount
  shape := s.hart.fcrShape
  fe := s.hart.fcrFe
  gd := gd
  gd1 := gd1
  ga := ga
  gb := gb
  hyp := s.hart.hyp
  started := false
  parked := none
  unresolved := false
  busy := false
  got := []
  checked := none
  restored := false

/-- SRCOUNT counts a rounding instruction issued with RM = RSR (03:R73). -/
def State.countRounding (s : State) (rounds : Bool) : State :=
  if rounds && modeRm s.hart.mode = .rsr then s.mapHart (fun h => { h with srcount := h.srcount + 1#64 }) else s

/-- Mark destinations dirty at issue when VL > VSTART (05:R104). -/
def State.markDirty (s : State) (start : Nat) (v : BitVec 16) (p : BitVec 32) : State :=
  if start < s.hart.vl.toNat then
    s.mapHart (fun h => { h with vdirty := h.vdirty ||| v, pdirty := h.pdirty ||| p })
  else s

/-! ### Conversions (03:R75, R76, 05:R122). -/

end Sys2Proof.Machine

namespace Sys2Proof
open Machine

/-- The value of a pattern of a float type or e8m0. -/
def ElemType.value (t : ElemType) (b : Nat) : FVal :=
  match t.fmt with
  | some f => f.decode b
  | none => decodeE8m0 b

/-- A pattern as an exact value. -/
def ElemType.exact (t : ElemType) (b : Nat) : XRes :=
  if t.isInt then intExact (readInt b t.sew t.signed) else (t.value b).exact

/-- Round an exact value into a float type or e8m0. -/
def ElemType.roundTo (t : ElemType) (r : Rnd) (idx : Nat) (x : XRes) : FRes :=
  match t.fmt with
  | some f => f.round r idx x
  | none => roundE8m0 r idx x

end Sys2Proof

namespace Sys2Proof.Machine

/-- convert(source value, T). -/
def convert (src dst : ElemType) (r : Rnd) (idx b : Nat) : FRes :=
  if dst.isInt then
    if src.isInt then
      { bits := reduceInt (readInt b src.sew src.signed) dst.sew dst.signed r.sat, fl := 0#5 }
    else toInt r idx (src.value b) dst.sew dst.signed
  else dst.roundTo r idx (src.exact b)

end Sys2Proof.Machine
end

