-- ==== Sys2Proof/Machine/Scalar.lean ====
section
/-! DEFINITION. Machine/Scalar.lean: scalar integer and address instructions (04:R80 to R87) and hints (02:R39). -/

namespace Sys2Proof.Machine

/-! ### Shared shapes (04:R80). -/

/-- A register-register instruction: d = f A B. -/
def State.alu (s : State) (d a b : GReg) (f : Word → Word → Word) : Result := .next (s.result d (f (s.g a) (s.g b)))

/-- A unary or immediate instruction: d = f A. -/
def State.alu1 (s : State) (d a : GReg) (f : Word → Word) : Result := .next (s.result d (f (s.g a)))

/-- sext(v[n-1:0], n) to 64 bits. -/
def low32s (v : Word) : Word := (v.setWidth 32).signExtend 64

/-- The immediate of I form, sign-extended (02:R35). -/
def simm (imm : BitVec 16) : Word := imm.signExtend 64
/-- The immediate of andi, ori and xori, zero-extended. -/
def zimm (imm : BitVec 16) : Word := imm.setWidth 64

/-! ### Functions of the table of 04:R82. -/

/-- s = B[5:0]. -/
def shamt (b : Word) : Nat := b.toNat % 64

/-- Left rotation by n below 64. -/
def rolWord (a : Word) (n : Nat) : Word := (a <<< n) ||| (a >>> ((64 - n) % 64))
/-- Right rotation by n below 64. -/
def rorWord (a : Word) (n : Nat) : Word := (a >>> n) ||| (a <<< ((64 - n) % 64))

/-- Leading zero bits, 64 for zero. -/
def clzWord (a : Word) : Nat := if a = 0 then 64 else 63 - a.toNat.log2
/-- Trailing zero bits, 64 for zero. -/
def ctzWord (a : Word) : Nat := ((List.range 64).find? (fun i => a.getLsbD i)).getD 64
/-- One bits. -/
def popcWord (a : Word) : Nat := (List.range 64).countP (fun i => a.getLsbD i)

/-! ### Division (04:R87). -/

/-- The signed quotient with its saturated cases. -/
def divSigned (a b : Word) : Word :=
  if b = 0 then (if a = 0 then 0 else if a.msb then BitVec.intMin 64 else BitVec.intMax 64)
  else if a = BitVec.intMin 64 ∧ b = BitVec.allOnes 64 then BitVec.intMax 64
  else BitVec.ofInt 64 (a.toInt.tdiv b.toInt)

/-- The unsigned quotient. -/
def divUnsigned (a b : Word) : Word := if b = 0 then BitVec.allOnes 64 else BitVec.ofNat 64 (a.toNat / b.toNat)

/-- The signed remainder: the dividend for a zero divisor, the sign of the dividend otherwise. -/
def remSigned (a b : Word) : Word := if b = 0 then a else BitVec.ofInt 64 (a.toInt.tmod b.toInt)

/-- The unsigned remainder. -/
def remUnsigned (a b : Word) : Word := if b = 0 then a else BitVec.ofNat 64 (a.toNat % b.toNat)

/-- Bits [127:64] of a product. -/
def highHalf (x : Int) : Word := BitVec.ofInt 64 (x / (2 ^ 64 : Nat))

/-! ### Opcode 0x01 (04:R82). -/

/-- add: A + B (04:R82). -/
def execAdd (d a b : GReg) (s : State) : Result := s.alu d a b (fun x y => x + y)

/-- sub: A - B (04:R82). -/
def execSub (d a b : GReg) (s : State) : Result := s.alu d a b (fun x y => x - y)

/-- addw: the low 32 bits of A + B, sign-extended (04:R82). -/
def execAddw (d a b : GReg) (s : State) : Result := s.alu d a b (fun x y => low32s (x + y))

/-- subw: the low 32 bits of A - B, sign-extended (04:R82). -/
def execSubw (d a b : GReg) (s : State) : Result := s.alu d a b (fun x y => low32s (x - y))

/-- and (04:R82). -/
def execAnd (d a b : GReg) (s : State) : Result := s.alu d a b (fun x y => x &&& y)

/-- or (04:R82). -/
def execOr (d a b : GReg) (s : State) : Result := s.alu d a b (fun x y => x ||| y)

/-- xor (04:R82). -/
def execXor (d a b : GReg) (s : State) : Result := s.alu d a b (fun x y => x ^^^ y)

/-- andn: A and not B (04:R82). -/
def execAndn (d a b : GReg) (s : State) : Result := s.alu d a b (fun x y => x &&& ~~~y)

/-- orn: A or not B (04:R82). -/
def execOrn (d a b : GReg) (s : State) : Result := s.alu d a b (fun x y => x ||| ~~~y)

/-- sll (04:R82). -/
def execSll (d a b : GReg) (s : State) : Result := s.alu d a b (fun x y => x <<< shamt y)

/-- srl (04:R82). -/
def execSrl (d a b : GReg) (s : State) : Result := s.alu d a b (fun x y => x >>> shamt y)

/-- sra (04:R82). -/
def execSra (d a b : GReg) (s : State) : Result := s.alu d a b (fun x y => x.sshiftRight (shamt y))

/-- rol (04:R82). -/
def execRol (d a b : GReg) (s : State) : Result := s.alu d a b (fun x y => rolWord x (shamt y))

/-- ror (04:R82). -/
def execRor (d a b : GReg) (s : State) : Result := s.alu d a b (fun x y => rorWord x (shamt y))

/-- slt (04:R82). -/
def execSlt (d a b : GReg) (s : State) : Result := s.alu d a b (fun x y => Word.ofBool (x.slt y))

/-- sltu (04:R82). -/
def execSltu (d a b : GReg) (s : State) : Result := s.alu d a b (fun x y => Word.ofBool (x.ult y))

/-- min: signed minimum (04:R82). -/
def execMin (d a b : GReg) (s : State) : Result := s.alu d a b (fun x y => if x.slt y then x else y)

/-- max: signed maximum (04:R82). -/
def execMax (d a b : GReg) (s : State) : Result := s.alu d a b (fun x y => if x.slt y then y else x)

/-- minu (04:R82). -/
def execMinu (d a b : GReg) (s : State) : Result := s.alu d a b (fun x y => if x.ult y then x else y)

/-- maxu (04:R82). -/
def execMaxu (d a b : GReg) (s : State) : Result := s.alu d a b (fun x y => if x.ult y then y else x)

/-- clz (04:R82). -/
def execClz (d a : GReg) (s : State) : Result := s.alu1 d a (fun x => BitVec.ofNat 64 (clzWord x))

/-- ctz (04:R82). -/
def execCtz (d a : GReg) (s : State) : Result := s.alu1 d a (fun x => BitVec.ofNat 64 (ctzWord x))

/-- popc (04:R82). -/
def execPopc (d a : GReg) (s : State) : Result := s.alu1 d a (fun x => BitVec.ofNat 64 (popcWord x))

/-- sext.b (04:R82). -/
def execSextB (d a : GReg) (s : State) : Result := s.alu1 d a (fun x => (x.setWidth 8).signExtend 64)

/-- sext.h (04:R82). -/
def execSextH (d a : GReg) (s : State) : Result := s.alu1 d a (fun x => (x.setWidth 16).signExtend 64)

/-- sext.w (04:R82). -/
def execSextW (d a : GReg) (s : State) : Result := s.alu1 d a (fun x => low32s x)

/-- zext.b (04:R82). -/
def execZextB (d a : GReg) (s : State) : Result := s.alu1 d a (fun x => (x.setWidth 8).setWidth 64)

/-- zext.h (04:R82). -/
def execZextH (d a : GReg) (s : State) : Result := s.alu1 d a (fun x => (x.setWidth 16).setWidth 64)

/-- zext.w (04:R82). -/
def execZextW (d a : GReg) (s : State) : Result := s.alu1 d a (fun x => (x.setWidth 32).setWidth 64)

/-! ### Immediates (04:R83, R84). -/

/-- addi (04:R83). -/
def execAddi (d a : GReg) (imm : BitVec 16) (s : State) : Result := s.alu1 d a (fun x => x + simm imm)

/-- andi (04:R83). -/
def execAndi (d a : GReg) (imm : BitVec 16) (s : State) : Result := s.alu1 d a (fun x => x &&& zimm imm)

/-- ori (04:R83). -/
def execOri (d a : GReg) (imm : BitVec 16) (s : State) : Result := s.alu1 d a (fun x => x ||| zimm imm)

/-- xori (04:R83). -/
def execXori (d a : GReg) (imm : BitVec 16) (s : State) : Result := s.alu1 d a (fun x => x ^^^ zimm imm)

/-- slti (04:R83). -/
def execSlti (d a : GReg) (imm : BitVec 16) (s : State) : Result := s.alu1 d a (fun x => Word.ofBool (x.slt (simm imm)))

/-- sltiu (04:R83). -/
def execSltiu (d a : GReg) (imm : BitVec 16) (s : State) : Result := s.alu1 d a (fun x => Word.ofBool (x.ult (simm imm)))

/-- slli (04:R84). -/
def execSlli (d a : GReg) (n : BitVec 6) (s : State) : Result := s.alu1 d a (fun x => x <<< n.toNat)

/-- srli (04:R84). -/
def execSrli (d a : GReg) (n : BitVec 6) (s : State) : Result := s.alu1 d a (fun x => x >>> n.toNat)

/-- srai (04:R84). -/
def execSrai (d a : GReg) (n : BitVec 6) (s : State) : Result := s.alu1 d a (fun x => x.sshiftRight n.toNat)

/-- rori (04:R84). -/
def execRori (d a : GReg) (n : BitVec 6) (s : State) : Result := s.alu1 d a (fun x => rorWord x n.toNat)

/-- ldhi: sext(imm21) << 16 (04:R85). -/
def execLdhi (d : GReg) (imm : BitVec 21) (s : State) : Result := .next (s.result d (imm.signExtend 64 <<< 16))

/-- pcrel: its own address plus sext(imm21) << 12 (04:R85). -/
def execPcrel (d : GReg) (imm : BitVec 21) (s : State) : Result :=
  .next (s.result d (s.hart.pc.setWidth 64 + (imm.signExtend 64 <<< 12)))

/-! ### Opcode 0x0B (04:R86, R87). -/

/-- mul (04:R86). -/
def execMul (d a b : GReg) (s : State) : Result := s.alu d a b (fun x y => x * y)

/-- mulh (04:R86). -/
def execMulh (d a b : GReg) (s : State) : Result := s.alu d a b (fun x y => highHalf (x.toInt * y.toInt))

/-- mulhu (04:R86). -/
def execMulhu (d a b : GReg) (s : State) : Result := s.alu d a b (fun x y => highHalf ((x.toNat * y.toNat : Nat) : Int))

/-- mulhsu (04:R86). -/
def execMulhsu (d a b : GReg) (s : State) : Result := s.alu d a b (fun x y => highHalf (x.toInt * (y.toNat : Int)))

/-- mulw (04:R86). -/
def execMulw (d a b : GReg) (s : State) : Result := s.alu d a b (fun x y => low32s (x * y))

/-- div (04:R86, R87). -/
def execDiv (d a b : GReg) (s : State) : Result := s.alu d a b (fun x y => divSigned x y)

/-- divu (04:R86, R87). -/
def execDivu (d a b : GReg) (s : State) : Result := s.alu d a b (fun x y => divUnsigned x y)

/-- rem (04:R86, R87). -/
def execRem (d a b : GReg) (s : State) : Result := s.alu d a b (fun x y => remSigned x y)

/-- remu (04:R86, R87). -/
def execRemu (d a b : GReg) (s : State) : Result := s.alu d a b (fun x y => remUnsigned x y)

/-- A hint is a no-op (02:R39). -/
def execHint (_h : BitVec 26) (s : State) : Result := .next s.retire

end Sys2Proof.Machine
end

