-- ==== Sys2Proof/Machine/LoadStore.lean ====
section
/-! DEFINITION. Machine/LoadStore.lean: scalar loads and stores (10:R212 to R216). -/

namespace Sys2Proof.Machine

/-- EA of a scalar access (10:R212). -/
def State.ea (s : State) (a : GReg) (imm : BitVec 16) : Word := s.g a + simm imm

/-- A load of n bytes whose value is extended by ext (10:R214). -/
def State.scalarLoad (s : State) (d a : GReg) (imm : BitVec 16) (n : Nat) (ext : Nat → Word) : Result :=
  (s.load (s.ea a imm) n).finish (fun v s => s.result d (ext v))

/-- A store of the n low bytes of g(y) (10:R214, R215). -/
def State.scalarStore (s : State) (y a : GReg) (imm : BitVec 16) (n : Nat) : Result :=
  (s.enqueueStore (s.ea a imm) n (s.g y) none).finish (fun _ s => s.retire)

/-- ldb (10:R214). -/
def execLdb (d a : GReg) (imm : BitVec 16) (s : State) : Result := s.scalarLoad d a imm 1 (fun v => sext64 v 8)

/-- ldh (10:R214). -/
def execLdh (d a : GReg) (imm : BitVec 16) (s : State) : Result := s.scalarLoad d a imm 2 (fun v => sext64 v 16)

/-- ldw (10:R214). -/
def execLdw (d a : GReg) (imm : BitVec 16) (s : State) : Result := s.scalarLoad d a imm 4 (fun v => sext64 v 32)

/-- ldd (10:R214). -/
def execLdd (d a : GReg) (imm : BitVec 16) (s : State) : Result := s.scalarLoad d a imm 8 (fun v => BitVec.ofNat 64 v)

/-- ldbu (10:R214). -/
def execLdbu (d a : GReg) (imm : BitVec 16) (s : State) : Result := s.scalarLoad d a imm 1 (fun v => BitVec.ofNat 64 v)

/-- ldhu (10:R214). -/
def execLdhu (d a : GReg) (imm : BitVec 16) (s : State) : Result := s.scalarLoad d a imm 2 (fun v => BitVec.ofNat 64 v)

/-- ldwu (10:R214). -/
def execLdwu (d a : GReg) (imm : BitVec 16) (s : State) : Result := s.scalarLoad d a imm 4 (fun v => BitVec.ofNat 64 v)

/-- stb (10:R214). -/
def execStb (y a : GReg) (imm : BitVec 16) (s : State) : Result := s.scalarStore y a imm 1

/-- sth (10:R214). -/
def execSth (y a : GReg) (imm : BitVec 16) (s : State) : Result := s.scalarStore y a imm 2

/-- stw (10:R214). -/
def execStw (y a : GReg) (imm : BitVec 16) (s : State) : Result := s.scalarStore y a imm 4

/-- std (10:R214). -/
def execStd (y a : GReg) (imm : BitVec 16) (s : State) : Result := s.scalarStore y a imm 8

end Sys2Proof.Machine
end

