-- ==== Sys2Proof/Machine/Branch.lean ====
section
/-! DEFINITION. Machine/Branch.lean: branches and jumps (12:R267, R268). -/

namespace Sys2Proof.Machine

/-- A byte offset of imm words, modulo 2^48 (02:R35). -/
def wordOffset {n : Nat} (imm : BitVec n) : Addr := imm.signExtend 48 <<< 2

/-- A branch (12:R267). X = g(a), Y = g(y). -/
def State.branch (s : State) (y a : GReg) (imm : BitVec 16) (taken : Word → Word → Bool) : Result :=
  if taken (s.g a) (s.g y) then .next (s.jump (s.hart.pc + wordOffset imm)) else .next s.retire

/-- beq (12:R267). -/
def execBeq (y a : GReg) (imm : BitVec 16) (s : State) : Result := s.branch y a imm (fun u v => u == v)

/-- bne (12:R267). -/
def execBne (y a : GReg) (imm : BitVec 16) (s : State) : Result := s.branch y a imm (fun u v => u != v)

/-- blt (12:R267). -/
def execBlt (y a : GReg) (imm : BitVec 16) (s : State) : Result := s.branch y a imm (fun u v => u.slt v)

/-- bge (12:R267). -/
def execBge (y a : GReg) (imm : BitVec 16) (s : State) : Result := s.branch y a imm (fun u v => !u.slt v)

/-- bltu (12:R267). -/
def execBltu (y a : GReg) (imm : BitVec 16) (s : State) : Result := s.branch y a imm (fun u v => u.ult v)

/-- bgeu (12:R267). -/
def execBgeu (y a : GReg) (imm : BitVec 16) (s : State) : Result := s.branch y a imm (fun u v => !u.ult v)

/-- The return address, PC + 4 modulo 2^48 (12:R268). -/
def State.link (s : State) : Word := (s.hart.pc + 4#48).setWidth 64

/-- jal (12:R268). -/
def execJal (d : GReg) (imm : BitVec 21) (s : State) : Result :=
  .next ((s.setG d s.link).jump (s.hart.pc + wordOffset imm))

/-- jalr: g(a) is read before g(d) is written; a target beyond 48 bits raises 0x03 (12:R268, 02:R32). -/
def execJalr (d a : GReg) (imm : BitVec 16) (s : State) : Result :=
  let t := s.g a + simm imm
  if t.extractLsb' 48 16 != 0#16 then .next (s.trap 0x03#8 t)
  else .next ((s.setG d s.link).jump (t.setWidth 48 &&& ~~~3#48))

end Sys2Proof.Machine
end

