-- ==== Sys2Proof/Machine/Atomics.lean ====
section
/-! DEFINITION. Machine/Atomics.lean: atomics and fences (10:R217 to R222, 09:R195, R203, R205). -/

namespace Sys2Proof.Machine

/-- The new memory value of an operation on n bytes, none where it writes nothing (10:R218). -/
def amoNew (op : AmoOp) (n old v cmp : Nat) : Option Nat :=
  let b := 8 * n
  let v := v % 2 ^ b
  let so := readInt old b true
  let sv := readInt v b true
  match op with
  | .ald => none
  | .ast => some v
  | .add => some ((old + v) % 2 ^ b)
  | .swap => some v
  | .and => some (old &&& v)
  | .or => some (old ||| v)
  | .xor => some (old ^^^ v)
  | .min => some (if so ≤ sv then old else v)
  | .max => some (if sv ≤ so then old else v)
  | .minu => some (min old v)
  | .maxu => some (max old v)
  | .cas => if old = cmp % 2 ^ b then some v else none

/-- Every earlier write of the hart has been performed, and at sys scope acknowledged (09:R205, 10:R222). -/
def State.released (s : State) (sc : Scope) : Bool := s.quiet && s.acked sc

/-- An acquire or acquire-release kind. -/
def isAcquire (o : MemOrd) : Bool := o = .acq || o = .ar
/-- A release or acquire-release kind. -/
def isRelease (o : MemOrd) : Bool := o = .rel || o = .ar

/-- The value that a read-modify-write or a read at a home returned, with LTIME by its kind: an acquire takes the wts
(09:R203, R205). Where the home keeps no times for this package, it takes a time past everything seen (log 89). -/
def State.returned (s : State) (wts : Option (BitVec 16)) (o : MemOrd) : State :=
  match wts with
  | some w => let s := s.noteRead w; if isAcquire o then s.acquireRow w else s
  | none => if isAcquire o && !s.hart.maint then s.acquireRow s.outsideTime else s.noteOutside

/-- An atomic on memory at its home, under h, by a function from the old value to the new one: the old value, the new
one written, timestamps and LTIME by the row of its kind (10:R219, R220, 09:R203). Under a hypothesis of WB-device memory it
is performed on the version at its home (17:R337). A failed cas and an ald are reads of their kind, which leave a copy when
they are relaxed and the memory is cached. What writes counts as a write, all else as a read (16:R307). A mesh error poisons the
operand that it meets, and nothing is performed (21:R357, log 105). -/
def State.atomicWith (s : State) (dpa n : Nat) (mt : MemType) (cnt : Bool) (h : BitVec 12) (ea : Word)
    (f : Nat → Option Nat) (o : MemOrd) : Res Nat :=
  let line := dpa / 64
  let h := if mt = .wb then h else 0#12
  match s.recallFor line h with
  | none => .wait s
  | some t =>
    let d := t.compose line h (t.homeImage line)
    let m := t.throughMesh line d.2
    let t := m.1
    if poisonHit m.2 (dpa % 64) n then .trap 0x0A#8 ea 10 ((t.countAccess dpa cnt false).consumePoison dpa)
    else
      let old := lineNat d.1 (dpa % 64) n
      let timed := t.route dpa mt != .plain
      match f old with
      | none =>
        let t := t.countAccess dpa cnt false
        if timed then
          let r := t.homeReadTimes line t.hart.ltime t.hart.lease
          let t := if t.route dpa mt = .cached && !isAcquire o then
              (r.1.fill (copyOf line h .v r.2.wts r.2.rts d)).1
            else r.1
          .ok old (t.returned (some r.2.wts) o)
        else .ok old (t.returned none o)
      | some w =>
        let t := t.noteStale dpa n
        match (if h = 0#12 then t.homeWrite line dpa n w timed cnt else t.versionAtomic line (dpa % 64) n w h cnt) with
        | none => .wait s
        | some t => .ok old (t.returned (if timed then some t.hart.ltime else none) o)

/-- An atomic of the table at its home (10:R218). -/
def State.atomicHome (s : State) (dpa n : Nat) (mt : MemType) (cnt : Bool) (h : BitVec 12) (ea : Word) (op : AmoOp)
    (o : MemOrd) (v cmp : Nat) : Res Nat :=
  s.atomicWith dpa n mt cnt h ea (fun old => amoNew op n old v cmp) o

/-- An atomic on a peer package is performed at the peer's home: one request carries it there and one reply brings the old
value (10:R220, log 16). -/
def State.atomicPeer (s : State) (dpa n : Nat) (ea : Word) (op : AmoOp) (o : MemOrd) (v cmp : Nat) : Res Nat :=
  match s.pkg.peerReply dpa n .hart with
  | none => .wait (s.peerAsk dpa n
      (if op = .ald then none else some { op := op, v := BitVec.ofNat 64 v, cmp := BitVec.ofNat 64 cmp }) .hart)
  | some .refused => .trap 0x03#8 ea 5 (s.mapPkg (·.takeReply dpa n .hart))
  | some .poison => .trap 0x0A#8 ea 10 ((s.mapPkg (·.takeReply dpa n .hart)).consumePoison dpa)
  | some (.data bs) => .ok (ofBytes bs) ((s.mapPkg (·.takeReply dpa n .hart)).returned none o)

/-- An atomic on the bench of the core, by the control processor; a write takes its shadows (10:R220, 17:R337). -/
def State.atomicBench (s : State) (off n : Nat) (ea : Word) (op : AmoOp) (v cmp : Nat) : Res Nat :=
  (s.readTarget (.bench off) ea n s.hart.hyp).andThen (fun old s =>
    match amoNew op n old v cmp with
    | none => .ok old s
    | some w => .ok old (s.benchStore off (leBytes n w)))

/-- An earlier store that is not yet performed touches the bytes of an access (10:R216). -/
def State.queuedOver (s : State) (t : Target) (n : Nat) : Bool :=
  (s.core.checkedStores ++ s.core.storeQ).any (fun q => q.overlaps t n)

/-- The access of an atomic other than ast after its checks 1 to 7: a relaxed ald of cached memory is a relaxed read
that may use the core's copy (09:R204, log 17), every other is performed at its home. -/
def State.atomicAt (s : State) (t : Target) (n : Nat) (ea : Word) (op : AmoOp) (o : MemOrd) (v cmp : Nat) : Res Nat :=
  if s.queuedOver t n then .wait s
  else match t with
  | .bench off => s.atomicBench off n ea op v cmp
  | .mem dpa mt cnt =>
    if mt = .peer then s.atomicPeer dpa n ea op o v cmp
    else if op = .ald && o = .rlx then
      match s.readMem dpa n mt cnt s.hart.hyp with
      | none => .wait s
      | some (t, r) =>
        if r.poison then .trap 0x0A#8 ea 10 (t.consumePoison dpa) else .ok r.val (t.correct (.mem dpa mt cnt) n)
    else s.atomicHome dpa n mt cnt s.hart.hyp ea op o v cmp

/-- Access of an atomic for permissions and records: ald reads, a read-modify-write needs both (16:R300, R305). -/
def amoAccess (op : AmoOp) : FaultAccess := if op = .ald then .read else .atomic

/-- Bytes of an atomic (10:R217). -/
def amoSize (w4 : Bool) : Nat := if w4 then 4 else 8

/-- An atomic that returns the old value: release wait, checks, the access, the old value sign-extended (10:R218,
R219). -/
def State.amo (s : State) (d a b : GReg) (o : MemOrd) (sc : Scope) (w4 : Bool) (op : AmoOp) : Result :=
  let n := amoSize w4
  let ea := s.g a
  if s.memBusy then s.waitHere
  else
    let r : Res Nat := (s.locate ea n (amoAccess op)).andThen (fun t s =>
      match (if op = .ald then none else s.writeCheck t n true s.hart.hyp) with
      | some (c, k) => .trap c ea k s
      | none =>
        if isRelease o && !s.released sc then .wait s
        else s.atomicAt t n ea op o (s.g b).toNat (s.g d).toNat)
    r.finish (fun v s => s.result d (sext64 v (8 * n)))

/-- ald: an atomic read (10:R218, R219). -/
def execAld (d a : GReg) (ord : MemOrd) (sc : Scope) (w4 : Bool) (s : State) : Result := s.amo d a 0#5 ord sc w4 .ald

/-- ast: an atomic write, through the store queue (10:R219). -/
def execAst (a b : GReg) (ord : MemOrd) (sc : Scope) (w4 : Bool) (s : State) : Result :=
  (s.enqueueStore (s.g a) (amoSize w4) (s.g b) (some (ord, sc))).finish (fun _ s => s.retire)

/-- amoadd (10:R218). -/
def execAmoadd (d a b : GReg) (ord : MemOrd) (sc : Scope) (w4 : Bool) (s : State) : Result :=
  s.amo d a b ord sc w4 .add

/-- amoswap (10:R218). -/
def execAmoswap (d a b : GReg) (ord : MemOrd) (sc : Scope) (w4 : Bool) (s : State) : Result :=
  s.amo d a b ord sc w4 .swap

/-- amoand (10:R218). -/
def execAmoand (d a b : GReg) (ord : MemOrd) (sc : Scope) (w4 : Bool) (s : State) : Result :=
  s.amo d a b ord sc w4 .and

/-- amoor (10:R218). -/
def execAmoor (d a b : GReg) (ord : MemOrd) (sc : Scope) (w4 : Bool) (s : State) : Result :=
  s.amo d a b ord sc w4 .or

/-- amoxor (10:R218). -/
def execAmoxor (d a b : GReg) (ord : MemOrd) (sc : Scope) (w4 : Bool) (s : State) : Result :=
  s.amo d a b ord sc w4 .xor

/-- amomin (10:R218). -/
def execAmomin (d a b : GReg) (ord : MemOrd) (sc : Scope) (w4 : Bool) (s : State) : Result :=
  s.amo d a b ord sc w4 .min

/-- amomax (10:R218). -/
def execAmomax (d a b : GReg) (ord : MemOrd) (sc : Scope) (w4 : Bool) (s : State) : Result :=
  s.amo d a b ord sc w4 .max

/-- amominu (10:R218). -/
def execAmominu (d a b : GReg) (ord : MemOrd) (sc : Scope) (w4 : Bool) (s : State) : Result :=
  s.amo d a b ord sc w4 .minu

/-- amomaxu (10:R218). -/
def execAmomaxu (d a b : GReg) (ord : MemOrd) (sc : Scope) (w4 : Bool) (s : State) : Result :=
  s.amo d a b ord sc w4 .maxu

/-- cas (10:R218). -/
def execCas (d a b : GReg) (ord : MemOrd) (sc : Scope) (w4 : Bool) (s : State) : Result :=
  s.amo d a b ord sc w4 .cas

/-- fence: a release waits for the hart's earlier writes, an acquire raises LTIME to the largest wts returned
before it (09:R195, R205, 10:R222); the maintenance regime leaves LTIME alone (09:R208). -/
def execFence (sc : Scope) (ord : MemOrd) (s : State) : Result :=
  if isRelease ord && !s.released sc then s.waitHere
  else if isAcquire ord && s.memBusy then s.waitHere
  else if isAcquire ord && !s.hart.maint then
    .next s.acquireAll.retire
  else .next s.retire

end Sys2Proof.Machine
end

