-- ==== Sys2Proof/Machine/Units.lean ====
section
/-! DEFINITION. Machine/Units.lean: the queues of the kneader, the rod tree, the frame unit and the vector memory
unit: which instruction goes where, issue, the scoreboard waits and the end of an entry (05:R97, R101, R105, 06:R132,
07:R142, R155, 13:R288). -/

namespace Sys2Proof.Machine

/-! ### Which unit executes an instruction. -/

/-- Instructions of the frame unit that stand in its queue (07:R155). -/
def isFrame : Instr → Bool
  | .mmo .. => true
  | .mmoSp .. => true
  | .mmoSt .. => true
  | .fzero => true
  | .fzeroC => true
  | .frc => true
  | .fdrain .. => true
  | .fdrainNcs .. => true
  | .fdrainZ .. => true
  | .fdrainZNcs .. => true
  | .frowadd .. => true
  | .frowaddC .. => true
  | .fsave .. => true
  | .fload .. => true
  | _ => false

/-- Instructions of the rod tree (06:R131). -/
def isRodTree : Instr → Bool
  | .vredsum .. => true
  | .vredosum .. => true
  | .vredmin .. => true
  | .vredmax .. => true
  | .vredbitAnd .. => true
  | .vredbitOr .. => true
  | .vredbitXor .. => true
  | .vscan .. => true
  | .vslideup .. => true
  | .vslidedn .. => true
  | .vslide1up .. => true
  | .vslide1dn .. => true
  | .vpick .. => true
  | .vsqueeze .. => true
  | .vbcast .. => true
  | .vextr .. => true
  | .vinsr .. => true
  | _ => false

/-- Vector memory instructions (10:R223). -/
def isVecMem : Instr → Bool
  | .vld .. => true
  | .vlds .. => true
  | .vldx .. => true
  | .vldff .. => true
  | .vst .. => true
  | .vsts .. => true
  | .vstx .. => true
  | _ => false

/-- A unit entry that the kneader steps: every queued instruction that is not of another unit. -/
def isKneader (i : Instr) : Bool := !isFrame i && !isRodTree i && !isVecMem i

/-- Entries of the frame queue. -/
def State.frameBusy (s : State) : Bool := s.core.units.any (fun u => isFrame u.instr)

/-- A pending entry writes a general register or decides the flow of the hart, so the hart does not pass it
(05:R97, R128, 10:R228). -/
def holdsHart : Instr → Bool
  | .pcount .. => true
  | .vloop .. => true
  | .vredsum .. => true
  | .vredosum .. => true
  | .vredmin .. => true
  | .vredmax .. => true
  | .vredbitAnd .. => true
  | .vredbitOr .. => true
  | .vredbitXor .. => true
  | .vsqueeze .. => true
  | .vextr .. => true
  | .vld .. => true
  | .vlds .. => true
  | .vldx .. => true
  | .vldff .. => true
  | .vst .. => true
  | .vsts .. => true
  | .vstx .. => true
  | .mmoSt .. => true
  | .fsave .. => true
  | .fload .. => true
  | _ => false

/-- The hart waits at PC for an entry that it does not pass; it passes a vector store whose elements are all checked (10:R224,
log 13). -/
def State.hartHeld (s : State) : Bool := s.core.units.any (fun u => holdsHart u.instr && u.checked.isNone)

/-! ### Issue (05:R97, R101). -/

/-- Entries a queue holds: four in the kneader, four in the frame unit (05:R97, 13:R288). -/
def queueDepth : Nat := 4

/-- The queue that an instruction enters is full. -/
def State.queueFull (s : State) (i : Instr) : Bool :=
  queueDepth ≤ s.core.units.countP (fun u => isFrame u.instr = isFrame i)

/-- The vector registers that peel operations have still to read (11:R231). -/
def State.peelReads (s : State) : BitVec 16 :=
  s.core.peel.foldl (fun m o =>
    if o.vstart < o.vl then
      match o.instr with
      | .pcopyX _ _ _ x => m ||| dirtyOf x (modeEt o.mode).sew
      | .vput _ x _ => m ||| dirtyOf x (modeEt o.mode).sew
      | .vputF _ x _ => m ||| dirtyOf x (modeEt o.mode).sew
      | _ => m
    else m) 0#16

/-- The instruction stalls: its queue is full or completes what a resume refilled (13:R285), or it would write a register a
peel operation has still to read. -/
def State.issueHeld (s : State) (i : Instr) (vd : BitVec 16) : Bool :=
  s.queueFull i || s.core.units.any (fun u => u.restored && isFrame u.instr = isFrame i) || (s.peelReads &&& vd) != 0#16

/-- Pages are remembered while instructions of units are in progress (16:R301). -/
def Core.freshWalks (c : Core) : Core := if c.units.isEmpty && c.peel.isEmpty then { c with walks := [] } else c

/-- An operation joins its queue. A memory instruction is alone there, so the invalid words counted are its own (08:R175). -/
def State.joinQueue (s : State) (u : UnitOp) : State :=
  s.mapCore (fun c =>
    let c := c.freshWalks
    { c with units := c.units ++ [u], counted := if isUnitMem u.instr then [] else c.counted })

/-- Issue: the operation with what it sampled joins its queue, its destinations are marked dirty, SRCOUNT counts a
rounding under RSR, and the hart goes on. A full queue stalls the hart. -/
def State.issueKeep (s : State) (i : Instr) (start : Nat) (gd gd1 ga gb : Word) (rounds : Bool) (vd : BitVec 16)
    (pd : BitVec 32) : Result :=
  if s.issueHeld i vd then s.waitHere
  else
    .next (((s.joinQueue (s.sample i start gd gd1 ga gb)).markDirty start vd pd).countRounding rounds).retire

/-- Issue of an instruction that reads VSTART or leaves it 0: VSTART is cleared too (05:R97, R101). -/
def State.issue (s : State) (i : Instr) (start : Nat) (gd gd1 ga gb : Word) (rounds : Bool) (vd : BitVec 16)
    (pd : BitVec 32) : Result :=
  if s.issueHeld i vd then s.waitHere
  else
    .next ((((s.joinQueue (s.sample i start gd gd1 ga gb)).markDirty start vd pd).countRounding rounds).clearVstart).retire

/-! ### Completion. -/

/-- Change the first operation of one of the two queues. -/
def mapFirst (frame : Bool) (f : UnitOp → Option UnitOp) : List UnitOp → List UnitOp
  | [] => []
  | u :: us => if isFrame u.instr = frame then (f u).toList ++ us else u :: mapFirst frame f us

/-- The operation that its unit executes leaves its queue. -/
def State.dropUnit (s : State) (u : UnitOp) : State :=
  s.mapCore (fun c => { c with units := mapFirst (isFrame u.instr) (fun _ => none) c.units })

/-- The operation that its unit executes goes on as u. -/
def State.setUnit (s : State) (u : UnitOp) : State :=
  s.mapCore (fun c => { c with units := mapFirst (isFrame u.instr) (fun _ => some u) c.units })

/-- The general register result of an operation that ends. -/
def State.unitResult (s : State) (u : UnitOp) (g : GReg) (v : Word) : State := (s.setG g v).dropUnit u

/-- Every unit and the peel engine are empty of the hart's work, but for operations that a save found complete (08:R178,
11:R254). -/
def State.enginesQuiet (s : State) : Bool := s.core.units.isEmpty && s.core.peel.all (·.out)

end Sys2Proof.Machine
end

