-- ==== Sys2Proof/Machine/System.lean ====
section
/-! DEFINITION. Machine/System.lean: system registers, svc, brk, eret, idle, ifence, tlbi, gmode and vsetl
(16:R310 to R318, 02:R46, 05:R94, R95). -/

namespace Sys2Proof.Machine

/-! ### Reading a register (16:R312, R314). -/

/-- Mode of a way as WAYMODE shows it (08:R165). -/
def WayMode.code : WayMode → Nat
  | .cache => 0 | .bench => 1 | .array => 2

/-- WAYMODE: two bits per way (08:R165). -/
def State.wayModes (s : State) : Word :=
  BitVec.ofNat 64 ((List.range 8).foldl
    (fun n k => n + ((s.core.ways[k]?.map (fun w => w.mode.code)).getD 0) * 4 ^ k) 0)

/-- LOCKUSE: lines the running context holds locked, copies and versions (08:R177). -/
def State.lockUse (s : State) : Nat :=
  s.core.lines.countP (fun l => l.lock.contains s.hart.ctxid) + s.pkg.versions.countP (fun v => v.lock.contains s.hart.ctxid)

/-- ERRSTAT (21:R371). -/
def Core.errstat (c : Core) : Word :=
  BitVec.ofNat 64 (c.cecnt.toNat * 2 ^ 48 + c.uesrc.toNat * 2 ^ 40 + c.uectx.toNat * 2 ^ 32
    + (if c.ovf then 2 ^ 16 else 0) + (if c.ue then 2 else 0) + (if c.ce then 1 else 0))

/-- STATUS (16:R310). -/
def Hart.status (h : Hart) : Word :=
  BitVec.ofNat 64 ((if h.racechk then 16 else 0) + (if h.snap then 8 else 0) + (if h.maint then 4 else 0)
    + (if h.sys then 2 else 0) + (if h.th then 1 else 0))

/-- The value a register reads as (16:R314 and the field map of each). -/
def State.sysRead (s : State) (r : SysReg) : Word :=
  let h := s.hart
  match r with
  | .hartid => s.core.num.setWidth 64
  | .gangid => h.gangid.setWidth 64
  | .gidx => h.gidx.setWidth 64
  | .gsize => h.gsize.setWidth 64
  | .taskrec => h.taskrec.setWidth 64
  | .ctxid => h.ctxid.setWidth 64
  | .prio => h.prio.setWidth 64
  | .cycle => s.cycle
  | .instret => h.instret
  | .mode => h.mode.setWidth 64
  | .vl => h.vl.setWidth 64
  | .vstart => BitVec.ofNat 64 ((if h.vstartArm then 2 ^ 31 else 0) + h.vstartIdx.toNat)
  | .vlmax => h.vlmax.setWidth 64
  | .vlceil => h.vlceil.setWidth 64
  | .lanes => BitVec.ofNat 64 (h.lanesW.toNat * 2 ^ 8 + h.lanesWays.toNat)
  | .rds => h.rds
  | .vfsr => h.vfsr.setWidth 64
  | .vdirty => h.vdirty.setWidth 64
  | .pdirty => h.pdirty.setWidth 64
  | .srseed => h.srseed
  | .srcount => h.srcount
  | .fcr => BitVec.ofNat 64 (h.fcrShape.toNat * 2 ^ 16 + h.fcrFe.toNat)
  | .fsr => h.fsr.setWidth 64
  | .ltime => h.ltime.setWidth 64
  | .lease => h.lease.setWidth 64
  | .syncst => h.syncst.setWidth 64
  | .hyp => h.hyp.setWidth 64
  | .hypdepth => h.hypdepth.setWidth 64
  | .lockq => h.lockq.setWidth 64
  | .lockuse => BitVec.ofNat 64 s.lockUse
  | .benchchk => BitVec.ofNat 64 (h.wcount.toNat * 2 ^ 32 + h.act.toNat)
  | .waymode => s.wayModes
  | .trapcause => h.trapcause.setWidth 64
  | .trappc => h.trappc.setWidth 64
  | .trapval => h.trapval
  | .trapvec => h.trapvec.setWidth 64
  | .status => h.status
  | .ptroot => h.ptroot.setWidth 64
  | .csaptr => h.csaptr.setWidth 64
  | .savepc => h.savepc.setWidth 64
  | .errstat => if h.sys then s.core.errstat else 0
  | .erraddr => if h.sys then s.core.erraddr else 0
  | .chkctl => BitVec.ofNat 64 (s.core.inj.toNat * 16 + (if s.core.injArm then 1 else 0))
  | .rbcount => if h.snap then BitVec.ofNat 64 (h.rbTotal.toNat * 2 ^ 32 + h.rbCur.toNat) else 0

/-! ### Writing a register (16:R314). -/

/-- A write to ERRSTAT: CECNT is written, OVF, UE and CE are cleared by ones; clearing UE clears the first event
(21:R371). -/
def Core.writeErrstat (c : Core) (v : Word) : Core :=
  let c := { c with cecnt := v.extractLsb' 48 16, ovf := c.ovf && !v.getLsbD 16, ce := c.ce && !v.getLsbD 0 }
  if v.getLsbD 1 then { c with ue := false, uesrc := 0, uectx := 0, erraddr := 0 } else c

/-- A write to a register without special rules: RO fields keep their values, a register that is wholly RO ignores
it. -/
def State.sysWrite (s : State) (r : SysReg) (v : Word) : State :=
  let onHart (f : Hart → Hart) : State := s.mapHart f
  match r with
  | .rds => onHart (fun h => { h with rds := v })
  | .vfsr => onHart (fun h => { h with vfsr := v.setWidth 5 })
  | .vdirty => onHart (fun h => { h with vdirty := v.setWidth 16 })
  | .pdirty => onHart (fun h => { h with pdirty := v.setWidth 32 &&& 0xFFFFFFFE#32 })
  | .srseed => onHart (fun h => { h with srseed := v })
  | .srcount => onHart (fun h => { h with srcount := v })
  | .fsr => onHart (fun h => { h with fsr := v.setWidth 5 })
  | .lease => onHart (fun h => { h with lease := v.setWidth 8 })
  | .trapcause => onHart (fun h => { h with trapcause := v.setWidth 8 })
  | .trappc => onHart (fun h => { h with trappc := v.setWidth 48 })
  | .trapval => onHart (fun h => { h with trapval := v })
  | .trapvec => onHart (fun h => { h with trapvec := v.setWidth 48 &&& ~~~3#48 })
  | .status => onHart (fun h => { h with th := v.getLsbD 0 })
  | .errstat => if s.hart.sys then s.mapCore (fun c => c.writeErrstat v) else s
  | _ => s

/-- Registers whose access waits for every pending unit entry (05:R105, 06:R135). -/
def waitsUnits : SysReg → Bool
  | .vstart => true
  | .vfsr => true
  | .vdirty => true
  | .pdirty => true
  | .rds => true
  | _ => false

/-- Registers whose access waits for every pending frame instruction (07:R142). -/
def waitsFrame : SysReg → Bool
  | .fcr => true
  | .fsr => true
  | _ => false

/-- An access to the register must wait. -/
def State.sysHeld (s : State) (r : SysReg) : Bool :=
  (waitsUnits r && !s.core.units.isEmpty) || (waitsFrame r && s.frameBusy)

/-- mfs: the register's value to g(d) (16:R314). -/
def execMfs (d : GReg) (r : SysReg) (s : State) : Result :=
  if s.sysHeld r then s.waitHere else .next (s.result d (s.sysRead r))

/-- mts of a register without a row of its own (16:R314). -/
def execMts (r : SysReg) (a : GReg) (s : State) : Result :=
  if s.sysHeld r then s.waitHere else .next (s.sysWrite r (s.g a)).retire

/-! ### The registers with rules of their own. -/

/-- The word of an mts (16:R313). -/
def mtsWord (r : SysReg) (a : GReg) : IWord :=
  0x88000000#32 ||| (a.setWidth 32 <<< 16) ||| 0x1000#32 ||| r.number.setWidth 32

/-- mts MODE: the checks and the effect of gmode (02:R46). -/
def execMtsMode (a : GReg) (s : State) : Result :=
  let m : BitVec 21 := (s.g a).setWidth 21
  if modeLegal m then .next (s.setMode m).retire else .next (s.illegal (mtsWord .mode a))

/-- mts VL: min(value, VLMAX, VLCEIL) (05:R95). -/
def execMtsVl (a : GReg) (s : State) : Result :=
  let n := min (s.g a).toNat (min s.hart.vlmax.toNat s.hart.vlceil.toNat)
  .next (s.mapHart (fun h => { h with vl := BitVec.ofNat 20 n })).retire

/-- mts VSTART: ARM from bit 31, IDX from bits [19:0] (05:R95, R105). -/
def execMtsVstart (a : GReg) (s : State) : Result :=
  if s.sysHeld .vstart then s.waitHere
  else .next (s.mapHart (fun h => { h with vstartArm := (s.g a).getLsbD 31, vstartIdx := (s.g a).setWidth 20 })).retire

/-- A write of FCR: it waits for the frame instructions before it; SHAPE 3 is illegal (07:R142). -/
def State.writeFcr (s : State) (v : Word) (w : IWord) : Result :=
  if s.frameBusy then s.waitHere
  else if v.extractLsb' 16 2 = 3#2 then .next (s.illegal w)
  else .next (s.mapHart (fun h => { h with fcrShape := v.extractLsb' 16 2, fcrFe := v.setWidth 16 })).retire

/-- mts FCR (07:R142). -/
def execMtsFcr (a : GReg) (s : State) : Result := s.writeFcr (s.g a) (mtsWord .fcr a)

/-- fcfg: FCR from g(a) (07:R142). -/
def execFcfg (a : GReg) (s : State) : Result := s.writeFcr (s.g a) ((encode (.fcfg a)).getD 0)

/-- mts LTIME: written only when it lies ahead of LTIME by less than 2^12 (09:R201). -/
def execMtsLtime (a : GReg) (s : State) : Result :=
  let v : BitVec 16 := (s.g a).setWidth 16
  let n := (v - s.hart.ltime).toNat
  .next (if 0 < n ∧ n < 4096 then s.mapHart (fun h => { h with ltime := v }) else s).retire

/-- mts BENCHCHK: ACT 3 is illegal (08:R175). -/
def execMtsBenchchk (a : GReg) (s : State) : Result :=
  let v := s.g a
  if v.extractLsb' 0 2 = 3#2 then .next (s.illegal (mtsWord .benchchk a))
  else .next (s.mapHart (fun h => { h with wcount := v.extractLsb' 32 32, act := v.extractLsb' 0 2 })).retire

/-- mts CHKCTL: only with SYS and MAINT; there an INJ of 6 to 15 is illegal (21:R374). -/
def execMtsChkctl (a : GReg) (s : State) : Result :=
  let v := s.g a
  if !(s.hart.sys && s.hart.maint) then .next s.retire
  else if 6 ≤ (v.extractLsb' 4 4).toNat then .next (s.illegal (mtsWord .chkctl a))
  else .next (s.mapCore (fun c => { c with inj := v.extractLsb' 4 4, injArm := v.getLsbD 0 })).retire

/-- gmode (02:R46). -/
def execGmode (m : BitVec 21) (s : State) : Result :=
  if modeLegal m then .next (s.setMode m).retire else .next (s.illegal ((encode (.gmode m)).getD 0))

/-- vsetl: VL = min(n, VLMAX, VLCEIL), VSTART cleared, g(d) = n - VL (05:R94). -/
def execVsetl (d a : GReg) (s : State) : Result :=
  let n := s.g a
  let vl := min n.toNat (min s.hart.vlmax.toNat s.hart.vlceil.toNat)
  .next ((s.mapHart (fun h => { h with vl := BitVec.ofNat 20 vl })).clearVstart.result d (n - BitVec.ofNat 64 vl))

/-! ### svc, brk, eret (16:R308, R311, R315, 23:R391). -/

/-- svc: the trap 0x0C with TRAPPC past it; it counts as retired. -/
def execSvc (imm : BitVec 12) (s : State) : Result :=
  .next (s.countRetired.raise 0x0C#8 (imm.setWidth 64) (s.hart.pc + 4#48))

/-- brk: the trap 0x0D, or a halt when the debugger has armed it. -/
def execBrk (imm : BitVec 12) (s : State) : Result :=
  if s.hart.brkArmed then .next (s.mapHart (fun h => { h with halted := true }))
  else .next (s.countRetired.raise 0x0D#8 (imm.setWidth 64) s.hart.pc)

/-- eret. -/
def execEret (s : State) : Result := .next s.returnFromTrap

/-! ### idle, ifence, tlbi (16:R316 to R318). -/

/-- The line that an idle watches: none for bench, UC and peer addresses (16:R316). -/
def watchLine : Target → Option Nat
  | .bench _ => none
  | .mem dpa mt _ =>
    match mt with
    | .wb => some (dpa / 64)
    | .host => some (dpa / 64)
    | _ => none

/-- A byte of memory, as the hart sees it, lies in a poisoned word. -/
def State.sawPoison (s : State) (dpa : Nat) (mt : MemType) : Bool :=
  poisonHit (s.visible dpa (if mt = .wb then s.hart.hyp else 0#12)).2 (dpa % 64) 1

/-- Checks 8 to 10 of the 1-byte load as which idle checks its operand; nothing is read, so nothing is counted, entered or asked
of a peer (10:R213, 16:R316, log 48). -/
def State.idleCheck (s : State) (t : Target) (ea : Word) : Res Target :=
  match t with
  | .bench o =>
    if s.hart.act = 2#2 && natSetHas s.core.benchInvalid (o / 8) then .trap 0x08#8 ea 8 s
    else if s.core.benchPoisoned o 1 && s.forward t 1 s.hart.hyp = .memory then
      .trap 0x0A#8 ea 10 (s.recordUe 2#4 (BitVec.ofNat 64 (3 * 2 ^ 62 + o / 8 * 8)))
    else .ok t s
  | .mem dpa mt _ =>
    if (s.race t 1 false s.hart.hyp).isNone then .trap 0x04#8 ea 9 s
    else if mt != .peer && s.forward t 1 s.hart.hyp = .memory && s.sawPoison dpa mt then .trap 0x0A#8 ea 10 (s.consumePoison dpa)
    else .ok t s

/-- idle: g(a) is checked as a 1-byte load, then fetch stops; execution continues at PC + 4 (16:R316). -/
def execIdle (a : GReg) (s : State) : Result :=
  ((s.locate (s.g a) 1 .read).andThen (fun t s => s.idleCheck t (s.g a))).finish
    (fun t s => s.retire.mapHart (fun h => { h with run := .watch (watchLine t) false }))

/-- ifence: waits for the hart's earlier stores, then the L1 instruction cache is empty and every fetched word is read anew
(16:R317, 02:R33). -/
def execIfence (s : State) : Result :=
  if s.quiet then
    .next ((s.mapHart (fun h => { h with stale := [] })).mapCore (fun c => { c with l1i := [] })).retire
  else s.waitHere

/-- The translations of this core that a test selects are dropped (16:R318). -/
def State.dropTranslations (s : State) (q : TlbEntry → Bool) : State :=
  let keep (l : List TlbEntry) : List TlbEntry := l.filter (fun e => !q e)
  s.mapCore (fun c => { c with tlb := keep c.tlb, tlb1 := keep c.tlb1, walks := keep c.walks })

/-- A translation of a context, or of any, that covers an address, or of any page (16:R318). -/
def TlbEntry.selected (e : TlbEntry) (ctx : Option (BitVec 8)) (va : Option Addr) : Bool :=
  (match ctx with | some c => e.ctx = c | none => true) &&
    (match va with | some a => a.toNat / 2 ^ e.bits = e.va | none => true)

/-- tlbi: needs SYS; waits for the hart's earlier writes, as fence.rel at its scope; drops the translations selected
(16:R318). Every access of this model is translated in the step that performs it or was checked before. One at package scope that
another core executes reaches this core as a step of that core (OtherAct.tlbi). -/
def State.tlbi (s : State) (pkg : Bool) (q : TlbEntry → Bool) : Result :=
  if !s.hart.sys then .next (s.trap 0x03#8 0)
  else if s.released (if pkg then .pkg else .core) then
    .next (s.dropTranslations q).retire
  else s.waitHere

/-- tlbi.va: translations of context g(d)[7:0] that cover g(a)[47:0]. -/
def execTlbiVa (d a : GReg) (pkg : Bool) (s : State) : Result :=
  s.tlbi pkg (fun e => e.selected (some ((s.g d).setWidth 8)) (some ((s.g a).setWidth 48)))

/-- tlbi.ctx: every translation of context g(d)[7:0]. -/
def execTlbiCtx (d : GReg) (pkg : Bool) (s : State) : Result := s.tlbi pkg (fun e => e.selected (some ((s.g d).setWidth 8)) none)

/-- tlbi.all: every translation. -/
def execTlbiAll (pkg : Bool) (s : State) : Result := s.tlbi pkg (fun e => e.selected none none)

end Sys2Proof.Machine
end

