-- ==== Sys2Proof/Machine/VecInt.lean ====
section
/-! DEFINITION. Machine/VecInt.lean: issue of the vector integer instructions, opcode 0x26 (05:R93, R106 to R117). -/

namespace Sys2Proof.Machine

/-! ### Issue checks shared by the array instructions (05:R93, R107 to R110). -/

/-- The illegal-instruction trap of an instruction that is executing (02:R50, 05:R93). -/
def State.illegalInstr (s : State) (i : Instr) : State := s.illegal ((encode i).getD 0)

/-- What an array instruction writes and reads: destination and its width, sources and their width. -/
structure ArrayRegs where
  d : VReg
  dsew : Nat
  srcs : List VReg
  ssew : Nat
  deriving DecidableEq, Repr

/-- The vector registers among two operands. -/
def vsrcs (a : VReg) (y : VSrc) : List VReg :=
  match y with
  | .vec b => [a, b]
  | _ => [a]

/-- Every field that names a 64-bit operand is even (05:R108). -/
def ArrayRegs.even (r : ArrayRegs) : Bool := evenAt r.d r.dsew && r.srcs.all (fun k => evenAt k r.ssew)

/-- No destination register is a source register (05:R110). -/
def ArrayRegs.disjoint (r : ArrayRegs) : Bool :=
  r.srcs.all (fun k => !overlap (vregsAt r.d r.dsew) (vregsAt k r.ssew))

/-- The destination type under WD: the wide type if the instruction is one of those that widen (05:R109). -/
def wdType (et : ElemType) (wd : Bool) : Option ElemType := if wd then et.wide else some et

/-- Issue an array instruction whose operand checks are ok; the scalar operand of kind 0b01 is sampled (05:R93,
R97). -/
def State.issueArray (s : State) (i : Instr) (ok : Bool) (d : VReg) (dsew : Nat) (y : VSrc) (rounds : Bool) : Result :=
  if s.arrayReady && ok then s.issue i s.hart.start 0 0 0 (s.scalOf y) rounds (dirtyOf d dsew) 0
  else .next (s.illegalInstr i)

/-- An instruction without a wide form: element types, even registers (05:R107, R108). -/
def State.issueV (s : State) (i : Instr) (types : ElemType → Bool) (d a : VReg) (y : VSrc) (rounds : Bool) : Result :=
  let et := modeEt s.hart.mode
  let r : ArrayRegs := { d := d, dsew := et.sew, srcs := vsrcs a y, ssew := et.sew }
  s.issueArray i (types et && r.even) d et.sew y rounds

/-- An instruction with a wide form under WD: the destination type exists and is allowed, VL fits it, and its
registers are apart from the sources (05:R109, R110). -/
def State.issueWd (s : State) (i : Instr) (types : ElemType → Bool) (wides : ElemType → Bool) (d a : VReg) (y : VSrc)
    (rounds : Bool) : Result :=
  let et := modeEt s.hart.mode
  if modeWd s.hart.mode then
    match et.wide with
    | none => .next (s.illegalInstr i)
    | some t =>
      let r : ArrayRegs := { d := d, dsew := t.sew, srcs := vsrcs a y, ssew := et.sew }
      s.issueArray i (types et && wides et && r.even && r.disjoint && decide (s.hart.vl.toNat ≤ s.hart.vlmaxAt t.sew))
        d t.sew y rounds
  else s.issueV i types d a y rounds

/-! ### Element types accepted (05:R107, R108). -/

def etAny (_ : ElemType) : Bool := true
def etInt (t : ElemType) : Bool := t.isInt
/-- Integers below 64 bits: vmulh, vdiv, vdivu, vrem, vclip. -/
def etInt32 (t : ElemType) : Bool := t.isInt && t.sew != 64
/-- ET 8, 9 and 11 to 14. -/
def etFloat (t : ElemType) : Bool := t.fmt.isSome && t != .e2m1
/-- ET 11 to 14. -/
def etFloat64 (t : ElemType) : Bool := t = .bf16 || t = .fp16 || t = .fp32 || t = .fp64
/-- ET 11 to 13. -/
def etFloat32 (t : ElemType) : Bool := t = .bf16 || t = .fp16 || t = .fp32
/-- ET 11 and 12. -/
def etFloat16 (t : ElemType) : Bool := t = .bf16 || t = .fp16

/-! ### Opcode 0x26 (05:R111). -/

/-- vadd: x + y (05:R111, R112). -/
def execVadd (d a : VReg) (y : VSrc) (s : State) : Result :=
  s.issueWd (.vadd d a y) etInt etInt32 d a y false

/-- vsub: x - y (05:R111, R112). -/
def execVsub (d a : VReg) (y : VSrc) (s : State) : Result :=
  s.issueWd (.vsub d a y) etInt etInt32 d a y false

/-- vrsub: y - x (05:R111, R112). -/
def execVrsub (d a : VReg) (y : VSrc) (s : State) : Result :=
  s.issueWd (.vrsub d a y) etInt etInt32 d a y false

/-- vmul: x × y (05:R111, R112). -/
def execVmul (d a : VReg) (y : VSrc) (s : State) : Result :=
  s.issueWd (.vmul d a y) etInt etInt32 d a y false

/-- vmacc: z + x × y (05:R111, R112). -/
def execVmacc (d a : VReg) (y : VSrc) (s : State) : Result :=
  s.issueWd (.vmacc d a y) etInt etInt32 d a y false

/-- vnmsac: z - x × y (05:R111, R112). -/
def execVnmsac (d a : VReg) (y : VSrc) (s : State) : Result :=
  s.issueWd (.vnmsac d a y) etInt etInt32 d a y false

/-- vmulh: the high half of the product (05:R111). -/
def execVmulh (d a : VReg) (y : VSrc) (s : State) : Result :=
  s.issueV (.vmulh d a y) etInt32 d a y false

/-- vdiv: signed quotient (05:R111). -/
def execVdiv (d a : VReg) (y : VSrc) (s : State) : Result :=
  s.issueV (.vdiv d a y) etInt32 d a y false

/-- vdivu: unsigned quotient (05:R111). -/
def execVdivu (d a : VReg) (y : VSrc) (s : State) : Result :=
  s.issueV (.vdivu d a y) etInt32 d a y false

/-- vrem: remainder (05:R111). -/
def execVrem (d a : VReg) (y : VSrc) (s : State) : Result :=
  s.issueV (.vrem d a y) etInt32 d a y false

/-- vmin: signed minimum (05:R111). -/
def execVmin (d a : VReg) (y : VSrc) (s : State) : Result :=
  s.issueV (.vmin d a y) etInt d a y false

/-- vmax: signed maximum (05:R111). -/
def execVmax (d a : VReg) (y : VSrc) (s : State) : Result :=
  s.issueV (.vmax d a y) etInt d a y false

/-- vminu: unsigned minimum (05:R111). -/
def execVminu (d a : VReg) (y : VSrc) (s : State) : Result :=
  s.issueV (.vminu d a y) etInt d a y false

/-- vmaxu: unsigned maximum (05:R111). -/
def execVmaxu (d a : VReg) (y : VSrc) (s : State) : Result :=
  s.issueV (.vmaxu d a y) etInt d a y false

/-- vand: x and y (05:R111). -/
def execVand (d a : VReg) (y : VSrc) (s : State) : Result :=
  s.issueV (.vand d a y) etAny d a y false

/-- vor: x or y (05:R111). -/
def execVor (d a : VReg) (y : VSrc) (s : State) : Result :=
  s.issueV (.vor d a y) etAny d a y false

/-- vxor: x xor y (05:R111). -/
def execVxor (d a : VReg) (y : VSrc) (s : State) : Result :=
  s.issueV (.vxor d a y) etAny d a y false

/-- vandn: x and not y (05:R111). -/
def execVandn (d a : VReg) (y : VSrc) (s : State) : Result :=
  s.issueV (.vandn d a y) etAny d a y false

/-- vsll: left shift (05:R111). -/
def execVsll (d a : VReg) (y : VSrc) (s : State) : Result :=
  s.issueV (.vsll d a y) etInt d a y false

/-- vsrl: logical right shift (05:R111). -/
def execVsrl (d a : VReg) (y : VSrc) (s : State) : Result :=
  s.issueV (.vsrl d a y) etInt d a y false

/-- vsra: arithmetic right shift (05:R111). -/
def execVsra (d a : VReg) (y : VSrc) (s : State) : Result :=
  s.issueV (.vsra d a y) etInt d a y false

/-- vabsd: absolute difference (05:R111). -/
def execVabsd (d a : VReg) (y : VSrc) (s : State) : Result :=
  s.issueV (.vabsd d a y) etInt d a y false

/-- vmerge: y where active, x elsewhere (05:R111). -/
def execVmerge (d a : VReg) (y : VSrc) (s : State) : Result :=
  s.issueV (.vmerge d a y) etAny d a y false

/-- vabs: |x| (05:R111). -/
def execVabs (d a : VReg) (s : State) : Result :=
  s.issueV (.vabs d a) etInt d a (.imm 0#5) false

/-- vmv: copies x, or broadcasts y (05:R117). -/
def execVmv (d a : VReg) (y : VSrc) (s : State) : Result :=
  s.issueV (.vmv d a y) etAny d a y false

/-- vid: e mod 2^SEW (05:R117). -/
def execVid (d : VReg) (s : State) : Result :=
  s.issueV (.vid d) etInt d d (.imm 0#5) false

/-- vclip: narrows va, read at 2·SEW, with a rounding shift; VL fits the wide width, registers are apart, SRCOUNT
counts it (05:R116, R108, R110). -/
def execVclip (d a : VReg) (y : VSrc) (s : State) : Result :=
  let et := modeEt s.hart.mode
  let r : ArrayRegs := { d := d, dsew := et.sew, srcs := [a], ssew := 2 * et.sew }
  s.issueArray (.vclip d a y)
    (etInt32 et && r.even && r.disjoint && decide (s.hart.vl.toNat ≤ s.hart.vlmaxAt (2 * et.sew))) d et.sew y true

end Sys2Proof.Machine
end

