-- ==== Sys2Proof/Machine/VecFloat.lean ====
section
/-! DEFINITION. Machine/VecFloat.lean: issue of the vector float instructions and vcvt, opcodes 0x27 and 0x28
(05:R118 to R123). -/

namespace Sys2Proof.Machine

/-! ### Opcode 0x27 (05:R118 to R121). -/

/-- vfadd: x + y, rounded (05:R118, R119). -/
def execVfadd (d a : VReg) (y : VSrc) (s : State) : Result :=
  s.issueWd (.vfadd d a y) etFloat64 etFloat32 d a y true

/-- vfsub: x - y, rounded (05:R118, R119). -/
def execVfsub (d a : VReg) (y : VSrc) (s : State) : Result :=
  s.issueWd (.vfsub d a y) etFloat64 etFloat32 d a y true

/-- vfmul: x × y, rounded (05:R118, R119). -/
def execVfmul (d a : VReg) (y : VSrc) (s : State) : Result :=
  s.issueWd (.vfmul d a y) etFloat64 etFloat32 d a y true

/-- vfma: x × y + z, one rounding (05:R118, R119). -/
def execVfma (d a : VReg) (y : VSrc) (s : State) : Result :=
  s.issueWd (.vfma d a y) etFloat32 etFloat16 d a y true

/-- vfnma: z - x × y, one rounding (05:R118, R119). -/
def execVfnma (d a : VReg) (y : VSrc) (s : State) : Result :=
  s.issueWd (.vfnma d a y) etFloat32 etFloat16 d a y true

/-- vfdiv: x / y (05:R118, R119). -/
def execVfdiv (d a : VReg) (y : VSrc) (s : State) : Result :=
  s.issueV (.vfdiv d a y) etFloat32 d a y true

/-- vfsqrt: √x (05:R118, R119). -/
def execVfsqrt (d a : VReg) (s : State) : Result :=
  s.issueV (.vfsqrt d a) etFloat32 d a (.imm 0#5) true

/-- vfmin: minimumNumber (05:R118, R119). -/
def execVfmin (d a : VReg) (y : VSrc) (s : State) : Result :=
  s.issueV (.vfmin d a y) etFloat d a y false

/-- vfmax: maximumNumber (05:R118, R119). -/
def execVfmax (d a : VReg) (y : VSrc) (s : State) : Result :=
  s.issueV (.vfmax d a y) etFloat d a y false

/-- vfsgn: magnitude of x with the sign of y (05:R121). -/
def execVfsgn (d a b : VReg) (s : State) : Result :=
  s.issueV (.vfsgn d a b) etFloat d a (.vec b) false

/-- vfsgnN: magnitude of x with the inverse sign of y (05:R121). -/
def execVfsgnN (d a b : VReg) (s : State) : Result :=
  s.issueV (.vfsgnN d a b) etFloat d a (.vec b) false

/-- vfsgnX: magnitude of x with the XOR of the signs (05:R121). -/
def execVfsgnX (d a b : VReg) (s : State) : Result :=
  s.issueV (.vfsgnX d a b) etFloat d a (.vec b) false

/-- vfexp2: 2^x (05:R120). -/
def execVfexp2 (d a : VReg) (s : State) : Result :=
  s.issueV (.vfexp2 d a) etFloat16 d a (.imm 0#5) true

/-- vflog2: log2 x (05:R120). -/
def execVflog2 (d a : VReg) (s : State) : Result :=
  s.issueV (.vflog2 d a) etFloat16 d a (.imm 0#5) true

/-- vfrecip: 1 / x (05:R120). -/
def execVfrecip (d a : VReg) (s : State) : Result :=
  s.issueV (.vfrecip d a) etFloat32 d a (.imm 0#5) true

/-- vfrsqrt: 1 / √x (05:R120). -/
def execVfrsqrt (d a : VReg) (s : State) : Result :=
  s.issueV (.vfrsqrt d a) etFloat16 d a (.imm 0#5) true

/-! ### Opcode 0x28 (05:R122, R123). -/

/-- How many source elements a vcvt of n destination elements reads (05:R123). -/
def cvtReads (src dst : ElemType) (n : Nat) : Nat :=
  if dst = .e2m1 && src != .e2m1 then 2 * n
  else if src = .e2m1 && dst != .e2m1 then (n + 1) / 2
  else n

/-- Source and destination elements of a vcvt lie at different rows (05:R110). -/
def cvtMoves (src dst : ElemType) : Bool := src.sew != dst.sew || ((src = .e2m1) != (dst = .e2m1))

/-- vcvt: elements of type t converted to MODE.ET (05:R122). -/
def execVcvt (d a : VReg) (t : ElemType) (s : State) : Result :=
  let et := modeEt s.hart.mode
  let r : ArrayRegs := { d := d, dsew := et.sew, srcs := [a], ssew := t.sew }
  s.issueArray (.vcvt d a t)
    (r.even && (!cvtMoves t et || r.disjoint) &&
      decide (cvtReads t et s.hart.vl.toNat ≤ s.hart.vlmaxAt t.sew))
    d et.sew (.imm 0#5) (!(t.isInt && et.isInt))

end Sys2Proof.Machine
end

