-- ==== Sys2Proof/Machine/VecPred.lean ====
section
/-! DEFINITION. Machine/VecPred.lean: issue of the compares, the predicate instructions and vloop, opcodes 0x29 and
0x2A (05:R124 to R128). -/

namespace Sys2Proof.Machine

/-- Issue a compare into pd (05:R124). -/
def State.issueCmp (s : State) (i : Instr) (types : ElemType → Bool) (p : PReg) (a : VReg) (y : VSrc) : Result :=
  let et := modeEt s.hart.mode
  if s.arrayReady && types et && (vsrcs a y).all (fun k => evenAt k et.sew) then
    s.issue i s.hart.start 0 0 0 (s.scalOf y) false 0 (pdirtyOf p)
  else .next (s.illegalInstr i)

/-! ### Opcode 0x29 (05:R124). -/

/-- vcmpeq: equal bits (05:R124). -/
def execVcmpeq (p : PReg) (a : VReg) (y : VSrc) (s : State) : Result :=
  s.issueCmp (.vcmpeq p a y) etAny p a y

/-- vcmpne: bits differ (05:R124). -/
def execVcmpne (p : PReg) (a : VReg) (y : VSrc) (s : State) : Result :=
  s.issueCmp (.vcmpne p a y) etAny p a y

/-- vcmplt: x < y, signed (05:R124). -/
def execVcmplt (p : PReg) (a : VReg) (y : VSrc) (s : State) : Result :=
  s.issueCmp (.vcmplt p a y) etInt p a y

/-- vcmple: x ≤ y, signed (05:R124). -/
def execVcmple (p : PReg) (a : VReg) (y : VSrc) (s : State) : Result :=
  s.issueCmp (.vcmple p a y) etInt p a y

/-- vcmpltu: x < y, unsigned (05:R124). -/
def execVcmpltu (p : PReg) (a : VReg) (y : VSrc) (s : State) : Result :=
  s.issueCmp (.vcmpltu p a y) etInt p a y

/-- vcmpleu: x ≤ y, unsigned (05:R124). -/
def execVcmpleu (p : PReg) (a : VReg) (y : VSrc) (s : State) : Result :=
  s.issueCmp (.vcmpleu p a y) etInt p a y

/-- vfcmpeq: x = y (05:R124). -/
def execVfcmpeq (p : PReg) (a : VReg) (y : VSrc) (s : State) : Result :=
  s.issueCmp (.vfcmpeq p a y) etFloat p a y

/-- vfcmplt: x < y (05:R124). -/
def execVfcmplt (p : PReg) (a : VReg) (y : VSrc) (s : State) : Result :=
  s.issueCmp (.vfcmplt p a y) etFloat p a y

/-- vfcmple: x ≤ y (05:R124). -/
def execVfcmple (p : PReg) (a : VReg) (y : VSrc) (s : State) : Result :=
  s.issueCmp (.vfcmple p a y) etFloat p a y

/-- vfcmpun: unordered (05:R124). -/
def execVfcmpun (p : PReg) (a : VReg) (y : VSrc) (s : State) : Result :=
  s.issueCmp (.vfcmpun p a y) etFloat p a y

/-! ### Opcode 0x2A (05:R126 to R128). -/

/-- Issue a predicate instruction: no guard, start 0, its general register sampled (05:R127). -/
def State.issuePred (s : State) (i : Instr) (p : PReg) (ga : Word) : Result :=
  if s.arrayReady then s.issue i 0 0 0 ga 0 false 0 (pdirtyOf p) else .next (s.illegalInstr i)

/-- pand: pa and pb (05:R127). -/
def execPand (d a b : PReg) (s : State) : Result :=
  s.issuePred (.pand d a b) d 0

/-- por: pa or pb (05:R127). -/
def execPor (d a b : PReg) (s : State) : Result :=
  s.issuePred (.por d a b) d 0

/-- pxor: pa xor pb (05:R127). -/
def execPxor (d a b : PReg) (s : State) : Result :=
  s.issuePred (.pxor d a b) d 0

/-- pandn: pa and not pb (05:R127). -/
def execPandn (d a b : PReg) (s : State) : Result :=
  s.issuePred (.pandn d a b) d 0

/-- psbf: before the first (05:R127). -/
def execPsbf (d a b : PReg) (s : State) : Result :=
  s.issuePred (.psbf d a b) d 0

/-- psif: up to the first (05:R127). -/
def execPsif (d a b : PReg) (s : State) : Result :=
  s.issuePred (.psif d a b) d 0

/-- pfirst: the first (05:R127). -/
def execPfirst (d a b : PReg) (s : State) : Result :=
  s.issuePred (.pfirst d a b) d 0

/-- pmov (05:R127). -/
def execPmov (d a : PReg) (s : State) : Result :=
  s.issuePred (.pmov d a) d 0

/-- pcount: the number of set bits to g(d) (05:R127). -/
def execPcount (d : GReg) (a : PReg) (s : State) : Result :=
  s.issuePred (.pcount d a) 0#5 0

/-- pset: a window of elements (05:R127). -/
def execPset (d : PReg) (a : GReg) (s : State) : Result :=
  s.issuePred (.pset d a) d (s.g a)

/-- vloop: counts down the lanes of pd; it writes va and pd (05:R128). -/
def execVloop (d : PReg) (a : VReg) (off : BitVec 9) (s : State) : Result :=
  let et := modeEt s.hart.mode
  if s.arrayReady && et.isInt && evenAt a et.sew then
    s.issue (.vloop d a off) s.hart.start 0 0 0 0 false (dirtyOf a et.sew) (pdirtyOf d)
  else .next (s.illegalInstr (.vloop d a off))

end Sys2Proof.Machine
end

