-- ==== Sys2Proof/Machine/Rows.lean ====
section
/-! DEFINITION. Machine/Rows.lean: which registers an instruction of a unit reads and writes, the interlock of the units by
register (05:R97, 01:R21), the rows of the arrays and their parity (01:R22, 21:R360, R361). -/

namespace Sys2Proof.Machine

/-! ### Operand views. -/

/-- Destination, first source and second operand of an instruction of opcode 0x26 or 0x27. -/
def vView : Instr → Option (VReg × VReg × VSrc)
  | .vadd d a y => some (d, a, y)
  | .vsub d a y => some (d, a, y)
  | .vrsub d a y => some (d, a, y)
  | .vmul d a y => some (d, a, y)
  | .vmulh d a y => some (d, a, y)
  | .vmacc d a y => some (d, a, y)
  | .vnmsac d a y => some (d, a, y)
  | .vdiv d a y => some (d, a, y)
  | .vdivu d a y => some (d, a, y)
  | .vrem d a y => some (d, a, y)
  | .vmin d a y => some (d, a, y)
  | .vmax d a y => some (d, a, y)
  | .vminu d a y => some (d, a, y)
  | .vmaxu d a y => some (d, a, y)
  | .vand d a y => some (d, a, y)
  | .vor d a y => some (d, a, y)
  | .vxor d a y => some (d, a, y)
  | .vandn d a y => some (d, a, y)
  | .vsll d a y => some (d, a, y)
  | .vsrl d a y => some (d, a, y)
  | .vsra d a y => some (d, a, y)
  | .vabs d a => some (d, a, .imm 0#5)
  | .vabsd d a y => some (d, a, y)
  | .vmerge d a y => some (d, a, y)
  | .vmv d a y => some (d, a, y)
  | .vid d => some (d, d, .imm 0#5)
  | .vclip d a y => some (d, a, y)
  | .vfadd d a y => some (d, a, y)
  | .vfsub d a y => some (d, a, y)
  | .vfmul d a y => some (d, a, y)
  | .vfma d a y => some (d, a, y)
  | .vfnma d a y => some (d, a, y)
  | .vfdiv d a y => some (d, a, y)
  | .vfsqrt d a => some (d, a, .imm 0#5)
  | .vfmin d a y => some (d, a, y)
  | .vfmax d a y => some (d, a, y)
  | .vfsgn d a b => some (d, a, .vec b)
  | .vfsgnN d a b => some (d, a, .vec b)
  | .vfsgnX d a b => some (d, a, .vec b)
  | .vfexp2 d a => some (d, a, .imm 0#5)
  | .vflog2 d a => some (d, a, .imm 0#5)
  | .vfrecip d a => some (d, a, .imm 0#5)
  | .vfrsqrt d a => some (d, a, .imm 0#5)
  | _ => none

/-- Destination and operands of a compare. -/
def cmpView : Instr → Option (PReg × VReg × VSrc)
  | .vcmpeq p a y => some (p, a, y)
  | .vcmpne p a y => some (p, a, y)
  | .vcmplt p a y => some (p, a, y)
  | .vcmple p a y => some (p, a, y)
  | .vcmpltu p a y => some (p, a, y)
  | .vcmpleu p a y => some (p, a, y)
  | .vfcmpeq p a y => some (p, a, y)
  | .vfcmplt p a y => some (p, a, y)
  | .vfcmple p a y => some (p, a, y)
  | .vfcmpun p a y => some (p, a, y)
  | _ => none

/-- The instruction widens under WD (05:R109). -/
def widens : Instr → Bool
  | .vadd .. => true
  | .vsub .. => true
  | .vrsub .. => true
  | .vmul .. => true
  | .vmacc .. => true
  | .vnmsac .. => true
  | .vfadd .. => true
  | .vfsub .. => true
  | .vfmul .. => true
  | .vfma .. => true
  | .vfnma .. => true
  | _ => false

/-- The destination type of an operation. -/
def UnitOp.dstType (u : UnitOp) : ElemType :=
  if u.wd && widens u.instr then u.et.wide.getD u.et else u.et

/-- The data register of a vector memory instruction, and whether it stores. -/
def vecMemReg : Instr → Option (VReg × Bool)
  | .vld x _ => some (x, false)
  | .vlds x _ _ => some (x, false)
  | .vldx x _ _ => some (x, false)
  | .vldff _ x _ => some (x, false)
  | .vst x _ => some (x, true)
  | .vsts x _ _ => some (x, true)
  | .vstx x _ _ => some (x, true)
  | _ => none

/-- Vector registers a rod-tree instruction reads. -/
def rodReads : Instr → List VReg
  | .vredsum _ a => [a]
  | .vredosum _ a => [a]
  | .vredmin _ a => [a]
  | .vredmax _ a => [a]
  | .vredbitAnd _ a => [a]
  | .vredbitOr _ a => [a]
  | .vredbitXor _ a => [a]
  | .vscan _ a => [a]
  | .vslideup _ a _ => [a]
  | .vslidedn _ a _ => [a]
  | .vslide1up _ a _ => [a]
  | .vslide1dn _ a _ => [a]
  | .vpick _ a b => [a, b]
  | .vsqueeze _ a _ => [a]
  | .vbcast _ a _ => [a]
  | .vextr _ a => [a]
  | _ => []

/-- The vector register that a rod-tree instruction writes. -/
def rodWrites : Instr → Option VReg
  | .vscan d _ => some d
  | .vslideup d _ _ => some d
  | .vslidedn d _ _ => some d
  | .vslide1up d _ _ => some d
  | .vslide1dn d _ _ => some d
  | .vpick d _ _ => some d
  | .vsqueeze d _ _ => some d
  | .vbcast d _ _ => some d
  | .vinsr d _ => some d
  | _ => none

/-- Destination of a predicate instruction. -/
def predDst : Instr → Option PReg
  | .pand d _ _ => some d
  | .por d _ _ => some d
  | .pxor d _ _ => some d
  | .pandn d _ _ => some d
  | .pmov d _ => some d
  | .psbf d _ _ => some d
  | .psif d _ _ => some d
  | .pfirst d _ _ => some d
  | .pset d _ => some d
  | _ => none

/-- One of the predicate instructions of R127. -/
def isPred : Instr → Bool
  | .pcount .. => true
  | i => (predDst i).isSome

/-! ### What an instruction of a unit reads and writes. -/

/-- The vector registers that an array instruction reads, with the widths at which it reads them. -/
def UnitOp.kneaderReads (u : UnitOp) : List (VReg × Nat) :=
  let at_ (k : VReg) : VReg × Nat := (k, u.sew)
  match u.instr with
  | .vid _ => []
  | .vmv _ a (.vec _) => [at_ a]
  | .vmv .. => []
  | .vclip _ a y => (a, 2 * u.sew) :: (vsrcs a y).tail.map at_
  | .vmacc d a y => (d, u.dstType.sew) :: (vsrcs a y).map at_
  | .vnmsac d a y => (d, u.dstType.sew) :: (vsrcs a y).map at_
  | .vfma d a y => (d, u.dstType.sew) :: (vsrcs a y).map at_
  | .vfnma d a y => (d, u.dstType.sew) :: (vsrcs a y).map at_
  | .vcvt _ a t => [(a, t.sew)]
  | .vloop _ a _ => [at_ a]
  | i =>
    match vView i, cmpView i with
    | some (_, a, y), _ => (vsrcs a y).map at_
    | none, some (_, a, y) => (vsrcs a y).map at_
    | none, none => []

/-- Block scales are read from two registers at 8 bits (07:R152). -/
def UnitOp.scaleReads (u : UnitOp) : List (VReg × Nat) :=
  if modeSb u.mode = 0#2 then [] else [(modeSr u.mode, 8), (modeSr u.mode + 1#4, 8)]

/-- The vector registers that a frame instruction reads, with their widths (07:R155). -/
def UnitOp.frameReads (u : UnitOp) : List (VReg × Nat) :=
  match u.instr with
  | .mmo a b _ => (a, u.sew) :: (b, u.sew) :: u.scaleReads
  | .mmoSp a b v _ => (a, u.sew) :: (b, u.sew) :: (v, 8) :: u.scaleReads
  | .mmoSt d _ _ v s24 _ => (d, u.sew) :: (if s24 then [(v, 8)] else []) ++ u.scaleReads
  | .fdrain _ c => [(c, 32)]
  | .fdrainZ _ c => [(c, 32)]
  | .frowadd a => [(a, u.sew)]
  | .frowaddC a => [(a, u.sew)]
  | _ => []

/-- The vector registers that a vector memory instruction reads. -/
def UnitOp.memReads (u : UnitOp) : List (VReg × Nat) :=
  match u.instr with
  | .vst x _ => [(x, u.sew)]
  | .vsts x _ _ => [(x, u.sew)]
  | .vstx x _ b => [(x, u.sew), (b, u.sew)]
  | .vldx _ _ b => [(b, u.sew)]
  | _ => []

/-- The vector registers that an operation reads. -/
def UnitOp.vReads (u : UnitOp) : List (VReg × Nat) :=
  if isFrame u.instr then u.frameReads
  else if isRodTree u.instr then (rodReads u.instr).map (fun k => (k, u.sew))
  else if isVecMem u.instr then u.memReads
  else u.kneaderReads

/-- The vector register that an operation writes, with its width. -/
def UnitOp.vWrites (u : UnitOp) : Option (VReg × Nat) :=
  match u.instr with
  | .fdrain d _ => some (d, u.sew)
  | .fdrainNcs d => some (d, u.sew)
  | .fdrainZ d _ => some (d, u.sew)
  | .fdrainZNcs d => some (d, u.sew)
  | .vcvt d _ _ => some (d, u.sew)
  | .vloop _ a _ => some (a, u.sew)
  | i =>
    match vecMemReg i, rodWrites i, vView i with
    | some (x, store), _, _ => if store then none else some (x, u.sew)
    | none, some d, _ => some (d, u.sew)
    | none, none, some (d, _, _) => some (d, u.dstType.sew)
    | none, none, none => none

/-- The predicate that an operation writes. -/
def UnitOp.pWrites (u : UnitOp) : Option PReg :=
  match u.instr with
  | .vloop p _ _ => some p
  | i =>
    match predDst i, cmpView i with
    | some d, _ => some d
    | none, some (p, _, _) => some p
    | none, none => none

/-- Predicates that an operation reads: its operands, or the guard (02:R48). -/
def UnitOp.pReads (u : UnitOp) : List PReg :=
  match u.instr with
  | .pand _ a b => [a, b]
  | .por _ a b => [a, b]
  | .pxor _ a b => [a, b]
  | .pandn _ a b => [a, b]
  | .pmov _ a => [a]
  | .psbf _ a b => [a, b]
  | .psif _ a b => [a, b]
  | .pfirst _ a b => [a, b]
  | .pcount _ a => [a]
  | .pset _ _ => []
  | .fzero => []
  | .fzeroC => []
  | .frc => []
  | .frowadd _ => []
  | .frowaddC _ => []
  | .fsave _ => []
  | .fload _ => []
  | .vloop d _ _ => [d]
  | _ => [modeGp u.mode]

/-- What VDIRTY and PDIRTY take for the elements that an operation has still to write (05:R104). -/
def UnitOp.dirties (u : UnitOp) : BitVec 16 × BitVec 32 :=
  if u.vstart < u.vl then
    ((u.vWrites.map (fun d => dirtyOf d.1 d.2)).getD 0, (u.pWrites.map pdirtyOf).getD 0)
  else (0, 0)

/-! ### The interlock by register (05:R97). -/

/-- The registers of a list, with the second of each pair. -/
def regNumbers (l : List (VReg × Nat)) : List Nat := l.flatMap (fun k => vregsAt k.1 k.2)

/-- One operation writes a register that another reads or writes. -/
def UnitOp.feeds (u v : UnitOp) : Bool :=
  overlap (regNumbers u.vWrites.toList) (regNumbers (v.vReads ++ v.vWrites.toList)) ||
    u.pWrites.any (fun p => p != 0#5 && (v.pReads ++ v.pWrites.toList).contains p)

/-- Two operations keep their order of issue. -/
def UnitOp.conflicts (u v : UnitOp) : Bool := u.feeds v || v.feeds u || (isUnitMem u.instr && isUnitMem v.instr)

/-- The operation that the frame unit, or the kneader with the rod tree and vector memory, executes now: the first of its
queue, when no operation issued before it to the other holds it (01:R21, 05:R97, 07:R155). -/
def State.turnOf (s : State) (frame : Bool) : Option UnitOp :=
  let older := s.core.units.takeWhile (fun u => isFrame u.instr != frame)
  match s.core.units.drop older.length with
  | u :: _ => if older.any u.conflicts then none else some u
  | [] => none

/-! ### Rows (01:R22). -/

/-- Rows of register k at a width that hold a slot (02:R52). -/
def vRows (k : VReg) (sew slot : Nat) : List Nat := natRange (32 * k.toNat + slot * sew) sew

/-- The row of pK that holds a slot. -/
def pRow (k : PReg) (slot : Nat) : Nat := 512 + 4 * k.toNat + slot

/-- Rows of register k at a width that hold the slots of n elements from e. -/
def slotRows (k : VReg) (sew lanes e n : Nat) : List Nat :=
  if n = 0 then []
  else (natRange (e / lanes) ((e + n - 1) / lanes + 1 - e / lanes)).flatMap (vRows k sew)

/-- Rows of pK that hold the slots of the elements below VL. -/
def predRows (k : PReg) (lanes vl : Nat) : List Nat := if vl = 0 then [] else natRange (pRow k 0) ((vl - 1) / lanes + 1)

/-- A row of a subarray of a way, as Core.badRows names it. -/
def rowId (way sub row : Nat) : Nat := way * 2 ^ 16 + sub * 2 ^ 10 + row

/-- ERRADDR of an array location: way, subarray, row, column, and bit 0 for the check column (21:R373). -/
def arrayLoc (id col : Nat) (check : Bool) : Word :=
  BitVec.ofNat 64 (2 ^ 62 + id / 2 ^ 16 * 2 ^ 29 + id / 2 ^ 10 % 64 * 2 ^ 23 + id % 2 ^ 10 * 2 ^ 13 + col * 2 ^ 5
    + (if check then 1 else 0))

/-- A granted way's row among those read whose parity does not match (21:R360). Every subarray of a granted way is read. -/
def State.badRow (s : State) (rows : List Nat) : Option Nat :=
  (s.core.badRows.find? (fun e => s.hart.grantWays.contains (e.1 / 2 ^ 16) && rows.contains (e.1 % 2 ^ 10))).map (·.1)

/-- The subarrays that elements lie in, by way and number, without repeats next to each other. -/
def Hart.subarrays (h : Hart) (es : List Nat) : List (Nat × Nat) :=
  (es.foldl (fun acc e =>
    let k := ((h.spot e).way, (h.spot e).lane / 256)
    if acc.head? = some k then acc else k :: acc) []).reverse

/-- Rows are written in subarrays: an armed injection flips the parity of the first, the parity of the others matches from
now on (21:R360, R374). -/
def Core.writeRows (c : Core) (subs : List (Nat × Nat)) (rows : List Nat) : Core :=
  match subs, rows with
  | p :: _, r :: _ =>
    let hit := c.injArm && c.inj = 3#4
    if c.badRows.isEmpty && !hit then c
    else
      let fresh := sparseDrop (fun k => subs.any (fun q => rows.any (fun r => k = rowId q.1 q.2 r))) c.badRows
      { c with badRows := if hit then natSetPut fresh (rowId p.1 p.2 r) true else fresh, injArm := c.injArm && !hit }
  | _, _ => c

/-- Elements of a register were written: rows of their slots, in the subarrays they lie in. -/
def State.noteRows (s : State) (es rows : List Nat) : State :=
  s.mapCore (fun c => c.writeRows (s.hart.subarrays es) rows)

end Sys2Proof.Machine
end

