-- ==== Sys2Proof/Machine/Kneader.lean ====
section
/-! DEFINITION. Machine/Kneader.lean: what an array instruction does to each element, slot by slot (05:R98 to R103,
R111 to R128), with row parity and the check column (21:R360, R361, R374). -/

namespace Sys2Proof.Machine

/-- The second operand is a shift amount, its immediate zero-extended (05:R106, R116). -/
def isShift : Instr → Bool
  | .vsll .. => true
  | .vsrl .. => true
  | .vsra .. => true
  | .vclip .. => true
  | _ => false

/-! ### Integer results (05:R111 to R117). -/

/-- Signed division of w-bit values with its cases (05:R114). -/
def vdivSigned (x y : Int) (w : Nat) (sat : Bool) : Int :=
  if y = 0 then
    if x = 0 then 0 else if 0 < x then ((2 ^ (w - 1) : Nat) : Int) - 1 else -((2 ^ (w - 1) : Nat) : Int)
  else if x = -((2 ^ (w - 1) : Nat) : Int) ∧ y = -1 then (if sat then ((2 ^ (w - 1) : Nat) : Int) - 1 else x)
  else x.tdiv y

/-- vclip of a 2w-bit element: a rounding shift right by k, saturated to the type (05:R116). -/
def vclipElem (r : Rnd) (e xb w : Nat) (signed : Bool) (k : Nat) : Nat :=
  let v := readInt xb (2 * w) signed
  let g := if v = 0 then (0, false) else roundGrid r.rm (decide (v < 0)) (.rat v.natAbs 1 (-(k : Int))) 0 (r.draw e)
  satInt (if v < 0 then -(g.1 : Int) else (g.1 : Int)) w signed

/-- The result bits of an integer instruction at index e, from the bits of x, y and z. -/
def intElem (u : UnitOp) (e xb yb zb : Nat) : Nat :=
  let w := u.sew
  let t := u.dstType
  let x := readInt xb w u.et.signed
  let y := readInt yb w u.et.signed
  let z := readInt zb t.sew t.signed
  let xs := readInt xb w true
  let ys := readInt yb w true
  let red (v : Int) : Nat := reduceInt v t.sew t.signed u.sat
  let n := yb % w
  match u.instr with
  | .vadd .. => red (x + y)
  | .vsub .. => red (x - y)
  | .vrsub .. => red (y - x)
  | .vmul .. => red (x * y)
  | .vmulh .. => wrapInt (x * y / ((2 ^ w : Nat) : Int)) w
  | .vmacc .. => red (z + x * y)
  | .vnmsac .. => red (z - x * y)
  | .vdiv .. => wrapInt (vdivSigned xs ys w u.sat) w
  | .vdivu .. => if yb = 0 then 2 ^ w - 1 else xb / yb
  | .vrem .. => if y = 0 then xb else wrapInt (x.tmod y) w
  | .vmin .. => if xs ≤ ys then xb else yb
  | .vmax .. => if ys ≤ xs then xb else yb
  | .vminu .. => min xb yb
  | .vmaxu .. => max xb yb
  | .vand .. => xb &&& yb
  | .vor .. => xb ||| yb
  | .vxor .. => xb ^^^ yb
  | .vandn .. => xb &&& (2 ^ w - 1 - yb)
  | .vsll .. => xb * 2 ^ n % 2 ^ w
  | .vsrl .. => xb / 2 ^ n
  | .vsra .. => wrapInt (xs / ((2 ^ n : Nat) : Int)) w
  | .vabs .. => red x.natAbs
  | .vabsd .. => wrapInt (x - y).natAbs w
  | .vmerge .. => yb
  | .vmv _ _ (.vec _) => xb
  | .vmv .. => yb
  | .vid .. => e % 2 ^ w
  | .vclip .. => vclipElem u.rnd e xb w u.et.signed (yb % (2 * w))
  | _ => 0

/-! ### Float results (05:R118 to R121). -/

/-- A sign chosen by op over the magnitude of x (05:R121). -/
def signOver (f : Fmt) (xb yb : Nat) (op : Bool → Bool → Bool) : Nat :=
  f.signed (op (decide (xb / f.signBit % 2 = 1)) (decide (yb / f.signBit % 2 = 1))) (xb % f.signBit)

/-- Result bits and flags of a float instruction at index e. -/
def floatElem (u : UnitOp) (e xb yb zb : Nat) : FRes :=
  let f := u.et.fmt.getD .fp32
  let t := u.dstType
  let x := f.decode xb
  let y := f.decode yb
  let z := t.value zb
  let rm := u.rnd.rm
  let out (v : XRes) : FRes := t.roundTo u.rnd e v
  match u.instr with
  | .vfadd .. => out (exactAdd rm x y)
  | .vfsub .. => out (exactAdd rm x y.negate)
  | .vfmul .. => out (exactMul x y)
  | .vfma .. => out (exactFma rm x y z)
  | .vfnma .. => out (exactFma rm x.negate y z)
  | .vfdiv .. => out (exactDiv x y)
  | .vfsqrt .. => out (exactSqrt x)
  | .vfmin .. => f.minMax false xb yb
  | .vfmax .. => f.minMax true xb yb
  | .vfsgn .. => { bits := signOver f xb yb (fun _ b => b), fl := 0#5 }
  | .vfsgnN .. => { bits := signOver f xb yb (fun _ b => !b), fl := 0#5 }
  | .vfsgnX .. => { bits := signOver f xb yb (fun a b => a != b), fl := 0#5 }
  | .vfexp2 .. => out (exactExp2 x)
  | .vflog2 .. => out (exactLog2 x)
  | .vfrecip .. => out (exactRecip x)
  | .vfrsqrt .. => out (exactRsqrt x)
  | _ => { bits := 0, fl := 0#5 }

/-- The instruction is of opcode 0x27. -/
def isFloatVec : Instr → Bool
  | .vfadd .. => true
  | .vfsub .. => true
  | .vfmul .. => true
  | .vfma .. => true
  | .vfnma .. => true
  | .vfdiv .. => true
  | .vfsqrt .. => true
  | .vfmin .. => true
  | .vfmax .. => true
  | .vfsgn .. => true
  | .vfsgnN .. => true
  | .vfsgnX .. => true
  | .vfexp2 .. => true
  | .vflog2 .. => true
  | .vfrecip .. => true
  | .vfrsqrt .. => true
  | _ => false

/-- The result of an instruction of opcode 0x26 or 0x27. -/
def vElem (u : UnitOp) (e xb yb zb : Nat) : FRes :=
  if isFloatVec u.instr then floatElem u e xb yb zb else { bits := intElem u e xb yb zb, fl := 0#5 }

/-! ### Conversion (05:R122, R123). -/

/-- The bits and flags that vcvt writes at e of the destination. -/
def State.cvtElem (s : State) (u : UnitOp) (a : VReg) (src : ElemType) (e : Nat) : FRes :=
  let dst := u.et
  if dst = .e2m1 ∧ src = .e2m1 then { bits := s.vGet a 8 e, fl := 0#5 }
  else if dst = .e2m1 then
    let lo := convert src dst u.rnd (2 * e) (s.vGet a src.sew (2 * e))
    let hi := convert src dst u.rnd (2 * e + 1) (s.vGet a src.sew (2 * e + 1))
    { bits := lo.bits % 16 + 16 * (hi.bits % 16), fl := lo.fl ||| hi.fl }
  else if src = .e2m1 then
    let b := s.vGet a 8 (e / 2)
    convert src dst u.rnd e (if e % 2 = 0 then b % 16 else b / 16)
  else convert src dst u.rnd e (s.vGet a src.sew e)

/-! ### Compares (05:R124). -/

/-- Result bit and flags of a compare. -/
def cmpElem (u : UnitOp) (xb yb : Nat) : Bool × Flags :=
  let w := u.sew
  let f := u.et.fmt.getD .fp32
  let x := f.decode xb
  let y := f.decode yb
  let un := x.isNan || y.isNan
  let sn := x.snan ||| y.snan
  match u.instr with
  | .vcmpeq .. => (xb = yb, 0#5)
  | .vcmpne .. => (xb != yb, 0#5)
  | .vcmplt .. => (decide (readInt xb w true < readInt yb w true), 0#5)
  | .vcmple .. => (decide (readInt xb w true ≤ readInt yb w true), 0#5)
  | .vcmpltu .. => (decide (xb < yb), 0#5)
  | .vcmpleu .. => (decide (xb ≤ yb), 0#5)
  | .vfcmpeq .. => (x.eq y, sn)
  | .vfcmplt .. => (!un && x.lt y, Flags.when un Flags.nv)
  | .vfcmple .. => (!un && !y.lt x, Flags.when un Flags.nv)
  | .vfcmpun .. => (un, sn)
  | _ => (false, 0#5)

/-! ### Predicates (05:R127). -/

/-- Bit e of the second source starts a segment; a pb field of 0 starts none. -/
def State.segStart (s : State) (b : PReg) (e : Nat) : Bool := b != 0#5 && s.pGet b e

/-- For each element in order: whether a pa bit stood at an earlier element of its segment. -/
def State.seenBefore (s : State) (a b : PReg) : Nat → Nat → Bool → List Bool
  | 0, _, _ => []
  | n + 1, e, seen =>
    let seen := seen && !(s.segStart b e)
    seen :: s.seenBefore a b n (e + 1) (seen || s.pGet a e)

/-- The bits a predicate instruction writes for elements 0 to VL - 1. -/
def State.predBits (s : State) (u : UnitOp) : List Bool :=
  let es := List.range u.vl
  match u.instr with
  | .pand _ a b => es.map (fun e => s.pGet a e && s.pGet b e)
  | .por _ a b => es.map (fun e => s.pGet a e || s.pGet b e)
  | .pxor _ a b => es.map (fun e => s.pGet a e != s.pGet b e)
  | .pandn _ a b => es.map (fun e => s.pGet a e && !(s.pGet b e))
  | .pmov _ a => es.map (fun e => s.pGet a e)
  | .psbf _ a b => (s.seenBefore a b u.vl 0 false).mapIdx (fun e seen => !seen && !(s.pGet a e))
  | .psif _ a b => (s.seenBefore a b u.vl 0 false).map (fun seen => !seen)
  | .pfirst _ a b => (s.seenBefore a b u.vl 0 false).mapIdx (fun e seen => !seen && s.pGet a e)
  | .pset _ _ =>
    let lo := (u.ga.extractLsb' 32 20).toNat
    let n := (u.ga.extractLsb' 0 20).toNat
    es.map (fun e => decide (lo ≤ e ∧ e < lo + n))
  | _ => []

/-! ### Array data errors and the check column (21:R360, R361, R374). -/

/-- An array data error that names pc (21:R361, R366): the kneader's entries that keep does not select are abandoned, the
registers are zero, and the trap waits for the next boundary of the hart. -/
def State.arrayErrorTaken (s : State) (pc : Addr) (keep : List UnitOp) : State :=
  if s.hart.snap then s.triggerRollback 0x0B#8 (pc.setWidth 64)
  else
    { s with
      hart := { s.hart with vdirty := 0xFFFF#16, pdirty := 0xFFFFFFFE#32, vstartArm := false, vstartIdx := 0,
                            arrayError := some (pc.setWidth 64) }
      pkg := s.pkg.dropAsks .unit
      core := { s.core with units := keep, vrows := [], prows := [], badRows := [] } }

/-- An array data error detected by the instruction at pc, with its event. -/
def State.arrayErrorAt (s : State) (pc : Addr) (src : BitVec 4) (loc : Word) (keep : List UnitOp) : State :=
  (s.recordUe src loc).arrayErrorTaken pc keep

/-- An array data error detected by an operation of a unit: it is abandoned, with what stands behind it in the kneader
queue; the frame goes on with its other instructions (21:R361). -/
def State.arrayDataError (s : State) (u : UnitOp) (src : BitVec 4) (loc : Word) : State :=
  let before := s.core.units.takeWhile (fun v => isFrame v.instr != isFrame u.instr)
  s.arrayErrorAt u.pc src loc (before ++ (s.core.units.drop (before.length + 1)).filter (fun v => isFrame v.instr))

/-- A row that an operation reads does not match its parity. -/
def State.parityError (s : State) (u : UnitOp) (id : Nat) : State := s.arrayDataError u 3#4 (arrayLoc id 0 false)

/-- The instruction starts: it is counted for the check column. An armed check-column injection makes it mismatch, and so
does a fault of the lane logic in any slot; without a slot nothing is compared (21:R357, R360, R374). -/
def State.startUnit (s : State) (u : UnitOp) (runs : Bool) : State × UnitOp × Bool :=
  let first := !u.started
  let hit := runs && first && s.core.injArm && s.core.inj = 4#4
  (s.mapCore (fun c => { c with
    arrayCount := if first then c.arrayCount + 1#8 else c.arrayCount
    injArm := c.injArm && !hit
    columnFault := c.columnFault && !runs }), { u with started := true }, hit || (runs && s.core.columnFault))

/-- The column that the check column watches: the count is that of the instructions before this one (21:R360, log 56). -/
def Core.watched (c : Core) : Nat := (c.arrayCount - 1#8).toNat * 97 % 256

/-- A mismatch of the check column, found in the first subarray of the grant in a row that the operation writes (21:R361,
R373, log 56). -/
def State.columnError (s : State) (u : UnitOp) (row : Option Nat) : State :=
  s.arrayDataError u 4#4 (arrayLoc (rowId ((s.hart.grantWays.head?).getD 0) 0 (row.getD 0)) s.core.watched true)

/-! ### One slot (05:R98, R100, R112). -/

/-- Elements of [start, VL) in a slot. -/
def UnitOp.slotElems (u : UnitOp) (lanes slot : Nat) : List Nat :=
  let lo := max u.vstart (slot * lanes)
  natRange lo (min u.vl ((slot + 1) * lanes) - lo)

/-- Write the results of a slot; sources are read from the state before it. -/
def State.slotV (s : State) (u : UnitOp) (d : VReg) (dsew : Nat) (all : Bool) (es : List Nat)
    (f : Nat → FRes) (other : Nat → Nat) : State :=
  let r := es.foldl (fun (acc : State × Flags) e =>
    if s.active u.mode e then
      let v := f e
      (acc.1.vSet d dsew e v.bits, acc.2 ||| v.fl)
    else if all then (acc.1.vSet d dsew e (other e), acc.2)
    else acc) (s, 0#5)
  r.1.orVfsr r.2

/-- The effect of one slot of a guarded vector instruction, compare, vcvt or vloop (05:R100, R112, R125, R128). -/
def State.slotEffect (s : State) (u : UnitOp) (es : List Nat) : State :=
  match vView u.instr, cmpView u.instr, u.instr with
  | some (d, a, y), _, i =>
    let asew := match i with
      | .vclip .. => 2 * u.sew
      | _ => u.sew
    let x (e : Nat) : Nat := s.vGet a asew e
    let isMerge := match i with
      | .vmerge .. => true
      | _ => false
    s.slotV u d u.dstType.sew isMerge es
      (fun e => vElem u e (x e) (u.src s y (isShift i) e) (s.vGet d u.dstType.sew e)) x
  | none, some (p, a, y), _ =>
    let r := es.foldl (fun (acc : State × Flags) e =>
      if s.active u.mode e then
        let v := cmpElem u (s.vGet a u.sew e) (u.src s y false e)
        (acc.1.pSet p e v.1, acc.2 ||| v.2)
      else (acc.1.pSet p e false, acc.2)) (s, 0#5)
    r.1.orVfsr r.2
  | none, none, .vcvt d a t => s.slotV u d u.sew false es (s.cvtElem u a t) (fun _ => 0)
  | none, none, .vloop p a _ =>
    es.foldl (fun (t : State) e =>
      if s.pGet p e then
        let c := wrapInt ((s.vGet a u.sew e : Int) - 1) u.sew
        (t.vSet a u.sew e c).pSet p e (c != 0)
      else t) s
  | none, none, _ => s

/-- The rows a slot writes. -/
def UnitOp.rowWrites (u : UnitOp) (slot : Nat) : List Nat :=
  (u.vWrites.toList.flatMap (fun d => vRows d.1 d.2 slot)) ++ u.pWrites.toList.map (fun p => pRow p slot)

/-! ### The ends of instructions. -/

/-- vloop completes: the branch is decided by the bits of pd below VL (05:R128). -/
def State.endVloop (s : State) (u : UnitOp) (p : PReg) (off : BitVec 9) : State :=
  let s := s.dropUnit u
  if (List.range u.vl).any (fun e => s.pGet p e) then
    s.mapHart (fun h => { h with pc := (u.pc - (off.setWidth 48 <<< 2)) &&& ~~~3#48 })
  else s

/-- An instruction that has run its last slot leaves the queue. -/
def State.endKneader (s : State) (u : UnitOp) : State :=
  match u.instr with
  | .vloop p _ off => s.endVloop u p off
  | _ => s.dropUnit u

/-- A predicate instruction processes every element at once (05:R127). -/
def State.runPred (s : State) (u : UnitOp) : State :=
  match u.instr with
  | .pcount d a => s.unitResult u d (BitVec.ofNat 64 ((List.range u.vl).countP (fun e => s.pGet a e)))
  | i =>
    match predDst i with
    | some d =>
      ((s.predBits u).foldl (fun (acc : State × Nat) b => (acc.1.pSet d acc.2 b, acc.2 + 1)) (s, 0)).1.dropUnit u
    | none => s.dropUnit u

/-- The rows that a slot of an array instruction reads. A vcvt from or to e2m1 reads two elements for one, or one for two
(05:R122). -/
def UnitOp.slotReads (u : UnitOp) (slot : Nat) : List Nat :=
  let slots := match u.instr with
    | .vcvt _ _ t =>
      if t = ElemType.e2m1 ∧ u.et ≠ ElemType.e2m1 then [slot / 2]
      else if u.et = ElemType.e2m1 ∧ t ≠ ElemType.e2m1 then [2 * slot, 2 * slot + 1]
      else [slot]
    | _ => [slot]
  (u.vReads.flatMap (fun k => slots.flatMap (vRows k.1 k.2))) ++ u.pReads.map (fun p => pRow p slot)

/-- A predicate instruction: whole (05:R127). -/
def State.kneadPred (s : State) (u : UnitOp) : State :=
  match s.badRow (u.pReads.flatMap (fun p => predRows p s.hart.lanes u.vl)) with
  | some id => s.parityError u id
  | none =>
    (s.runPred u).noteRows (List.range u.vl) (((predDst u.instr).map (fun d => predRows d s.hart.lanes u.vl)).getD [])

/-- One step of the kneader on an operation: one slot, or a predicate instruction whole. The first slot counts
the instruction for the check column; a mismatch of its parity or check column is an array data error. -/
def State.kneadOne (s : State) (u : UnitOp) : State :=
  let r := s.startUnit u (if isPred u.instr then 0 < u.vl else u.vstart < u.vl)
  let s := r.1
  let u := r.2.1
  let lanes := s.hart.lanes
  let slot := u.vstart / lanes
  if r.2.2 then s.columnError u (u.rowWrites slot).head?
  else if isPred u.instr then s.kneadPred u
  else if u.vl ≤ u.vstart then s.endKneader u
  else match s.badRow (u.slotReads slot) with
  | some id => s.parityError u id
  | none =>
    let es := u.slotElems lanes slot
    let s := (s.slotEffect u es).noteRows es (u.rowWrites slot)
    let u := { u with vstart := (slot + 1) * lanes }
    if u.vl ≤ u.vstart then s.endKneader u else s.setUnit u

end Sys2Proof.Machine
end

