-- ==== Sys2Proof/Machine/RodTree.lean ====
section
/-! DEFINITION. Machine/RodTree.lean: reductions, scans, the ordered sum and shuffles of opcode 0x2B, from issue to
completion (06:R129 to R138). -/

namespace Sys2Proof.Machine

/-! ### Issue (06:R131, R132). -/

/-- Issue a rod-tree instruction: types, even registers, start index 0 except for vredosum; the general registers
are sampled as g(gs) and, for vinsr, g(gs + 1). -/
def State.issueRod (s : State) (i : Instr) (types : ElemType → Bool) (regs : List VReg) (d : Option VReg)
    (gs gs1 : Word) (rounds anyStart : Bool) : Result :=
  let et := modeEt s.hart.mode
  if s.arrayReady && types et && regs.all (fun k => evenAt k et.sew) && (anyStart || s.hart.start = 0) then
    s.issue i s.hart.start 0 gs1 0 gs rounds ((d.map (fun k => dirtyOf k et.sew)).getD 0) 0
  else .next (s.illegalInstr i)

/-- ET 0 to 7 and 11 to 14. -/
def etSum (t : ElemType) : Bool := t.isInt || etFloat64 t
/-- ET 0 to 9 and 11 to 14. -/
def etMinMax (t : ElemType) : Bool := t.isInt || etFloat t

/-- A reduction into g (06:R133): a float sum rounds. -/
def State.issueReduction (s : State) (i : Instr) (types : ElemType → Bool) (g : GReg) (a : VReg) (sum ordered : Bool) :
    Result :=
  s.issueRod i types [a] none (s.g g) 0 (sum && !(modeEt s.hart.mode).isInt) ordered

/-- vredsum: the fixed tree's sum (06:R133). -/
def execVredsum (g : GReg) (a : VReg) (s : State) : Result := s.issueReduction (.vredsum g a) etSum g a true false

/-- vredosum: the sum in element order (06:R137). -/
def execVredosum (g : GReg) (a : VReg) (s : State) : Result := s.issueReduction (.vredosum g a) etSum g a true true

/-- vredmin (06:R133). -/
def execVredmin (g : GReg) (a : VReg) (s : State) : Result := s.issueReduction (.vredmin g a) etMinMax g a false false

/-- vredmax (06:R133). -/
def execVredmax (g : GReg) (a : VReg) (s : State) : Result := s.issueReduction (.vredmax g a) etMinMax g a false false

/-- vredbit.and (06:R133). -/
def execVredbitAnd (g : GReg) (a : VReg) (s : State) : Result :=
  s.issueReduction (.vredbitAnd g a) etAny g a false false

/-- vredbit.or (06:R133). -/
def execVredbitOr (g : GReg) (a : VReg) (s : State) : Result :=
  s.issueReduction (.vredbitOr g a) etAny g a false false

/-- vredbit.xor (06:R133). -/
def execVredbitXor (g : GReg) (a : VReg) (s : State) : Result :=
  s.issueReduction (.vredbitXor g a) etAny g a false false

/-- vscan: inclusive prefix sums (06:R136). -/
def execVscan (d a : VReg) (s : State) : Result :=
  s.issueRod (.vscan d a) etSum [d, a] (some d) 0 0 (!(modeEt s.hart.mode).isInt) false

/-- vslideup (06:R138). -/
def execVslideup (d a : VReg) (y : VSrc) (s : State) : Result :=
  s.issueRod (.vslideup d a y) etAny [d, a] (some d) (s.scalOf y) 0 false false

/-- vslidedn (06:R138). -/
def execVslidedn (d a : VReg) (y : VSrc) (s : State) : Result :=
  s.issueRod (.vslidedn d a y) etAny [d, a] (some d) (s.scalOf y) 0 false false

/-- vslide1up (06:R138). -/
def execVslide1up (d a : VReg) (g : GReg) (s : State) : Result :=
  s.issueRod (.vslide1up d a g) etAny [d, a] (some d) (s.g g) 0 false false

/-- vslide1dn (06:R138). -/
def execVslide1dn (d a : VReg) (g : GReg) (s : State) : Result :=
  s.issueRod (.vslide1dn d a g) etAny [d, a] (some d) (s.g g) 0 false false

/-- vpick (06:R138). -/
def execVpick (d a b : VReg) (s : State) : Result :=
  s.issueRod (.vpick d a b) etAny [d, a, b] (some d) 0 0 false false

/-- vsqueeze (06:R138). -/
def execVsqueeze (d a : VReg) (g : GReg) (s : State) : Result :=
  s.issueRod (.vsqueeze d a g) etAny [d, a] (some d) (s.g g) 0 false false

/-- vbcast (06:R138). -/
def execVbcast (d a : VReg) (y : VSrc) (s : State) : Result :=
  s.issueRod (.vbcast d a y) etAny [d, a] (some d) (s.scalOf y) 0 false false

/-- vextr (06:R138). -/
def execVextr (g : GReg) (a : VReg) (s : State) : Result :=
  s.issueRod (.vextr g a) etAny [a] none (s.g g) 0 false false

/-- vinsr: g(N) is the value, g(N + 1) the index (06:R131, R138). -/
def execVinsr (d : VReg) (g : GReg) (s : State) : Result :=
  s.issueRod (.vinsr d g) etAny [d] (some d) (s.g g) (s.g (g + 1#5)) false false

/-! ### The index tree (06:R129). -/

/-- One level of the tree: neighbours are combined, a lone one passes unchanged. -/
def pairUp {α : Type} (f : Nat → α → α → α × Flags) : Nat → List (Option α) → List (Option α) × Flags
  | _, [] => ([], 0#5)
  | _, [x] => ([x], 0#5)
  | i, x :: y :: rest =>
    let r := pairUp f (i + 1) rest
    match x, y with
    | some a, some b => let c := f i a b; (some c.1 :: r.1, c.2 ||| r.2)
    | some a, none => (some a :: r.1, r.2)
    | none, b => (b :: r.1, r.2)

/-- Every level from the leaves up, and the flags of all nodes; f gets the level and the node's index. -/
def treeLevels {α : Type} (f : Nat → Nat → α → α → α × Flags) : Nat → Nat → List (Option α) →
    List (List (Option α)) × Flags
  | 0, _, xs => ([xs], 0#5)
  | fuel + 1, j, xs =>
    if xs.length ≤ 1 then ([xs], 0#5)
    else
      let l := pairUp (f j) 0 xs
      let r := treeLevels f fuel (j + 1) l.1
      (xs :: r.1, l.2 ||| r.2)

/-- The root and the flags of all nodes. -/
def treeRoot {α : Type} (f : Nat → Nat → α → α → α × Flags) (leaves : List (Option α)) : Option α × Flags :=
  let r := treeLevels f (leaves.length.log2 + 2) 1 leaves
  (((r.1.getLast?).bind (·.head?)).join, r.2)

/-- The blocks of the prefix of m elements, from bit k down: levels and indices in ascending order (06:R136). -/
def prefixBlocks : Nat → Nat → Nat → List (Nat × Nat)
  | 0, m, done => if m % 2 = 1 then [(0, done)] else []
  | k + 1, m, done =>
    if m / 2 ^ (k + 1) % 2 = 1 then (k + 1, done / 2 ^ (k + 1)) :: prefixBlocks k m (done + 2 ^ (k + 1))
    else prefixBlocks k m done

/-! ### Accumulation types (06:R133). -/

/-- A of a float sum: fp32 for bf16 and fp16, else the type itself. -/
def sumFmt (et : ElemType) : Fmt :=
  match et with
  | .bf16 => .fp32
  | .fp16 => .fp32
  | _ => et.fmt.getD .fp32

/-- A pattern of ET widened exactly to A. -/
def widen (et : ElemType) (b : Nat) : Nat :=
  let f := et.fmt.getD .fp32
  let a := sumFmt et
  if f = a then b else (a.round { rm := .rne, sat := false, seed := 0, count := 0 } 0 (f.decode b).exact).bits

/-- NV for a signalling NaN that a widening meets (03:R75). -/
def widenFlags (et : ElemType) (b : Nat) : Flags :=
  let f := et.fmt.getD .fp32
  if f = sumFmt et then 0#5 else (f.decode b).snan

/-- round(x + y, RM) in a format. -/
def addIn (f : Fmt) (r : Rnd) (idx x y : Nat) : Nat × Flags :=
  let v := f.round r idx (exactAdd r.rm (f.decode x) (f.decode y))
  (v.bits, v.fl)

/-- Bit combination of a vredbit. -/
def bitComb (i : Instr) (x y : Nat) : Nat :=
  match i with
  | .vredbitAnd .. => x &&& y
  | .vredbitOr .. => x ||| y
  | _ => x ^^^ y

/-- Minimum or maximum of patterns at a type (06:R133). -/
def minMaxComb (et : ElemType) (isMax : Bool) (x y : Nat) : Nat × Flags :=
  match et.fmt with
  | some f => let r := f.minMax isMax x y; (r.bits, r.fl)
  | none =>
    let a := readInt x et.sew et.signed
    let b := readInt y et.sew et.signed
    (if isMax then (if b ≤ a then x else y) else (if a ≤ b then x else y), 0#5)

/-- Pattern extended to a general register as vextr and integer minima write it (06:R133, R138). -/
def extendElem (et : ElemType) (b : Nat) : Word :=
  if et.isInt && et.signed then BitVec.ofInt 64 (readInt b et.sew true) else BitVec.ofNat 64 (b % 2 ^ et.sew)

/-! ### Completion. -/

/-- Element e of va when it is active. -/
def State.leaf (s : State) (u : UnitOp) (a : VReg) (e : Nat) : Option Nat :=
  if s.active u.mode e then some (s.vGet a u.sew e) else none

/-- The leaves of the tree. -/
def State.leaves (s : State) (u : UnitOp) (a : VReg) : List (Option Nat) := (List.range u.vl).map (s.leaf u a)

/-- The result word and flags of a reduction other than vredosum (06:R133). -/
def State.reduction (s : State) (u : UnitOp) (a : VReg) : Word × Flags :=
  let et := u.et
  let xs := s.leaves u a
  let comb2 (f : Nat → Nat → Nat × Flags) (iv : Nat) : Nat × Flags :=
    let r := treeRoot (fun _ _ x y => f x y) xs
    match r.1 with
    | none => (iv, r.2)
    | some v => let c := f iv v; (c.1, r.2 ||| c.2)
  let iv := u.gb.toNat % 2 ^ et.sew
  match u.instr with
  | .vredsum .. =>
    if et.isInt then
      let sum : Int := xs.foldl (fun n x => n + ((x.map (fun b => readInt b et.sew et.signed)).getD 0)) 0
      let i : Int := readInt u.gb.toNat 64 et.signed
      (BitVec.ofNat 64 (reduceInt (i + sum) 64 et.signed u.sat), 0#5)
    else
      let f := sumFmt et
      let fl := xs.foldl (fun n x => n ||| ((x.map (widenFlags et)).getD 0#5)) 0#5
      let r := treeRoot (fun j i x y => addIn f u.rnd (j * 2 ^ 20 + i) x y) (xs.map (·.map (widen et)))
      let i := u.gb.toNat % 2 ^ f.width
      match r.1 with
      | none => (BitVec.ofNat 64 i, fl ||| r.2)
      | some v => let c := addIn f u.rnd (31 * 2 ^ 20) i v; (BitVec.ofNat 64 c.1, fl ||| r.2 ||| c.2)
  | .vredmin .. => let r := comb2 (minMaxComb et false) iv; (extendElem et r.1, r.2)
  | .vredmax .. => let r := comb2 (minMaxComb et true) iv; (extendElem et r.1, r.2)
  | i => let r := comb2 (fun x y => (bitComb i x y, 0#5)) iv; (BitVec.ofNat 64 r.1, 0#5)

/-- vscan: the value of active element e from the tree's levels (06:R136). -/
def scanElem {α : Type} (levels : List (List (Option α))) (fold : α → α → α × Flags) (e : Nat) : Option α × Flags :=
  (prefixBlocks (e + 1).log2 (e + 1) 0).foldl (fun (acc : Option α × Flags) b =>
    match acc.1, ((levels[b.1]?).bind (·[b.2]?)).join with
    | none, v => (v, acc.2)
    | some x, none => (some x, acc.2)
    | some x, some v => let r := fold x v; (some r.1, acc.2 ||| r.2)) (none, 0#5)

/-- vscan. -/
def State.scan (s : State) (u : UnitOp) (d a : VReg) : State :=
  let et := u.et
  let xs := s.leaves u a
  let depth := xs.length.log2 + 2
  let act := (List.range u.vl).filter (s.active u.mode)
  if et.isInt then
    let t := treeLevels (fun _ _ (x y : Int) => (x + y, 0#5)) depth 1 (xs.map (·.map (fun b => readInt b et.sew et.signed)))
    act.foldl (fun st e =>
      st.vSet d et.sew e (reduceInt (((scanElem t.1 (fun x y => (x + y, 0#5)) e).1).getD 0) et.sew et.signed u.sat)) s
  else
    let f := et.fmt.getD .fp32
    let t := treeLevels (fun j i x y => addIn f u.rnd (j * 2 ^ 20 + i) x y) depth 1 xs
    let r := act.foldl (fun (acc : State × Flags) e =>
      let v := scanElem t.1 (addIn f u.rnd (2 ^ 25 + e)) e
      (acc.1.vSet d et.sew e (v.1.getD 0), acc.2 ||| v.2)) (s, t.2)
    r.1.orVfsr r.2

/-- Offset or index of a slide or vbcast (06:R131). -/
def UnitOp.offset (u : UnitOp) (y : VSrc) : Nat :=
  match y with
  | .imm i => i.toNat
  | _ => u.gb.toNat

/-- A source element of a shuffle; an index outside [0, VL) reads 0 (06:R138). -/
def State.pickElem (s : State) (u : UnitOp) (a : VReg) (i : Nat) : Nat := if i < u.vl then s.vGet a u.sew i else 0

/-- Write f e into the active elements that w selects, all sources read first. -/
def State.shuffle (s : State) (u : UnitOp) (d : VReg) (w : Nat → Bool) (f : Nat → Nat) : State :=
  (List.range u.vl).foldl (fun t e => if s.active u.mode e && w e then t.vSet d u.sew e (f e) else t) s

/-- A shuffle (06:R138); the general registers it writes are written here too. -/
def State.runShuffle (s : State) (u : UnitOp) : State :=
  let g := u.gb.toNat % 2 ^ u.sew
  match u.instr with
  | .vslideup d a y =>
    let k := u.offset y
    (s.shuffle u d (fun e => k ≤ e) (fun e => s.vGet a u.sew (e - k))).dropUnit u
  | .vslidedn d a y => let k := u.offset y; (s.shuffle u d (fun _ => true) (fun e => s.pickElem u a (e + k))).dropUnit u
  | .vslide1up d a _ => (s.shuffle u d (fun _ => true) (fun e => if e = 0 then g else s.vGet a u.sew (e - 1))).dropUnit u
  | .vslide1dn d a _ =>
    (s.shuffle u d (fun _ => true) (fun e => if e + 1 = u.vl then g else s.vGet a u.sew (e + 1))).dropUnit u
  | .vpick d a b => (s.shuffle u d (fun _ => true) (fun e => s.pickElem u a (s.vGet b u.sew e))).dropUnit u
  | .vbcast d a y => let k := u.offset y; (s.shuffle u d (fun _ => true) (fun _ => s.pickElem u a k)).dropUnit u
  | .vsqueeze d a r =>
    let act := (List.range u.vl).filter (s.active u.mode)
    let t := (act.foldl (fun (acc : State × Nat) e => (acc.1.vSet d u.sew acc.2 (s.vGet a u.sew e), acc.2 + 1)) (s, 0)).1
    t.unitResult u r (BitVec.ofNat 64 act.length)
  | .vextr r a => s.unitResult u r (if u.gb.toNat < u.vl then extendElem u.et (s.vGet a u.sew u.gb.toNat) else 0)
  | .vinsr d _ => (if u.gd1.toNat < u.vl then s.vSet d u.sew u.gd1.toNat g else s).dropUnit u
  | _ => s.dropUnit u

/-- The running sum a vredosum starts from, in the accumulation type (06:R133, R137). -/
def State.osumStart (s : State) (u : UnitOp) : Nat :=
  let v := if u.vstart = 0 then u.gb.toNat else s.hart.rds.toNat
  if u.et.isInt then v else v % 2 ^ (sumFmt u.et).width

/-- One element of a vredosum: the new sum and its flags (06:R137). -/
def State.osumAdd (s : State) (u : UnitOp) (a : VReg) (acc : Nat) : Nat × Flags :=
  match s.leaf u a u.vstart with
  | none => (acc, 0#5)
  | some b =>
    if u.et.isInt then
      (reduceInt (readInt acc 64 u.et.signed + readInt b u.sew u.et.signed) 64 u.et.signed u.sat, 0#5)
    else
      let r := addIn (sumFmt u.et) u.rnd u.vstart acc (widen u.et b)
      (r.1, r.2 ||| widenFlags u.et b)

/-- A step of vredosum: the next element, or after the last the result; between the two it may stop with VSTART = VL and the final
sum in RDS (06:R137). -/
def State.osumStep (s : State) (u : UnitOp) (g : GReg) (a : VReg) : State :=
  let acc := s.osumStart u
  if u.vl ≤ u.vstart then s.unitResult u g (BitVec.ofNat 64 acc)
  else
    let r := s.osumAdd u a acc
    let s := (s.orVfsr r.2).mapHart (fun h => { h with rds := BitVec.ofNat 64 r.1 })
    s.setUnit { u with vstart := u.vstart + 1 }

/-- An operation of the rod tree has elements to compare (21:R360). -/
def UnitOp.rodRuns (u : UnitOp) : Bool :=
  match u.instr with
  | .vredosum .. => u.vstart < u.vl
  | _ => 0 < u.vl

/-- What the rod tree does with an operation: a vredosum moves on by one element, every other completes (06:R132, R137). -/
def State.rodEffect (s : State) (u : UnitOp) : State :=
  match u.instr with
  | .vredosum g a => s.osumStep u g a
  | .vscan d a => (s.scan u d a).dropUnit u
  | .vredsum g a => let v := s.reduction u a; (s.orVfsr v.2).unitResult u g v.1
  | .vredmin g a => let v := s.reduction u a; (s.orVfsr v.2).unitResult u g v.1
  | .vredmax g a => let v := s.reduction u a; (s.orVfsr v.2).unitResult u g v.1
  | .vredbitAnd g a => let v := s.reduction u a; (s.orVfsr v.2).unitResult u g v.1
  | .vredbitOr g a => let v := s.reduction u a; (s.orVfsr v.2).unitResult u g v.1
  | .vredbitXor g a => let v := s.reduction u a; (s.orVfsr v.2).unitResult u g v.1
  | _ => s.runShuffle u

/-- The elements whose rows an operation writes: one for vinsr, the slots below VL for the others. -/
def UnitOp.rodElems (u : UnitOp) : List Nat :=
  match u.instr with
  | .vinsr .. => if u.gd1.toNat < u.vl then [u.gd1.toNat] else []
  | _ => List.range u.vl

/-- The rod tree runs an operation. Parity and check column mismatches are array data errors (21:R360, R361). -/
def State.rodOne (s : State) (u : UnitOp) : State :=
  let r := s.startUnit u u.rodRuns
  let s := r.1
  let u := r.2.1
  let lanes := s.hart.lanes
  let read := if !u.rodRuns then [] else (u.vReads.flatMap (fun k => slotRows k.1 k.2 lanes 0 u.vl)) ++ u.pReads.flatMap (fun p => predRows p lanes u.vl)
  let es := u.rodElems
  let written := u.vWrites.toList.flatMap (fun d => es.head?.toList.flatMap (fun e => slotRows d.1 d.2 lanes e es.length))
  if r.2.2 then s.columnError u written.head?
  else match s.badRow read with
  | some id => s.parityError u id
  | none => (s.rodEffect u).noteRows es written

/-- ROD_TREE_COMPLETE: the operation that the kneader queue has for the rod tree completes (06:R132, R134). -/
def execRodTreeComplete (s : State) : Result :=
  match s.turnOf false with
  | some u => if isRodTree u.instr && !s.hart.trigger then .next (s.rodOne u) else .next s
  | none => .next s

end Sys2Proof.Machine
end

