-- ==== Sys2Proof/Machine/VecMem.lean ====
section
/-! DEFINITION. Machine/VecMem.lean: vector memory instructions, from issue to their elements, and the event that
steps the kneader queue (10:R223 to R230, 05:R98). -/

namespace Sys2Proof.Machine

/-! ### Issue (10:R223, R224). -/

/-- Issue a vector memory instruction: ARRAY ways, even registers, then the alignment of base and stride. -/
def State.issueVecMem (s : State) (i : Instr) (regs : List VReg) (base : Word) (stride : Option Word)
    (dst : Option VReg) : Result :=
  let sew := (modeEt s.hart.mode).sew
  let n := sew / 8
  if !(s.arrayReady && regs.all (fun k => evenAt k sew)) then .next (s.illegalInstr i)
  else if base.toNat % n != 0 then .next (s.trap 0x02#8 base)
  else if (stride.map (fun v => v.toNat % n != 0)).getD false then .next (s.trap 0x02#8 (stride.getD 0))
  else s.issue i s.hart.start 0 0 base (stride.getD 0) false ((dst.map (fun k => dirtyOf k sew)).getD 0) 0

/-- vld (10:R226). -/
def execVld (x : VReg) (a : GReg) (s : State) : Result := s.issueVecMem (.vld x a) [x] (s.g a) none (some x)

/-- vlds (10:R226). -/
def execVlds (x : VReg) (a b : GReg) (s : State) : Result :=
  s.issueVecMem (.vlds x a b) [x] (s.g a) (some (s.g b)) (some x)

/-- vldx (10:R226). -/
def execVldx (x : VReg) (a : GReg) (b : VReg) (s : State) : Result :=
  s.issueVecMem (.vldx x a b) [x, b] (s.g a) none (some x)

/-- vldff (10:R228). -/
def execVldff (d : GReg) (x : VReg) (a : GReg) (s : State) : Result :=
  s.issueVecMem (.vldff d x a) [x] (s.g a) none (some x)

/-- vst (10:R226). -/
def execVst (x : VReg) (a : GReg) (s : State) : Result := s.issueVecMem (.vst x a) [x] (s.g a) none none

/-- vsts (10:R226). -/
def execVsts (x : VReg) (a b : GReg) (s : State) : Result :=
  s.issueVecMem (.vsts x a b) [x] (s.g a) (some (s.g b)) none

/-- vstx (10:R226). -/
def execVstx (x : VReg) (a : GReg) (b : VReg) (s : State) : Result :=
  s.issueVecMem (.vstx x a b) [x, b] (s.g a) none none

/-! ### Elements (10:R225, R226). -/

/-- addr(e), modulo 2^64 (10:R225). -/
def State.elemAddr (s : State) (u : UnitOp) (e : Nat) : Word :=
  let n := u.sew / 8
  match u.instr with
  | .vlds .. => u.ga + BitVec.ofNat 64 e * u.gb
  | .vsts .. => u.ga + BitVec.ofNat 64 e * u.gb
  | .vldx _ _ b => u.ga + BitVec.ofNat 64 (s.vGet b u.sew e * n)
  | .vstx _ _ b => u.ga + BitVec.ofNat 64 (s.vGet b u.sew e * n)
  | _ => u.ga + BitVec.ofNat 64 (e * n)

/-- The access of element e (10:R226). -/
def State.vecElem (s : State) (u : UnitOp) (e : Nat) : Res Unit :=
  match vecMemReg u.instr with
  | some (x, true) => s.unitWrite (s.elemAddr u e) (u.sew / 8) (s.vGet x u.sew e) u.hyp
  | some (x, false) =>
    (s.unitRead (s.elemAddr u e) (u.sew / 8) u.hyp (.part 0)).andThen (fun v s => .ok () (s.vSet x u.sew e v))
  | none => .ok () s

/-- Elements in ascending order until one does not complete: its index and how it ended. -/
def State.vecLoop (u : UnitOp) : List Nat → State → Nat × Res Unit
  | [], s => (u.vl, .ok () s)
  | e :: es, s =>
    if s.active u.mode e then
      match s.vecElem u e with
      | .ok _ s' => State.vecLoop u es s'
      | r => (e, r)
    else State.vecLoop u es s

/-- The element of a probing load: a failing check leaves only what its translation did (10:R228, 16:R300). -/
def State.probeElem (s : State) (u : UnitOp) (x : VReg) (e : Nat) : Res Unit :=
  match s.locate (s.elemAddr u e) (u.sew / 8) .read true with
  | .ok t s1 =>
    match s1.forward t (u.sew / 8) u.hyp with
    | .memory =>
      match s1.readTarget t (s.elemAddr u e) (u.sew / 8) u.hyp (.part 0) with
      | .ok v s2 => .ok () (s2.vSet x u.sew e v)
      | .trap c v k _ => .trap c v k (s1.mapPkg (·.dropAsks .unit))
      | .fault f s2 => .fault f s2
      | .wait s2 => .wait s2
    | _ => .wait s
  | .trap c v k _ => .trap c v k s
  | .fault f _ => .fault f s
  | .wait s => .wait s

/-- Elements of a probing load. -/
def State.probeLoop (u : UnitOp) (x : VReg) : List Nat → State → Nat × Res Unit
  | [], s => (u.vl, .ok () s)
  | e :: es, s =>
    if s.active u.mode e then
      match s.probeElem u x e with
      | .ok _ s' => State.probeLoop u x es s'
      | r => (e, r)
    else State.probeLoop u x es s

/-! ### How a unit's memory instruction stops (10:R227, 07:R158, R163). -/

/-- A trap of an instruction of a unit: VSTART = e, TRAPPC at the instruction, which does not count as retired. -/
def State.unitTrap (s : State) (u : UnitOp) (e : Nat) (cause : BitVec 8) (val : Word) : State :=
  ((((s.dropUnit u).armVstart e).mapHart (fun h => { h with instret := h.instret - 1#64 })).mapPkg (·.dropAsks .unit)).raise
    cause val u.pc

/-- A unit's instruction parks on a page fault at a point. -/
def State.parkUnit (s : State) (u : UnitOp) (f : PageFault) (src : FaultSource) : State :=
  let r := s.sendFault f src u.hyp u.pc
  (r.1.setUnit { u with parked := some (r.2, f.va) }).mapPkg (·.dropAsks .unit)

/-- The report of vldff (10:R228). -/
def ffReport (vl f check : Nat) : Word :=
  BitVec.ofNat 64 ((if f < vl then 2 ^ 63 else 0) + check * 2 ^ 24 + f)

/-- The elements of a slot below one were loaded: their rows are written. -/
def State.noteLoaded (s : State) (u : UnitOp) (x : VReg) (stop : Nat) : State :=
  let slot := u.vstart / s.hart.lanes
  s.noteRows (natRange u.vstart (min stop ((slot + 1) * s.hart.lanes) - u.vstart)) (vRows x u.sew slot)

/-- One slot of vldff. -/
def State.probeSlot (s : State) (u : UnitOp) (d : GReg) (x : VReg) : State :=
  let lanes := s.hart.lanes
  let slot := u.vstart / lanes
  if u.vl ≤ u.vstart then s.unitResult u d (ffReport u.vl u.vl 0)
  else match State.probeLoop u x (u.slotElems lanes slot) s with
  | (e, .ok _ t) =>
    let t := t.noteLoaded u x e
    let u := { u with vstart := (slot + 1) * lanes, busy := false }
    if u.vl ≤ u.vstart then t.unitResult u d (ffReport u.vl u.vl 0) else t.setUnit u
  | (e, .wait t) => (t.noteLoaded u x e).setUnit { u with vstart := e, busy := true }
  | (e, .fault _ t) => (t.noteLoaded u x e).unitResult u d (ffReport u.vl e 5)
  | (e, .trap _ _ k t) => (t.noteLoaded u x e).unitResult u d (ffReport u.vl e k)

/-- One slot of any other vector memory instruction: it ends at the slot, at an element that must wait, parked at an
element, or trapped at one (10:R226, R227, R230). -/
def State.vecSlot (s : State) (u : UnitOp) (x : VReg) (store : Bool) : State :=
  let lanes := s.hart.lanes
  let slot := u.vstart / lanes
  let note (t : State) (e : Nat) : State := if store then t else t.noteLoaded u x e
  match State.vecLoop u (u.slotElems lanes slot) s with
  | (e, .ok _ t) =>
    let t := note t e
    let u := { u with vstart := (slot + 1) * lanes, busy := false }
    if u.vl ≤ u.vstart then t.dropUnit u else t.setUnit u
  | (e, .wait t) => (note t e).setUnit { u with vstart := e, busy := true }
  | (e, .fault f t) => (note t e).parkUnit { u with vstart := e, busy := false } f .vector
  | (e, .trap c v _ t) => (note t e).unitTrap u e c v

/-- Check active elements of a vector store in order, under tag h, with what their checks do: each with the store it is, none when
one does not pass now (10:R224). -/
def State.checkElems (u : UnitOp) (x : VReg) (h : BitVec 12) : List Nat → State → Option (State × List (Nat × QStore))
  | [], s => some (s, [])
  | e :: es, s =>
    if s.active u.mode e then
      match s.writeChecks (s.elemAddr u e) (u.sew / 8) .write false h true with
      | .ok t s' =>
        (State.checkElems u x h es s').map (fun r =>
          (r.1, (e, { target := t, size := u.sew / 8, value := BitVec.ofNat 64 (s.vGet x u.sew e), hyp := u.hyp, atomic := none,
                      pc := u.pc }) :: r.2))
      | _ => none
    else State.checkElems u x h es s

/-- The rows that the slots of an operation from element e on read. -/
def UnitOp.rowsFrom (u : UnitOp) (lanes e : Nat) : List Nat :=
  (natRange (e / lanes) ((u.vl + lanes - 1) / lanes - e / lanes)).flatMap u.slotReads

/-- Every element that a vector store has left is checked, once the stores before it have been performed: the hart then passes it
(10:R215, R224, 09:R196, log 13). None where one does not pass: the elements below it are performed first (10:R227). -/
def State.checkAhead (s : State) (u : UnitOp) (x : VReg) : Option (State × List (Nat × QStore)) :=
  match s.storeTag u.hyp with
  | none => none
  | some h =>
    if s.core.storeQ.isEmpty && (s.badRow (u.rowsFrom s.hart.lanes u.vstart)).isNone then
      State.checkElems u x h (natRange u.vstart (u.vl - u.vstart)) s
    else none

/-- Perform checked stores of elements below n in order: what is left of them, and whether the first of it must wait. -/
def State.storeLoop (n : Nat) : List (Nat × QStore) → State → State × List (Nat × QStore) × Bool
  | [], s => (s, [], false)
  | q :: l, s =>
    if n ≤ q.1 then (s, q :: l, false)
    else match s.performTagged q.2.target q.2.size q.2.value.toNat q.2.hyp with
      | some s => State.storeLoop n l s
      | none => (s, q :: l, true)

/-- One slot of a vector store whose elements have been checked (10:R226). -/
def State.storeSlot (s : State) (u : UnitOp) (l : List (Nat × QStore)) : State :=
  let next := (u.vstart / s.hart.lanes + 1) * s.hart.lanes
  match State.storeLoop next l s with
  | (t, rest, true) => t.setUnit { u with vstart := ((rest.head?.map (·.1)).getD u.vstart), busy := true, checked := some rest }
  | (t, rest, false) =>
    if u.vl ≤ next then t.dropUnit u else t.setUnit { u with vstart := next, busy := false, checked := some rest }

/-- One slot of a vector memory instruction other than a probing load. -/
def State.moveSlot (s : State) (u : UnitOp) (x : VReg) (store : Bool) : State :=
  if u.vl ≤ u.vstart then s.dropUnit u
  else match u.checked, (if store then s.checkAhead u x else none) with
  | some l, _ => s.storeSlot u l
  | none, some (t, l) => t.storeSlot u l
  | none, none => s.vecSlot u x store

/-- A step of a vector memory instruction: nothing while it is parked; an unresolved fault traps (10:R227), but not before an
orphan trap that is due (17:R335, R338); a parity mismatch among the rows that the slot reads is an array data error (21:R360). -/
def State.vecOne (s : State) (u : UnitOp) : State :=
  let rows := if u.vl ≤ u.vstart || u.checked.isSome then [] else u.slotReads (u.vstart / s.hart.lanes)
  match u.parked, s.badRow rows with
  | some (_, va), _ =>
    if u.unresolved && s.hart.orphan.isNone then s.unitTrap u u.vstart 0x0E#8 (va.setWidth 64) else s
  | none, some id => s.parityError u id
  | none, none =>
    match u.instr, vecMemReg u.instr with
    | .vldff d x _, _ => s.probeSlot u d x
    | _, some (x, store) => s.moveSlot u x store
    | _, none => s

/-- KNEADER_SLOT: the operation that the kneader queue has for the kneader or for vector memory completes a slot (05:R98,
R102, 10:R230). -/
def execKneaderSlot (s : State) : Result :=
  match s.turnOf false with
  | some u =>
    if s.hart.trigger then .next s
    else if isVecMem u.instr then .next (s.vecOne u)
    else if isKneader u.instr then .next (s.kneadOne u)
    else .next s
  | none => .next s

end Sys2Proof.Machine
end

