-- ==== Sys2Proof/Machine/Frame.lean ====
section
/-! DEFINITION. Machine/Frame.lean: cells, channels, windows and the frame instructions of opcode 0x2E, from issue to
their k-steps (07:R140 to R164, 03:R78, R79). -/

namespace Sys2Proof.Machine

/-! ### Cells (07:R141). -/

/-- Cells of the frame. -/
def cellCount : Nat := 4096

def poisonCell : BitVec 64 := 0x8000000000000000#64
def pinMax : BitVec 64 := 0x7FFFFFFFFFFFFFFF#64
def pinMin : BitVec 64 := 0x8000000000000001#64

/-- Add a contribution to a cell: FOV when it pins (07:R141). -/
def cellAdd (c : BitVec 64) (v : Int) : BitVec 64 × Flags :=
  if c = poisonCell ∨ c = pinMax ∨ c = pinMin then (c, 0#5)
  else
    let t := c.toInt + v
    if ((2 ^ 63 - 1 : Nat) : Int) ≤ t then (pinMax, Flags.fov)
    else if t ≤ -((2 ^ 63 - 1 : Nat) : Int) then (pinMin, Flags.fov)
    else (BitVec.ofInt 64 t, 0#5)

/-- Add an exact integer to the channels (03:R78). -/
def Chan.add (x : Chan) (p : Int) : Chan :=
  { a := BitVec.ofNat 8 (((x.a.toNat : Int) + p) % 255).toNat
    b := BitVec.ofNat 8 (((x.b.toNat : Int) + p) % 256).toNat
    c := BitVec.ofNat 9 (((x.c.toNat : Int) + p) % 257).toNat }

/-- The integer the channels represent (03:R79). -/
def Chan.value (x : Chan) : Int :=
  let v := (x.a.toNat * 8421376 + x.b.toNat * 16711425 + x.c.toNat * 8421120) % 16776960
  if 8388480 ≤ v then (v : Int) - 16776960 else v

/-- The window limit of a pair (03:R79). -/
def WinPair.limit : WinPair → Nat
  | .none => 511 | .ss => 511 | .su => 257 | .uu => 129

/-- A sparse map of the first n keys. -/
def tabulate {α : Type} [DecidableEq α] (d : α) (vs : List α) : Sparse α :=
  (vs.mapIdx (fun k v => (k, v))).filter (fun e => e.2 ≠ d)

/-- The values of the cells and channels in order. -/
def Core.cellList (c : Core) : List (BitVec 64) := (List.range cellCount).map (sparseGet 0#64 c.cells)
def Core.chanList (c : Core) : List Chan := (List.range cellCount).map (sparseGet Chan.zero c.chans)

/-- OR of flags. -/
def orFlags (fs : List Flags) : Flags := fs.foldl (fun a b => a ||| b) 0#5

/-- Replace the cells by what f makes of each with its number, ORing the flags into FSR. -/
def State.mapCells (s : State) (f : Nat → BitVec 64 → BitVec 64 × Flags) : State :=
  let r := s.core.cellList.mapIdx f
  ({ s with core := { s.core with cells := tabulate 0#64 (r.map (fun (x : BitVec 64 × Flags) => x.1)) } }).orFsr (orFlags (r.map (fun (x : BitVec 64 × Flags) => x.2)))

/-- Conclusion of every cell (07:R147). -/
def State.conclude (s : State) : State :=
  if s.core.winPair = .none ∧ s.core.winCount = 0 then s
  else
    let ch := s.core.chans
    (s.mapCells (fun n c => cellAdd c (sparseGet Chan.zero ch n).value)).mapCore
      (fun c => { c with chans := [], winCount := 0, winPair := .none })

/-! ### Shapes and types (07:R140, R145). -/

/-- R and C of a shape. -/
def shapeOf (sh : BitVec 2) : Nat × Nat :=
  match sh.toNat with
  | 0 => (64, 64)
  | 1 => (128, 32)
  | _ => (32, 128)

/-- P. -/
def shapeP (sh : BitVec 2) : Nat := max (shapeOf sh).1 (shapeOf sh).2

/-- Types of A and B, none when the matrix instruction does not accept ET and XB (07:R145). -/
def matrixTypes (et : ElemType) (xb : Bool) : Option (ElemType × ElemType) :=
  match et, xb with
  | .i8, false => some (.i8, .i8)
  | .i8, true => some (.i8, .u8)
  | .u8, false => some (.u8, .u8)
  | .u8, true => some (.u8, .i8)
  | .e4m3, false => some (.e4m3, .e4m3)
  | .e4m3, true => some (.e4m3, .e5m2)
  | .e5m2, false => some (.e5m2, .e5m2)
  | .e5m2, true => some (.e5m2, .e4m3)
  | .e2m1, false => some (.e2m1, .e2m1)
  | .bf16, false => some (.bf16, .bf16)
  | .fp16, false => some (.fp16, .fp16)
  | .fp32, false => some (.fp32, .fp32)
  | _, _ => none

/-- The pair of a window (07:R146). -/
def pairOf (a b : ElemType) : WinPair :=
  if a = .i8 ∧ b = .i8 then .ss else if a = .u8 ∧ b = .u8 then .uu else .su

/-- Scale block length in depth values, 0 for none (02:R47). -/
def blockLen (mode : BitVec 21) : Nat := if modeSb mode = 0#2 then 0 else 8 * 2 ^ (modeSb mode).toNat

/-- Depth values per element (07:R144). -/
def depthOf (et : ElemType) : Nat := if et = .e2m1 then 2 else 1

/-! ### Issue (07:R142, R145, R155, R161 to R163). -/

/-- Whether a mmo.sp or a mmo.st with S24 reads A compressed. -/
def isSparse : Instr → Bool
  | .mmoSp .. => true
  | .mmoSt _ _ _ _ s24 _ => s24
  | _ => false

/-- The checks of a matrix instruction (07:R145, R152). -/
def State.matrixOk (s : State) (xb sparse : Bool) : Bool :=
  let et := modeEt s.hart.mode
  let p := shapeP s.hart.fcrShape
  let k := (s.hart.vl.toNat + p - 1) / p
  let sb := blockLen s.hart.mode
  let deep := if sparse then (depthOf et * k + 3) / 4 * 4 else depthOf et * k
  s.arrayReady && (matrixTypes et xb).isSome &&
    (sb = 0 || et = .e4m3 || et = .e5m2 || et = .e2m1) && s.hart.start % p = 0 &&
    (sb = 0 || k = 0 || decide (((deep - 1) / sb + 1) * p ≤ s.hart.vlmaxAt 8))

/-- Issue mmo or mmo.sp. -/
def State.issueMatrix (s : State) (i : Instr) (xb sparse : Bool) : Result :=
  if s.matrixOk xb sparse then s.issue i s.hart.start 0 0 0 0 (!(modeEt s.hart.mode).isInt) 0 0
  else .next (s.illegalInstr i)

/-- mmo (07:R156). -/
def execMmo (a b : VReg) (xb : Bool) (s : State) : Result := s.issueMatrix (.mmo a b xb) xb false

/-- mmo.sp (07:R153, R156). -/
def execMmoSp (a b v : VReg) (xb : Bool) (s : State) : Result := s.issueMatrix (.mmoSp a b v xb) xb true

/-- mmo.st: base and stride aligned to the element (07:R157). -/
def execMmoSt (d : VReg) (a b : GReg) (v : VReg) (s24 xb : Bool) (s : State) : Result :=
  let i : Instr := .mmoSt d a b v s24 xb
  let n := (modeEt s.hart.mode).sew / 8
  if !s.matrixOk xb s24 then .next (s.illegalInstr i)
  else if (s.g a).toNat % n != 0 then .next (s.trap 0x02#8 (s.g a))
  else if (s.g b).toNat % n != 0 then .next (s.trap 0x02#8 (s.g b))
  else s.issue i s.hart.start 0 0 (s.g a) (s.g b) (!(modeEt s.hart.mode).isInt) 0 0

/-- fzero (07:R160). -/
def execFzero (s : State) : Result := s.issueKeep .fzero 0 0 0 0 0 false 0 0

/-- fzero.c (07:R160). -/
def execFzeroC (s : State) : Result := s.issueKeep .fzeroC 0 0 0 0 0 false 0 0

/-- frc (07:R160). -/
def execFrc (s : State) : Result := s.issueKeep .frc 0 0 0 0 0 false 0 0

/-- Element types fdrain writes (07:R161). -/
def etDrain (t : ElemType) : Bool :=
  t = .i8 || t = .u8 || t = .i16 || t = .i32 || t = .e4m3 || t = .e5m2 || t = .bf16 || t = .fp16 || t = .fp32

/-- Issue an fdrain (07:R161, log 26). -/
def State.issueDrain (s : State) (i : Instr) (d : VReg) : Result :=
  if s.arrayReady && etDrain (modeEt s.hart.mode) && decide (s.hart.vl.toNat ≤ 4096) then
    s.issue i s.hart.start 0 0 0 0 true (dirtyOf d 32) 0
  else .next (s.illegalInstr i)

/-- fdrain with column scales (07:R161). -/
def execFdrain (d c : VReg) (s : State) : Result := s.issueDrain (.fdrain d c) d

/-- fdrain without scales (07:R161). -/
def execFdrainNcs (d : VReg) (s : State) : Result := s.issueDrain (.fdrainNcs d) d

/-- fdrain.z with column scales (07:R161). -/
def execFdrainZ (d c : VReg) (s : State) : Result := s.issueDrain (.fdrainZ d c) d

/-- fdrain.z without scales (07:R161). -/
def execFdrainZNcs (d : VReg) (s : State) : Result := s.issueDrain (.fdrainZNcs d) d

/-- Element types frowadd reads (07:R162). -/
def etRowAdd (t : ElemType) : Bool :=
  (t.isInt && t.sew != 64) || t = .e4m3 || t = .e5m2 || t = .bf16 || t = .fp16 || t = .fp32

/-- Issue a frowadd; a float one rounds (07:R162, log 26). -/
def State.issueRowAdd (s : State) (i : Instr) : Result :=
  let et := modeEt s.hart.mode
  if s.arrayReady && etRowAdd et then s.issueKeep i 0 0 0 0 0 (!et.isInt) 0 0 else .next (s.illegalInstr i)

/-- frowadd: element j to every cell (i, j) (07:R162). -/
def execFrowadd (a : VReg) (s : State) : Result := s.issueRowAdd (.frowadd a)

/-- frowadd.c: element i to every cell (i, j) (07:R162). -/
def execFrowaddC (a : VReg) (s : State) : Result := s.issueRowAdd (.frowaddC a)

/-- Issue fsave or fload: a base aligned to 64 (07:R163). -/
def State.issueFrameMem (s : State) (i : Instr) (base : Word) : Result :=
  if base.toNat % 64 != 0 then .next (s.trap 0x02#8 base) else s.issue i s.hart.start 0 0 base 0 false 0 0

/-- fsave (07:R163). -/
def execFsave (a : GReg) (s : State) : Result := s.issueFrameMem (.fsave a) (s.g a)

/-- fload (07:R163). -/
def execFload (a : GReg) (s : State) : Result := s.issueFrameMem (.fload a) (s.g a)

/-! ### Terms and contributions (07:R149, R151, R152). -/

/-- A factor of a product: sign, magnitude and exponent; none when it poisons the cell. -/
abbrev Term := Option (Bool × Nat × Int)

/-- A pattern of an operand type under a scale byte; 127 stands for no scale. -/
def termOf (t : ElemType) (bits scale : Nat) : Term :=
  if t.isInt then
    let v := readInt bits t.sew t.signed
    some (decide (v < 0), v.natAbs, 0)
  else if scale = 255 then none
  else match t.value bits with
    | .fin neg m e => some (neg, m, e + (scale : Int) - 127)
    | _ => none

/-- One exact value contributed to a cell at the frame exponent: the cell and the flags (07:R149, R151). -/
def contribute (c : BitVec 64) (fe : Int) (r : Rnd) (idx : Nat) (p : Term) : BitVec 64 × Flags :=
  match p with
  | none => (poisonCell, Flags.fnv)
  | some (neg, m, e) =>
    if m = 0 then (c, 0#5)
    else
      let g := roundGrid r.rm neg (.rat m 1 (e - fe)) 0 (r.draw idx)
      let x := cellAdd c (if neg then -(g.1 : Int) else (g.1 : Int))
      (x.1, x.2 ||| Flags.when g.2 Flags.fnx ||| Flags.when (g.1 = 0) Flags.func)

/-- The product of two factors. -/
def Term.mul (a b : Term) : Term :=
  match a, b with
  | some (s, m, e), some (t, n, f) => some (s != t, m * n, e + f)
  | _, _ => none

/-- The factors of A in one row of the frame, with their depth; none for B when it is read as zero (07:R153). -/
structure Kept where
  depth : Nat
  a : Term
  beyond : Bool
  deriving DecidableEq, Repr

/-! ### Operands of a k-step (07:R144, R152, R153, R157). -/

def UnitOp.xb (u : UnitOp) : Bool :=
  match u.instr with
  | .mmo _ _ xb => xb
  | .mmoSp _ _ _ xb => xb
  | .mmoSt _ _ _ _ _ xb => xb
  | _ => false

def UnitOp.types (u : UnitOp) : ElemType × ElemType := (matrixTypes u.et u.xb).getD (.i8, .i8)
def UnitOp.rows (u : UnitOp) : Nat := (shapeOf u.shape).1
def UnitOp.cols (u : UnitOp) : Nat := (shapeOf u.shape).2
def UnitOp.p (u : UnitOp) : Nat := shapeP u.shape
def UnitOp.depth (u : UnitOp) : Nat := depthOf u.et
/-- K. -/
def UnitOp.ksteps (u : UnitOp) : Nat := (u.vl + u.p - 1) / u.p
/-- FE. -/
def UnitOp.exp (u : UnitOp) : Int := u.fe.toInt

/-- Registers of A, B and the sparse indices. -/
def UnitOp.regA (u : UnitOp) : Option VReg :=
  match u.instr with
  | .mmo a _ _ => some a
  | .mmoSp a _ _ _ => some a
  | .mmoSt d _ _ _ _ _ => some d
  | _ => none
def UnitOp.regB (u : UnitOp) : Option VReg :=
  match u.instr with
  | .mmo _ b _ => some b
  | .mmoSp _ b _ _ => some b
  | _ => none
def UnitOp.regX (u : UnitOp) : VReg :=
  match u.instr with
  | .mmoSp _ _ v _ => v
  | .mmoSt _ _ _ v _ _ => v
  | _ => 0

/-- Depth value h of element idx of a register; an index at or beyond VL reads zero. -/
def State.depthBits (s : State) (u : UnitOp) (k : VReg) (idx h : Nat) : Nat :=
  if u.vl ≤ idx then 0
  else
    let b := s.vGet k u.sew idx
    if u.depth = 2 then b / 16 ^ h % 16 else b

/-- The scale byte of a depth value: row i of vA in v(SR), column j of vB in v(SR + 1) (07:R152). -/
def State.scaleByte (s : State) (u : UnitOp) (second : Bool) (dim kappa i : Nat) : Nat :=
  let len := blockLen u.mode
  if len = 0 then 127
  else s.vGet (modeSr u.mode + (if second then 1#4 else 0#4)) 8 (kappa / len * dim + i)

/-- k-step k is live (07:R144). -/
def State.live (s : State) (u : UnitOp) (k : Nat) : Bool := s.active u.mode k

/-- A of a dense k-step: row i's factors. -/
def State.denseRow (s : State) (u : UnitOp) (k i : Nat) : List Kept :=
  (List.range u.depth).map (fun h =>
    { depth := u.depth * k + h
      a := termOf u.types.1 (s.depthBits u (u.regA.getD 0) (k * u.rows + i) h) (s.scaleByte u false u.rows (u.depth * k + h) i)
      beyond := false })

/-- A of a 2:4 group: the kept values of row i whose products are formed; lo is the first k-step of the group that runs
(07:R153, R146). -/
def State.sparseRow (s : State) (u : UnitOp) (g lo : Nat) (i : Nat) : List Kept :=
  let x := s.vGet u.regX 8 (g * u.rows + i)
  (List.range 2).filterMap (fun h =>
    let kappa := 4 * g + x / 4 ^ h % 4
    let k := kappa / u.depth
    let beyond := u.depth * u.ksteps ≤ kappa
    let pos := 2 * g + h
    if beyond || (lo ≤ k && s.live u k) then
      some { depth := kappa
             a := termOf u.types.1 (s.depthBits u (u.regA.getD 0) (pos / u.depth * u.rows + i) (pos % u.depth))
                    (s.scaleByte u false u.rows kappa i)
             beyond := beyond }
    else none)

/-- Row k of B as patterns of elements, from vB. -/
def State.bPatterns (s : State) (u : UnitOp) (b : VReg) (k : Nat) : List Nat :=
  (List.range u.cols).map (fun j => if u.vl ≤ k * u.cols + j then 0 else s.vGet b u.sew (k * u.cols + j))

/-- B[kappa][j] for every j, from the patterns of its row. -/
def State.bTerms (s : State) (u : UnitOp) (pats : List Nat) (kappa : Nat) : List Term :=
  pats.mapIdx (fun j b =>
    termOf u.types.2 (if u.depth = 2 then b / 16 ^ (kappa % 2) % 16 else b) (s.scaleByte u true u.cols kappa j))

/-! ### Applying a span of k-steps (07:R146, R147, R149). -/

/-- The contributions of the factors of row i to cell n = i × C + j in FX mode. -/
def fxCell (u : UnitOp) (b : Nat → Nat → Term) (n : Nat) (row : List Kept) (c : BitVec 64) : BitVec 64 × Flags :=
  row.foldl (fun acc k =>
    let v := contribute acc.1 u.exp u.rnd (k.depth * 4096 + n)
      (k.a.mul (if k.beyond then some (false, 0, 0) else b k.depth (n % u.cols)))
    (v.1, acc.2 ||| v.2)) (c, 0#5)

/-- The integer products of a row's factors with column j, added to the channels. -/
def intCell (b : Nat → Nat → Term) (j : Nat) (row : List Kept) (x : Chan) : Chan :=
  row.foldl (fun x k =>
    if k.beyond then x
    else match k.a.mul (b k.depth j) with
      | some (neg, m, _) => x.add (if neg then -(m : Int) else (m : Int))
      | none => x) x

/-- A contribution check that fails now: an armed residue injection or a natural fault; true for the exponent path (07:R148,
R159, 21:R357, R374). -/
def Core.productHit (c : Core) : Option Bool := if c.injArm && c.inj = 5#4 then some false else c.productFault

/-- The event of a failed frame check in a cell: it is poisoned, FMC is set, and the event has the cell's number (07:R159,
21:R362, R373). -/
def State.cellEvent (s : State) (src : BitVec 4) (n : Nat) : State :=
  ((s.mapCore (fun c => { c with cells := sparseSet 0#64 c.cells n poisonCell, badCells := natSetPut c.badCells n false })).orFsr
    Flags.fmc).recordUe src (BitVec.ofNat 64 (2 ^ 63 + n))

/-- The check of the first contribution to a cell among those given fails: the cell is poisoned. The cell, whose first
contribution is not added (07:R159). -/
def State.strike (s : State) (cells : List Nat) : State × Option Nat :=
  match s.core.productHit, cells with
  | some exponent, n :: _ =>
    let armed := s.core.injArm && s.core.inj = 5#4
    let s := s.mapCore (fun c => if armed then { c with injArm := false } else { c with productFault := none })
    (s.cellEvent (if exponent then 6#4 else 5#4) n, some n)
  | _, _ => (s, none)

/-- Apply the factors of every row: contributions in FX mode, channels in INT mode. -/
def State.applyRows (s : State) (u : UnitOp) (rows : List (List Kept)) (b : Nat → Nat → Term) : State :=
  let whole (n : Nat) : List Kept := (rows[n / u.cols]?).getD []
  let r := s.strike (if s.core.productHit.isSome then (List.range cellCount).filter (fun n => !(whole n).isEmpty) else [])
  let row (n : Nat) : List Kept := if r.2 = some n then (whole n).tail else whole n
  if u.et.isInt then
    r.1.mapCore (fun c => { c with chans := tabulate Chan.zero (c.chanList.mapIdx (fun n x => intCell b (n % u.cols) (row n) x)) })
  else r.1.mapCells (fun n c => fxCell u b n (row n) c)

/-- A live span: conclusions of 07:R147 around the contributions and the window count. cnt is the number of products
a window gains. -/
def State.frameSpan (s : State) (u : UnitOp) (rows : List (List Kept)) (b : Nat → Nat → Term) (cnt : Nat) : State :=
  let pair := pairOf u.types.1 u.types.2
  let s := if s.core.winPair != .none && (!u.et.isInt || s.core.winPair != pair) then s.conclude else s
  if u.et.isInt then
    let s := if pair.limit < s.core.winCount + cnt then s.conclude else s
    let s := s.applyRows u rows b
    let n := s.core.winCount + cnt
    let s := s.mapCore (fun c => { c with winCount := n, winPair := if n = 0 then .none else pair })
    if pair.limit ≤ n then s.conclude else s
  else s.applyRows u rows b

/-! ### mmo, mmo.sp and mmo.st (07:R156 to R158). -/

/-- Read elements of rows of B from memory until one does not complete: what has been read, and how it ended (07:R157). -/
def State.fetchElems (u : UnitOp) : List (Nat × Nat) → List Nat → State → List Nat × Res Unit
  | [], got, s => (got, .ok () s)
  | (k, j) :: es, got, s =>
    let n := u.sew / 8
    match s.unitRead (u.ga + BitVec.ofNat 64 k * u.gb + BitVec.ofNat 64 (j * n)) n u.hyp (.part ((k + 1) * 2 ^ 21)) with
    | .ok v s => State.fetchElems u es (got ++ [v]) s
    | .trap c v n s => (got, .trap c v n s)
    | .fault f s => (got, .fault f s)
    | .wait s => (got, .wait s)

/-- The columns of row k of B that lie below VL. -/
def UnitOp.rowLength (u : UnitOp) (k : Nat) : Nat := min u.cols (u.vl - k * u.cols)

/-- The elements read, row by row; the columns beyond VL are zero (07:R144). -/
def splitRows (u : UnitOp) : List Nat → List Nat → List (Nat × List Nat)
  | [], _ => []
  | k :: ks, vs =>
    let n := u.rowLength k
    (k, vs.take n ++ List.replicate (u.cols - n) 0) :: splitRows u ks (vs.drop n)

/-- The first live k-step at or after k. -/
def State.nextLive (s : State) (u : UnitOp) : Nat → Nat → Option Nat
  | 0, _ => none
  | n + 1, k => if u.ksteps ≤ k then none else if s.live u k then some k else s.nextLive u n (k + 1)

/-- Apply k-steps lo to hi - 1 with the rows of B given. -/
def State.applyKsteps (s : State) (u : UnitOp) (lo hi : Nat) (pats : List (Nat × List Nat)) : State :=
  let sparse := isSparse u.instr
  let kappas := (natRange (lo * u.depth) ((hi - lo) * u.depth))
  let tab := kappas.map (fun x =>
    (x, s.bTerms u (((pats.find? (fun e => e.1 = x / u.depth)).map (·.2)).getD []) x))
  let b (kappa j : Nat) : Term :=
    (((tab.find? (fun e => e.1 = kappa)).map (·.2)).getD [])[j]?.getD (some (false, 0, 0))
  let g := lo * u.depth / 4
  let rows := (List.range u.rows).map (fun i =>
    if sparse then s.sparseRow u g lo i else s.denseRow u lo i)
  let cnt := if sparse then rows.foldl (fun n r => max n r.length) 0 else 1
  s.frameSpan u rows b cnt

/-- The rest after a k-step: finished, or the next. -/
def State.afterKsteps (s : State) (u : UnitOp) (k : Nat) : State :=
  let u := { u with vstart := k * u.p, got := [] }
  if u.vl ≤ u.vstart then s.dropUnit u else s.setUnit u

/-- The span that runs next: a live k-step, or the part of a live group not below the start index; none when no live one is
left. -/
def State.nextSpan (s : State) (u : UnitOp) : Option (Nat × Nat) :=
  if u.vl ≤ u.vstart then none
  else (s.nextLive u (u.ksteps + 1) (u.vstart / u.p)).map (fun k0 =>
    let size := if isSparse u.instr then 4 / u.depth else 1
    (max (u.vstart / u.p) (k0 / size * size), k0 / size * size + size))

/-- One live k-step or group of an operation (07:R156, R158). The rows of a group are all read before any product of it is
added, so a group that faults or waits has none (20:R355, log 52). -/
def State.matrixStep (s : State) (u : UnitOp) : State :=
  match s.nextSpan u with
  | none => s.dropUnit u
  | some (lo, hi) =>
    let ks := (natRange lo (min hi u.ksteps - lo)).filter (s.live u)
    match u.regB with
    | some b => (s.applyKsteps u lo hi (ks.map (fun k => (k, s.bPatterns u b k)))).afterKsteps u hi
    | none =>
      let es := ks.flatMap (fun k => (List.range (u.rowLength k)).map (fun j => (k, j)))
      let at_ := { u with vstart := lo * u.p }
      match State.fetchElems u (es.drop u.got.length) u.got s with
      | (got, .ok _ t) => (t.applyKsteps u lo hi (splitRows u ks got)).afterKsteps u hi
      | (got, .wait t) => t.setUnit { at_ with got := got }
      | (_, .fault f t) => t.parkUnit { at_ with got := [] } f .frame
      | (_, .trap c v _ t) => t.unitTrap u (lo * u.p) c v

/-! ### fdrain and frowadd (07:R161, R162). -/

/-- One drained element: the exact product of total, frame exponent and scale, converted once (07:R161). -/
def drainElem (u : UnitOp) (n : Nat) (c : BitVec 64) (cs : FVal) : FRes :=
  if c = poisonCell then { bits := if u.et.isInt then 0 else (u.et.fmt.map (·.nanBits)).getD 0, fl := Flags.nv }
  else
    let p := exactProd (.fin (decide (c.toInt < 0)) c.toInt.natAbs u.exp) cs
    let r := if u.et.isInt then toInt u.rnd n p.1 u.sew u.et.signed else u.et.roundTo u.rnd n p.1.exact
    { r with fl := r.fl ||| p.2 }

/-- A cell whose residue does not match is found when it is read: it is poisoned (21:R357, R362). -/
def State.checkCells (s : State) (ns : List Nat) : State :=
  if s.core.badCells.isEmpty then s
  else (ns.filter (natSetHas s.core.badCells)).foldl (fun s n => s.cellEvent 7#4 n) s

/-- fdrain: every active element in [VSTART, VL), in ascending order, after the conclusion of all windows, which it makes with
no element too; a scale is read when its element is drained (07:R161, log 55). -/
def State.drain4 (s : State) (u : UnitOp) (d : VReg) (vc : Option VReg) (z : Bool) : State :=
  let es := (natRange u.vstart (u.vl - u.vstart)).filter (s.active u.mode)
  let s := s.conclude.checkCells es
  let cs (t : State) (n : Nat) : FVal :=
    match vc with
    | some k => Fmt.fp32.decode (t.vGet k 32 (n % u.cols))
    | none => .fin false 1 0
  let r := es.foldl (fun (acc : State × Flags) n =>
    let v := drainElem u n (sparseGet 0#64 acc.1.core.cells n) (cs acc.1 n)
    let t := acc.1.vSet d u.sew n v.bits
    let t := if z then t.mapCore (fun c => { c with cells := sparseSet 0#64 c.cells n 0#64 }) else t
    (t, acc.2 ||| v.fl)) (s, 0#5)
  let rows := es.head?.toList.flatMap (fun e => slotRows d u.sew s.hart.lanes e (u.vl - e))
  ((r.1.orVfsr r.2).noteRows es rows).dropUnit u

/-- frowadd: element j, or i for frowadd.c, added to every cell (07:R162). -/
def State.rowAdd (s : State) (u : UnitOp) (a : VReg) (col : Bool) : State :=
  let terms := (List.range (if col then u.rows else u.cols)).map (fun x =>
    termOf u.et (if x < u.vl then s.vGet a u.sew x else 0) 127)
  let r := s.strike [0]
  (r.1.mapCells (fun n c =>
    let t := (terms[if col then n / u.cols else n % u.cols]?).getD (some (false, 0, 0))
    if r.2 = some n then (c, 0#5)
    else if u.et.isInt then
      match t with
      | some (neg, m, _) => cellAdd c (if neg then -(m : Int) else (m : Int))
      | none => (c, 0#5)
    else contribute c u.exp u.rnd (2 ^ 40 + n) t)).dropUnit u

/-! ### fsave and fload (07:R163). -/

/-- Store cells until one does not complete. -/
def State.saveCells (u : UnitOp) : List Nat → State → Nat × Res Unit
  | [], s => (cellCount, .ok () s)
  | n :: ns, s =>
    match s.unitWrite (u.ga + BitVec.ofNat 64 (8 * n)) 8 (sparseGet 0#64 s.core.cells n).toNat u.hyp with
    | .ok _ s' => State.saveCells u ns s'
    | r => (n, r)

/-- Load one cell; a poisoned word poisons it and sets FMC (21:R359). -/
def State.loadCell (s : State) (u : UnitOp) (n : Nat) : Res Unit :=
  let put (s : State) (v : BitVec 64) : State :=
    s.mapCore (fun c => { c with cells := sparseSet 0#64 c.cells n v, badCells := natSetPut c.badCells n false })
  match s.unitRead (u.ga + BitVec.ofNat 64 (8 * n)) 8 u.hyp (.part 0) with
  | .ok v s' => .ok () (put s' (BitVec.ofNat 64 v))
  | .trap c v k t => if k = 10 then .ok () ((put t poisonCell).orFsr Flags.fmc) else .trap c v k t
  | .fault f t => .fault f t
  | .wait t => .wait t

/-- Load cells until one does not complete. -/
def State.loadCells (u : UnitOp) : List Nat → State → Nat × Res Unit
  | [], s => (cellCount, .ok () s)
  | n :: ns, s =>
    match s.loadCell u n with
    | .ok _ s' => State.loadCells u ns s'
    | r => (n, r)

/-- A 64-byte block of an fsave or fload ends: finished, waiting, parked at a cell, or trapped at one. -/
def State.endBlock (u : UnitOp) (top : Nat) (r : Nat × Res Unit) : State :=
  match r with
  | (_, .ok _ t) =>
    let u := { u with vstart := top, busy := false }
    if cellCount ≤ top then t.dropUnit u else t.setUnit u
  | (n, .wait t) => t.setUnit { u with vstart := n, busy := true }
  | (n, .fault f t) => t.parkUnit { u with vstart := n, busy := false } f .frame
  | (n, .trap c v _ t) => t.unitTrap u n c v

/-- The next 64-byte block of an fsave or fload. An fsave that starts at cell 4,096 or above stores nothing and concludes
nothing, and such an fload leaves the windows as they are (07:R163, log 94). -/
def State.frameBlock (s : State) (u : UnitOp) (store : Bool) : State :=
  if cellCount ≤ u.vstart then s.dropUnit u
  else
    let top := u.vstart / 8 * 8 + 8
    let ns := natRange u.vstart (top - u.vstart)
    if store then State.endBlock u top (State.saveCells u ns (s.conclude.checkCells ns))
    else
      State.endBlock u top (State.loadCells u ns
        (s.mapCore (fun c => { c with chans := [], winCount := 0, winPair := .none })))

/-! ### The event. -/

/-- Zero every cell, channel and the window. -/
def Core.zeroFrame (c : Core) : Core := { c with cells := [], chans := [], winCount := 0, winPair := .none, badCells := [] }

/-- The rows that the corner-turn reads of a frame step cover: the operands of its k-steps or group and their scales, or the
slots that a fdrain or frowadd reads (07:R144, R152, R153, 21:R360). -/
def State.frameRows (s : State) (u : UnitOp) : List Nat :=
  let lanes := s.hart.lanes
  let scales (lo hi : Nat) : List Nat :=
    let len := blockLen u.mode
    if len = 0 then []
    else
      let x := lo * u.depth / len
      let n := (hi * u.depth + len - 1) / len - x
      slotRows (modeSr u.mode) 8 lanes (x * u.rows) (n * u.rows) ++ slotRows (modeSr u.mode + 1#4) 8 lanes (x * u.cols) (n * u.cols)
  match u.regA with
  | some a =>
    match s.nextSpan u with
    | none => []
    | some (lo, hi) =>
      let g := lo * u.depth / 4
      (if isSparse u.instr then
        slotRows a u.sew lanes (2 * g / u.depth * u.rows) (2 / u.depth * u.rows) ++ slotRows u.regX 8 lanes (g * u.rows) u.rows
       else slotRows a u.sew lanes (lo * u.rows) u.rows) ++
      (u.regB.toList.flatMap (fun b => slotRows b u.sew lanes (lo * u.cols) ((hi - lo) * u.cols))) ++ scales lo hi
  | none => u.frameReads.flatMap (fun k => slotRows k.1 k.2 lanes 0 128)

/-- What the frame unit does with an operation. -/
def State.frameEffect (s : State) (u : UnitOp) : State :=
  match u.instr with
  | .fzero => (s.mapCore Core.zeroFrame).dropUnit u
  | .fzeroC => ((s.mapCore Core.zeroFrame).mapHart (fun h => { h with fsr := 0 })).dropUnit u
  | .frc => s.conclude.dropUnit u
  | .fdrain d c => s.drain4 u d (some c) false
  | .fdrainNcs d => s.drain4 u d none false
  | .fdrainZ d c => s.drain4 u d (some c) true
  | .fdrainZNcs d => s.drain4 u d none true
  | .frowadd a => s.rowAdd u a false
  | .frowaddC a => s.rowAdd u a true
  | .fsave _ => s.frameBlock u true
  | .fload _ => s.frameBlock u false
  | _ => s.matrixStep u

/-- One step of the frame unit on an operation; a mismatch of row parity in a corner-turn read is an array data error
(21:R360). -/
def State.frameOne (s : State) (u : UnitOp) : State :=
  match s.badRow (s.frameRows u) with
  | some id => s.parityError u id
  | none => s.frameEffect u

/-- A step sets FMC: it does so with FSR clear of it before, so that one that finds FMC set is seen too. -/
def State.fmcRaised (s : State) (f : State → State) : State × Bool :=
  let t := f (s.mapHart (fun h => { h with fsr := h.fsr &&& ~~~Flags.fmc }))
  (t.mapHart (fun h => { h with fsr := h.fsr ||| (s.hart.fsr &&& Flags.fmc) }), (t.hart.fsr &&& Flags.fmc) != 0#5)

/-- FMC set in a SNAP gang is a rollback trigger (21:R366). -/
def State.fmcTrigger (s : State) (f : State → State) : State :=
  if s.hart.snap then
    let r := s.fmcRaised f
    if r.2 && r.1.hart.run != .idle then r.1.triggerRollback 0x0B#8 0 else r.1
  else f s

/-- A step of an operation of the frame: nothing while it is parked; an unresolved fault traps (07:R158, R163), unless the trap of
an orphan comes before it (17:R335, R338). -/
def State.frameTurn (s : State) (u : UnitOp) : State :=
  match u.parked with
  | some (_, va) => if u.unresolved && s.hart.orphan.isNone then s.unitTrap u u.vstart 0x0E#8 (va.setWidth 64) else s
  | none => s.fmcTrigger (·.frameOne u)

/-- FRAME_KSTEP: the first operation of the frame completes a live k-step or group, a 64-byte block, or whole (07:R156,
R160 to R164). -/
def execFrameKstep (s : State) : Result :=
  match s.turnOf true with
  | some u => if s.hart.trigger then .next s else .next (s.frameTurn u)
  | none => .next s

end Sys2Proof.Machine
end

