-- ==== Sys2Proof/Machine/Peel.lean ====
section
/-! DEFINITION. Machine/Peel.lean: the peel engine: owner flips, barriers, copies and the ring rotation (11:R231 to
R243, R251, R253). -/

namespace Sys2Proof.Machine

/-! ### Operands (11:R239). -/

/-- The bench window's base. -/
def benchBase : Nat := 0xFF00_0000_0000

/-- Bench offset of an address in the window. -/
def benchOff (a : Word) : Nat := a.toNat - benchBase

/-- An address of a bench operand of n bytes: in the window and in BENCH ways of the context. -/
def State.inBench (s : State) (a : Word) (n : Nat) : Bool :=
  inBenchWindow a.toNat && (n = 0 || s.core.benchIn s.hart.ctxid (benchOff a) n)

/-- A copy's operand: an address in memory is checked as its elements move. -/
def State.benchOrMem (s : State) (a : Word) (n : Nat) : Bool := !inBenchWindow a.toNat || s.inBench a n

/-- The first check that fails: its cause and TRAPVAL. -/
def firstFail : List (Bool × BitVec 8 × Word) → Option (BitVec 8 × Word)
  | [] => none
  | (ok, c, v) :: rest => if ok then firstFail rest else some (c, v)

/-- Check 1: an address is a multiple of n. -/
def aligned (a : Word) (n : Nat) : Bool × BitVec 8 × Word := (a.toNat % n = 0, 0x02#8, a)

/-- Check 2 of a barrier: 16 bytes of bench. -/
def State.tbOk (s : State) (a : Word) : Bool × BitVec 8 × Word := (s.inBench a 16, 0x03#8, a)

/-- The rack when it is of the running context; another context's pans are out of reach (08:R166). -/
def State.myRack (s : State) : Option Rack := s.core.rack.filter (fun r => r.ctx = s.hart.ctxid)

/-- A barrier is one of the pan barriers of the rack (11:R239). -/
def State.isPanTb (s : State) (a : Word) : Bool :=
  match s.core.rack with
  | none => false
  | some r => r.tbs ≤ benchOff a && benchOff a < r.tbs + 16 * r.pans.length

/-- A barrier lies in a way that holds the context's rack (11:R239). -/
def State.inRackWay (s : State) (a : Word) : Bool :=
  s.myRack.isSome && s.core.rackWays.getLsbD (benchOff a / 2 ^ 20 + 1)

/-- Every peel instruction clears VSTART at issue (11:R231). -/
def State.peelDone (s : State) : State := s.clearVstart.retire

/-- A peel instruction that writes g(d). -/
def State.peelResult (s : State) (d : GReg) (v : Word) : State := s.clearVstart.result d v

/-! ### Issue of an operation (11:R231, R236). -/

/-- Elements from the start index to VL (11:R232). -/
def State.peelCount (s : State) : Nat := s.hart.vl.toNat - s.hart.start

/-- Bytes of an element. -/
def State.peelSize (s : State) : Nat := (modeEt s.hart.mode).sew / 8

/-- The operation as it enters the queue. -/
def State.peelOp (s : State) (i : Instr) (gd gd1 ga gb : Word) (base : Nat) : PeelOp where
  id := s.core.peelIds
  instr := i
  pc := s.hart.pc
  mode := s.hart.mode
  vl := s.hart.vl.toNat
  vstart := s.hart.start
  srseed := s.hart.srseed
  srcount := s.hart.srcount
  gd := gd
  gd1 := gd1
  ga := ga
  gb := gb
  hyp := if s.hart.snap then s.hart.hyp else 0#12
  base := base
  count := s.peelCount
  old := []
  active := false
  sent := []
  incoming := if isRrot i then s.peelCount else 0
  arrived := []
  gone := false
  parked := none
  unresolved := false
  ended := false
  moved := []
  out := false
  restored := false

/-- The queue holds sixteen operations, queued and active, or completes what a resume refilled (11:R231, 13:R285, R286). -/
def State.peelFull (s : State) : Bool := 16 ≤ s.core.peel.countP (fun o => !o.out) || s.core.peel.any (·.restored)

/-- Issue an operation counted by the barrier at gb: an EP that would overflow counts an error and an arrival, and
nothing moves (11:R236). An operation that reads a vector register waits for the entries before it. -/
def State.issuePeel (s : State) (i : Instr) (gd gd1 ga gb : Word) (vec : Bool) : Result :=
  if s.peelFull || (vec && !s.core.units.isEmpty) then s.waitHere
  else
    let n := if isRrot i then 2 * s.peelCount else s.peelCount
    let r := s.core.tbCount (benchOff gb) n
    match r.2 with
    | none => .next { s with core := r.1 }.fitShadows.peelDone
    | some b =>
      let c := r.1.freshWalks
      .next ({ s with core := { c with peel := c.peel ++ [s.peelOp i gd gd1 ga gb b], peelIds := c.peelIds + 1 } }).fitShadows.peelDone

/-- Run the checks of 11:R239, then the rest. -/
def State.peelChecked (s : State) (cs : List (Bool × BitVec 8 × Word)) (k : Result) : Result :=
  match firstFail cs with
  | some (c, v) => .next (s.trap c v)
  | none => k

/-- The address of an operand's first element. -/
def State.firstElem (s : State) (a : Word) : Word := a + BitVec.ofNat 64 (s.hart.start * s.peelSize)

/-- Bytes of the elements of an operation. -/
def State.peelBytes (s : State) : Nat := s.peelCount * s.peelSize

/-- The checks of a copy. The base of a gather is no range. -/
def State.copyChecks (s : State) (d a b : Word) (gather : Bool) : List (Bool × BitVec 8 × Word) :=
  [aligned d s.peelSize, aligned a s.peelSize, aligned b 16, s.tbOk b,
   (s.benchOrMem (s.firstElem d) s.peelBytes, 0x03#8, s.firstElem d),
   (if gather then s.benchOrMem a (if s.peelCount = 0 then 0 else s.peelSize) else s.benchOrMem (s.firstElem a) s.peelBytes,
     0x03#8, if gather then a else s.firstElem a),
   (!(s.explicitHyp s.hart.hyp && !inBenchWindow d.toNat), 0x07#8, d)]

/-- pcopy (11:R238 to R240). -/
def execPcopy (d a b : GReg) (s : State) : Result :=
  s.peelChecked (s.copyChecks (s.g d) (s.g a) (s.g b) false)
    (s.issuePeel (.pcopy d a b) (s.g d) 0 (s.g a) (s.g b) false)

/-- pcopy.x: the source elements are gathered by vx (11:R238 to R240). -/
def execPcopyX (d a b : GReg) (x : VReg) (s : State) : Result :=
  if !(s.arrayReady && evenAt x (modeEt s.hart.mode).sew) then .next (s.illegalInstr (.pcopyX d a b x))
  else s.peelChecked (s.copyChecks (s.g d) (s.g a) (s.g b) true)
    (s.issuePeel (.pcopyX d a b x) (s.g d) 0 (s.g a) (s.g b) true)

/-- rrot (11:R239, R251). -/
def execRrot (d a b : GReg) (s : State) : Result :=
  let n := s.peelBytes
  let u := (s.firstElem (s.g d)).toNat
  let v := (s.firstElem (s.g a)).toNat
  s.peelChecked
    [aligned (s.g d) s.peelSize, aligned (s.g a) s.peelSize, aligned (s.g b) 16, s.tbOk (s.g b),
     (s.inBench (s.firstElem (s.g d)) n, 0x03#8, s.firstElem (s.g d)),
     (s.inBench (s.firstElem (s.g a)) n, 0x03#8, s.firstElem (s.g a)),
     (n = 0 || u + n ≤ v || v + n ≤ u, 0x03#8, s.g d)]
    (s.issuePeel (.rrot d a b) (s.g d) 0 (s.g a) (s.g b) false)

/-! ### Owner flips (11:R241). -/

/-- The checks of own.e and own.h. -/
def State.ownChecks (s : State) (a n : Word) : List (Bool × BitVec 8 × Word) :=
  [aligned a 4096, aligned n 4096, (n = 0 || s.inBench a n.toNat, 0x03#8, a)]

/-- Flip the granules of a range. A flip counts as a write of a granule whose owner changes, so a SNAP superstep shadows it
first (17:R337, log 97). -/
def Core.flip (c : Core) (o n : Nat) (engine : Bool) : Core :=
  let c := ((granules o n).filter (fun g => c.engineOwned g != engine)).foldl Core.shadow c
  { c with benchEngine := (granules o n).foldl (fun m g => natSetPut m g engine) c.benchEngine }

/-- Flip by the hart's engine; the shadows take their slots. -/
def State.flip (s : State) (o n : Nat) (engine : Bool) : State := (s.mapCore (fun c => c.flip o n engine)).fitShadows

/-- own.e: every earlier access of the hart is performed first (11:R241, log 18). -/
def execOwnE (a b : GReg) (s : State) : Result :=
  s.peelChecked (s.ownChecks (s.g a) (s.g b))
    (if s.quiet then .next (s.flip (benchOff (s.g a)) (s.g b).toNat true).peelDone else s.waitHere)

/-- Two byte ranges of bench meet. -/
def rangesMeet (a n b m : Nat) : Bool := n != 0 && m != 0 && a < b + m && b < a + n

/-- An operation that has not completed touches a range of bench: the whole of its source and destination, moved or not; a
gather may read any of its bench (11:R241). -/
def PeelOp.touches (o : PeelOp) (off n : Nat) : Bool :=
  let z := (modeEt o.mode).sew / 8
  let meets (a : Word) : Bool :=
    inBenchWindow a.toNat && rangesMeet (benchOff a + (o.vl - o.count) * z) (o.count * z) off n
  match o.instr with
  | .pcopy .. => meets o.gd || meets o.ga
  | .pcopyX .. => meets o.gd || (inBenchWindow o.ga.toNat && 0 < o.count)
  | .bput .. => meets o.ga
  | .bputF .. => meets o.ga
  | .rrot .. => meets o.gd || meets o.ga
  | _ => false

/-- A granule may not be taken by own.h: its pan is FREE or RESV, or in FILL and not wholly below LL (11:R241). -/
def State.panHolds (s : State) (g : Nat) : Bool :=
  match s.core.rack with
  | none => false
  | some r =>
    let a := g * 4096
    if r.base ≤ a && a < r.base + r.panSize * r.pans.length then
      let i := (a - r.base) / r.panSize
      match r.pans[i]? with
      | none => false
      | some p =>
        p.st = .free || p.st = .resv ||
          (p.st = .fill && (s.core.tb (r.tbOf i)).ll.toNat < a - (r.base + i * r.panSize) + 4096)
    else false

/-- own.h: waits for the operations that touch the range, then flips it or writes 2 (11:R241). -/
def execOwnH (d a b : GReg) (s : State) : Result :=
  let o := benchOff (s.g a)
  let n := (s.g b).toNat
  s.peelChecked (s.ownChecks (s.g a) (s.g b))
    (if n = 0 then .next (s.peelResult d 0)
     else if s.core.peel.any (fun p => p.touches o n) then s.waitHere
     else if (granules o n).any s.panHolds then .next (s.peelResult d 2)
     else .next ((s.flip o n false).peelResult d 0))

/-! ### Barrier instructions (11:R242, R243). -/

/-- tbi: waits until no operation counts on the barrier (11:R242). Like tbtest and tbwait it waits for no store of the hart that is
still queued (10:R216, log 18). -/
def execTbi (a b : GReg) (s : State) : Result :=
  let o := benchOff (s.g a)
  let n : BitVec 16 := (s.g b).setWidth 16
  s.peelChecked [aligned (s.g a) 16, s.tbOk (s.g a), (!s.isPanTb (s.g a), 0x03#8, s.g a)]
    (if s.core.peel.any (fun p => p.tbAddr = o) then s.waitHere
     else .next (s.mapCore (fun c =>
       ((c.newTb o { ae := n, ap := n, ef := false, ec := 0, ph := 0, ll := 0, ep := 0 }).setTrack
         { off := o, base := 0, landed := [] }))).fitShadows.peelDone)

/-- tbarr: an arrival after a release at package scope (11:R237, R242). -/
def execTbarr (a : GReg) (s : State) : Result :=
  s.peelChecked [aligned (s.g a) 16, s.tbOk (s.g a)]
    (if s.released .pkg then .next (s.mapCore (fun c => c.tbArrive (benchOff (s.g a)))).fitShadows.peelDone else s.waitHere)

/-- The status word (11:R243). -/
def Tb.status (t : Tb) : Word := t.ll ++ t.word0.setWidth 32

/-- The hart reads a barrier: a poisoned word of it raises 0x0A as a load's would, a single-bit error is corrected (21:R358, R359,
log 96). -/
def State.readTb (s : State) (a : Word) (k : State → Tb → Result) : Result :=
  let o := benchOff a
  if s.core.tbPoisoned o then
    .next ((s.recordUe 2#4 (BitVec.ofNat 64 (3 * 2 ^ 62 + o))).trap 0x0A#8 a)
  else k (s.correct (.bench o) 16) (s.core.tb o)

/-- tbtest (11:R243). -/
def execTbtest (d a : GReg) (s : State) : Result :=
  s.peelChecked [aligned (s.g a) 16, s.tbOk (s.g a)] (s.readTb (s.g a) (fun s t => .next (s.peelResult d t.status)))

/-- A tbwait's condition holds: an error, another phase, or a landed prefix (11:R243). -/
def Tb.answers (t : Tb) (phase : BitVec 4) (llmin : BitVec 32) : Bool :=
  t.ef || t.ph != phase || (llmin != 0#32 && llmin.toNat ≤ t.ll.toNat)

/-- tbwait: the status word once its condition holds; until then the hart waits at its PC (11:R243). -/
def execTbwait (d a b : GReg) (s : State) : Result :=
  let phase := (s.g b).extractLsb' 0 4
  let llmin := (s.g b).extractLsb' 32 32
  s.peelChecked [aligned (s.g a) 16, s.tbOk (s.g a)]
    (s.readTb (s.g a) (fun s t =>
      if t.answers phase llmin then .next (s.peelResult d t.status)
      else .next (s.mapHart (fun h => { h with run := .waitTb d ((s.g a).setWidth 48) phase llmin }))))

/-- TBWAIT_ANSWER: the status word of a waiting tbwait whose condition holds (11:R243). -/
def execTbwaitAnswer (s : State) : Result :=
  match s.hart.run with
  | .waitTb d a phase llmin =>
    let r := s.mapHart (fun h => { h with run := .running })
    r.readTb (a.setWidth 64) (fun r t => if t.answers phase llmin then .next (r.peelResult d t.status) else .next s)
  | _ => .next s

/-! ### Engine accesses (11:R233, R240, R253). -/

/-- Replace an operation. -/
def Core.setPeel (c : Core) (o : PeelOp) : Core :=
  { c with peel := c.peel.map (fun x => if x.id = o.id then o else x) }

/-- An operation leaves. -/
def Core.dropPeel (c : Core) (o : PeelOp) : Core := { c with peel := c.peel.filter (fun x => x.id != o.id) }

/-- An operation, or the outgoing side of an rrot, has ended: it leaves, or its incoming side goes on. -/
def Core.closeSide (c : Core) (o : PeelOp) : Core :=
  if isRrot o.instr && 0 < o.incoming then
    c.setPeel { o with vstart := o.vl, base := o.base + (o.vl - o.vstart), moved := [], sent := [], parked := none,
                       unresolved := false, ended := true }
  else c.dropPeel o

/-- An error ends an operation, or the outgoing side of an rrot: its elements not landed leave EP, and its arrival is counted
(11:R236, R251). -/
def State.endSide (s : State) (o : PeelOp) (code : BitVec 4) : State :=
  (s.mapCore (fun c => (c.tbFinish o.tbAddr o.left (some code)).closeSide o)).fitShadows

/-- EC 1 was written for an element of an operation: in a SNAP gang it is a rollback trigger (11:R253, 21:R366). -/
def State.afterPoison (s : State) (poison : Bool) : State :=
  if poison && s.hart.snap then s.triggerRollback 0x0B#8 0 else s

/-- The code of an element that lands with or without poison (11:R253). -/
def poisonCode (poison : Bool) : Option (BitVec 4) := if poison then some 1#4 else none

/-- Where an engine access goes: ENGINE granules of its own bench, or memory through the core's TLBs; a failing check
is a trap here and EC 5 at the barrier (11:R233, R240, 16:R302). -/
def State.engineTarget (s : State) (a : Word) (n : Nat) (acc : FaultAccess) : Res Target :=
  if a.extractLsb' 48 16 != 0#16 then .trap 0x03#8 a 0 s
  else if inBenchWindow a.toNat then
    if s.core.benchIn s.hart.ctxid (benchOff a) n && (granules (benchOff a) n).all s.core.engineOwned then
      .ok (.bench (benchOff a)) s
    else .trap 0x09#8 a 0 s
  else (s.translate (a.setWidth 48) acc true).andThen (fun t s => .ok (.mem t.1 t.2.1 t.2.2) s)

/-- The n bytes an engine reads and whether a word of them is poisoned; an uncorrectable word is an event (21:R372). -/
def State.engineRead (s : State) (a : Word) (n : Nat) (h : BitVec 12) : Res (Nat × Bool) :=
  (s.engineTarget a n .read).andThen (fun t s =>
    match t with
    | .bench o =>
      let q := s.core.benchPoisoned o n
      .ok (s.core.benchNat o n, q)
        ((if q then s.recordUe 2#4 (BitVec.ofNat 64 (3 * 2 ^ 62 + o / 8 * 8)) else s).correct t n)
    | .mem dpa mt cnt =>
      if mt = .peer then
        match s.pkg.peerReply dpa n .engine with
        | some (.data bs) => .ok (ofBytes bs, false) (s.mapPkg (·.takeReply dpa n .engine))
        | some .refused => .trap 0x03#8 a 0 (s.mapPkg (·.takeReply dpa n .engine))
        | some .poison => .ok (0, true) ((s.mapPkg (·.takeReply dpa n .engine)).consumePoison dpa)
        | none => .wait (s.peerAsk dpa n none .engine)
      else match s.readMem dpa n mt cnt h with
        | none => .wait s
        | some (s', v) =>
          let s' := s'.mapHart (fun x => { x with maxRead := s.hart.maxRead })
          .ok (v.val, v.poison) ((if v.poison then s'.consumePoison dpa else s').correct t n))

/-- Poison of a word that an engine wrote, where the word now stands. -/
def State.poisonTarget (s : State) (t : Target) (h : BitVec 12) : State :=
  match t with
  | .bench o => s.mapCore (fun c => { c with benchPoison := natSetPut c.benchPoison (o / 8) true })
  | .mem dpa mt _ =>
    let bit : BitVec 8 := BitVec.ofNat 8 (2 ^ (dpa / 8 % 8))
    if h != 0#12 && mt = .wb then
      s.mapPkg (fun p => { p with versions := p.versions.map (fun v =>
        if v.line = dpa / 64 && v.id = h then { v with poison := v.poison ||| bit } else v) })
    else match s.core.owned (dpa / 64) with
      | some l => s.mapCore (fun c => c.putLine { l with poison := l.poison ||| bit })
      | none => s.mapPkg (fun p => p.setPoison dpa true)

/-- An engine write under the superstep's hypothesis h. A trap of cause 0x06 or 0x07 is EC 7 at the barrier
(11:R240, 17:R323, R328, R337). Poison goes with the word, over a port too (21:R359). -/
def State.engineWrite (s : State) (a : Word) (n v : Nat) (poison : Bool) (h : BitVec 12) : Res Unit :=
  (s.engineTarget a n .write).andThen (fun t s =>
    match s.writeCheck t n false h, t with
    | some (c, k), _ => .trap c a k s
    | none, .mem dpa .peer _ => .ok () (s.peerWrite dpa (leBytes n v) poison)
    | none, _ =>
      match s.perform t n v h with
      | none => .wait s
      | some s =>
        let s := match t with
          | .mem dpa _ _ => s.wakeLine (dpa / 64)
          | .bench _ => s
        .ok () (if poison then s.poisonTarget t h else s))

/-- The code at the barrier of an element that fails a check (11:R235). -/
def peelCode (cause : BitVec 8) : BitVec 4 := if cause = 0x06#8 || cause = 0x07#8 then 7#4 else 5#4

/-- An operation parks at its element (11:R253). -/
def State.parkPeel (s : State) (o : PeelOp) (f : PageFault) : State :=
  let r := s.sendFault f .peel o.hyp o.pc
  r.1.mapCore (fun c => c.setPeel { o with parked := some (r.2, f.va) })

/-- The phase index of element e (11:R236). -/
def PeelOp.index (o : PeelOp) (e : Nat) : Nat := o.base + (e - o.vstart)

/-- Element e has moved: VSTART is the lowest that has not. -/
def PeelOp.after (o : PeelOp) (e : Nat) : PeelOp :=
  let m := natSetPut o.moved e true
  let v := leastMissing m m.length o.vstart
  { o with vstart := v, base := o.base + (v - o.vstart), moved := sparseDrop (fun k => k < v) m }

/-- Element e has landed: its phase index counts, with EC 1 when it is poisoned, and the last counts the arrival
(11:R236, R253). -/
def State.landElement (s : State) (o : PeelOp) (e : Nat) (poison : Bool) : State :=
  let o' := o.after e
  let last := o'.vl ≤ o'.vstart
  let s := s.mapCore (fun c =>
    let c := c.tbLand o.tbAddr [o.index e] (poisonCode poison) last
    if last then c.closeSide o' else c.setPeel o')
  s.fitShadows.afterPoison poison

/-- How the access of element e ends. Only the lowest element parks its operation, so that nothing at or above the element
point has been performed when it does (10:R227, 11:R253). -/
def PeelOp.endElement (o : PeelOp) (e : Nat) (before : State) (r : Res Bool) : State :=
  match r with
  | .ok poison s => s.landElement o e poison
  | .trap c _ _ s => s.endSide o (peelCode c)
  | .fault f s => if e = o.vstart then s.parkPeel o f else before
  | .wait s => s

/-- Source address of element e of a copy: indexed by vx for a gather (11:R240). -/
def State.copySource (s : State) (o : PeelOp) (e : Nat) : Word :=
  let sew := (modeEt o.mode).sew
  match o.instr with
  | .pcopyX _ _ _ x => o.ga + BitVec.ofNat 64 (s.vGet x sew e * (sew / 8))
  | _ => o.ga + BitVec.ofNat 64 (e * (sew / 8))

/-- The bytes an engine write would replace. -/
def State.targetNow (s : State) (t : Target) (n : Nat) (h : BitVec 12) : Nat :=
  match t with
  | .bench o => s.core.benchNat o n
  | .mem dpa mt _ =>
    let line := dpa / 64
    let d : BitVec 512 := BitVec.ofNat 512 (s.peek (line * 64) 64)
    if mt = .wb then lineNat (s.compose line h (d, 0#8)).1 (dpa % 64) n else lineNat d (dpa % 64) n

/-- A destination byte that another element of the copy may still read: within the source range, or anywhere for a
gather. -/
def PeelOp.mayReread (o : PeelOp) (a : Nat) : Bool :=
  match o.instr with
  | .pcopyX .. => true
  | _ =>
    let z := (modeEt o.mode).sew / 8
    o.ga.toNat ≤ a && a < o.ga.toNat + o.vl * z

/-- Keep the old bytes of a destination that the copy may read again (11:R240). -/
def PeelOp.keepOld (o : PeelOp) (a n v : Nat) : PeelOp :=
  (leBytes n v).mapIdx (fun i b => (a + i, b)) |>.foldl
    (fun o (e : Nat × Byte) => if o.mayReread e.1 && !o.old.any (fun x => x.1 = e.1) then { o with old := o.old ++ [e] } else o) o

/-- The source bytes as they were before the copy overwrote them. -/
def PeelOp.oldSource (o : PeelOp) (a n v : Nat) : Nat :=
  ofBytes ((leBytes n v).mapIdx (fun i b => ((o.old.find? (fun x => x.1 = a + i)).map (·.2)).getD b))

/-- What an element of a copy takes from its source, read as v: where the copy has overwritten bytes of it, the new
bytes or the old ones, a free choice (11:R240, log 8). -/
def State.takeSource (s : State) (o : PeelOp) (e a n v : Nat) : Nat :=
  if o.old.any (fun x => a ≤ x.1 && x.1 < a + n) && !Config.peelOverlapNew s.tick e then o.oldSource a n v else v

/-- Destination address of element e. -/
def PeelOp.dest (o : PeelOp) (e : Nat) : Word := o.gd + BitVec.ofNat 64 (e * ((modeEt o.mode).sew / 8))

/-- Element e of a copy. -/
def State.copyElement (s : State) (o : PeelOp) (e : Nat) : State :=
  let n := (modeEt o.mode).sew / 8
  let src := s.copySource o e
  let dst := o.dest e
  match s.engineRead src n o.hyp with
  | .ok v t =>
    let o := match t.engineTarget dst n .write with
      | .ok k t' => o.keepOld dst.toNat n (t'.targetNow k n o.hyp)
      | _ => o
    o.endElement e s ((t.engineWrite dst n (t.takeSource o e src.toNat n v.1) v.2 o.hyp).andThen (fun _ t => .ok v.2 t))
  | .trap c v k t => o.endElement e s (.trap c v k t)
  | .fault f t => o.endElement e s (.fault f t)
  | .wait t => t

/-- An element meets no page fault: it does not park its operation, which nothing at or above it may then have passed
(10:R227, 11:R253). -/
def State.elementOpen (s : State) (o : PeelOp) (e : Nat) : Bool :=
  let n := (modeEt o.mode).sew / 8
  match s.engineTarget (s.copySource o e) n .read, s.engineTarget (o.dest e) n .write with
  | .fault _ _, _ => false
  | .ok _ _, .fault _ _ => false
  | _, _ => true

/-- The element that moves: the lowest not yet moved, or another one when no element below it meets a page fault (09:R210, 11:R240,
log 22). -/
def State.chosenElement (s : State) (o : PeelOp) (e : Option Nat) : Option Nat :=
  match e with
  | none => if o.vstart < o.vl then some o.vstart else none
  | some e =>
    if o.vstart ≤ e && e < o.vl && !natSetHas o.moved e &&
        (isRrot o.instr || (natRange o.vstart (e - o.vstart)).all (fun k => natSetHas o.moved k || s.elementOpen o k)) then some e
    else none

end Sys2Proof.Machine
end

