-- ==== Sys2Proof/Machine/Puts.lean ====
section
/-! DEFINITION. Machine/Puts.lean: racks, reservations, puts and their landing, the steps of the peel engine
(11:R231, R244 to R254, 21:R363, 22:R378, R383). -/

namespace Sys2Proof.Machine

/-! ### Racks (11:R244, R245). -/

/-- A range of bench lies in BENCH ways of the running context. -/
def State.rangeInBench (s : State) (a : Word) (n : Nat) : Bool := s.inBench a n

/-- A new pan's record. -/
def Pan.new : Pan where
  st := .free
  seq := 0
  landed := 0
  htag := 0
  hcore := 0
  hpkg := 0
  port := none
  finalPut := false

/-- The status of a definition and the rack it makes. -/
def State.rackCheck (s : State) (base tbs shape : Word) : Nat × Rack :=
  let size := (shape.extractLsb' 0 32).toNat
  let n := (shape.extractLsb' 32 7).toNat
  let span := n * size
  let b := benchOff base
  let t := benchOff tbs
  let r : Rack := { ctx := s.hart.ctxid, base := b, tbs := t, panSize := size, pans := List.replicate n Pan.new }
  let shaped := shape.extractLsb' 39 25 = 0#25 && n ≤ 64 &&
    [4096, 8192, 16384, 32768, 65536, 131072, 262144].contains size
  let clear := base.toNat + span ≤ tbs.toNat || tbs.toNat + 16 * n ≤ base.toNat
  if !(shaped && base.toNat % size = 0 && tbs.toNat % 16 = 0 && clear) then (1, r)
  else if !(s.rangeInBench base span && s.rangeInBench tbs (16 * n)) then (2, r)
  else if s.core.rack.isSome then (3, r)
  else (0, r)

/-- A definition: pans FREE, granules ENGINE, barriers zero. -/
def Core.defineRack (c : Core) (r : Rack) : Core :=
  let c := { c with rack := some r, rackGone := false }.flip r.base (r.panSize * r.pans.length) true
  (List.range r.pans.length).foldl (fun c i =>
    (c.newTb (r.tbOf i) { ae := 0, ap := 0, ef := false, ec := 0, ph := 0, ll := 0, ep := 0 }).setTrack
      { off := r.tbOf i, base := 0, landed := [] }) c

/-- The status of a removal: bits [63:39], then a rack with every pan FREE, then its context (11:R244, log 19). -/
def State.rackRemovable (s : State) (shape : Word) : Nat :=
  if shape.extractLsb' 39 25 != 0#25 then 1
  else match s.core.rack with
  | none => 3
  | some r => if r.pans.any (fun p => p.st != .free) then 3 else if r.ctx != s.hart.ctxid then 4 else 0

/-- rkdef (11:R244). -/
def execRkdef (d a b : GReg) (s : State) : Result :=
  let shape := s.g (b + 1#5)
  if shape.extractLsb' 32 7 = 0#7 then
    let st := s.rackRemovable shape
    let s' := if st = 0 then
        match s.core.rack with
        | some r => (s.mapCore (fun c => { c.flip r.base (r.panSize * r.pans.length) false with rack := none })).fitShadows
        | none => s
      else s
    .next (s'.peelResult d (BitVec.ofNat 64 st))
  else
    let k := s.rackCheck (s.g a) (s.g b) shape
    .next ((if k.1 = 0 then (s.mapCore (fun c => c.defineRack k.2)).fitShadows else s).peelResult d (BitVec.ofNat 64 k.1))

/-- Number of a pan state (11:R245). -/
def PanState.code : PanState → Nat
  | .free => 0 | .resv => 1 | .fill => 2 | .full => 3 | .poison => 4

/-- The pan a register names (11:R245, R250). -/
def State.namedPan (s : State) (v : Word) : Option Pan :=
  if v.extractLsb' 6 58 != 0#58 then none else s.myRack.bind (fun r => r.pans[v.toNat]?)

/-- The two words of a pan's record (11:R245). -/
def Pan.word0 (p : Pan) : Word := BitVec.ofNat 64 (p.seq.toNat * 2 ^ 32 + p.landed % 2 ^ 19 * 2 ^ 8 + p.st.code)
def Pan.word1 (p : Pan) : Word :=
  BitVec.ofNat 64 (p.htag.toNat * 2 ^ 32 + p.hcore.toNat * 2 ^ 12 + p.hpkg.toNat)

/-- pstat: g(d) and g(d + 1); zero for a name of no pan (11:R245). -/
def execPstat (d a : GReg) (s : State) : Result :=
  let p := s.namedPan (s.g a)
  .next (((s.setG d ((p.map Pan.word0).getD 0)).setG (d + 1#5) ((p.map Pan.word1).getD 0)).peelDone)

/-- Free pan i: granules ENGINE, holder cleared, the barrier untouched (11:R246). -/
def Core.freePan (c : Core) (r : Rack) (i : Nat) (p : Pan) : Core :=
  (c.flip (r.base + i * r.panSize) r.panSize true).setPan i
    { p with st := .free, htag := 0, hcore := 0, hpkg := 0, port := none, finalPut := false }

/-- prel: after the hart's earlier accesses the pan becomes FREE; status 3 where there is none (11:R250). -/
def execPrel (d a : GReg) (s : State) : Result :=
  match s.namedPan (s.g a), s.core.rack with
  | some p, some r =>
    if s.quiet then .next ((s.mapCore (fun c => c.freePan r (s.g a).toNat p)).fitShadows.peelResult d 0) else s.waitHere
  | _, _ => .next (s.peelResult d 3)

/-! ### Reservations (11:R246, R247). -/

/-- A refusal with a reason. -/
def refusal (n : Nat) : Word := BitVec.ofNat 64 (2 ^ 63 + n)

/-- The first FREE pan, or the one named. -/
def Rack.wanted (r : Rack) (q : Reservation) : Option Nat :=
  match q.pan with
  | some i => some i.toNat
  | none => r.pans.findIdx? (fun p => p.st = .free)

/-- The engine of this core answers a request: a token or a refusal (11:R246, R247, 23:R393). -/
def State.reserve (s : State) (q : Reservation) : State × Word :=
  if s.core.inReset then (s, refusal 4)
  else match s.core.rack with
  | none => (s, refusal (if s.core.rackGone then 4 else 3))
  | some r =>
    if (q.pan.map (fun i => decide (r.pans.length ≤ i.toNat))).getD false then (s, refusal 3)
    else match r.wanted q with
    | none => (s, refusal 2)
    | some i =>
      match r.pans[i]? with
      | none => (s, refusal 3)
      | some p =>
        if p.st != .free then (s, refusal 1)
        else
          let seq := p.seq + 1#16
          let o := r.tbOf i
          let t := s.core.tb o
          let c := s.core.setPan i
            { st := .resv, seq := seq, landed := 0, htag := q.htag, hcore := q.hcore, hpkg := q.hpkg, port := q.port,
              finalPut := false }
          let c := (c.newTb o { t with ae := 1, ap := 1, ec := 0, ef := false, ll := 0, ep := 0 }).setTrack
            { off := o, base := 0, landed := [] }
          ({ s with core := c }.fitShadows, BitVec.ofNat 64 (seq.toNat * 2 ^ 32 + q.sport.toNat * 2 ^ 28 + i * 2 ^ 21
            + q.core.toNat * 2 ^ 12 + s.pkg.mypkg.toNat))

/-- An answer by a port, none over the mesh, from a package: it is that of the oldest request sent there. It reaches the hart
that waits for it, or is recorded in the entry of its SAVED gang, ANS and the answer, a poisoned word 0 staying poisoned; one that nobody waits for is dropped
(11:R247, 13:R288). -/
def State.answerPrsv (s : State) (port : Option Port) (pkg : BitVec 12) (v : Word) : State :=
  match s.pkg.prsvOut.find? (fun x => x.port = port && x.pkg = pkg) with
  | none => s
  | some x =>
    let s := s.mapPkg (fun p => { p with prsvOut := p.prsvOut.eraseP (fun x => x.port = port && x.pkg = pkg) })
    match s.hart.run, decide (x.gangid = some s.hart.gangid) with
    | .waitPrsv p, true => (s.setG p.d v).mapHart (fun h => { h with run := .running })
    | _, _ =>
      match s.pkg.saved.find? (fun g => x.gangid = some g.gangid) with
      | some g =>
        match g.prsv with
        | some a =>
          ((s.pokeOver a (s.peek a 8 % 2 ^ 36 ||| 2 ^ 35)).poke (a + 0x40) 8 v.toNat).mapPkg (fun p => { p with
            saved := p.saved.map (fun y => if y.gangid = g.gangid then { y with prsv := none } else y) })
        | none => s
      | none => s

/-- The reservation that a descriptor asks for. -/
def State.reservationOf (s : State) (v tag : Word) : Reservation :=
  { hpkg := s.pkg.mypkg, hcore := s.core.num, htag := tag.setWidth 16, port := none, sport := v.extractLsb' 28 3,
    core := v.extractLsb' 12 9, pan := if v.getLsbD 27 then none else some (v.extractLsb' 21 6) }

/-- The hart goes on after a prsv and waits for its answer. -/
def State.waitPrsv (s : State) (p : PrsvOp) (port : Option Port) (pkg : BitVec 12) : State :=
  let s := s.clearVstart.retire
  { s.mapHart (fun h => { h with run := .waitPrsv p }) with
    pkg := { s.pkg with prsvOut := s.pkg.prsvOut ++ [{ gangid := some s.hart.gangid, port := port, pkg := pkg }] } }

/-- prsv: a bad descriptor, a lost port and a package without a route answer at once; this core's engine answers in the step;
another core or package is asked and the hart waits before its next instruction (11:R247, 22:R381, log 95). -/
def execPrsv (d a b : GReg) (s : State) : Result :=
  let v := s.g a
  let port := v.extractLsb' 28 3
  let pkg := v.extractLsb' 0 12
  let q := s.reservationOf v (s.g b)
  let p : PrsvOp := { d := d, a := a, b := b, mode := s.hart.mode, vl := s.hart.vl, vstart := s.hart.start, srseed := s.hart.srseed,
                      srcount := s.hart.srcount, ga := v, gb := s.g b }
  if s.peelFull then s.waitHere
  else if v.extractLsb' 31 33 != 0#33 then .next (s.peelResult d (refusal 7))
  else if pkg = s.pkg.mypkg then
    if q.core = s.core.num then
      let r := s.reserve q
      .next (r.1.peelResult d r.2)
    else .next (s.waitPrsv p none pkg)
  else if (s.pkg.port port).st = .lost || !(s.peerRoute pkg).v then .next (s.peelResult d (refusal 5))
  else .next ((s.mapPkg (fun k => k.send port [mkFlit pkg (.reservationRequest q) none])).waitPrsv p (some port) pkg)

/-- RESERVATION_REQUEST: another agent's request reaches this core's engine; over a port the answer goes back as a
flit, over the mesh it goes to a core outside the model (11:R246, R247). -/
def execReservationRequest (q : Reservation) (s : State) : Result :=
  if q.core = s.core.num then
    let r := s.reserve q
    .next (match q.port with
      | some k => r.1.mapPkg (fun p => p.send k [mkFlit q.hpkg (.reservationAnswer q.hcore r.2) none])
      | none => r.1)
  else .next s

/-- RESERVATION_ANSWER: the token or refusal of another core of the package reaches g(d) (11:R247). -/
def execReservationAnswer (v : Word) (s : State) : Result := .next (s.answerPrsv none s.pkg.mypkg v)

/-! ### Issue of puts (11:R239, R248). -/

/-- The checks of bput and vput; vput has no source address. -/
def State.putChecks (s : State) (off b : Word) (src : Option Word) : List (Bool × BitVec 8 × Word) :=
  [aligned off s.peelSize, aligned (src.getD 0) s.peelSize, aligned b 16, s.tbOk b, (s.inRackWay b, 0x03#8, b),
   ((src.map (fun a => s.inBench (s.firstElem a) s.peelBytes)).getD true, 0x03#8, s.firstElem (src.getD 0)),
   (s.hart.hyp = 0#12, 0x07#8, 0)]

/-- Issue a bput. -/
def State.issueBput (s : State) (i : Instr) (d a b : GReg) : Result :=
  s.peelChecked (s.putChecks (s.g (d + 1#5)) (s.g b) (some (s.g a)))
    (s.issuePeel i (s.g d) (s.g (d + 1#5)) (s.g a) (s.g b) false)

/-- Issue a vput: the grant whole in ARRAY mode, an even register at SEW 64 (11:R231, R238). -/
def State.issueVput (s : State) (i : Instr) (d : GReg) (x : VReg) (b : GReg) : Result :=
  if !(s.arrayReady && evenAt x (modeEt s.hart.mode).sew) then .next (s.illegalInstr i)
  else s.peelChecked (s.putChecks (s.g (d + 1#5)) (s.g b) none)
    (s.issuePeel i (s.g d) (s.g (d + 1#5)) 0 (s.g b) true)

/-- bput (11:R248). -/
def execBput (d a b : GReg) (s : State) : Result := s.issueBput (.bput d a b) d a b

/-- bput.f: a final put (11:R248). -/
def execBputF (d a b : GReg) (s : State) : Result := s.issueBput (.bputF d a b) d a b

/-- vput (11:R248). -/
def execVput (d : GReg) (x : VReg) (b : GReg) (s : State) : Result := s.issueVput (.vput d x b) d x b

/-- vput.f: a final put (11:R248). -/
def execVputF (d : GReg) (x : VReg) (b : GReg) (s : State) : Result := s.issueVput (.vputF d x b) d x b

/-! ### Landing at a pan (11:R246, R248, R249, 21:R363, 22:R383, R397). -/

/-- The put residue of bytes from an even offset: 16-bit little-endian words, an odd last byte padded (21:R363). -/
def residueSum : List Byte → Nat
  | [] => 0
  | [a] => a.toNat
  | a :: b :: rest => a.toNat + 256 * b.toNat + residueSum rest

/-- The residue. -/
def putResidue (bs : List Byte) : BitVec 16 := BitVec.ofNat 16 (residueSum bs % 65535)

/-- The entry of a put that is landing. -/
def Landing.is (l : Landing) (f : PutFlit) : Bool :=
  l.spkg = f.spkg && l.port = f.port && l.ref = f.ref && l.base = f.base && l.count = f.count

/-- Why this core refuses a flit of a put, none when it lands; its header answers for every granule of the put (11:R249). -/
def State.putRefusal (s : State) (f : PutFlit) (l : Landing) (first : Bool) : Option (BitVec 4) :=
  if s.core.inReset || l.gone || (s.core.rack.isNone && s.core.rackGone) then some 3#4
  else match s.core.rack with
  | none => some 6#4
  | some r =>
    match r.pans[f.ref.pan.toNat]? with
    | none => some 6#4
    | some p =>
      let at_ := r.base + f.ref.pan.toNat * r.panSize + f.base
      if !(p.st = .resv || p.st = .fill) || p.seq != f.ref.seq then some 6#4
      else if r.panSize < f.base + f.count then some 6#4
      else if !(if first then granules at_ f.count else granules (at_ + f.start) f.data.length).all s.core.engineOwned then
        some 5#4
      else none

/-- The header of a put reaches its pan: EP counts its bytes and the pan is in FILL (11:R246, R248). -/
def Core.countPut (c : Core) (r : Rack) (i n : Nat) : Core :=
  match r.pans[i]? with
  | none => c
  | some p =>
    let t := c.tb (r.tbOf i)
    ((c.setTb (r.tbOf i) { t with ep := t.ep + BitVec.ofNat 32 n }).tbSettle (r.tbOf i)).setPan i { p with st := .fill }

/-- The bytes of a piece are written, with the poison they carry. -/
def Core.landBytes (c : Core) (r : Rack) (f : PutFlit) : Core :=
  let a := r.base + f.ref.pan.toNat * r.panSize
  let c := if f.data.isEmpty then c else c.benchWrite (a + f.base + f.start) f.data
  { c with benchPoison := f.poison.foldl (fun m w => natSetPut m (a / 8 + w) true) c.benchPoison }

/-- A piece of a put lands: its bytes, then one update of the pan's barrier: with an error the pan is POISON, the last byte of
a final put counts the arrival, and a pan whose final put has landed is FULL once nothing is counted (11:R236, R246, R397). -/
def Core.landPiece (c : Core) (r : Rack) (f : PutFlit) (err : Option (BitVec 4)) (ends : Bool) : Core :=
  let i := f.ref.pan.toNat
  let o := r.tbOf i
  let c := c.landBytes r f
  match c.rack.bind (fun k => k.pans[i]?) with
  | none => c
  | some p =>
    let idx := natRange (f.base + f.start) f.data.length
    let p := { p with landed := p.landed + f.data.length }
    match err with
    | some e => (c.tbLanding o idx (·.spoil e p.finalPut)).setPan i { p with st := .poison }
    | none =>
      let ph := (c.tb o).ph
      let c := c.tbLand o idx none ends
      let full := (p.finalPut || ends) && ((c.tb o).ph != ph || (c.tb o).ep = 0#32)
      c.setPan i { p with finalPut := p.finalPut || ends, st := if full then .full else p.st }

/-- Forget a put that has ended. -/
def Core.dropLanding (c : Core) (f : PutFlit) : Core := { c with landing := c.landing.filter (fun l => !l.is f) }

/-- A flit of a put reaches its pan. Answers the code its sender is told, none where nothing is told: the flit landed,
or its put was refused before. -/
def State.landFlit (s : State) (f : PutFlit) (first : Bool) : State × Option (BitVec 4 × Nat) :=
  let fresh := Landing.mk f.spkg f.port f.ref f.base f.count f.final f.residue 0 0 false false
  let l? := if first then some fresh else s.core.landing.find? (fun l => l.is f)
  match l? with
  | none => (s, none)
  | some l =>
    let last := l.count ≤ f.start + f.data.length
    if l.refused then (if last then s.mapCore (·.dropLanding f) else s, none)
    else match s.putRefusal f l first, s.core.rack with
    | some ec, _ =>
      let c := s.core.dropLanding f
      ({ s with core := if last then c else { c with landing := c.landing ++ [{ l with refused := true }] } }, some (ec, l.done))
    | none, none => (s, none)
    | none, some r =>
      let i := f.ref.pan.toNat
      let l := { l with done := l.done + f.data.length, sum := l.sum + residueSum f.data }
      let wrong := last && BitVec.ofNat 16 (l.sum % 65535) != l.residue
      let err := if !f.poison.isEmpty then some 1#4 else if wrong then some 8#4 else none
      let c := if first then s.core.countPut r i l.count else s.core
      let c := (c.landPiece r f err (last && l.final)).dropLanding f
      let c := if last then c else { c with landing := c.landing ++ [l] }
      let s := { s with core := c }.fitShadows
      if err = some 8#4 then
        (s.recordUe 13#4 (BitVec.ofNat 64 (3 * 2 ^ 62 + r.base + i * r.panSize)), some (8#4, l.done))
      else (s, none)

/-- Tell the sender of a put, over the port it came by; a sender over the mesh is outside the model. -/
def State.tellSender (s : State) (f : PutFlit) (e : Option (BitVec 4 × Nat)) : State :=
  match e, f.port with
  | some (ec, done), some k =>
    s.mapPkg (fun p => p.send k [mkFlit f.spkg (.putStatus { ref := f.ref, ec := ec, done := done }) none])
  | _, _ => s

/-- A flit of a put for this core's pan. -/
def State.receivePut (s : State) (f : PutFlit) (first : Bool) : State :=
  if f.ref.core = s.core.num then
    let r := s.landFlit f first
    r.1.tellSender f r.2
  else s

/-- PUT_FIRST_FLIT: a put header reaches the pan (11:R248). -/
def execPutFirstFlit (p : PutFlit) (s : State) : Result := .next (s.receivePut p true)

/-- PUT_CONTINUATION_FLIT: put data bytes land (11:R248). -/
def execPutContinuationFlit (p : PutFlit) (s : State) : Result := .next (s.receivePut p false)

/-- PAN_DISCARD_NOTICE: the sending gang was discarded (11:R246, 21:R370). -/
def execPanDiscardNotice (r : PanRef) (s : State) : Result :=
  if r.core = s.core.num then .next (s.mapCore (fun c => c.discardPan r)) else .next s

/-! ### The sender's side (11:R248, 22:R378, R383). -/

/-- Elements of a put land at the sender, by phase index, and the last ones end the put (11:R236, 22:R378). -/
def State.landSent (s : State) (id : Nat) (idx : List Nat) : State :=
  match s.core.peel.find? (fun o => o.id = id) with
  | none => s
  | some o =>
    let now := idx.filter o.sent.contains
    let o' := { o with sent := o.sent.filter (fun i => !now.contains i) }
    let last := o'.sent.isEmpty && o'.vl ≤ o'.vstart
    (s.mapCore (fun c =>
      let c := c.tbLand o.tbAddr now none last
      if last then c.closeSide o' else c.setPeel o')).fitShadows

/-- The port that a put's token names. -/
def PeelOp.tokPort (o : PeelOp) : Port := o.gd.extractLsb' 28 3

/-- The oldest put under way to a pan of a package, by the port given or over the mesh (22:R383). -/
def Core.putTo (c : Core) (r : PanRef) (pkg : BitVec 12) (port : Option Port) : Option PeelOp :=
  c.peel.find? (fun o => isPut o.instr && o.gone && o.ref = r && o.tokPkg = pkg && port.all (fun k => k = o.tokPort))

/-- A refusal reaches the sender: the prefix performed before it has landed, the rest leaves EP, the arrival is
counted (22:R383). -/
def State.refusePut (s : State) (o : PeelOp) (ec : BitVec 4) (done : Nat) : State :=
  let z := (modeEt o.mode).sew / 8
  let start := o.base - o.count
  let idx := (natRange start (done / z)).filter o.sent.contains
  let s := s.mapCore (fun c => c.tbLand o.tbAddr idx none false)
  s.endSide { o with sent := o.sent.filter (fun i => !idx.contains i) } ec

/-- PUT_STATUS: over the mesh, the status ends the oldest put that names its pan of this package (22:R383). -/
def execPutStatus (p : PutStatusMsg) (s : State) : Result :=
  match s.core.putTo p.ref s.pkg.mypkg none with
  | some o => .next (s.refusePut o p.ec p.done)
  | none => .next s

/-- Bytes of a put and the words, by offset from its first byte, that are poisoned. -/
def State.putBytes (s : State) (o : PeelOp) : List Byte × Bool :=
  let sew := (modeEt o.mode).sew
  let z := sew / 8
  let n := o.vl - o.vstart
  match o.instr with
  | .vput _ x _ => ((natRange o.vstart n).flatMap (fun e => leBytes z (s.vGet x sew e)), false)
  | .vputF _ x _ => ((natRange o.vstart n).flatMap (fun e => leBytes z (s.vGet x sew e)), false)
  | _ =>
    let a := benchOff o.ga + o.vstart * z
    (cellsGet s.core.bench a (n * z), s.core.benchPoisoned a (n * z))

/-- Poisoned pan words of the bytes [start, start + n) of a put from bench. -/
def State.putPoison (s : State) (o : PeelOp) (start n : Nat) : List Nat :=
  match o.instr with
  | .vput .. => []
  | .vputF .. => []
  | _ =>
    let z := (modeEt o.mode).sew / 8
    let a := benchOff o.ga + o.vstart * z
    ((List.range n).filterMap (fun k =>
      if natSetHas s.core.benchPoison ((a + start + k) / 8) then some ((o.gd1.toNat + start + k) / 8) else none)).eraseDups

/-- A final put. -/
def isFinal : Instr → Bool
  | .bputF .. => true
  | .vputF .. => true
  | _ => false

/-- Cut a put into flits: 224 bytes after the header, then 240 in each (11:R248, 22:R376). Start offset and bytes. -/
def putPieces (bs : List Byte) : Nat → Nat → Nat → List (Nat × List Byte)
  | 0, _, _ => []
  | k + 1, at_, size =>
    let piece := (bs.drop at_).take size
    (at_, piece) :: (if bs.length ≤ at_ + size then [] else putPieces bs k (at_ + size) 240)

/-- The flits of a put and the phase indices that land with each (22:R378). -/
def State.putFlits (s : State) (o : PeelOp) (bs : List Byte) : List (PutFlit × List Nat) :=
  let z := (modeEt o.mode).sew / 8
  (putPieces bs (bs.length / 240 + 2) 0 224).map (fun (x : Nat × List Byte) =>
    let lo := x.1 / z
    let hi := (x.1 + x.2.length) / z
    (PutFlit.mk o.ref s.pkg.mypkg none o.gd1.toNat bs.length (isFinal o.instr) (putResidue bs) x.1 x.2
       (s.putPoison o x.1 x.2.length),
     natRange (o.base + lo) (hi - lo)))

/-- Flits land one after the other at a pan of this core; the first refusal ends the put (11:R249). -/
def State.landAll (s : State) (id : Nat) : List (PutFlit × List Nat) → Bool → State
  | [], _ => s
  | (f, idx) :: rest, first =>
    let r := s.landFlit f first
    match r.2, r.1.core.peel.find? (fun o => o.id = id) with
    | some (ec, done), some o => r.1.refusePut o ec done
    | _, _ => State.landAll (r.1.landSent id idx) id rest false

/-- A put that has not gone out. -/
def PeelOp.unsent (o : PeelOp) : Bool := isPut o.instr && !o.out && !o.gone

/-- An earlier put to the same package, or to the same core of this one, has still to leave: puts leave in issue order
(11:R233, R246). -/
def State.putHeld (s : State) (o : PeelOp) : Bool :=
  (s.core.peel.takeWhile (fun x => x.id != o.id)).any (fun x =>
    x.unsent && x.tokPkg = o.tokPkg && (x.tokPkg != s.pkg.mypkg || x.ref.core = o.ref.core))

/-- The port that a put's token names is lost (11:R252). -/
def State.putLost (s : State) (o : PeelOp) : Bool :=
  o.tokPkg != s.pkg.mypkg && (s.pkg.port o.tokPort).st = .lost

/-- The rows of vx that a vput reads. -/
def State.putRows (s : State) (o : PeelOp) : List Nat :=
  let rows (x : VReg) : List Nat := slotRows x (modeEt o.mode).sew s.hart.lanes o.vstart (o.vl - o.vstart)
  match o.instr with
  | .vput _ x _ => rows x
  | .vputF _ x _ => rows x
  | _ => []

/-- A HART granule among the bytes that a bput reads. -/
def State.putSourceHeld (s : State) (o : PeelOp) : Bool :=
  let z := (modeEt o.mode).sew / 8
  let held := !(granules (benchOff o.ga + o.vstart * z) ((o.vl - o.vstart) * z)).all s.core.engineOwned
  match o.instr with
  | .bput .. => held
  | .bputF .. => held
  | _ => false

/-- The engine reads the source of a bput: single-bit errors of its words are corrected, and a poisoned one is an event at that word
and EC 1 while its elements are counted (11:R253, 21:R358, R373). -/
def State.readSource (s : State) (o : PeelOp) : State :=
  match o.instr with
  | .vput .. => s
  | .vputF .. => s
  | _ =>
    let z := (modeEt o.mode).sew / 8
    let a := benchOff o.ga + o.vstart * z
    let n := (o.vl - o.vstart) * z
    let s := if n = 0 then s else s.correct (.bench a) n
    match (if n = 0 then [] else natRange (a / 8) ((a + n + 7) / 8 - a / 8)).find? (natSetHas s.core.benchPoison) with
    | none => s
    | some w => (s.recordUe 2#4 (BitVec.ofNat 64 (3 * 2 ^ 62 + w * 8))).mapCore (fun c => c.tbError o.tbAddr 1#4)

/-- The words of a pan that a flit's bytes lie in. -/
def flitWords (f : PutFlit) : List Nat :=
  let a := f.base + f.start
  if f.data.isEmpty then [] else natRange (a / 8) ((a + f.data.length + 7) / 8 - a / 8)

/-- The flits of a put leave the core over the mesh: an error there poisons the first (21:R357). -/
def State.meshPut (s : State) (fs : List (PutFlit × List Nat)) : State × List (PutFlit × List Nat) :=
  if s.core.meshFault then
    (s.mapCore (fun c => { c with meshFault := false }),
      match fs with
      | (f, idx) :: rest => ({ f with poison := flitWords f }, idx) :: rest
      | [] => [])
  else (s, fs)

/-- A put goes out with every element it has: to a pan of this core at once, to another core over the mesh, or to its port
(11:R248, R233). One without elements counts its arrival when the receiver has taken its header (log 106). -/
def State.sendPut (s : State) (o : PeelOp) : State :=
  let n := o.vl - o.vstart
  let fs := s.putFlits o (s.putBytes o).1
  let s := (s.readSource o).mapCore (fun c =>
    c.setPeel { o with vstart := max o.vstart o.vl, base := o.base + n, sent := natRange o.base n, gone := true })
  if o.tokPkg = s.pkg.mypkg && o.ref.core = s.core.num then s.landAll o.id fs true
  else
    let m := s.meshPut fs
    if o.tokPkg = s.pkg.mypkg then m.1
    else m.1.mapPkg (fun p => p.send o.tokPort (m.2.mapIdx (fun i (x : PutFlit × List Nat) =>
      mkFlit o.tokPkg (if i = 0 then .putFirst x.1 else .putContinuation x.1) (some (o.id, x.2)))))

/-- A put moves: it waits for earlier ones, a lost port ends it with EC 2, a HART granule of its source with EC 5, and a row
of vx that does not match its parity with EC 1, nothing being sent (11:R248, R252, 21:R360, R361, log 97). -/
def State.movePut (s : State) (o : PeelOp) : State :=
  if s.putHeld o then s
  else if s.putLost o then s.endSide o 2#4
  else if s.putSourceHeld o then s.endSide o 5#4
  else match s.badRow (s.putRows o) with
    | some id => (s.endSide o 1#4).arrayErrorAt o.pc 3#4 (arrayLoc id 0 false) (s.core.units.filter (fun u => isFrame u.instr))
    | none => s.sendPut o

/-! ### rrot (11:R251). -/

/-- Source address of element e of an rrot. -/
def PeelOp.rotateFrom (o : PeelOp) (e : Nat) : Word := o.ga + BitVec.ofNat 64 (e * ((modeEt o.mode).sew / 8))

/-- An error ends both sides of an rrot. -/
def State.endRotation (s : State) (o : PeelOp) (code : BitVec 4) : State :=
  (s.mapCore (fun c => (c.endOp o code).dropPeel o)).fitShadows

/-- Element e of the rrot of a gang of one: it lands on this core's bench, an outgoing and an incoming element, and the last
counts both arrivals. -/
def State.rotateHere (s : State) (o : PeelOp) (e : Nat) (v : Nat) (poison : Bool) : State :=
  let z := (modeEt o.mode).sew / 8
  match s.engineWrite (o.dest e) z v poison o.hyp with
  | .ok _ s =>
    let o' := { o.after e with incoming := o.incoming - 1 }
    let last := o'.vl ≤ o'.vstart
    let s := s.mapCore (fun c =>
      let c := c.tbLand o.tbAddr [o.index e] (poisonCode poison) last
      let c := c.tbLand o.tbAddr [o.index e + o.count] none last
      if last then c.dropPeel o' else c.setPeel o')
    s.fitShadows.afterPoison poison
  | .trap c _ _ s => s.endRotation o (peelCode c)
  | .fault f s => s.parkPeel o f
  | .wait s => s

/-- Outgoing element e of an rrot: in a gang of one it lands here; in a larger gang at the successor, which may refuse it with
a code (log 27). -/
def State.rrotOut (s : State) (o : PeelOp) (e : Nat) (refused : Option (BitVec 4)) : State :=
  match s.engineRead (o.rotateFrom e) ((modeEt o.mode).sew / 8) 0#12 with
  | .ok v t =>
    if s.hart.gsize = 1#10 then t.rotateHere o e v.1 v.2
    else match refused with
      | some code => t.endSide o code
      | none => t.landElement o e v.2
  | .trap c v k t =>
    if s.hart.gsize = 1#10 then t.endRotation o (peelCode c) else o.endElement e s (.trap c v k t)
  | .fault f t => o.endElement e s (.fault f t)
  | .wait t => t

/-- How many elements of the predecessor have come without a gap. -/
def PeelOp.inPrefix (o : PeelOp) : Nat := o.count - o.incoming - o.arrived.length

/-- The place among the incoming elements of the one that arrives: the lowest that has not come, or element e (09:R210). -/
def PeelOp.inPlace (o : PeelOp) (e : Option Nat) : Option Nat :=
  match e with
  | none => if 0 < o.incoming then some o.inPrefix else none
  | some e =>
    let k := e - (o.vl - o.count)
    if o.vl - o.count ≤ e && e < o.vl && o.inPrefix ≤ k && !natSetHas o.arrived k then some k else none

/-- Incoming element k has come. -/
def PeelOp.afterIn (o : PeelOp) (k : Nat) : PeelOp :=
  let m := natSetPut o.arrived k true
  let v := leastMissing m m.length o.inPrefix
  { o with incoming := o.incoming - 1, arrived := sparseDrop (fun i => i < v) m }

/-- Incoming element k of the predecessor arrives, poisoned or not: it lands at g(d) in ENGINE granules, else it is refused there and
nothing changes here. The last one counts the second arrival. -/
def State.rrotIn (s : State) (o : PeelOp) (k : Nat) (v : Word) (poison : Bool) : State :=
  let z := (modeEt o.mode).sew / 8
  match s.engineWrite (o.dest (o.vl - o.count + k)) z (v.toNat % 2 ^ (8 * z)) poison o.hyp with
  | .ok _ s =>
    let idx := o.base + (o.vl - o.vstart) + k
    let o' := o.afterIn k
    let last := o'.incoming = 0
    let s := s.mapCore (fun c =>
      let c := c.tbLand o.tbAddr [idx] (poisonCode poison) last
      if last && o.ended then c.dropPeel o' else c.setPeel o')
    s.fitShadows.afterPoison poison
  | _ => s

/-! ### The steps of the engine (11:R231). -/

/-- PEEL_OP_START: the oldest queued operation starts when fewer than eight are active and no freeze is on (23:R387). A put over a lost port ends as it
starts; an operation without elements is complete, but for a put, whose header still goes out, and an rrot whose incoming side
goes on after a resume (11:R231, R232, R251, R252). -/
def execPeelOpStart (s : State) : Result :=
  if s.hart.trigger || s.pkg.freezing || 8 ≤ s.core.peel.countP (·.active) then .next s
  else match s.core.peel.find? (fun o => !o.active) with
  | none => .next s
  | some o =>
    let o := { o with active := true }
    let s := s.mapCore (fun c => c.setPeel o)
    if isPut o.instr && s.putLost o then .next (s.endSide o 2#4)
    else if o.vstart < o.vl then .next s
    else if isPut o.instr then .next (s.movePut o)
    else if isRrot o.instr then
      if o.count = 0 then
        .next (s.mapCore (fun c => ((c.tbFinish o.tbAddr 0 none).tbFinish o.tbAddr 0 none).dropPeel o)).fitShadows
      else .next s
    else .next (s.mapCore (fun c => (c.tbFinish o.tbAddr 0 none).dropPeel o)).fitShadows

/-- One element of an active operation. -/
def State.peelStep (s : State) (o : PeelOp) (m : PeelMove) : State :=
  match o.parked with
  | some _ => if o.unresolved then s.endSide o 4#4 else s
  | none =>
    if isPut o.instr then
      if o.unsent then s.movePut o
      else if o.tokPkg = s.pkg.mypkg then s.landSent o.id (o.sent.take 1)
      else s
    else if isRrot o.instr then
      match m with
      | .incoming e v poison =>
        match (if s.hart.gsize != 1#10 then o.inPlace e else none) with
        | some k => s.rrotIn o k v poison
        | none => s
      | .own e refused =>
        match s.chosenElement o e with
        | some e => s.rrotOut o e refused
        | none => s
    else match m with
      | .own e _ =>
        match s.chosenElement o e with
        | some e => s.copyElement o e
        | none => s
      | .incoming .. => s

/-- PEEL_ELEMENT: an element access of the k-th active operation completes, or for an rrot an element of the
predecessor arrives (11:R240, R248, R251, R253). -/
def execPeelElement (k : Nat) (m : PeelMove) (s : State) : Result :=
  if s.hart.trigger then .next s
  else match (s.core.peel.filter (·.active))[k]? with
  | none => .next s
  | some o => .next (s.peelStep o m)

end Sys2Proof.Machine
end

