-- ==== Sys2Proof/Machine/Ways.lean ====
section
/-! DEFINITION. Machine/Ways.lean: conversion and release of ways, and the cache and bench instructions (08:R178 to
R186). -/

namespace Sys2Proof.Machine

/-! ### Conversion (08:R178 to R181). -/

/-- Some way named by the mask satisfies a test. -/
def anyWay (m : BitVec 8) (q : Nat → Bool) : Bool := (List.range 8).any (fun k => m.getLsbD k && q k)

/-- The mode of way k. -/
def Core.modeOf (c : Core) (k : Nat) : Option WayMode := c.ways[k]?.map (·.mode)

/-- g(a)[63:8] not zero, bit 0 set, or an empty mask (08:R179). -/
def badMask (v : Word) : Bool := v.extractLsb' 8 56 != 0#56 || v.getLsbD 0 || v.extractLsb' 0 8 = 0#8

/-- Versions tagged with a hypothesis that stand in the named ways. -/
def State.versionsIn (s : State) (m : BitVec 8) : List Version :=
  s.pkg.versions.filter (fun v => match v.place with
    | .way w => m.getLsbD w.toNat
    | _ => false)

/-- A line or a version is locked in the named ways. -/
def State.locksIn (s : State) (m : BitVec 8) : Bool :=
  s.core.lines.any (fun l => m.getLsbD l.way.toNat && !l.lock.isEmpty) || (s.versionsIn m).any (fun v => !v.lock.isEmpty)

/-- The overflow areas have room for versions: each one that has no slot yet takes a slot of its own context's area (08:R179,
17:R326). -/
def State.spillsFit (s : State) (vs : List Version) : Bool :=
  let new := vs.filter (fun v => (s.findSlot v.line v.id).isNone)
  let owner (v : Version) : BitVec 8 := (s.pkg.hypEntry v.id).owner
  new.all (fun v => new.countP (fun x => owner x = owner v) ≤ s.freeSlots (s.pkg.hypArea v.id))

/-- The status of a wconv (08:R179). -/
def State.wconvStatus (s : State) (v : Word) (target : WayMode) : Nat :=
  let m : BitVec 8 := v.setWidth 8
  if badMask v then 1
  else if anyWay m (fun k => s.core.modeOf k != some .cache) then 2
  else if anyWay m (fun k => s.hart.lanesWays.getLsbD k != (target == .array)) then 3
  else if s.locksIn m then 4
  else if !s.spillsFit (s.versionsIn m) then 5
  else 0

/-- A line leaves in a conversion: D is written back, O released, V dropped (08:R169). A line that goes to I is no longer
locked, and LOCKUSE counts it no more: the rule says both that a line is locked in any state except I and that it stays locked
through every transition but eviction (DESIGN CHOICE, log 20). -/
def State.convertLine (s : State) (l : Line) : State :=
  if l.st = .v then s.dropLines (fun x => x.line = l.line && x.hyp = l.hyp) else s.writeBack l none

/-- A number in its place in an ascending list without repeats. -/
def insertNat (n : Nat) : List Nat → List Nat
  | [] => [n]
  | x :: xs => if n < x then n :: x :: xs else if n = x then x :: xs else x :: insertNat n xs

/-- The sets of way k that hold an entry, in the order of the scan. -/
def State.setsOf (s : State) (k : Nat) : List Nat :=
  ((s.core.lines.filter (fun l => l.way.toNat = k)).map (fun l => setOf l.line) ++
    (s.versionsIn (BitVec.ofNat 8 (2 ^ k))).map (fun v => setOf v.line)).foldr insertNat []

/-- The entry of a set of way k leaves: a line by its state, a version to its context's overflow area with its tag (08:R180,
17:R326). -/
def State.convertSet (s : State) (k set : Nat) : State :=
  match s.core.lines.find? (fun l => l.way.toNat = k && setOf l.line = set) with
  | some l => s.convertLine l
  | none =>
    match (s.versionsIn (BitVec.ofNat 8 (2 ^ k))).find? (fun v => setOf v.line = set) with
    | some v =>
      let m := (s.versionTime v).throughMesh v.line v.poison
      (m.1.spill { v with poison := m.2 }).settle v.line
    | none => s

/-- Way k is emptied in set order: every entry, and the race records of its lines (08:R180). -/
def State.emptyWay (s : State) (k : Nat) : State :=
  let lines := (s.core.lines.filter (fun l => l.way.toNat = k)).map (·.line) ++
    (s.versionsIn (BitVec.ofNat 8 (2 ^ k))).map (·.line)
  let s := (s.setsOf k).foldl (fun s set => s.convertSet k set) s
  s.mapPkg (fun p => { p with races := sparseDrop (fun w => lines.contains (w / 8)) p.races })

/-- The named ways take their new mode with zero contents; granules are HART and words valid (08:R180). -/
def State.enterMode (s : State) (m : BitVec 8) (target : WayMode) : State :=
  let off (b : Nat) : Bool := m.getLsbD (b / 2 ^ 20 + 1)
  s.mapCore (fun c => { c with
    ways := Vector.ofFn (fun i : Fin 8 => if m.getLsbD i.val then { mode := target, ctx := s.hart.ctxid } else c.ways[i])
    vrows := sparseDrop (fun k => m.getLsbD (keyWay k)) c.vrows
    prows := sparseDrop (fun k => m.getLsbD (keyWay k)) c.prows
    bench := sparseDrop off c.bench
    benchInvalid := sparseDrop (fun w => off (w * 8)) c.benchInvalid
    benchPoison := sparseDrop (fun w => off (w * 8)) c.benchPoison
    softBench := sparseDrop (fun w => off (w * 8)) c.softBench
    badRows := sparseDrop (fun k => m.getLsbD (k / 2 ^ 16)) c.badRows
    benchEngine := sparseDrop (fun g => off (g * 4096)) c.benchEngine })

/-- VDIRTY and PDIRTY after a conversion to ARRAY: zero for the grant's first ARRAY way, else all ones (08:R180). -/
def State.convertDirty (s : State) (before : Bool) : State :=
  if before then s.mapHart (fun h => { h with vdirty := 0xFFFF#16, pdirty := 0xFFFFFFFE#32 })
  else { s with hart := { s.hart with vdirty := 0, pdirty := 0 }, core := { s.core with vv := 0, pv := 0 } }

/-- wconv to a mode: waits for the hart's array-side and peel work, checks, converts, writes the status
(08:R178 to R180). -/
def State.wconv (s : State) (d a : GReg) (target : WayMode) : Result :=
  if !s.enginesQuiet then s.waitHere
  else
    let m : BitVec 8 := (s.g a).setWidth 8
    let st := s.wconvStatus (s.g a) target
    if st != 0 then .next (s.result d (BitVec.ofNat 64 st))
    else
      let before := anyWay s.hart.lanesWays (fun k => s.core.modeOf k = some .array)
      let s := (natRange 1 7).foldl (fun s k => if m.getLsbD k then s.emptyWay k else s) s
      let s := s.enterMode m target
      let s := if target = .array then s.convertDirty before else s
      .next (s.result d 0)

/-- wconv to ARRAY (08:R178). -/
def execWconvArray (d a : GReg) (s : State) : Result := s.wconv d a .array

/-- wconv to BENCH (08:R178). -/
def execWconvBench (d a : GReg) (s : State) : Result := s.wconv d a .bench

/-- Way k is pinned: not CACHE, and recorded for another context (08:R166). -/
def State.pinned (s : State) (k : Nat) : Bool :=
  (s.core.ways[k]?.map (fun w => w.mode != .cache && w.ctx != s.hart.ctxid)).getD false

/-- The status of a wrel (08:R179). -/
def State.wrelStatus (s : State) (v : Word) : Nat :=
  let m : BitVec 8 := v.setWidth 8
  if badMask v then 1
  else if anyWay m s.pinned then 2
  else if (m &&& s.core.rackWays) != 0#8 then 3
  else 0

/-- wrel: the named ways return to CACHE, their contents discarded (08:R181). -/
def execWrel (d a : GReg) (s : State) : Result :=
  if !s.enginesQuiet then s.waitHere
  else
    let st := s.wrelStatus (s.g a)
    if st != 0 then .next (s.result d (BitVec.ofNat 64 st))
    else .next ((s.releaseWays ((s.g a).setWidth 8)).result d 0)

/-! ### Cache instructions (08:R183 to R185). -/

/-- Earlier stores of the hart to the line are still queued, or a unit's access is still to be made (08:R184). -/
def State.lineBusy (s : State) (line : Nat) : Bool :=
  s.memBusy || s.queuedOver (.mem (line * 64) .wb false) 64

/-- The committed line of cached memory, none for bench, UC and peer addresses. -/
def cachedLine : Target → Option Nat
  | .bench _ => none
  | .mem dpa mt _ => match mt with
    | .wb => some (dpa / 64)
    | .host => some (dpa / 64)
    | _ => none

/-- A cache instruction: translated and checked as a one-byte access, after the hart's earlier accesses to the line;
act changes the committed copy this core holds (08:R183, R184). The checks are 1 to 5 of 10:R213: it reads no data, so the
checks of what a read returns, 8 to 10, are not made (DESIGN CHOICE, log 48). -/
def State.cacheOp (s : State) (a : GReg) (acc : FaultAccess) (act : State → Line → State) : Result :=
  ((s.locate (s.g a) 1 acc).andThen (fun t s =>
    match cachedLine t with
    | none => .ok () s
    | some line =>
      if s.lineBusy line then .wait s
      else match s.core.findLine line 0#12 with
        | some l => .ok () (act s l)
        | none => .ok () s)).finish (fun _ s => s.retire)

/-- cflush: D is written back, O released, V dropped (08:R169, R184). -/
def execCflush (a : GReg) (s : State) : Result := s.cacheOp a .read State.convertLine

/-- cclean: D is written back and stays owned (08:R169, R184). -/
def execCclean (a : GReg) (s : State) : Result :=
  s.cacheOp a .read (fun s l => if l.st = .d then s.writeBack l (some .o) else s)

/-- cinv: the copy is dropped, its data discarded, ownership released (08:R169, R184). -/
def execCinv (a : GReg) (s : State) : Result :=
  s.cacheOp a .write (fun s l => s.convertLine (if l.st = .d then { l with st := .o } else l))

/-- Every CACHE way of the set holds a locked line (08:R185). -/
def State.setLocked (s : State) (line : Nat) : Bool :=
  (List.range 8).all (fun k => s.core.modeOf k != some .cache ||
    s.core.lines.any (fun l => l.way.toNat = k && setOf l.line = setOf line && !l.lock.isEmpty) ||
    s.pkg.versions.any (fun v => v.place = .way (BitVec.ofNat 3 k) && setOf v.line = setOf line && !v.lock.isEmpty))

/-- Lock the core's copy of a line under h for the running context. -/
def State.lockLine (s : State) (line : Nat) (h : BitVec 12) : State :=
  s.mapCore (fun c => { c with lines := c.lines.map (fun l =>
    if l.line = line && l.hyp = h then { l with lock := l.lock ++ [s.hart.ctxid] } else l) })

/-- The line is locked by the running context. -/
def State.lockedHere (s : State) (line : Nat) : Bool :=
  s.core.lines.any (fun l => l.line = line && l.lock.contains s.hart.ctxid) ||
    s.pkg.versions.any (fun v => v.line = line && v.lock.contains s.hart.ctxid)

/-- The locks of a test's lines and versions that a context holds are gone. -/
def State.unlockFor (s : State) (ctx : BitVec 8) (q : Nat → Bool) : State :=
  { s with
    core := { s.core with lines := s.core.lines.map (fun l =>
      if q l.line then { l with lock := l.lock.filter (· != ctx) } else l) }
    pkg := { s.pkg with versions := s.pkg.versions.map (fun v =>
      if q v.line then { v with lock := v.lock.filter (· != ctx) } else v) } }

/-- The line comes into a CACHE way as a plain read under h brings it: the copy there while its lease holds, else one from the
home (08:R185). -/
def State.bringLine (s : State) (line : Nat) (h : BitVec 12) (dpa : Nat) (cnt : Bool) : Option State :=
  if (s.core.findLine line h).isSome then (s.cachedRead line h (BitVec.allOnes 64) dpa cnt).map (·.1)
  else ((s.countAccess dpa cnt false).serveRead line h false true).map (·.1)

/-- lock: the statuses of 08:R185 in their order, then a plain read of the line under HYP that stays locked (log 20).
WB-device memory that is not cached now, in the maintenance regime or in host bias, has status 4, for which the spec names no
status (DESIGN CHOICE, log 20). -/
def execLock (d a : GReg) (s : State) : Result :=
  ((s.locate (s.g a) 1 .read).andThen (fun t s =>
    let line := match t with | .mem dpa _ _ => dpa / 64 | .bench o => o / 64
    let here := (cachedLine t).isSome
    if here && s.lockedHere line then .ok 1 s
    else if s.lockUse = s.hart.lockq.toNat then .ok 2 s
    else if here && s.setLocked line then .ok 3 s
    else match cachedLine t, t with
    | some line, .mem dpa mt cnt =>
      let h := if mt = .wb then s.hart.hyp else 0#12
      if s.route dpa mt != .cached then .ok 4 s
      else if s.lineBusy line then .wait s
      else match s.bringLine line h dpa cnt with
        | none => .wait s
        | some s => if (s.core.findLine line h).isSome then .ok 0 (s.lockLine line h) else .ok 3 s
    | _, _ => .ok 4 s)).finish (fun (st : Nat) s => s.result d (BitVec.ofNat 64 st))

/-- unlock: 0 when the line was locked by this context, else 1 (08:R185). -/
def execUnlock (d a : GReg) (s : State) : Result :=
  ((s.locate (s.g a) 1 .read).andThen (fun t s =>
    match cachedLine t with
    | some line =>
      if s.lockedHere line then .ok 0 (s.unlockFor s.hart.ctxid (· = line)) else .ok 1 s
    | none => .ok 1 s)).finish (fun (st : Nat) s => s.result d (BitVec.ofNat 64 st))

/-! ### bclr (08:R186). -/

/-- Zero a range of bench words and clear their valid bits: a write of them, which a superstep shadows first and an armed
injection strikes (17:R337, 21:R374). -/
def Core.clearBench (c : Core) (o n : Nat) : Core :=
  let c := (granules o n).foldl Core.shadow c
  let inside (w : Nat) : Bool := o ≤ w * 8 && w * 8 < o + n
  ({ c with
    bench := sparseDrop (fun k => o ≤ k && k < o + n) c.bench
    benchPoison := sparseDrop inside c.benchPoison
    softBench := sparseDrop inside c.softBench
    benchInvalid := (natRange (o / 8) (n / 8)).foldl (fun m w => natSetPut m w true) c.benchInvalid }).injectBench (o / 8)

/-- bclr: every check before any change; it is a bench write of the hart, so it waits for the queued ones (08:R173, R176,
R186). The spec gives its traps no TRAPVAL of their own: a misaligned operand gives that operand, a range outside bench and an
ENGINE granule the start of the range (DESIGN CHOICE, log 35). -/
def execBclr (a b : GReg) (s : State) : Result :=
  let va := s.g a
  let n := (s.g b).toNat
  if va.toNat % 8 != 0 then .next (s.trap 0x02#8 va)
  else if n % 8 != 0 then .next (s.trap 0x02#8 (s.g b))
  else if n = 0 then .next s.retire
  else if !s.inBench va n then .next (s.trap 0x03#8 va)
  else
    let o := benchOff va
    if (granules o n).any s.core.engineOwned then .next (s.trap 0x09#8 va)
    else match s.writeCheck (.bench o) n false s.hart.hyp with
    | some (c, _) => .next (s.trap c va)
    | none =>
      if !s.quiet then s.waitHere
      else .next (s.mapCore (fun c => c.clearBench o n)).fitShadows.retire

end Sys2Proof.Machine
end

