-- ==== Sys2Proof/Machine/Hyp.lean ====
section
/-! DEFINITION. Machine/Hyp.lean: the hypothesis instructions, confirmation, refutation and the orphan trap (17:R321,
R329 to R338). -/

namespace Sys2Proof.Machine

/-- All six instructions raise 0x07 with TRAPVAL 0 in a SNAP gang (17:R329). -/
def State.hypInstr (s : State) (k : Result) : Result := if s.hart.snap then .next (s.trap 0x07#8 0) else k

/-- hopen: a child of HYP at the lowest FREE id (17:R330). -/
def execHopen (d : GReg) (s : State) : Result :=
  s.hypInstr (
    let parent := s.pkg.resolve 16 s.hart.hyp
    let e := s.pkg.hypEntry parent
    if e.depth = 15#4 then .next (s.result d (refusal 1))
    else match s.pkg.lowestFree with
    | none => .next (s.result d (refusal 2))
    | some n => .next ((s.mapPkg (fun p => p.setHyp n
        { parent := parent, depth := e.depth + 1#4, owner := s.hart.ctxid, st := .open })).result d (n.setWidth 64)))

/-- The status of henter (17:R331). -/
def State.henterStatus (s : State) (v : Word) : Nat :=
  let t : BitVec 12 := v.setWidth 12
  if v.extractLsb' 12 52 != 0#52 then 1
  else if t = 0#12 then 0
  else if (s.pkg.hypEntry t).st != .open then 1
  else if (s.pkg.hypEntry t).owner != s.hart.ctxid then 2
  else 0

/-- henter (17:R331). -/
def execHenter (d a : GReg) (s : State) : Result :=
  s.hypInstr (
    let st := s.henterStatus (s.g a)
    .next ((if st = 0 then s.setHypReg ((s.g a).setWidth 12) else s).result d (BitVec.ofNat 64 st)))

/-- hleave: HYP becomes its parent (17:R331). -/
def execHleave (d : GReg) (s : State) : Result :=
  s.hypInstr (
    let p := s.pkg.resolve 16 (s.pkg.hypEntry s.hart.hyp).parent
    .next ((s.setHypReg p).result d (p.setWidth 64)))

/-! ### Resolving (17:R332 to R335). -/

/-- h has an OPEN child. -/
def Pkg.openChild (p : Pkg) (h : BitVec 12) : Bool :=
  p.hyps.any (fun e => e.2.st = .open && p.resolve 16 e.2.parent = h)

/-- The status of an hres at the unit (17:R332). -/
def State.hresStatus (s : State) (h : BitVec 12) (confirm : Bool) : Nat :=
  let e := s.pkg.hypEntry h
  if e.st != .open then 1
  else if e.owner != s.hart.ctxid then 2
  else if confirm && s.pkg.openChild h then 3
  else if !confirm && s.pkg.isAncestor h s.hart.hyp then 4
  else 0

/-- Copies served under a hypothesis are served anew once the tree has changed (17:R324, R325). -/
def State.dropServed (s : State) : State := s.refreshCopies (fun l => l.hyp != 0#12)

/-- A hart under h moves to its parent, and the words it may have fetched under h count for it there (17:R333, step 1,
02:R33). -/
def State.moveHart (s : State) (h p : BitVec 12) : State :=
  if s.hart.hyp = h then
    (s.hart.stale.filter (fun e => e.hyp = h)).foldl
      (fun s e => s.mapHart (fun t => t.keepOld e.word p (s.oldWords e.word p) e.old)) (s.setHypReg p)
  else s

/-- Every version that stands for h. -/
def State.writeSet (s : State) (h : BitVec 12) : List Version :=
  (s.pkg.versions ++ s.spilled (s.pkg.hypArea h)).filter
    (fun v => v.id != 0#12 && (s.pkg.hypEntry v.id).st != .refuted && s.pkg.resolve 16 v.id = h)

/-- Confirmation into a parent other than the root (17:R333). What fetches saw of the lines before stays an old word (02:R33). -/
def State.confirmParent (s : State) (h p : BitVec 12) : State :=
  let s := ((s.writeSet h).map (·.line)).eraseDups.foldl (fun s line => s.noteStale (line * 64) 64) s
  let s := (s.mapPkg (fun k => k.setHyp h { k.hypEntry h with st := .merged })).retag h p
  (s.moveHart h p).dropServed

/-- Write the masked bytes of a line at its home, with the poison of the words they lie in (17:R334, 21:R359). -/
def Pkg.putMasked (p : Pkg) (line : Nat) (d : BitVec 512) (q : BitVec 8) (m : BitVec 64) : Pkg :=
  let p := ((List.range 64).filter (fun i => m.getLsbD i)).foldl (fun p i => p.writeNat (line * 64 + i) 1 (lineNat d i 1)) p
  (List.range 8).foldl (fun p i =>
    if (maskWords m).getLsbD i || q.getLsbD i then p.setPoison (line * 64 + i * 8) (q.getLsbD i) else p) p

/-- One line of a write set is performed at its home: the masked bytes, as one write with t = time, none in the maintenance
regime; the largest wts assigned goes along (17:R334, 09:R203, R208). own: the confirming hart is this core's (21:R371). -/
def State.performLine (s : State) (line : Nat) (h : BitVec 12) (time : Option (BitVec 16)) (top : BitVec 16)
    (own : Bool := true) : State × BitVec 16 :=
  let s := (s.recall line own).getD s
  let d := s.compose line h (s.homeImage line)
  let m := (s.versionsOf line h).foldl (fun m v => m ||| v.mask) (0#64)
  let q := if (s.versionsOf line h).all (fun v => v.place = .home) then (s, d.2) else s.throughMesh line d.2
  let r := match time with
    | none => (q.1, top)
    | some t =>
      let r := q.1.homeWriteTimes line t none
      (r.1, serMax top r.2)
  ((((r.1.noteStale (line * 64) 64).wakeLine line).mapPkg (fun p => p.putMasked line d.1 q.2 m)).dropTagged line, r.2)

/-- Confirmation into the root: the write set performed line by line with a time, its versions and slots dropped; the largest
wts assigned (17:R334). The id stands for the root until nothing names it. -/
def State.confirmRoot (s : State) (h : BitVec 12) (time : Option (BitVec 16)) (own : Bool := true) : State × BitVec 16 :=
  let set := s.writeSet h
  let start := time.getD s.hart.ltime
  let r := ((set.map (·.line)).eraseDups).foldl
    (fun (a : State × BitVec 16) line => a.1.performLine line h time a.2 own) (s, start)
  let s := r.1.mapPkg (fun p => p.setHyp h { p.hypEntry h with st := .merged, parent := 0#12 })
  let s := s.dropVersions (set.map (·.id)).contains
  (((s.moveHart h 0#12).dropServed).freeHyp h, r.2)

/-- Confirmation into the root by the modelled hart: LTIME is the largest wts assigned; the maintenance regime leaves it
(17:R334, 09:R208). -/
def State.confirmOwn (s : State) (h : BitVec 12) : State :=
  let r := s.confirmRoot h (if s.hart.maint then none else some s.hart.ltime)
  r.1.mapHart (fun x => { x with ltime := r.2 })

/-- A version stands with another core. -/
def Version.away (v : Version) : Bool :=
  match v.place with
  | .other _ => true
  | _ => false

/-- A line of the write set, or a version of it, belongs to another core, whose write-back must come first (09:R203). -/
def State.writeSetBlocked (s : State) (h : BitVec 12) : Bool := (s.writeSet h).any (fun v => s.foreign v.line || v.away)

/-- A version of the write set, or the one of p that it joins, stands with another core, whose write-back must come first
(17:R333, log 10). -/
def State.joinBlocked (s : State) (h p : BitVec 12) : Bool :=
  (s.writeSet h).any (fun v => v.away || (s.pkg.findVersion v.line p).any Version.away)

/-- A confirmation of h into p waits for another core's write-back. -/
def State.confirmBlocked (s : State) (h p : BitVec 12) : Bool :=
  if p = 0#12 then s.writeSetBlocked h else s.joinBlocked h p

/-- A refutation reaches the SAVED gangs: a hart whose HYP lies in the subtree takes its orphan trap at the resume
(17:R338). -/
def State.markSaved (s : State) (ids : List (BitVec 12)) (h : BitVec 12) : State :=
  s.mapPkg (fun p => { p with saved := p.saved.map (fun g => if ids.contains g.hyp then { g with orphan := some h } else g) })

/-- Refutation of h and its subtree; a hart of the modelled core in it is to take the orphan trap (17:R335). -/
def State.refuteTree (s : State) (h : BitVec 12) : State :=
  let ids := s.pkg.subtree h
  let s := (s.refuteIds ids).markSaved ids h
  if ids.contains s.hart.hyp && s.hart.run != .idle then s.mapHart (fun x => { x with orphan := some h }) else s

/-- hres: a bad operand, the release, then the unit (17:R332). -/
def State.hres (s : State) (d a : GReg) (confirm : Bool) (act : BitVec 12 → State) : Result :=
  let v := s.g a
  let h : BitVec 12 := v.setWidth 12
  s.hypInstr (
    if v.extractLsb' 12 52 != 0#52 || h = 0#12 then .next (s.result d 1)
    else if !s.released .pkg then s.waitHere
    else
      let st := s.hresStatus h confirm
      if st != 0 then .next (s.result d (BitVec.ofNat 64 st))
      else if confirm && s.confirmBlocked h (s.pkg.resolve 16 (s.pkg.hypEntry h).parent) then s.waitHere
      else .next ((act h).result d 0))

/-- hres.confirm (17:R332 to R334). -/
def execHresConfirm (d a : GReg) (s : State) : Result :=
  s.hres d a true (fun h =>
    let p := s.pkg.resolve 16 (s.pkg.hypEntry h).parent
    if p = 0#12 then s.confirmOwn h else s.confirmParent h p)

/-- hres.refute (17:R332, R335). -/
def execHresRefute (d a : GReg) (s : State) : Result := s.hres d a false (fun h => s.refuteTree h)

/-- Number of a state in hstat (17:R336). -/
def HypState.code : HypState → Nat
  | .free => 0 | .open => 1 | .merged => 2 | .refuted => 3

/-- An entry as hstat reads it. -/
def HypEntry.word (e : HypEntry) : Word :=
  BitVec.ofNat 64 (e.owner.toNat * 2 ^ 24 + e.depth.toNat * 2 ^ 16 + e.st.code * 2 ^ 14 + e.parent.toNat)

/-- hstat: another context's entry reads as 0 (17:R336). -/
def execHstat (d a : GReg) (s : State) : Result :=
  let v := s.g a
  let h : BitVec 12 := v.setWidth 12
  let e := s.pkg.hypEntry h
  s.hypInstr (.next (s.result d
    (if v.extractLsb' 12 52 != 0#52 then 0
     else if h != 0#12 && e.owner != s.hart.ctxid then 0
     else e.word)))

/-! ### Events (17:R321, R335). -/

/-- HYPOTHESIS_FREE: a MERGED or REFUTED id that nothing names becomes FREE (17:R321). -/
def execHypothesisFree (id : BitVec 12) (s : State) : Result := .next (if id = 0#12 then s else s.freeHyp id)

/-- The hart can take an asynchronous trap: it runs a task, no rollback is under way, and it is not waiting for a
reservation's answer. -/
def State.canOrphan (s : State) : Bool :=
  !s.hart.trigger &&
  match s.hart.run with
  | .idle => false
  | .waitPrsv _ => false
  | _ => true

/-- The orphan of h has been told: HYP is the parent of the refuted hypothesis, or the nearest OPEN one above it (17:R322, R335). -/
def State.orphanMoved (s : State) (h : BitVec 12) : State :=
  (s.setHypReg (s.pkg.openAbove 17 (s.pkg.hypEntry h).parent)).mapHart (fun x => { x with orphan := none })

/-- The orphan trap. A parked fault is abandoned, at the parked instruction (16:R319). -/
def State.orphanTrap (s : State) (h : BitVec 12) : State :=
  let s := s.orphanMoved h
  match s.core.units.find? (fun u => u.parked.isSome && holdsHart u.instr) with
  | some u => s.unitTrap u u.vstart 0x05#8 (h.setWidth 64)
  | none => s.trap 0x05#8 (h.setWidth 64)

/-- An instruction boundary of the hart: no access of its own is out at a peer, and nothing it issued holds it, or what holds it
is parked. -/
def State.atBoundary (s : State) : Bool :=
  !(s.pkg.peerWaits.any (fun w => w.who = .hart)) && (!s.hartHeld || s.core.units.any (fun u => u.parked.isSome && holdsHart u.instr))

/-- ORPHAN_TRAP: taken at an instruction boundary (17:R335). -/
def execOrphanTrap (s : State) : Result :=
  match s.hart.orphan with
  | none => .next s
  | some h => if s.canOrphan && s.atBoundary then .next (s.orphanTrap h) else .next s

/-! ### Harts of other cores (17:R330 to R335, 09:R199). -/

/-- hopen by a hart of another core: the unit answers it as it answers this one; that core has read the area of its context
(17:R326, R330). -/
def State.otherHopen (s : State) (ctx : BitVec 8) (under : BitVec 12) : State :=
  let parent := s.pkg.resolve 16 under
  let e := s.pkg.hypEntry parent
  if e.depth = 15#4 || e.st != .open || !(parent = 0#12 || e.owner = ctx) then s
  else match s.pkg.lowestFree with
  | none => s
  | some n => s.mapPkg (fun p =>
      let p := if p.areaOf ctx = Area.none then p.setArea ctx (s.descArea ctx) else p
      p.setHyp n { parent := parent, depth := e.depth + 1#4, owner := ctx, st := .open })

/-- hres.confirm by a hart of another core whose LTIME is t. It waits while a line or a version of the write set is with
another core (17:R332 to R334). -/
def State.otherConfirm (s : State) (ctx : BitVec 8) (h : BitVec 12) (t : BitVec 16) : State :=
  let e := s.pkg.hypEntry h
  let p := s.pkg.resolve 16 e.parent
  if h = 0#12 || e.st != .open || e.owner != ctx || s.pkg.openChild h then s
  else if s.confirmBlocked h p then s
  else if p != 0#12 then s.confirmParent h p
  else (s.confirmRoot h (some t) false).1

/-- hres.refute by a hart of another core. The unit serves it once the orphans of the one before have taken their traps
(17:R332, R335). -/
def State.otherRefute (s : State) (ctx : BitVec 8) (own h : BitVec 12) : State :=
  let e := s.pkg.hypEntry h
  if h = 0#12 || e.st != .open || e.owner != ctx || s.pkg.isAncestor h own || s.hart.orphan.isSome then s
  else s.refuteTree h

/-- The running gang has members on other cores. -/
def State.otherMember (s : State) (core : BitVec 9) : Bool :=
  s.hart.run != .idle && s.hart.gsize != 1#10 && core != s.core.num

/-- What a hart of another core does at the hypothesis unit, the stamp counter, to this core's translations or in this hart's gang
(17:R330 to R335, 09:R199, 16:R295, R318, R319, 21:R366, R367). -/
def State.otherAct (s : State) (a : OtherAct) : State :=
  match a with
  | .hopen ctx parent => s.otherHopen ctx parent
  | .confirm ctx core h t => if core = s.core.num then s else s.otherConfirm ctx h t
  | .refute ctx own h => s.otherRefute ctx own h
  | .drawStamp old =>
    let n := s.nextStamp
    s.mapPkg (fun p => { p with
      stamp := n
      otherStamps := (match old with | some x => p.otherStamps.erase x | none => p.otherStamps) ++ [n] })
  | .dropStamp old => s.mapPkg (fun p => { p with otherStamps := p.otherStamps.erase old })
  | .trigger core cause val pc =>
    if s.otherMember core && s.hart.snap then s.triggerFor core cause val pc else s
  | .discard core cause val pc => if s.otherMember core then s.discardFor core cause val pc else s
  | .start ctx => s.mapPkg (fun p => p.setArea ctx (s.descArea ctx))
  | .tlbi ctx va => s.dropTranslations (fun e => e.selected ctx va)

end Sys2Proof.Machine
end

