-- ==== Sys2Proof/Machine/Task.lean ====
section
/-! DEFINITION. Machine/Task.lean: task records, queues and enqueues, join counters, and the gang barrier with its
supersteps (12:R257 to R277). -/

namespace Sys2Proof.Machine

/-! ### The task record (12:R257, R258). -/

/-- The fields of a record. -/
structure TaskRec where
  entry : Addr
  fp : Word
  jc : Word
  hypid : BitVec 12
  vlceil : BitVec 20
  gang : BitVec 10
  w : BitVec 4
  prio : BitVec 3
  ctxid : BitVec 8
  csa : Addr
  racechk : Bool
  snap : Bool
  cookie : Word
  deriving DecidableEq, Repr

/-- A record's fields from its eight words; reserved fields are ignored. -/
def taskRec (ws : List Word) : TaskRec :=
  let w (k : Nat) : Word := ws.getD k 0
  { entry := (w 0).setWidth 48, fp := w 1, jc := w 2,
    hypid := (w 3).extractLsb' 52 12, vlceil := (w 3).extractLsb' 32 20, gang := (w 3).extractLsb' 16 10,
    w := (w 3).extractLsb' 12 4, prio := (w 3).extractLsb' 8 3, ctxid := (w 3).extractLsb' 0 8,
    csa := (w 4).setWidth 48, racechk := (w 5).getLsbD 1, snap := (w 5).getLsbD 0, cookie := w 6 }

/-- The record's hypothesis may be taken: the root, or open, of its context and without SNAP. -/
def TaskRec.hypOk (r : TaskRec) (p : Pkg) : Bool :=
  r.hypid = 0#12 ||
    ((p.hypEntry r.hypid).st = .open && (p.hypEntry r.hypid).owner = r.ctxid && !r.snap)

/-- A record is well formed (12:R258); sys is the system permission of the context that enqueues it. -/
def TaskRec.wellFormed (r : TaskRec) (p : Pkg) (sys : Bool) : Bool :=
  r.entry.extractLsb' 0 2 = 0#2 && 1 ≤ r.w.toNat && r.w.toNat ≤ 7 && 1 ≤ r.gang.toNat && r.gang.toNat ≤ 512 &&
  1 ≤ r.vlceil.toNat && r.vlceil.toNat ≤ 65536 * r.w.toNat && r.csa != 0#48 && r.csa.extractLsb' 0 12 = 0#12 &&
  (r.prio != 7#3 || sys) && r.hypOk p

/-- Eight words as one number of 64 bytes. -/
def wordsNat (ws : List Word) : Nat := ofBytes (((List.range 8).map (fun k => leBytes 8 (ws.getD k 0).toNat)).flatten)

/-- A record as the KN7 writes it: zero in the reserved fields (00:R9, 12:R257). -/
def cleanRecord (ws : List Word) : List Word :=
  let m : List Word := [0xFFFFFFFFFFFF, BitVec.allOnes 64, BitVec.allOnes 64, ~~~0xFC000800#64, 0xFFFFFFFFFFFF, 3,
    BitVec.allOnes 64, 0]
  m.mapIdx (fun i k => ws.getD i 0 &&& k)

/-! ### Queues (12:R260, 18:R343). -/

/-- A queue's descriptor. -/
structure QueueDesc where
  base : Nat
  tail : Nat
  head : Nat
  admitted : BitVec 8
  all : Bool
  age : Bool
  host : Bool
  en : Bool
  n : Nat
  deriving DecidableEq, Repr

/-- DPA of queue q's descriptor. -/
def State.queueAt (s : State) (q : BitVec 12) : Nat := s.pkg.qdtbase.toNat + 32 * q.toNat

/-- Queue q's descriptor as it stands in memory now: one rewritten while EN = 1 holds at once, with its new BASE, where the rule lets
the dispatcher pop from the old or the new one (18:R343, DESIGN CHOICE, log 108). One with an uncorrectable word is taken as
disabled (00:R5, log 98). -/
def State.queueDesc (s : State) (q : BitVec 12) : QueueDesc :=
  let a := s.queueAt q
  let w : Word := BitVec.ofNat 64 (s.peek (a + 8) 8)
  { base := s.peek a 8 % 2 ^ 48, tail := (w.extractLsb' 48 16).toNat, head := (w.extractLsb' 32 16).toNat,
    admitted := w.extractLsb' 24 8, all := w.getLsbD 23, age := w.getLsbD 22, host := w.getLsbD 21, en := w.getLsbD 20 && s.pkg.queuesOn && !s.peekPoison a 32,
    n := 2 ^ ((w.extractLsb' 0 4).toNat + 1) }

/-- Slots filled. -/
def QueueDesc.used (d : QueueDesc) : Nat := (d.tail + d.n - d.head % d.n) % d.n

/-- Write TAIL or HEAD. -/
def State.setTail (s : State) (q : BitVec 12) (v : Nat) : State := s.poke (s.queueAt q + 14) 2 v
def State.setHead (s : State) (q : BitVec 12) (v : Nat) : State := s.poke (s.queueAt q + 12) 2 v

/-- Slots of queue q that supersteps have reserved (12:R273). -/
def State.slotsReserved (s : State) (q : BitVec 12) : Nat := s.core.reserved.countP (fun r => r.queue = q)

/-- Copy a record into the slot at the tail and advance the tail (12:R260). -/
def State.putRecord (s : State) (q : BitVec 12) (ws : List Word) : State :=
  let d := s.queueDesc q
  (s.poke (d.base + 64 * d.tail) 64 (wordsNat (cleanRecord ws))).setTail q ((d.tail + 1) % d.n)

/-- Another core owns a line of queue q's descriptor or of the slot at its tail, so an enqueue waits for its write-back
(09:R203). -/
def State.queueForeign (s : State) (q : BitVec 12) : Bool :=
  s.foreignIn (s.queueAt q) 32 || s.foreignIn ((s.queueDesc q).base + 64 * (s.queueDesc q).tail) 64

/-- The status of an enqueue: 3, 2, 1 or 0 (12:R273). -/
def State.enqueueStatus (s : State) (bad : Bool) (q : BitVec 12) (ws : List Word) (poison : Bool) : Nat :=
  let d := s.queueDesc q
  let r := taskRec ws
  if bad || d.host || !(d.all || d.admitted = s.hart.ctxid) || !d.en then 3
  else if poison || r.ctxid != s.hart.ctxid || !r.wellFormed s.pkg s.hart.sys then 2
  else if d.n ≤ d.used + s.slotsReserved q + 1 then 1
  else 0

/-- Enqueue a record that passed: under a SNAP superstep the slot is reserved until the release. Which slot it is the rule does not
say where another enqueue comes in between: the reservation keeps one slot of the queue free, and the record takes the tail of the
release (12:R273, DESIGN CHOICE, log 107). -/
def State.enqueue (s : State) (q : BitVec 12) (ws : List Word) : State :=
  if s.hart.snap then s.mapCore (fun c => { c with reserved := c.reserved ++ [Reserved.mk s.hart.gangid q ws] })
  else s.putRecord q ws

/-- Read 64 bytes as eight plain loads of the hart (12:R273). -/
def State.readRecord (s : State) (a : Word) : Res (List Word) :=
  (List.range 8).foldl (fun r k => r.andThen (fun ws s =>
    (s.load (a + BitVec.ofNat 64 (8 * k)) 8).andThen (fun v s => .ok (ws ++ [BitVec.ofNat 64 v]) s))) (.ok [] s)

/-- spawn and qput (12:R273). The enqueue is a release at pkg scope (12:R261). -/
def State.enqueueAt (s : State) (d a : GReg) (bad : Bool) (q : BitVec 12) : Result :=
  let ea := s.g a
  if ea.toNat % 64 != 0 then .next (s.trap 0x02#8 ea)
  else if s.explicitHyp s.hart.hyp then .next (s.trap 0x07#8 ea)
  else if !s.released .pkg then s.waitHere
  else if !bad && s.queueForeign q then s.waitHere
  else (s.readRecord ea).finish (fun ws s =>
    let st := s.enqueueStatus bad q ws false
    (if st = 0 then s.enqueue q ws else s).result d (BitVec.ofNat 64 st))

/-- spawn: into the queue from which the running task was popped (12:R273). -/
def execSpawn (d a : GReg) (s : State) : Result := s.enqueueAt d a false s.hart.queue

/-- qput: into queue g(d)[11:0] (12:R273). -/
def execQput (d a : GReg) (s : State) : Result :=
  s.enqueueAt d a ((s.g d).extractLsb' 12 52 != 0#52) ((s.g d).setWidth 12)

/-! ### Join counters (12:R274). -/

/-- A record read by checks 1 to 9; a poisoned byte only marks it. -/
def State.checkRecord (s : State) (a : Word) : Res (List Word × Bool) :=
  (List.range 8).foldl (fun r k => r.andThen (fun x s =>
    match s.load (a + BitVec.ofNat 64 (8 * k)) 8 with
    | .ok v s => .ok (x.1 ++ [BitVec.ofNat 64 v], x.2) s
    | .trap c v n s' => if n = 10 then .ok (x.1 ++ [0], true) s else .trap c v n s'
    | .fault f s => .fault f s
    | .wait s => .wait s)) (.ok ([], false) s)

/-- The continuation of a join that read 1: its record is read again after the acquire and enqueued into QUEUE. False
when it was not enqueued (12:R274). -/
def State.continuation (s : State) (ea : Word) (t : Target) (first : List Word × Bool) : State × Bool :=
  let t8 : Target := match t with
    | .bench o => .bench (o + 8)
    | .mem dpa mt cnt => .mem (dpa + 8) mt cnt
  let rec8 := match s.checkRecord (ea + 64#64) with
    | .ok x s => (x, s)
    | _ => (first, s)
  match rec8.2.readTarget t8 (ea + 8#64) 8 rec8.2.hart.hyp with
  | .ok v s =>
    let q : BitVec 12 := BitVec.ofNat 12 v
    let st := s.enqueueStatus false q rec8.1.1 rec8.1.2
    if st = 0 then (s.enqueue q rec8.1.1, true) else (s, false)
  | _ => (rec8.2, false)

/-- join (12:R274): alignment, translation, memory type, hypothesis, the continuation's record, then one indivisible
decrement at the home with the release and acquire of .ar at pkg scope. -/
def execJoin (d a : GReg) (s : State) : Result :=
  let ea := s.g a
  if ea.toNat % 64 != 0 then .next (s.trap 0x02#8 ea)
  else if inBenchWindow ea.toNat then .next (s.trap 0x03#8 ea)
  else
    let r : Res Word := (s.locate ea 4 .atomic).andThen (fun t s =>
      match t with
      | .bench _ => .trap 0x03#8 ea 0 s
      | .mem dpa mt cnt =>
        if mt != .wb && mt != .uc then .trap 0x03#8 ea 0 s
        else if s.explicitHyp s.hart.hyp then .trap 0x07#8 ea 0 s
        else match s.writeCheck t 4 true s.hart.hyp with
        | some (c, k) => .trap c ea k s
        | none => (s.checkRecord (ea + 64#64)).andThen (fun first s =>
          if !s.released .pkg || s.queueForeign (BitVec.ofNat 12 (s.peek (dpa + 8) 8)) then .wait s
          else (s.atomicWith dpa 4 mt cnt s.hart.hyp ea (fun old => if old = 0 then none else some (old - 1)) .ar).andThen
            (fun old s =>
              if old = 1 then
                let c := s.continuation ea t first
                .ok (BitVec.ofNat 64 (if c.2 then old else old + 2 ^ 63)) c.1
              else .ok (BitVec.ofNat 64 old) s)))
    r.finish (fun v s => s.result d v)

/-! ### The gang barrier (12:R265, R275, R276). -/

/-- Every put issued to a pan of this package has landed or ended (12:R275). -/
def State.putsLanded (s : State) : Bool := !(s.core.peel.any (fun o => isPut o.instr && o.tokPkg = s.pkg.mypkg))

/-- The gang indices of the other live members. -/
def State.liveOthers (s : State) : List Nat :=
  (List.range s.hart.gsize.toNat).filter (fun i => i != s.hart.gidx.toNat && !natSetHas s.pkg.ended i)

/-- Every other live member has arrived. -/
def State.allArrived (s : State) : Bool :=
  s.liveOthers.all (fun i => s.pkg.arrivals.any (fun a => a.gidx.toNat = i))

/-- What this hart arrives with: its synchronising instruction, or in a SNAP gang the gbar of its tend (12:R272). -/
def State.myKind (s : State) : Option SyncKind :=
  match s.hart.run, s.hart.arrival with
  | .barrier, some p => some p.kind
  | .ending, _ => some .gbar
  | _, _ => none

/-- What another member arrives with; a tend in a SNAP gang arrives as a gbar, elsewhere it pairs with any kind. -/
def State.kindOf (s : State) (a : Arrival) : Option SyncKind :=
  match a.kind with
  | some k => some k
  | none => if s.hart.snap then some .gbar else none

/-- The arrivals are all of one kind, OP and RM (12:R265). -/
def State.kindsAgree (s : State) : Bool :=
  match s.myKind with
  | none => false
  | some k => s.pkg.arrivals.all (fun a => match s.kindOf a with | some x => x = k | none => true)

/-- The members whose arrival is a tend leave the count; the pairing is over (12:R265). -/
def Pkg.nextPairing (p : Pkg) : Pkg :=
  { p with
    ended := p.arrivals.foldl (fun m a => if a.kind.isNone then natSetPut m a.gidx.toNat true else m) p.ended
    arrivals := [] }

/-- The operands of a gred in gang-index order (12:R276). -/
def State.gredOperands (s : State) (mine : Word) : List Word :=
  (List.range s.hart.gsize.toNat).filterMap (fun i =>
    if i = s.hart.gidx.toNat then some mine
    else (s.pkg.arrivals.find? (fun a => a.gidx.toNat = i && a.kind.isSome)).map (·.operand))

/-- combine (12:R276): the value and the flags it raises. -/
def gredCombine (op : GredOp) (rm : Rm) (acc x : Word) : Word × Flags :=
  match op with
  | .add => (acc + x, 0#5)
  | .and => (acc &&& x, 0#5)
  | .or => (acc ||| x, 0#5)
  | .xor => (acc ^^^ x, 0#5)
  | .min => (if acc.toInt ≤ x.toInt then acc else x, 0#5)
  | .max => (if x.toInt ≤ acc.toInt then acc else x, 0#5)
  | .minu => (if acc.toNat ≤ x.toNat then acc else x, 0#5)
  | .maxu => (if x.toNat ≤ acc.toNat then acc else x, 0#5)
  | .faddD =>
    let r := Fmt.fp64.round { rm := rm, sat := false, seed := 0, count := 0 } 0
      (exactAdd rm (Fmt.fp64.decode acc.toNat) (Fmt.fp64.decode x.toNat))
    (BitVec.ofNat 64 r.bits, r.fl)

/-- The result of a gred and its flags; a gang of one keeps its operand. -/
def gredResult (op : GredOp) (rm : Rm) : List Word → Word × Flags
  | [] => (0, 0#5)
  | x :: xs => xs.foldl (fun a y => let r := gredCombine op rm a.1 y; (r.1, a.2 ||| r.2)) (x, 0#5)

/-- LTIME at the release of a gbar: the maximum over the arrivals (09:R205); the maintenance regime keeps LTIME
(09:R208). -/
def State.releaseTime (s : State) : State :=
  if s.hart.maint then s
  else s.mapHart (fun h => { h with ltime := s.pkg.arrivals.foldl (fun m a => serMax m a.ltime) h.ltime })

/-- A superstep closes: its hypothesis is confirmed into the root, its shadows and reserved slots become the gang's
committed work (12:R266, R273, 17:R337). -/
def State.closeSuperstep (s : State) : State :=
  let s := (s.confirmOwn s.hart.hyp).dropShadows
  let mine := s.core.reserved.filter (fun r => r.gangid = s.hart.gangid)
  let s := s.mapCore (fun c => { c with reserved := c.reserved.filter (fun r => r.gangid != s.hart.gangid) })
  mine.foldl (fun s r => s.putRecord r.queue r.words) s

/-- The next superstep opens under the same id (17:R337). -/
def State.openSuperstep (s : State) (id : BitVec 12) : State :=
  (s.mapPkg (fun p => p.setHyp id { parent := 0, depth := 1, owner := s.hart.ctxid, st := .open })).setHypReg id

/-- The state captured at a release: PC is that of the next instruction (12:R266). -/
def State.captureState (s : State) : State := s.mapCore (fun c => { c with captured := some (s.hart.capture c.peelIds c.tbs) })

/-- The effects of a gbar's release on this member (12:R275). -/
def State.releaseGbar (s : State) : State :=
  let s := s.releaseTime
  let id := s.hart.hyp
  let s := if s.hart.snap then s.closeSuperstep.openSuperstep id else s
  let s := s.freshStamp.mapPkg Pkg.nextPairing
  let s := (s.mapHart (fun h => { h with arrival := none, run := .running, rbCur := 0 })).retire
  if s.hart.snap then s.captureState else s

/-- The effects of a gred's release on this member (12:R276, 21:R367). -/
def State.releaseGred (s : State) (op : GredOp) (rm : Rm) (p : Pending) : State :=
  let r := gredResult op rm (s.gredOperands p.operand)
  let s := (s.orVfsr r.2).mapPkg Pkg.nextPairing
  (s.mapHart (fun h => { h with arrival := none, run := .running, rbCur := 0 })).result p.dest r.1

/-- The hart ends its part of the task: its ARRAY ways and its BENCH ways without a rack return to CACHE, and it is idle
(12:R272). -/
def State.endTask (s : State) : State :=
  let s := s.releaseWays s.ownWays
  let s := s.mapCore (fun c => { c with captured := none })
  let s := s.mapPkg (fun p => { p with arrivals := [], ended := [] })
  s.countRetired.mapHart (fun h => { h with run := .idle, arrival := none, orphan := none, hyp := 0, hypdepth := 0 })

/-- The release of a tend in a SNAP gang: the superstep is confirmed; the last live member frees the id, which the others
keep running under (12:R272, 17:R337). -/
def State.releaseTend (s : State) : State :=
  let s := s.releaseTime
  let id := s.hart.hyp
  let last := s.pkg.arrivals.all (fun a => a.kind.isNone)
  let s := s.closeSuperstep
  (if last then s else s.openSuperstep id).endTask

/-- Arrivals that differ: the trap 0x01 at this member's synchronising instruction, and no release; the arrivals of the
other members at theirs are withdrawn with it. A member that waits at its tend is at no such instruction: it takes no trap and waits
on (12:R265, DESIGN CHOICE, log 61). -/
def State.mismatch (s : State) : State :=
  let s := s.mapPkg (fun p => { p with arrivals := p.arrivals.filter (fun a => a.kind.isNone) })
  match s.hart.run, s.hart.arrival with
  | .barrier, some p => (s.mapHart (fun h => { h with run := .running, arrival := none })).illegal p.word
  | _, _ => s

/-- An uncorrectable word that stands in a version of the superstep or in a bench granule written in it, which is a rollback
trigger: its source and its address (21:R366, R372, R373). -/
def State.superstepSpoilt (s : State) : Option (BitVec 4 × Word) :=
  match (s.writeSet s.hart.hyp).find? (fun v => v.poison != 0#8) with
  | some v =>
    let dpa := v.line * 64 + 8 * ((List.range 8).findIdx v.poison.getLsbD)
    some (s.poisonSource dpa, BitVec.ofNat 64 dpa)
  | none => (s.core.benchPoison.find? (fun e => s.core.shadows.any (fun x => e.1 / 512 = x.gran))).map
      (fun e => (2#4, BitVec.ofNat 64 (3 * 2 ^ 62 + e.1 * 8)))

/-- The closing release waits for another core's write-back, of a line or a version of the superstep or of a queue that the
superstep reserved a slot of (09:R203). -/
def State.releaseBlocked (s : State) : Bool :=
  s.writeSetBlocked s.hart.hyp || s.core.reserved.any (fun r => r.gangid = s.hart.gangid && s.queueForeign r.queue)

/-- The barrier releases when every live member has arrived; a confirmation waits for the write-back of another core
(12:R265). -/
def State.tryRelease (s : State) : State :=
  match s.myKind with
  | none => s
  | some k =>
    if !s.allArrived then s
    else if !s.kindsAgree then s.mismatch
    else if s.hart.snap && k = .gbar && s.releaseBlocked then s
    else match (if s.hart.snap && k = .gbar then s.superstepSpoilt else none) with
    | some e => (s.recordUe e.1 e.2).triggerRollback 0x0B#8 0
    | none =>
      match s.hart.run, s.hart.arrival, k with
      | .ending, _, _ => s.releaseTend
      | _, some p, .gred op rm => s.releaseGred op rm p
      | _, some _, .gbar => s.releaseGbar
      | _, none, _ => s

/-- Record this hart's arrival (12:R265). In a gang without other live members the release follows at once. -/
def State.arrive (s : State) (k : SyncKind) (d : GReg) (v : Word) (i : Instr) : State :=
  (s.mapHart (fun h => { h with
    run := .barrier, arrival := some { kind := k, operand := v, dest := d, word := (encode i).getD 0 } })).tryRelease

/-- gbar: waits for the hart's earlier writes and its puts to members, as fence.ar.gang, then arrives (12:R275). -/
def execGbar (s : State) : Result :=
  if !(s.released .gang && s.putsLanded) then s.waitHere
  else
    let s := if s.hart.maint then s else s.acquireAll
    .next (s.arrive .gbar 0#5 0 .gbar)

/-- gred: orders no memory access (12:R276). -/
def execGred (d a : GReg) (op : GredOp) (rm : Rm) (s : State) : Result :=
  .next (s.arrive (.gred op rm) d (s.g a) (.gred d a op rm))

/-- BARRIER_ARRIVAL: another member of the gang arrives, or ends (12:R265). -/
def execBarrierArrival (m : Arrival) (s : State) : Result :=
  if s.hart.run != .idle && s.liveOthers.contains m.gidx.toNat &&
      !(s.pkg.arrivals.any (fun a => a.gidx = m.gidx)) then
    .next (s.mapPkg (fun p => { p with arrivals := p.arrivals ++ [m] }))
  else .next s

/-- BARRIER_RELEASE: the barrier unit decides (12:R265). No member of a gang in ROLLBACK has arrived. -/
def execBarrierRelease (s : State) : Result := .next (if s.hart.trigger then s else s.tryRelease)

/-! ### tend (12:R272). -/

/-- Every earlier instruction of the hart has completed: the units are empty, stores are performed at their homes, those of a peer
package too (10:R220), and every peel operation has ended but those a save left behind (12:R272). -/
def State.allDone (s : State) : Bool :=
  s.core.units.isEmpty && s.quiet && s.acked .sys && s.core.peel.all (·.out)

/-- tend: in a SNAP gang it arrives and waits for the release; elsewhere the hart is idle at once, its arrival made for
the other members. -/
def execTend (s : State) : Result :=
  if !s.allDone then s.waitHere
  else if s.hart.snap then .next (s.mapHart (fun h => { h with run := .ending })).tryRelease
  else .next s.endTask

end Sys2Proof.Machine
end

