-- ==== Sys2Proof/Machine/Sched.lean ====
section
/-! DEFINITION. Machine/Sched.lean: contexts, dispatchers and levels, aging, the lane allocator and the start of a task
(12:R262 to R264, 13:R278 to R281, 16:R295). -/

namespace Sys2Proof.Machine

/-! ### Context descriptors (16:R295). -/

/-- A context as its descriptor gives it; a destroyed context is not valid (18:R346). -/
structure Context where
  valid : Bool
  root : Addr
  sys : Bool
  maint : Bool
  lockq : BitVec 13
  desc : Descriptor
  area : Area
  /-- A word of the descriptor is uncorrectable (00:R5). -/
  bad : Bool
  deriving DecidableEq, Repr

/-- Read the descriptor of a context. -/
def State.context (s : State) (c : BitVec 8) : Context :=
  let a := s.pkg.cdtbase.toNat + 64 * c.toNat
  let w (k : Nat) : Word := BitVec.ofNat 64 (s.peek (a + 8 * k) 8)
  { valid := (w 0).getLsbD 0 && !natSetHas s.pkg.killed c.toNat
    root := (w 0).setWidth 48 &&& ~~~0xFFF#48
    sys := (w 1).getLsbD 16
    maint := (w 1).getLsbD 17
    lockq := (w 1).extractLsb' 0 13
    desc := { faultq := (w 4).extractLsb' 0 12,
              acqueue := (w 4).extractLsb' 16 12, acx := (w 1).extractLsb' 24 4 }
    area := { base := w 2, size := w 3 }
    bad := s.peekPoison a 64 }

/-- Another core owns the line of a context's descriptor (09:R203). -/
def State.contextForeign (s : State) (c : BitVec 8) : Bool := s.foreign ((s.pkg.cdtbase.toNat + 64 * c.toNat) / 64)

/-- The hart as the translations of a context's system accesses see it, by the tables at root (13:R282). -/
def State.asSystem (s : State) (ctx : BitVec 8) (root : Addr) : State :=
  s.mapHart (fun h => { h with ctxid := ctx, ptroot := root, sys := true })

/-- Back from a system access: the hart and the TLBs as they were. -/
def State.backFrom (s : State) (old : State) : State :=
  { s with hart := old.hart, core := { s.core with tlb := old.core.tlb, tlb1 := old.core.tlb1 } }

/-! ### Access to a context save area (12:R262, 13:R282). -/

/-- Why an access to an area stops: the address cannot be translated, read or written, or another core has still to write a
line back. -/
inductive AreaStop where
  | failed (va : Nat)
  | busy
  deriving DecidableEq, Repr

/-- Translate an address of an area. The bench window is not translated and lies in no area (08:R173); an area lies in no peer
package. -/
def State.areaAt (s : State) (va : Nat) (acc : FaultAccess) : Except AreaStop (State × Nat) :=
  if inBenchWindow va || 2 ^ 48 ≤ va then .error (.failed va)
  else match s.translate (BitVec.ofNat 48 va) acc with
  | .ok (dpa, mt, _) s =>
    if mt = .peer then .error (.failed va)
    else if s.foreign (dpa / 64) then .error .busy
    else .ok (s, dpa)
  | .wait _ => .error .busy
  | _ => .error (.failed va)

/-- Write up to 64 bytes inside one line at a virtual address of the context in force. -/
def State.areaWrite (s : State) (va : Nat) (n v : Nat) (poison : Bool) : Except AreaStop State :=
  match s.areaAt va .write with
  | .ok (s, dpa) =>
    let s := s.poke dpa n v
    .ok (if poison then s.mapPkg (fun p => p.setPoison dpa true) else s)
  | .error e => .error e

/-- A dword of an area and whether it is poisoned, which consumes the poison; the home meets the errors of its line (21:R359,
R372). -/
def State.areaRead (s : State) (va : Nat) : Except AreaStop (State × Word × Bool) :=
  match s.areaAt va .read with
  | .ok (s, dpa) =>
    let s := (s.recall (dpa / 64)).getD s
    let q := s.pkg.poisoned dpa 8
    .ok (if q then s.consumePoison dpa else s, s.pkg.readWord dpa, q)
  | .error e => .error e

/-- Bytes of a member's area. -/
def areaBytes : Nat := 0x1100000

/-- Copy a record to the first 64 bytes of every member's area: the state after it, and what stopped it (12:R262). -/
def State.copyRecord (s : State) (csa : Nat) (ws : List Word) : List Nat → State × Option AreaStop
  | [] => (s, none)
  | i :: is =>
    match s.areaWrite (csa + i * areaBytes) 64 (wordsNat (cleanRecord ws)) false with
    | .error e => (s, some e)
    | .ok s => s.copyRecord csa ws is

/-! ### Dispatchers (13:R278, R279). -/

/-- The eight words of the record at the head of a queue, and whether one is poisoned; a poisoned one says nothing, and reads as 0
(21:R359, log 98). -/
def State.headRecord (s : State) (d : QueueDesc) : List Word × Bool :=
  let a := d.base + 64 * d.head
  ((List.range 8).map (fun k => if s.peekPoison (a + 8 * k) 8 then 0 else BitVec.ofNat 64 (s.peek (a + 8 * k) 8)), s.peekPoison a 64)

/-- The read of the head record as an acquire at sys scope: a slot that the host has written at the adapter is taken in past HR, so
that the start of its task, which rises past every wts assigned, lies past the host's writes (18:R342, R343). A poisoned word is
consumed (21:R372). -/
def State.acquireHead (s : State) (d : QueueDesc) : State :=
  let a := d.base + 64 * d.head
  let s := if s.pkg.atAdapter (a / 64) then s.takeIn (a / 64) else s
  match (List.range 8).find? (fun k => s.peekPoison (a + 8 * k) 8) with
  | some k => s.consumePoison (a + 8 * k)
  | none => s

/-- The effective level: PRIO, risen with the waiting of its queue's head, not above 6; 7 never moves (13:R279). -/
def effLevel (prio : BitVec 3) (age : Bool) (rises : Nat) : BitVec 3 :=
  if prio = 7#3 || !age then prio else BitVec.ofNat 3 (min 6 (prio.toNat + rises))

/-- The level of the head of queue q, none when it is empty, disabled or already requested. -/
def State.headLevel (s : State) (q : BitVec 12) : Option (BitVec 3) :=
  let d := s.queueDesc q
  if !d.en || d.used = 0 || s.pkg.requests.any (fun r => match r.kind with | .record x _ => x = q | .resume _ => false) then none
  else some (effLevel (taskRec (s.headRecord d).1).prio d.age (sparseGet 0 s.pkg.waits q.toNat))

/-- Dispatcher k has an outstanding request that it popped at level p. -/
def State.outstanding (s : State) (k : Nat) (p : BitVec 3) : Bool :=
  s.pkg.requests.any (fun r => match r.kind with
    | .record _ _ => r.disp.toNat = k && r.popped = p
    | .resume _ => false)

/-- The queue that dispatcher k pops next at level p: the first after the last one there, wrapping. Where it has popped none yet the
rule names no first one: queue 1 of its range comes first and queue 0 last, as if queue 0 had been popped (13:R278, DESIGN CHOICE,
log 6). -/
def State.nextQueue (s : State) (k : Nat) (p : BitVec 3) : Option (BitVec 12) :=
  let last := sparseGet 1024 s.pkg.lastPop (k * 8 + p.toNat)
  ((List.range 1024).map (fun i => BitVec.ofNat 12 (k * 1024 + (last + 1 + i) % 1024))).find?
    (fun q => s.headLevel q = some p)

/-- The slot at the head of a queue is freed (12:R262). -/
def State.freeHead (s : State) (q : BitVec 12) : State :=
  let d := s.queueDesc q
  (s.setHead q ((d.head + 1) % d.n)).mapPkg (fun p => { p with waits := sparseSet 0 p.waits q.toNat 0 })

/-- A popped record is discarded with a KIND 1 report to the queue's ring (12:R262, 18:R343, R345, 21:R359). -/
def State.discardRecord (s : State) (q : BitVec 12) (r : TaskRec) : State :=
  let ring : BitVec 12 := BitVec.ofNat 12 (s.peek (s.queueAt q + 16) 8)
  (s.freeHead q).mapPkg (fun p => p.post (sysReport ring 1 r.ctxid q 0 0 0 0 r.cookie))

/-- Another core owns a line that a pop of queue q reads: its descriptor, its head's slot, or the context's descriptor
(09:R203). -/
def State.popForeign (s : State) (q : BitVec 12) : Bool :=
  let d := s.queueDesc q
  s.foreignIn (s.queueAt q) 32 || s.foreignIn (d.base + 64 * d.head) 64 ||
    s.contextForeign (taskRec (s.headRecord d).1).ctxid

/-- Pop the head of queue q at level p into a grant request, after its checks: a poisoned record, one of a context that
is not valid or whose descriptor is uncorrectable, and a malformed record of a host queue are discarded (12:R258, R262,
16:R295, 21:R359, log 98). -/
def State.popQueue (s : State) (k : Nat) (p : BitVec 3) (q : BitVec 12) : State :=
  let d := s.queueDesc q
  let ws := s.headRecord d
  let r := taskRec ws.1
  let c := s.context r.ctxid
  let s := (s.acquireHead d).mapPkg (fun t => { t with lastPop := sparseSet 1024 t.lastPop (k * 8 + p.toNat) (q.toNat % 1024) })
  if ws.2 || !c.valid || c.bad || (d.host && !r.wellFormed s.pkg c.sys) then s.discardRecord q r
  else s.mapPkg (fun t => { t with
    requests := t.requests ++ [{ kind := .record q ws.1, popped := p, level := p, order := t.nextOrder,
                                 ages := d.age && r.prio != 7#3, disp := BitVec.ofNat 2 k }]
    nextOrder := t.nextOrder + 1 })

/-- The pop that a dispatcher makes now: the highest level where it may, and the queue (13:R278). -/
def State.popNext (s : State) (k : Nat) : Option (BitVec 3 × BitVec 12) :=
  [7#3, 6#3, 5#3, 4#3, 3#3, 2#3, 1#3, 0#3].findSome? (fun p =>
    if s.outstanding k p then none else (s.nextQueue k p).map (fun q => (p, q)))

/-- The pop that dispatcher k can make now, none while another core owns what it reads. -/
def State.popNow (s : State) (k : Nat) : Option State :=
  match s.popNext k with
  | none => none
  | some (p, q) => if s.popForeign q then none else some (s.popQueue k p q)

/-- QUEUE_POP: a dispatcher pops at the highest level where it may (13:R278). -/
def execQueuePop (disp : Nat) (s : State) : Result := .next ((s.popNow (disp % 4)).getD s)

/-- One more 10 ms of waiting raises a request. -/
def GrantReq.aged (r : GrantReq) : GrantReq :=
  if r.ages && r.level.toNat < 6 then { r with level := r.level + 1#3 } else r

/-- AGING_TICK: the head of queue req has waited 10 ms more, or, from 4,096 on, the request at that place of the list
(13:R279). -/
def execAgingTick (req : Nat) (s : State) : Result :=
  if req < 4096 then
    let q : BitVec 12 := BitVec.ofNat 12 req
    let d := s.queueDesc q
    .next (if (s.headLevel q).isSome && d.age then
        s.mapPkg (fun p => { p with waits := sparseSet 0 p.waits req (sparseGet 0 p.waits req + 1) })
      else s)
  else .next (s.mapPkg (fun p => { p with
    requests := p.requests.mapIdx (fun i r => if i = req - 4096 then r.aged else r) }))

/-! ### The lane allocator (12:R263, 13:R280). -/

/-- A request is served before another: the higher level, then the earlier entry. -/
def GrantReq.before (a b : GrantReq) : Bool := b.level < a.level || (a.level = b.level && a.order < b.order)

/-- The request that the allocator serves: the oldest of the highest level. -/
def Pkg.served (p : Pkg) : Option GrantReq :=
  p.requests.foldl (fun best r => match best with
    | none => some r
    | some b => if r.before b then some r else some b) none

/-- Take a request off its list. -/
def Pkg.dropRequest (p : Pkg) (r : GrantReq) : Pkg := { p with requests := p.requests.filter (fun x => x.order != r.order) }

/-- Ways in a mask. -/
def popcount8 (m : BitVec 8) : Nat := (List.range 8).countP (fun k => m.getLsbD k)

/-- Each way of a mask is free for a grant: not way 0, in CACHE mode, and without a locked line (12:R263). No other grant
holds a way of a core whose hart is idle, and a pinned way is not in CACHE mode. -/
def State.waysFree (s : State) (m : BitVec 8) : Bool :=
  !m.getLsbD 0 &&
  (List.range 8).all (fun k => !m.getLsbD k || (s.core.ways[k]?.map (·.mode)) = some .cache) && !s.locksIn m

/-- The modelled core can take a gang: its hart is idle, and a discarded gang's stores are performed and its report is out
(21:R370). -/
def State.coreFree (s : State) : Bool :=
  s.hart.run = .idle && !s.core.inReset && !s.pkg.saving && !(s.pkg.saved.any (·.granted)) && s.core.storeQ.isEmpty &&
    s.core.reports.isEmpty

/-- The report of a gang discarded before it ran or while it was SAVED (12:R262, 13:R285). -/
def State.reportDiscard (s : State) (queue : BitVec 12) (ctx : BitVec 8) (cause : BitVec 8) (val pc cookie : Word) : State :=
  let ring := s.reportRing queue
  s.mapPkg (fun p => p.post (sysReport ring 2 ctx 0#12 s.core.num cause val pc cookie))

/-- A choice takes in this core. -/
def choiceTakes (g : GrantChoice) (num : BitVec 9) : Bool := g.cores.contains num

/-- The gang index of a core: its position in ascending order among the chosen cores (12:R263). -/
def choiceIdx (g : GrantChoice) (num : BitVec 9) : BitVec 10 := BitVec.ofNat 10 (g.cores.countP (fun c => c < num))

/-- The registers of a hart at the start of a task (12:R264). -/
def startHart (h : Hart) (r : TaskRec) (c : Context) (g : GrantChoice) (gidx : BitVec 10) (q : BitVec 12) (level : BitVec 3)
    (p : BitVec 16) : Hart :=
  let area := r.csa + BitVec.ofNat 48 (gidx.toNat * areaBytes)
  { Hart.reset with
    run := .running
    pc := r.entry &&& ~~~3#48
    g := ((((Vector.replicate 32 (0#64)).set 3 r.fp).set 4 r.jc).set 5 (gidx.setWidth 64)).set 6 (r.gang.setWidth 64)
    vlmax := BitVec.ofNat 20 (65536 * r.w.toNat)
    vlceil := r.vlceil
    lanesW := r.w
    lanesWays := g.ways
    ltime := p
    lease := 16
    lockq := c.lockq
    sys := c.sys
    maint := c.maint
    snap := r.snap
    racechk := r.racechk
    ptroot := c.root
    csaptr := area
    gangid := g.gangid
    gidx := gidx
    gsize := r.gang
    taskrec := area
    prio := level
    ctxid := r.ctxid
    desc := c.desc
    cookie := r.cookie
    csa := r.csa
    queue := q
    halted := h.halted
    brkArmed := h.brkArmed
    stale := h.stale }

/-- The core's registers and units hold nothing at the start of a task, and CHKCTL has its reset value (12:R264, 13:R287,
21:R374). -/
def Core.startTask (c : Core) : Core :=
  { c with vrows := [], prows := [], badRows := [], cells := [], chans := [], badCells := [], winCount := 0,
           winPair := .none, units := [], gated := false, vv := 0, pv := 0, fv := false, captured := none, shadows := [],
           counted := [], walks := [], inj := 0, injArm := false }

/-- HYP of a task that starts under the id of its record: the id, or the entry into which it merged; one that was refuted
meanwhile raises the orphan trap before the first instruction, and one that has become FREE, or another context's, stands for
the root (12:R264, 17:R322, R335, log 98). -/
def State.startHyp (s : State) (id : BitVec 12) (ctx : BitVec 8) : State :=
  let h := s.pkg.resolve 16 id
  let e := s.pkg.hypEntry h
  if h = 0#12 || e.st = .free || e.owner != ctx then s.setHypReg 0#12
  else if e.st = .refuted then (s.setHypReg h).mapHart (fun x => { x with orphan := some h })
  else s.setHypReg h

/-- A gang starts with a member here (12:R264, R266). The start is an acquire at pkg scope: the horizon is raised past
every write performed before (12:R261, 09:R201). -/
def State.startTask (s : State) (r : TaskRec) (c : Context) (g : GrantChoice) (q : BitVec 12) (level : BitVec 3) : State :=
  let s := s.broadcast
  let s := { s with
    hart := startHart s.hart r c g (choiceIdx g s.core.num) q level s.pkg.horizon
    core := s.core.startTask }
  let s := s.freshStamp.mapPkg (fun p => { (p.setArea r.ctxid c.area) with arrivals := [], ended := [] })
  if r.snap then
    match s.pkg.lowestFree with
    | some id => (s.openSuperstep id).captureState
    | none => s
  else s.startHyp r.hypid r.ctxid

/-- Grant a record: its copy in every member's area, the slot freed, the start here when this core was chosen. A copy
that fails discards the gang, and so does an uncorrectable descriptor (12:R262, 00:R5, log 98). -/
def State.grantRecord (s : State) (req : GrantReq) (q : BitVec 12) (ws : List Word) (g : GrantChoice) : State :=
  let r := taskRec ws
  let c := s.context r.ctxid
  let t := (s.asSystem r.ctxid c.root).copyRecord r.csa.toNat ws (List.range r.gang.toNat)
  let leave (s : State) : State := (s.freeHead q).mapPkg (fun p => p.dropRequest req)
  if c.bad then
    (leave s).reportDiscard q r.ctxid 0x0A#8 (BitVec.ofNat 64 (s.pkg.cdtbase.toNat + 64 * r.ctxid.toNat)) 0 r.cookie
  else match t.2 with
  | some .busy => s
  | some (.failed va) => (leave (t.1.backFrom s)).reportDiscard q r.ctxid 0x03#8 (BitVec.ofNat 64 va) 0 r.cookie
  | none =>
    let s := leave (t.1.backFrom s)
    if choiceTakes g s.core.num then s.startTask r c g q req.level else s

/-- A GANGID is free: no resident gang has it (12:R264). -/
def State.gangidFree (s : State) (id : BitVec 20) : Bool :=
  id != 0#20 && !(s.pkg.saved.any (fun x => x.gangid = id)) && (s.hart.run = .idle || s.hart.gangid != id)

/-- The allocator's choice is one that 12:R263 allows, as far as this core shows it: GANG distinct cores, and on this one, when
it is chosen, W free ways. -/
def State.choiceOk (s : State) (g : GrantChoice) (w gang : Nat) : Bool :=
  g.cores.length = gang && g.cores.Nodup && s.gangidFree g.gangid &&
    (!choiceTakes g s.core.num || (s.coreFree && s.waysFree g.ways && popcount8 g.ways = w))

/-- Ways that a SAVED gang can be resumed with: W free ones beside its bench ways (13:R284). -/
def State.resumeFits (s : State) (x : SavedGang) (ways : BitVec 8) : Bool :=
  s.waysFree (ways ||| x.bways) && (ways &&& x.bways) = 0#8 && popcount8 ways = x.awaysW.toNat

/-- A request can be granted with this choice; a freeze lets no task begin (12:R263, R266, 13:R280, R284, 23:R387). -/
def State.canGrant (s : State) (req : GrantReq) (g : GrantChoice) : Bool :=
  !s.pkg.freezing && match req.kind with
  | .record q ws =>
    let r := taskRec ws
    s.choiceOk g r.w.toNat r.gang.toNat && !s.foreignIn (s.queueAt q) 32 && !s.contextForeign r.ctxid &&
      !(r.snap && s.pkg.lowestFree.isNone)
  | .resume id =>
    match s.pkg.saved.find? (fun x => x.gangid = id) with
    | none => false
    | some x => s.coreFree && s.resumeFits x g.ways

/-- Grant a request. -/
def State.grant (s : State) (req : GrantReq) (g : GrantChoice) : State :=
  match req.kind with
  | .record q ws => s.grantRecord req q ws g
  | .resume id => s.mapPkg (fun p => { p.dropRequest req with
      saved := p.saved.map (fun y => if y.gangid = id then { y with granted := true } else y) })

/-- LANE_GRANT: the oldest request of the highest level is granted; nothing when it cannot be with this choice
(13:R280, R284). -/
def execLaneGrant (g : GrantChoice) (s : State) : Result :=
  match s.pkg.served with
  | none => .next s
  | some req => .next (if s.canGrant req g then s.grant req g else s)

/-- A choice of this core for a request: its lowest free ways, the lowest free GANGID, and the lowest other cores that it
takes; for a resume only the ways count (12:R263). -/
def State.ownChoice (s : State) (req : GrantReq) : GrantChoice :=
  let need : Nat × Nat × BitVec 8 := match req.kind with
    | .record _ ws => ((taskRec ws).w.toNat, (taskRec ws).gang.toNat, 0#8)
    | .resume id => match s.pkg.saved.find? (fun x => x.gangid = id) with
      | some x => (x.awaysW.toNat, 1, x.bways)
      | none => (0, 1, 0#8)
  let ways := ((natRange 1 7).filter (fun k => s.waysFree (BitVec.ofNat 8 (2 ^ k)) && !need.2.2.getLsbD k)).take need.1
  let others := (((List.range 512).map (BitVec.ofNat 9)).filter (fun c => c != s.core.num)).take (need.2.1 - 1)
  { cores := s.core.num :: others
    ways := BitVec.ofNat 8 ((ways.map (2 ^ ·)).sum)
    gangid := (((natRange 1 (s.pkg.saved.length + 2)).map (BitVec.ofNat 20)).find? s.gangidFree).getD 0#20 }

end Sys2Proof.Machine
end

