-- ==== Sys2Proof/Machine/Save.lean ====
section
/-! DEFINITION. Machine/Save.lean: pre-emption and what it writes to the context save area (13:R281 to R283, R286 to R288,
11:R254). -/

namespace Sys2Proof.Machine

/-! ### What a save writes (13:R283, R286, R287): dwords by offset, with their poison. -/

/-- A dword of the area. -/
structure AreaWord where
  off : Nat
  val : Word
  poison : Bool
  deriving DecidableEq, Repr

/-- Consecutive dwords. -/
def areaWords (off : Nat) (ws : List Word) : List AreaWord :=
  ws.mapIdx (fun i w => { off := off + 8 * i, val := w, poison := false })

/-- Bytes from a function of their index, as dwords. -/
def areaImage (off n : Nat) (f : Nat → Nat) : List AreaWord :=
  (List.range n).map (fun i => { off := off + 8 * i, poison := false,
                                 val := BitVec.ofNat 64 (ofBytes ((List.range 8).map (fun j => BitVec.ofNat 8 (f (8 * i + j))))) })

/-- Granted ways in ARRAY mode. -/
def State.arrayWays (s : State) : BitVec 8 :=
  BitVec.ofNat 8 ((List.range 8).foldl (fun n k =>
    n + (if s.hart.lanesWays.getLsbD k && (s.core.ways[k]?.map (·.mode)) = some .array then 2 ^ k else 0)) 0)

/-- Ways of the running context in BENCH mode, those with a rack or those without. -/
def State.benchWays (s : State) (rack : Bool) : BitVec 8 :=
  let b : BitVec 8 := BitVec.ofNat 8 ((List.range 8).foldl (fun n k =>
    n + (if s.core.benchWay k s.hart.ctxid then 2 ^ k else 0)) 0)
  if rack then b &&& s.core.rackWays else b &&& ~~~s.core.rackWays

/-- The ways of a mask, ascending. -/
def maskWays (m : BitVec 8) : List Nat := (List.range 8).filter (fun k => m.getLsbD k)

/-- The ways word of the header. -/
def State.waysWord (s : State) : Word :=
  BitVec.ofNat 64 (s.arrayWays.toNat * 2 ^ 32 + (s.benchWays false).toNat * 2 ^ 24 + (s.benchWays true).toNat * 2 ^ 16
    + s.hart.lanesWays.toNat * 2 ^ 8 + s.hart.lanesW.toNat * 2 ^ 4)

/-- Number of the open window's pair (13:R287). -/
def WinPair.code : WinPair → Nat
  | .none => 0 | .ss => 1 | .su => 2 | .uu => 3

/-- Numbers of OP and RM (12:R276, 03:R69). -/
def gredCode : GredOp → Nat
  | .add => 0 | .and => 1 | .or => 2 | .xor => 3 | .min => 4 | .max => 5 | .minu => 6 | .maxu => 7 | .faddD => 8
def rmCode : Rm → Nat
  | .rne => 0 | .rtz => 1 | .rdn => 2 | .rup => 3 | .rna => 4 | .rsr => 5

/-- The barrier word of the header. A member that waits at its tend for the release is at no synchronising instruction, for which the
word has no KIND: ARR is 0, and the wait stands beside the area (13:R287, DESIGN CHOICE, log 38). -/
def barrierWord : Option Pending → Word
  | none => 0
  | some p => match p.kind with
    | .gbar => 1
    | .gred op rm => BitVec.ofNat 64 (rmCode rm * 64 + gredCode op * 4 + 2 + 1)

/-- Valid maps after this save (13:R287). -/
def State.validMaps (s : State) : Word :=
  BitVec.ofNat 64 ((s.core.vv ||| s.hart.vdirty).toNat * 2 ^ 32 + (s.core.pv ||| s.hart.pdirty).toNat / 2 * 2 + 1)

/-- The header from g0 to the gred operand (13:R287). -/
def State.saveHeader (s : State) : List AreaWord :=
  areaWords 0x40 ((List.range 32).map (fun r => s.g (BitVec.ofNat 5 r)) ++
    [s.hart.pc.setWidth 64] ++
    [SysReg.mode, .vl, .vstart, .rds, .vfsr, .srseed, .srcount, .fcr, .fsr, .ltime, .lease, .syncst, .hyp, .hypdepth,
     .benchchk, .trapcause, .trappc, .trapval, .trapvec, .status, .instret].map s.sysRead ++
    [s.validMaps, s.waysWord, BitVec.ofNat 64 (s.core.winPair.code * 512 + s.core.winCount), barrierWord s.hart.arrival,
     ((s.hart.arrival.map (·.operand)).getD 0)])

/-- The sixteen dwords of an entry (13:R288). -/
def entryWords (word : IWord) (flags : Nat) (pc : Addr) (mode vl vstart seed count fcr gd gd1 ga gb base : Word) :
    List Word :=
  [BitVec.ofNat 64 (word.toNat + flags), pc.setWidth 64, mode, vl, vstart, seed, count, fcr, gd, gd1, ga, gb, base, 0, 0, 0]

/-- VALID, PARKED and UNRESOLVED as they add to word 0. -/
def entryFlags (parked unresolved : Bool) : Nat :=
  2 ^ 32 + (if parked then 2 ^ 33 else 0) + (if unresolved then 2 ^ 34 else 0)

/-- VSTART = e as the register reads (log 86). -/
def armed (e : Nat) : Word := if e = 0 then 0#64 else BitVec.ofNat 64 (2 ^ 31 + e % 2 ^ 20)

/-- The entry of a unit operation. SRSEED and SRCOUNT are those at issue, whether the instruction draws or not, and g(gs) of
a V- or P-form stands in the place of g(b) (log 58). -/
def UnitOp.entry (u : UnitOp) : List Word :=
  entryWords ((encode u.instr).getD 0) (entryFlags u.parked.isSome u.unresolved) u.pc (u.mode.setWidth 64)
    (BitVec.ofNat 64 u.vl) (armed u.vstart) u.srseed u.srcount
    (if isFrame u.instr then BitVec.ofNat 64 (u.shape.toNat * 2 ^ 16 + u.fe.toNat) else 0) u.gd u.gd1 u.ga u.gb 0

/-- The entry of a peel operation, with SRSEED and SRCOUNT at issue too, which it does not use (log 58). -/
def PeelOp.entry (o : PeelOp) : List Word :=
  entryWords ((encode o.instr).getD 0) (entryFlags o.parked.isSome o.unresolved) o.pc (o.mode.setWidth 64)
    (BitVec.ofNat 64 o.vl) (armed o.vstart) o.srseed o.srcount 0 o.gd o.gd1 o.ga o.gb (BitVec.ofNat 64 o.base)

/-- The entry of a prsv that waits for its answer: its PC is the one before SAVEPC (11:R247, 13:R288, log 58). -/
def PrsvOp.entry (p : PrsvOp) (pc : Addr) : List Word :=
  entryWords ((encode (.prsv p.d p.a p.b)).getD 0) (entryFlags false false) pc (p.mode.setWidth 64) (p.vl.setWidth 64)
    (armed p.vstart) p.srseed p.srcount 0 0 0 p.ga p.gb 0

/-- The waiting prsv among the entries of the peel queue. -/
def State.prsvEntry (s : State) : List (List Word) :=
  match s.hart.run with
  | .waitPrsv p => [p.entry (s.hart.pc - 4#48)]
  | _ => []

/-- A queue's entries in order, then one that is not valid when the queue is not full (13:R283). -/
def areaQueue (off cap : Nat) (es : List (List Word)) : List AreaWord :=
  areaWords off (es.flatten ++ (if es.length < cap then List.replicate 16 0 else []))

/-- A put whose flits have left, its elements all started, stays behind (11:R254). -/
def PeelOp.staysBehind (o : PeelOp) : Bool := o.active && isPut o.instr && o.gone && o.vl ≤ o.vstart

/-- The peel operations that a save writes. -/
def State.savedPeel (s : State) : List PeelOp := s.core.peel.filter (fun o => !o.out && !o.staysBehind)

/-- The byte of a register image at an index: row × 2,048 + (lane >> 3) (13:R286). -/
def Core.vImageByte (c : Core) (k way i : Nat) : Nat :=
  (List.range 8).foldl (fun n j =>
    n + (if (sparseGet 0#32 c.vrows (k * 2 ^ 17 + way * 2 ^ 14 + i % 2048 * 8 + j)).getLsbD (i / 2048) then 2 ^ j else 0)) 0
def Core.pImageByte (c : Core) (k way i : Nat) : Nat :=
  (List.range 8).foldl (fun n j =>
    n + (if (sparseGet 0#4 c.prows (k * 2 ^ 17 + way * 2 ^ 14 + i % 2048 * 8 + j)).getLsbD (i / 2048) then 2 ^ j else 0)) 0

/-- Slots of the ARRAY ways: the position of the way in the grant (13:R286). -/
def State.arraySlots (s : State) : List (Nat × Nat) :=
  ((s.hart.grantWays.mapIdx (fun i w => (i, w))).filter (fun x => s.arrayWays.getLsbD x.2))

/-- A register image, poisoned as a whole when one of its rows has a parity mismatch (21:R375). -/
def markImage (bad : Bool) (ws : List AreaWord) : List AreaWord :=
  if bad then ws.map (fun w => { w with poison := true }) else ws

/-- A row of a way whose parity does not match lies between lo and hi. -/
def Core.badBetween (c : Core) (way lo hi : Nat) : Bool :=
  c.badRows.any (fun e => e.1 / 2 ^ 16 = way && lo ≤ e.1 % 2 ^ 10 && e.1 % 2 ^ 10 < hi)

/-- Images of the registers whose dirty bits are set (13:R283, R286). -/
def State.saveRegisters (s : State) : List AreaWord :=
  s.arraySlots.flatMap (fun (x : Nat × Nat) =>
    ((List.range 16).filter (fun k => s.hart.vdirty.getLsbD k)).flatMap (fun k =>
      markImage (s.core.badBetween x.2 (32 * k) (32 * k + 32))
        (areaImage (0x100000 + k * 0x70000 + x.1 * 0x10000) 8192 (s.core.vImageByte k x.2))) ++
    ((natRange 1 31).filter (fun k => s.hart.pdirty.getLsbD k)).flatMap (fun k =>
      markImage (s.core.badBetween x.2 (512 + 4 * k) (516 + 4 * k))
        (areaImage (0x800000 + k * 0xE000 + x.1 * 0x2000) 1024 (s.core.pImageByte k x.2))))

/-- A saved bench way: its valid bits, owner bits and data (13:R286). -/
def Core.saveBench (c : Core) (slot way : Nat) : List AreaWord :=
  let o := (way - 1) * 2 ^ 20
  areaImage (0x10000 + slot * 0x4000) 2048 (fun i => (List.range 8).foldl (fun n j =>
    n + (if natSetHas c.benchInvalid (o / 8 + 8 * i + j) then 0 else 2 ^ j)) 0) ++
  areaImage (0x2C000 + slot * 0x20) 4 (fun i => (List.range 8).foldl (fun n j =>
    n + (if c.engineOwned (o / 4096 + 8 * i + j) then 2 ^ j else 0)) 0) ++
  (List.range 131072).map (fun w => { off := 0xA00000 + slot * 0x100000 + 8 * w,
                                      val := BitVec.ofNat 64 (c.benchNat (o + 8 * w) 8),
                                      poison := natSetHas c.benchPoison (o / 8 + w) })

/-- Everything a save writes, in order (13:R283). -/
def State.saveImage (s : State) : List AreaWord :=
  s.saveHeader ++
  areaQueue 0x1000 4 ((s.core.units.filter (fun u => !isFrame u.instr)).map UnitOp.entry) ++
  areaQueue 0x1200 4 ((s.core.units.filter (fun u => isFrame u.instr)).map UnitOp.entry) ++
  areaQueue 0x1400 16 (s.savedPeel.map PeelOp.entry ++ s.prsvEntry) ++
  areaWords 0x2000 ((List.range 4096).map (sparseGet 0#64 s.core.cells)) ++
  areaImage 0xA000 2048 (fun i =>
    let ch := sparseGet Chan.zero s.core.chans (i / 4)
    (ch.a.toNat + ch.b.toNat * 2 ^ 8 + ch.c.toNat * 2 ^ 16) / 256 ^ (i % 4) % 256) ++
  s.saveRegisters ++
  ((maskWays (s.benchWays false)).mapIdx (fun i w => s.core.saveBench i w)).flatten

/-- The hart's own accesses to its area are translated for its context by the tables that its start or resume read, with
system permission (13:R282, 16:R295). -/
def State.asOwner (s : State) : State := s.asSystem s.hart.ctxid s.hart.ptroot

/-- Write the dwords of an image at an area: the state after it, and what stopped it. -/
def State.writeImage (s : State) (area : Nat) : List AreaWord → State × Option AreaStop
  | [] => (s, none)
  | w :: ws =>
    match s.areaWrite (area + w.off) 8 w.val.toNat w.poison with
    | .error e => (s, some e)
    | .ok s => s.writeImage area ws

/-! ### What stands in the area while the gang is SAVED. -/

/-- The DPA of an offset of the hart's area, when it can be written. -/
def State.areaDpa (s : State) (off : Nat) : Option Nat :=
  match s.asOwner.areaAt (s.hart.csaptr.toNat + off) .write with
  | .ok (_, dpa) => some dpa
  | .error _ => none

/-- A parked agent as the SAVED gang keeps it; the entry is that at offset off. -/
def State.savedFault (s : State) (off : Nat) (parked : Option (BitVec 32 × Addr)) (unresolved : Bool) : List SavedFault :=
  match parked, s.areaDpa off with
  | some (fid, va), some dpa => [{ fid := fid, entry := dpa, va := va, unresolved := unresolved }]
  | _, _ => []

/-- The parked agents of the running gang; the hart itself has no entry, and its instruction starts again (10:R230). -/
def State.savedFaults (s : State) : List SavedFault :=
  ((s.core.units.filter (fun u => !isFrame u.instr)).mapIdx (fun i u =>
    s.savedFault (0x1000 + 128 * i) u.parked u.unresolved)).flatten ++
  ((s.core.units.filter (fun u => isFrame u.instr)).mapIdx (fun i u =>
    s.savedFault (0x1200 + 128 * i) u.parked u.unresolved)).flatten ++
  (s.savedPeel.mapIdx (fun i o => s.savedFault (0x1400 + 128 * i) o.parked o.unresolved)).flatten

/-- Where the entry of a waiting prsv is written. -/
def State.savedPrsv (s : State) : Option Nat :=
  match s.hart.run with
  | .waitPrsv _ => s.areaDpa (0x1400 + 128 * s.savedPeel.length)
  | _ => none

/-- The SAVED gang. -/
def State.savedGang (s : State) : SavedGang where
  gangid := s.hart.gangid
  gsize := s.hart.gsize
  gidx := s.hart.gidx
  ctxid := s.hart.ctxid
  level := s.hart.prio
  csa := s.hart.csa
  queue := s.hart.queue
  stamp := s.hart.syncst
  hyp := s.hart.hyp
  snap := s.hart.snap
  racechk := s.hart.racechk
  cookie := s.hart.cookie
  rbTotal := s.hart.rbTotal
  rbCur := s.hart.rbCur
  awaysW := s.hart.lanesW
  bways := s.benchWays false
  halted := s.hart.halted
  captured := s.core.captured
  shadows := s.core.shadows
  maxRead := s.hart.maxRead
  arrival := s.hart.arrival
  arrivals := s.pkg.arrivals
  ended := s.pkg.ended
  ending := s.hart.run = .ending
  order := s.core.units.map (fun u => isFrame u.instr)
  headStarted := (s.core.units.head?.map (·.started)).getD false
  peel := s.savedPeel
  fids := s.savedFaults
  prsv := s.savedPrsv
  tbs := s.core.tbs.filter (fun x => (s.benchWays false).getLsbD (x.off / 2 ^ 20 + 1))
  counted := s.core.counted
  orphan := none
  granted := false

/-! ### Pre-emption (13:R281, R282). -/

/-- After a save: the hart is idle, its queues are empty but for the operations left behind, its ways have returned to
CACHE, and the gang's request for a resume stands in the list of its level (13:R282, R284). -/
def State.leaveCore (s : State) (g : SavedGang) : State :=
  let s := s.mapCore (fun c => { c with
    units := []
    peel := (c.peel.filter (fun o => o.out || o.staysBehind)).map (fun o => { o with out := true })
    captured := none
    shadows := [] })
  let s := s.releaseWays s.ownWays
  let s := s.mapHart (fun h => { h with run := .idle, arrival := none, hyp := 0, hypdepth := 0 })
  s.mapPkg (fun p => { p with
    saved := p.saved ++ [g]
    saving := true
    arrivals := []
    ended := []
    peerWaits := []
    requests := p.requests ++ [{ kind := .resume g.gangid, popped := g.level, level := g.level, order := p.nextOrder,
                                 ages := false, disp := 0 }]
    nextOrder := p.nextOrder + 1 })

/-- A trap or a rollback is to be taken before a save; a hart that waits for a reservation's answer takes its orphan trap
after it (13:R290, 21:R375). -/
def State.trapFirst (s : State) : Bool := s.hart.trigger || s.hart.arrayError.isSome || s.hart.orphan.isSome

/-- Accesses in flight complete before the hart and its units stop: a load or an atomic at a peer, the slot or 64-byte block
under way, the elements of a vector store that have all been checked, which later accesses may have passed, and the elements of a
peel operation below the last one moved (07:R163, 10:R215, R224, R230, 11:R254, 13:R282, log 13). -/
def State.inFlight (s : State) : Bool :=
  s.core.storePending || s.pkg.peerWaits.any (fun w => w.who != .engine) || s.core.units.any (fun u => u.busy && u.parked.isNone) ||
    s.core.peel.any (fun o => !o.out && o.parked.isNone && !o.moved.isEmpty)

/-- A frame instruction that is not stopped between its parts (07:R164). -/
def completesWhole : Instr → Bool
  | .fzero => true
  | .fzeroC => true
  | .frc => true
  | .fdrain .. => true
  | .fdrainNcs .. => true
  | .fdrainZ .. => true
  | .fdrainZNcs .. => true
  | .frowadd .. => true
  | .frowaddC .. => true
  | _ => false

/-- The frame completes such instructions at the head of its queue (07:R164, 13:R282). -/
def State.finishFrame (s : State) : Nat → State
  | 0 => s
  | n + 1 =>
    match s.turnOf true with
    | some u => if completesWhole u.instr && !s.trapFirst then (s.frameTurn u).finishFrame n else s
    | none => s

/-- A row whose parity does not match, in a register that the save reads (21:R360, R375). -/
def State.savedBad (s : State) : Option Nat :=
  (s.core.badRows.find? (fun e =>
    let r := e.1 % 2 ^ 10
    s.arrayWays.getLsbD (e.1 / 2 ^ 16) &&
      (if r < 512 then s.hart.vdirty.getLsbD (r / 32) else s.hart.pdirty.getLsbD ((r - 512) / 4)))).map (·.1)

/-- The event of that row (21:R372, R373). -/
def State.recordSaved (s : State) : State :=
  match s.savedBad with
  | some id => s.recordUe 3#4 (arrayLoc id 0 false)
  | none => s

/-- The checks of what a save reads: cells whose residue does not match are poisoned, single-bit errors of bench words are
corrected, and a row parity mismatch is in a SNAP gang a rollback trigger (21:R357, R358, R375). -/
def State.saveChecks (s : State) : State :=
  let s := s.fmcTrigger (·.checkCells (List.range cellCount))
  let ways := s.benchWays false
  let soft := s.core.softBench.filter (fun e => ways.getLsbD (e.1 / 2 ^ 17 + 1))
  let s := soft.foldl (fun s e => (s.mapCore (fun c => { c with softBench := natSetPut c.softBench e.1 false })).recordCe) s
  if s.hart.snap && s.savedBad.isSome then s.recordSaved.triggerRollback 0x0B#8 0 else s

/-- The state is written to the area with system permission and the hart leaves the core. A save that fails discards the gang;
one that must wait for another core's write-back is made later (13:R282, R283). -/
def State.save (s : State) : State :=
  let g := s.savedGang
  let w := s.asOwner.writeImage s.hart.csaptr.toNat s.saveImage
  let t := w.1.backFrom s
  match w.2 with
  | some (.failed va) => t.discardGang 0x03#8 (BitVec.ofNat 64 va) (s.hart.pc.setWidth 64)
  | some .busy => s
  | none => t.recordSaved.leaveCore g

/-- A pre-emption of the running gang: its stores drain, what is in flight or must complete does so, then it is saved
(13:R282). -/
def State.preempt (s : State) : State :=
  let s := s.drain
  if s.trapFirst || s.inFlight || !s.core.storeQ.isEmpty then s
  else
    let s := s.finishFrame queueDepth
    if s.trapFirst || s.hart.run = .idle then s
    else
      let s := s.saveChecks
      if s.trapFirst || s.hart.run = .idle then s else s.save

/-- The ways that would be free once the running gang had gone: not way 0, not pinned by a rack, without a locked line
(13:R281). -/
def State.freeableWays (s : State) : List Nat :=
  (natRange 1 7).filter (fun k =>
    !s.core.rackWays.getLsbD k && !s.locksIn (BitVec.ofNat 8 (2 ^ k)) &&
      ((s.core.ways[k]?.map (·.mode)) = some .cache || s.ownWays.getLsbD k))

/-- The running gang's going helps to cover a request: this core would have its ways, or the gang holds other cores that the
request can use. A request for all 512 cores needs this one (13:R280, R281). -/
def State.covers (s : State) (r : GrantReq) : Bool :=
  let free := s.freeableWays
  match r.kind with
  | .record _ ws =>
    (s.hart.gsize != 1#10 && (taskRec ws).gang != 512#10) || (taskRec ws).w.toNat ≤ free.length
  | .resume id =>
    match s.pkg.saved.find? (fun x => x.gangid = id) with
    | some x => (maskWays x.bways).all free.contains && x.awaysW.toNat + popcount8 x.bways ≤ free.length
    | none => false

/-- A request stands above the level of the running gang, whose going helps to cover it, and no freeze is on (13:R280, R281,
23:R387). -/
def State.mayPreempt (s : State) (r : GrantReq) : Bool :=
  !s.pkg.freezing && s.hart.run != .idle && s.hart.prio < r.level && !s.pkg.saving && s.covers r

/-- PREEMPTION: the request that the allocator serves stands above the level of the running gang, which is not of level 7,
and the gang's going helps to cover it; else the request waits (13:R280 to R282). -/
def execPreemption (s : State) : Result :=
  match s.pkg.served with
  | none => .next s
  | some r =>
    .next (if s.mayPreempt r then s.preempt else s)

/-- GANG_SAVED: every member's writes have been performed (13:R282). -/
def execGangSaved (s : State) : Result := .next (s.mapPkg (fun p => { p with saving := false }))

end Sys2Proof.Machine
end

