-- ==== Sys2Proof/Machine/Resume.lean ====
section
/-! DEFINITION. Machine/Resume.lean: the resume of a SAVED gang from its context save area, and its discard (13:R284, R285,
21:R370). -/

namespace Sys2Proof.Machine

/-! ### Reading the area (13:R285, R286). -/

/-- Read dwords at offsets of an area, in order. -/
def State.readImage (area : Nat) : List Nat → State → Except AreaStop (State × List AreaWord)
  | [], s => .ok (s, [])
  | o :: os, s => do
    let r ← s.areaRead (area + o)
    let rest ← State.readImage area os r.1
    return (rest.1, { off := o, val := r.2.1, poison := r.2.2 } :: rest.2)

/-- n dwords from an offset. -/
def dwords (off n : Nat) : List Nat := (List.range n).map (fun i => off + 8 * i)

/-- VALID of the entry that starts a list of dwords. -/
def entryValid (ws : List AreaWord) : Bool := (ws.head?.map (fun w => w.val.getLsbD 32)).getD false

/-- The entries of a queue of n, up to the word with VALID = 0 that ends it (13:R288). -/
def State.readQueue (area : Nat) : Nat → Nat → State → Except AreaStop (State × List AreaWord)
  | _, 0, s => .ok (s, [])
  | off, n + 1, s => do
    let first ← State.readImage area [off] s
    if entryValid first.2 then
      let body ← State.readImage area (dwords (off + 8) 15) first.1
      let rest ← State.readQueue area (off + 128) n body.1
      return (rest.1, first.2 ++ body.2 ++ rest.2)
    else return first

/-- The entries among the words read of a queue. -/
def takeEntries (ws : List AreaWord) : Nat → List (List Word)
  | 0 => []
  | n + 1 => if entryValid ws then (ws.take 16).map (·.val) :: takeEntries (ws.drop 16) n else []

/-- A register's image as read: vector or predicate, its number, the way it goes to, its dwords. -/
structure RegImage where
  vector : Bool
  reg : Nat
  way : Nat
  words : List AreaWord

/-- A bench way as read: valid bits, owner bits and data. -/
structure BenchImage where
  way : Nat
  valid : List AreaWord
  owner : List AreaWord
  data : List AreaWord

/-- The header page and the operation entries. -/
structure HeadImage where
  head : List AreaWord
  kneader : List AreaWord
  frame : List AreaWord
  peel : List AreaWord

/-- Dword k of the header. -/
def HeadImage.word (h : HeadImage) (k : Nat) : Word := (h.head[k]?).elim 0#64 AreaWord.val

/-- The offset of a poisoned word of the header page or of an entry (13:R285, 21:R375). -/
def HeadImage.poisoned (h : HeadImage) : Option Nat :=
  ((h.head ++ h.kneader ++ h.frame ++ h.peel).find? (·.poison)).map (·.off)

/-- What stands behind them. -/
structure BodyImage where
  cells : List AreaWord
  chans : List AreaWord
  regs : List RegImage
  benches : List BenchImage

/-- Read the header page and the queues. -/
def State.readHead (s : State) (area : Nat) : Except AreaStop (State × HeadImage) := do
  let head ← State.readImage area (dwords 0 67) s
  let k ← State.readQueue area 0x1000 4 head.1
  let f ← State.readQueue area 0x1200 4 k.1
  let p ← State.readQueue area 0x1400 16 f.1
  return (p.1, { head := head.2, kneader := k.2, frame := f.2, peel := p.2 })

/-- Read the images of registers given by kind, number, way, offset and length. -/
def State.readRegs (area : Nat) : List (Bool × Nat × Nat × Nat × Nat) → State → Except AreaStop (State × List RegImage)
  | [], s => .ok (s, [])
  | (v, k, w, off, n) :: rest, s => do
    let r ← State.readImage area (dwords off n) s
    let more ← State.readRegs area rest r.1
    return (more.1, { vector := v, reg := k, way := w, words := r.2 } :: more.2)

/-- Read the bench ways given by slot and way. -/
def State.readBenches (area : Nat) : List (Nat × Nat) → State → Except AreaStop (State × List BenchImage)
  | [], s => .ok (s, [])
  | (slot, way) :: rest, s => do
    let v ← State.readImage area (dwords (0x10000 + slot * 0x4000) 2048) s
    let o ← State.readImage area (dwords (0x2C000 + slot * 0x20) 4) v.1
    let d ← State.readImage area (dwords (0xA00000 + slot * 0x100000) 131072) o.1
    let more ← State.readBenches area rest d.1
    return (more.1, { way := way, valid := v.2, owner := o.2, data := d.2 } :: more.2)

/-- The registers that the valid maps name, with the slot of the way they go to and the offset and length of their
image. -/
def imagesOf (vv : BitVec 16) (pv : BitVec 32) (slots : List (Nat × Nat)) : List (Bool × Nat × Nat × Nat × Nat) :=
  slots.flatMap (fun (x : Nat × Nat) =>
    ((List.range 16).filter (fun k => vv.getLsbD k)).map (fun k => (true, k, x.2, 0x100000 + k * 0x70000 + x.1 * 0x10000, 8192)) ++
    ((natRange 1 31).filter (fun k => pv.getLsbD k)).map (fun k => (false, k, x.2, 0x800000 + k * 0xE000 + x.1 * 0x2000, 1024)))

/-- Ways of the new grant that stand in for the saved ARRAY ways: the same positions (13:R285). -/
def standIns (aways cways ways : BitVec 8) : BitVec 8 :=
  let old := maskWays aways
  let new := maskWays ways
  BitVec.ofNat 8 ((List.range 8).foldl (fun n i =>
    match old[i]?, new[i]? with
    | some a, some b => if cways.getLsbD a then n + 2 ^ b else n
    | _, _ => n) 0)

/-- The ways of the new grant that become ARRAY. -/
def HeadImage.arrayWays (h : HeadImage) (ways : BitVec 8) : BitVec 8 :=
  standIns ((h.word 0x3F).extractLsb' 8 8) ((h.word 0x3F).extractLsb' 32 8) ways

/-- VV and PV of the header. -/
def HeadImage.vv (h : HeadImage) : BitVec 16 := (h.word 0x3E).extractLsb' 32 16
def HeadImage.pv (h : HeadImage) : BitVec 32 := (h.word 0x3E).setWidth 32 &&& 0xFFFFFFFE#32

/-- Read the frame, the registers with a valid copy and the bench ways. -/
def State.readBody (s : State) (area : Nat) (h : HeadImage) (ways bways : BitVec 8) : Except AreaStop (State × BodyImage) := do
  let slots := ((maskWays ways).mapIdx (fun i w => (i, w))).filter (fun x => (h.arrayWays ways).getLsbD x.2)
  let cells ← State.readImage area (dwords 0x2000 4096) s
  let chans ← State.readImage area (dwords 0xA000 2048) cells.1
  let regs ← State.readRegs area (imagesOf h.vv h.pv slots) chans.1
  let benches ← State.readBenches area ((maskWays bways).mapIdx (fun i w => (i, w))) regs.1
  return (benches.1, { cells := cells.2, chans := chans.2, regs := regs.2, benches := benches.2 })

/-! ### Operations from their entries (13:R285, R288). -/

/-- The instruction of an entry. -/
def entryInstr (e : List Word) : Option Instr :=
  match decodeWord ((e.getD 0 0).setWidth 32) with
  | .ok (.instr i) => some i
  | _ => none

/-- A field of an entry. -/
def entryNat (e : List Word) (k : Nat) : Nat := (e.getD k 0).toNat

/-- VSTART of an entry: it counts only when armed. -/
def entryStart (e : List Word) : Nat := if (e.getD 4 0).getLsbD 31 then entryNat e 4 % 2 ^ 20 else 0

/-- A parked entry retries; an unresolved one keeps that answer, with the address of its own fault (13:R285, 16:R309). -/
def entryParked (e : List Word) (fault : Option SavedFault) : Option (BitVec 32 × Addr) :=
  if (e.getD 0 0).getLsbD 34 then some ((fault.map (fun f => (f.fid, f.va))).getD (0#32, 0#48)) else none

/-- A unit operation from its entry. -/
def unitOfEntry (hyp : BitVec 12) (fault : Option SavedFault) (e : List Word) : Option UnitOp :=
  (entryInstr e).map (fun i =>
    { instr := i, pc := (e.getD 1 0).setWidth 48, mode := (e.getD 2 0).setWidth 21, vl := entryNat e 3 % 2 ^ 20,
      vstart := entryStart e, srseed := e.getD 5 0, srcount := e.getD 6 0,
      shape := (e.getD 7 0).extractLsb' 16 2, fe := (e.getD 7 0).setWidth 16, gd := e.getD 8 0, gd1 := e.getD 9 0,
      ga := e.getD 10 0, gb := e.getD 11 0, hyp := hyp, started := false,
      parked := entryParked e fault, unresolved := (e.getD 0 0).getLsbD 34, busy := false, got := [], restored := true, checked := none })

/-- A peel operation from its entry and what the gang kept of it. -/
def peelOfEntry (hyp : BitVec 12) (fault : Option SavedFault) (fresh : Nat) (old : Option PeelOp) (e : List Word) :
    Option PeelOp :=
  (entryInstr e).map (fun i =>
    let vl := entryNat e 3 % 2 ^ 20
    let vstart := entryStart e
    { id := (old.map (·.id)).getD fresh, instr := i, pc := (e.getD 1 0).setWidth 48, mode := (e.getD 2 0).setWidth 21, vl := vl,
      vstart := vstart, srseed := e.getD 5 0, srcount := e.getD 6 0, gd := e.getD 8 0, gd1 := e.getD 9 0, ga := e.getD 10 0, gb := e.getD 11 0, hyp := hyp,
      base := entryNat e 12, count := (old.map (·.count)).getD (vl - vstart), old := (old.map (·.old)).getD [],
      active := false, sent := [], incoming := (old.map (·.incoming)).getD 0, arrived := (old.map (·.arrived)).getD [],
      parked := entryParked e fault, unresolved := (e.getD 0 0).getLsbD 34, ended := (old.map (·.ended)).getD false,
      moved := (old.map (·.moved)).getD [], gone := (old.map (·.gone)).getD false, out := false, restored := true })

/-- A waiting prsv from its entry. -/
def prsvOfEntry (d a b : GReg) (e : List Word) : PrsvOp :=
  { d := d, a := a, b := b, mode := (e.getD 2 0).setWidth 21, vl := (e.getD 3 0).setWidth 20, vstart := entryStart e,
    srseed := e.getD 5 0, srcount := e.getD 6 0, ga := e.getD 10 0, gb := e.getD 11 0 }

/-- An entry of the peel queue is that of a prsv: its registers. -/
def entryPrsv (e : List Word) : Option (GReg × GReg × GReg) :=
  match entryInstr e with
  | some (.prsv d a b) => some (d, a, b)
  | _ => none

/-- Put the entries of the two unit queues back in the order of their issue; what the order does not name follows. -/
def mergeUnits : List Bool → List UnitOp → List UnitOp → List UnitOp
  | [], k, f => k ++ f
  | true :: os, k, x :: f => x :: mergeUnits os k f
  | false :: os, x :: k, f => x :: mergeUnits os k f
  | _ :: os, k, f => mergeUnits os k f

/-- The fault of the entry at an offset of the hart's area. -/
def State.faultOf (s : State) (fids : List SavedFault) (off : Nat) : Option SavedFault :=
  (s.areaDpa off).bind (fun dpa => fids.find? (fun f => f.entry = dpa))

/-- The queues refilled from the operation entries. What a refilled operation has still to write counts as dirty (14:R291,
13:R285). -/
def State.refill (s : State) (g : SavedGang) (h : HeadImage) : State :=
  let unit (off i : Nat) (e : List Word) : Option UnitOp := unitOfEntry s.hart.hyp (s.faultOf g.fids (off + 128 * i)) e
  let kn := ((takeEntries h.kneader 4).mapIdx (unit 0x1000)).filterMap id
  let fr := ((takeEntries h.frame 4).mapIdx (unit 0x1200)).filterMap id
  let pe := (takeEntries h.peel 16).filter (fun e => (entryPrsv e).isNone)
  let ops := (pe.mapIdx (fun i e => peelOfEntry (if g.snap then s.hart.hyp else 0#12) (s.faultOf g.fids (0x1400 + 128 * i))
    (s.core.peelIds + i) (g.peel[i]?) e)).filterMap id
  let units := (mergeUnits g.order kn fr).mapIdx (fun i u => if i = 0 then { u with started := g.headStarted } else u)
  let s := units.foldl (fun s u => s.mapHart (fun x =>
    { x with vdirty := x.vdirty ||| u.dirties.1, pdirty := x.pdirty ||| u.dirties.2 })) s
  s.mapCore (fun c => { c with units := units, peel := c.peel ++ ops, peelIds := c.peelIds + pe.length, counted := g.counted })

/-- A saved prsv: the answer recorded in its entry goes to g(d), else the hart waits for it again (11:R247, 13:R285). -/
def State.refillPrsv (s : State) (h : HeadImage) : State :=
  match (takeEntries h.peel 16).findSome? (fun e => (entryPrsv e).map (fun r => (e, r))) with
  | none => s
  | some (e, d, a, b) =>
    if (e.getD 0 0).getLsbD 35 then s.setG d (e.getD 8 0)
    else s.mapHart (fun x => { x with run := .waitPrsv (prsvOfEntry d a b e) })

/-! ### Discard of a SAVED gang (21:R370, 13:R285). -/

/-- A SAVED gang is discarded: a SNAP superstep is refuted, its puts end with EC 3, and a report goes out when its accesses
have been performed. -/
def State.discardSaved (s : State) (g : SavedGang) (cause : BitVec 8) (val : Word) : State :=
  let s := s.endOps (g.peel.filter (fun o => s.core.rackWays.getLsbD (o.tbAddr / 2 ^ 20 + 1))) 3#4
  let s := if g.snap then
      let s := (s.mapPkg (fun p => p.setHyp g.hyp { p.hypEntry g.hyp with st := .refuted })).dropVersions (fun h => h = g.hyp)
      g.shadows.foldl (fun s x =>
        match x.slot with
        | some n => s.freeSlot (s.pkg.areaOf g.ctxid) n
        | none => s) s
    else s
  let s := s.mapPkg (fun p => { p.dropPrsv g.gangid with
    saved := p.saved.filter (fun x => x.gangid != g.gangid)
    requests := p.requests.filter (fun r => r.kind != .resume g.gangid) })
  let s := if g.snap then s.freeHyp g.hyp else s
  let report := sysReport (s.reportRing g.queue) 2 g.ctxid 0#12 s.core.num cause val 0 g.cookie
  s.mapCore (fun k => { k with
    reserved := k.reserved.filter (fun r => r.gangid != g.gangid)
    reports := k.reports ++ [report] })

/-! ### The restore (13:R285, R287). -/

/-- OP and RM of a saved gred. -/
def gredOfCode (op rm : Nat) : SyncKind :=
  let o : GredOp := match op with
    | 0 => .add | 1 => .and | 2 => .or | 3 => .xor | 4 => .min | 5 => .max | 6 => .minu | 7 => .maxu | _ => .faddD
  let r : Rm := match rm with
    | 0 => .rne | 1 => .rtz | 2 => .rdn | 3 => .rup | 4 => .rna | _ => .rsr
  .gred o r

/-- The arrival restored from the header: kind, OP, RM and operand as the area holds them. -/
def restoreArrival (b operand : Word) (old : Option Pending) : Option Pending :=
  if b.getLsbD 0 then
    old.map (fun p => { p with
      kind := if b.getLsbD 1 then gredOfCode (b.extractLsb' 2 4).toNat (b.extractLsb' 6 3).toNat else .gbar
      operand := operand })
  else none

/-- The hart as the header gives it (13:R285, R287). h k is dword k of the header from its start; ways is the new
grant. PC keeps bits [1:0] clear (02:R32). -/
def restoreHart (old : Hart) (g : SavedGang) (c : Context) (h : Nat → Word) (ways : BitVec 8) (area : Addr) : Hart :=
  let r := taskRec ((List.range 8).map h)
  let mode : BitVec 21 := (h 0x29).setWidth 21
  { Hart.reset with
    run := if g.ending then .ending else if (h 0x41).getLsbD 0 then .barrier else .running
    pc := (h 0x28).setWidth 48 &&& ~~~3#48
    g := Vector.ofFn (fun i : Fin 32 => if i.val = 0 then 0#64 else h (8 + i.val))
    mode := mode
    vl := (h 0x2A).setWidth 20
    vstartArm := (h 0x2B).getLsbD 31
    vstartIdx := (h 0x2B).setWidth 20
    vlmax := BitVec.ofNat 20 (vlmaxOf (16384 * g.awaysW.toNat) (modeEt mode).sew)
    vlceil := r.vlceil
    lanesW := g.awaysW
    lanesWays := ways
    rds := h 0x2C
    vfsr := (h 0x2D).setWidth 5
    srseed := h 0x2E
    srcount := h 0x2F
    fcrShape := (h 0x30).extractLsb' 16 2
    fcrFe := (h 0x30).setWidth 16
    fsr := (h 0x31).setWidth 5
    ltime := (h 0x32).setWidth 16
    lease := (h 0x33).setWidth 8
    syncst := (h 0x34).setWidth 20
    maxRead := g.maxRead
    lockq := c.lockq
    wcount := (h 0x37).extractLsb' 32 32
    act := (h 0x37).setWidth 2
    trapcause := (h 0x38).setWidth 8
    trappc := (h 0x39).setWidth 48
    trapval := h 0x3A
    trapvec := (h 0x3B).setWidth 48 &&& ~~~3#48
    th := (h 0x3C).getLsbD 0
    sys := c.sys
    maint := c.maint
    snap := g.snap
    racechk := g.racechk
    ptroot := c.root
    csaptr := area
    savepc := (h 0x28).setWidth 48
    gangid := g.gangid
    gidx := g.gidx
    gsize := g.gsize
    taskrec := area
    prio := g.level
    ctxid := g.ctxid
    instret := h 0x3D
    rbTotal := g.rbTotal
    rbCur := g.rbCur
    desc := c.desc
    cookie := g.cookie
    csa := g.csa
    queue := g.queue
    arrival := restoreArrival (h 0x41) (h 0x42) g.arrival
    halted := g.halted || old.halted
    brkArmed := old.brkArmed
    stale := old.stale }

/-- Dword i of an image, and whether it is poisoned. -/
def imageWord (ws : List AreaWord) (i : Nat) : Word := (ws[i]?).elim 0#64 AreaWord.val
def imageBad (ws : List AreaWord) (i : Nat) : Bool := (ws[i]?).elim false AreaWord.poison

/-- Bit i of an image's bytes. -/
def imageBit (ws : List AreaWord) (i : Nat) : Bool := (imageWord ws (i / 64)).getLsbD (i % 64)

/-- Put a vector register's image into a way: 32 rows of 16,384 lanes (13:R286). -/
def Core.loadVImage (c : Core) (k way : Nat) (ws : List AreaWord) : Core :=
  let rows (lane : Nat) : Nat :=
    (List.range 32).foldl (fun n row => n + (if imageBit ws (row * 16384 + lane) then 2 ^ row else 0)) 0
  let put (m : Sparse (BitVec 32)) (lane : Nat) : Sparse (BitVec 32) :=
    sparseSet 0#32 m (k * 2 ^ 17 + way * 2 ^ 14 + lane) (BitVec.ofNat 32 (rows lane))
  { c with vrows := (List.range 16384).foldl put c.vrows }
def Core.loadPImage (c : Core) (k way : Nat) (ws : List AreaWord) : Core :=
  let rows (lane : Nat) : Nat :=
    (List.range 4).foldl (fun n row => n + (if imageBit ws (row * 16384 + lane) then 2 ^ row else 0)) 0
  let put (m : Sparse (BitVec 4)) (lane : Nat) : Sparse (BitVec 4) :=
    sparseSet 0#4 m (k * 2 ^ 17 + way * 2 ^ 14 + lane) (BitVec.ofNat 4 (rows lane))
  { c with prows := (List.range 16384).foldl put c.prows }

/-- Put a register's image into its way; its rows are written in every subarray (01:R22). -/
def Core.loadReg (c : Core) (x : RegImage) : Core :=
  let subs := (List.range 64).map (fun i => (x.way, i))
  if x.vector then (c.loadVImage x.reg x.way x.words).writeRows subs (natRange (32 * x.reg) 32)
  else (c.loadPImage x.reg x.way x.words).writeRows subs (natRange (512 + 4 * x.reg) 4)

/-- Put a saved bench way back: data, valid bits, owner bits. A data word is poisoned when its dword was, or the one with its
valid bit or with its granule's owner bit (00:R5, log 99). -/
def Core.loadBench (c : Core) (x : BenchImage) : Core :=
  let o := (x.way - 1) * 2 ^ 20
  let bad (w : Nat) : Bool :=
    imageBad x.data w || imageBad x.valid (w / 64) || imageBad x.owner (w / 512 / 64)
  ({ c with
    bench := (List.range 131072).foldl (fun m w =>
      cellsSet m (o + 8 * w) (leBytes 8 (imageWord x.data w).toNat)) c.bench
    benchPoison := (List.range 131072).foldl (fun m w => natSetPut m (o / 8 + w) (bad w)) c.benchPoison
    benchInvalid := (List.range 131072).foldl (fun m w => natSetPut m (o / 8 + w) (!imageBit x.valid w)) c.benchInvalid
    benchEngine := (List.range 256).foldl (fun m g => natSetPut m (o / 4096 + g) (imageBit x.owner g)) c.benchEngine
    }).injectBench (o / 8)

/-- Pair of a window number. -/
def pairOfCode : Nat → WinPair
  | 1 => .ss | 2 => .su | 3 => .uu | _ => .none

/-- A cell of the frame image is poisoned: its word, or the one that holds its channels (21:R359, 00:R5, log 99). -/
def BodyImage.cellBad (b : BodyImage) (n : Nat) : Bool :=
  imageBad b.cells n || imageBad b.chans (n / 2)

/-- The frame from its image: cells, channels, window. What is poisoned becomes a poisoned cell, as fload gives it
(21:R359). -/
def Core.loadFrame (c : Core) (b : BodyImage) (w : Word) : Core :=
  { c with
    cells := (List.range 4096).foldl (fun m n =>
      sparseSet 0#64 m n (if b.cellBad n then poisonCell else imageWord b.cells n)) []
    chans := (List.range 4096).foldl (fun m n =>
      let v := (imageWord b.chans (n / 2)).toNat / 2 ^ (32 * (n % 2))
      sparseSet Chan.zero m n (if b.cellBad n then Chan.zero
        else { a := BitVec.ofNat 8 v, b := BitVec.ofNat 8 (v / 2 ^ 8), c := BitVec.ofNat 9 (v / 2 ^ 16) })) []
    badCells := []
    winCount := (w.extractLsb' 0 9).toNat
    winPair := pairOfCode (w.extractLsb' 9 2).toNat }

/-- LTIME of a hart that resumes: raised to P - 2^13 when it lies further behind (09:R206, R208). -/
def State.resumeTime (s : State) : State :=
  if !s.hart.maint && serBehind s.pkg.horizon s.hart.ltime 0x2000 then
    s.mapHart (fun h => { h with ltime := s.pkg.horizon - 0x2000#16 })
  else s

/-- A stamp more than 2^17 issues behind the counter is replaced (09:R199). -/
def State.resumeStamp (s : State) : State :=
  if 2 ^ 17 < (s.pkg.stamp - s.hart.syncst).toNat then s.freshStamp else s

/-- Convert the ways of a resume as wconv does (08:R180). -/
def State.convertWays (s : State) (arr bench : BitVec 8) : State :=
  let s := (natRange 1 7).foldl (fun s k => if (arr ||| bench).getLsbD k then s.emptyWay k else s) s
  (s.enterMode arr .array).enterMode bench .bench

/-- A resumed hart's HYP, or its orphan trap, whose TRAPVAL is the id that was refuted (17:R338). -/
def State.resumeHyp (s : State) (id : BitVec 12) (g : SavedGang) : State :=
  let s := s.startHyp id g.ctxid
  if g.orphan.isSome then s.mapHart (fun x => { x with orphan := g.orphan }) else s

/-- What the images poison: cells, which set FMC, and registers, which raise the array data error at the resume with the
frame's and the engine's work untouched (21:R359, R361, R366). -/
def State.resumePoison (s : State) (b : BodyImage) : State :=
  let s := if (List.range 4096).any b.cellBad then s.fmcTrigger (·.orFsr Flags.fmc) else s
  if b.regs.any (fun x => x.words.any (·.poison)) then
    s.arrayErrorTaken s.hart.savepc (s.core.units.filter (fun u => isFrame u.instr))
  else s

/-- The orphan trap of a resumed hart, before its first instruction, with TRAPPC = SAVEPC, whatever its units still have to do. One that
an unresolved fault has stopped is abandoned with its fault (16:R319, 17:R338). -/
def State.resumeOrphan (s : State) : State :=
  match s.hart.orphan with
  | some h =>
    if s.canOrphan then
      ((s.mapCore (fun c => { c with units := c.units.filter (fun u => !u.unresolved) })).orphanMoved h).trap 0x05#8 (h.setWidth 64)
    else s
  | none => s

/-- Restore a SAVED gang from what was read of its area (13:R285). -/
def State.restore (s : State) (g : SavedGang) (c : Context) (h : HeadImage) (b : BodyImage) (ways : BitVec 8) (area : Addr) :
    State :=
  let s := { s with hart := restoreHart s.hart g c h.word ways area }
  let s := s.mapPkg (fun p => { p.setArea g.ctxid c.area with
    saved := p.saved.filter (fun x => x.gangid != g.gangid), arrivals := g.arrivals, ended := g.ended })
  let s := s.resumeHyp ((h.word 0x35).setWidth 12) g
  let s := s.convertWays (h.arrayWays ways) g.bways
  let s := s.mapCore (fun k => b.benches.foldl Core.loadBench (b.regs.foldl Core.loadReg k))
  let s := s.mapCore (fun k => { (k.loadFrame b (h.word 0x40)) with
    vv := h.vv, pv := h.pv, fv := (h.word 0x3E).getLsbD 0,
    captured := g.captured, shadows := g.shadows, tbs := k.tbs ++ g.tbs, gated := false, walks := [] })
  ((((s.resumeTime.resumeStamp).refill g h).refillPrsv h).resumePoison b).resumeOrphan

/-- Why a resume does not restore: the gang is discarded, or it waits for another core's write-back. -/
def State.resumeStopped (s : State) (g : SavedGang) (e : AreaStop) : State :=
  match e with
  | .busy => s
  | .failed va => s.discardSaved g 0x03#8 (BitVec.ofNat 64 va)

/-- Everything of the area that a resume reads, then the restore. An address that cannot be read discards the gang with
CAUSE 0x03, a poisoned header or entry, or an uncorrectable descriptor, with CAUSE 0x0A (13:R285, 21:R375, 00:R5, log 98). -/
def State.resumeGang (s : State) (g : SavedGang) (ways : BitVec 8) : State :=
  let c := s.context g.ctxid
  let area := g.csa + BitVec.ofNat 48 (g.gidx.toNat * areaBytes)
  let a := area.toNat
  if c.bad then s.discardSaved g 0x0A#8 (BitVec.ofNat 64 (s.pkg.cdtbase.toNat + 64 * g.ctxid.toNat))
  else match (s.asSystem g.ctxid c.root).readHead a with
  | .error e => s.resumeStopped g e
  | .ok (t, h) =>
    match h.poisoned with
    | some off => (t.backFrom s).discardSaved g 0x0A#8 (BitVec.ofNat 64 (a + off))
    | none =>
      match t.readBody a h ways g.bways with
      | .error e => s.resumeStopped g e
      | .ok (t, b) => (t.backFrom s).restore g c h b ways area

/-- A granted gang can be restored with these ways; no freeze is on (23:R387). -/
def State.canResume (s : State) (g : SavedGang) (ways : BitVec 8) : Bool :=
  !s.pkg.freezing && s.hart.run = .idle && !s.core.inReset && s.core.storeQ.isEmpty && s.core.reports.isEmpty && !s.contextForeign g.ctxid &&
    s.resumeFits g ways

/-- RESUME: a granted gang is restored on its core, with these ways for its grant (13:R284, R285). -/
def execResume (ways : BitVec 8) (s : State) : Result :=
  match s.pkg.saved.find? (·.granted) with
  | none => .next s
  | some g =>
    .next (if s.canResume g ways then s.resumeGang g ways else s)

end Sys2Proof.Machine
end

