-- ==== Sys2Proof/Machine/Home.lean ====
section
/-! DEFINITION. Machine/Home.lean: the steps of homes and core caches that other agents cause, the horizon, the race
sweeps, the scrub, and the asynchronous steps of the hart (08:R169, 09:R200, R203, R206, 10:R215, R219, 16:R306, R316,
21:R358, R361, R365, R367). -/

namespace Sys2Proof.Machine

/-! ### Requests at a home (09:R203). -/

/-- A line with a home in the package: device memory or a host line. -/
def homedLine (line : Nat) : Bool :=
  match regionOf (line * 64) with
  | some .hbm => true
  | some .pantry => true
  | some .host => true
  | _ => false

/-- A line that the adapter serves without timestamps: host memory of a UC region (18:R341). -/
def Pkg.hostUcLine (p : Pkg) (line : Nat) : Bool :=
  regionOf (line * 64) = some .host && p.huc.getLsbD ((line * 64 - 0x0400_0000_0000) / 2 ^ 38)

/-- A line that a core may own: device memory in device bias (18:R341, R349). -/
def State.ownable (s : State) (line : Nat) : Bool := isDevice (line * 64) && !s.inHostBias (line * 64)

/-- The memory type of a line with a home: host memory coherent or of a UC region by HUC, else WB-device memory (16:R299,
18:R341). -/
def Pkg.lineType (p : Pkg) (line : Nat) : MemType :=
  if p.hostUcLine line then .hostUc else if regionOf (line * 64) = some .host then .host else .wb

/-- The hypothesis that a request for a line names: versions exist for WB-device memory alone (17:R323). -/
def Pkg.requestHyp (p : Pkg) (r : CoreRequest) (line : Nat) : BitVec 12 := if p.lineType line = .wb then r.hyp else 0#12

/-- A home's service of a request under h, of this core or not, that begins with the recall of the owners; nothing while another core
owns the line or a version that the request sees and has not written back. -/
def State.atHome (s : State) (line : Nat) (h : BitVec 12) (own : Bool) (k : State → State) : Result :=
  if !homedLine line then .next s
  else match s.recallFor line h own with
  | none => .next s
  | some s => .next (k s)

/-- What a request of another core leaves in the race records; none when the access traps there, and has no effect (09:R198). -/
def State.enterMark (s : State) (r : CoreRequest) (line : Nat) (write : Bool) : Option State :=
  match r.race with
  | none => some s
  | some m =>
    if isDevice (line * 64) then
      (s.pkg.raceCheck r.core m.stamp r.hyp (line * 64 + m.off) m.n write).map (fun p => { s with pkg := p })
    else some s

/-- A request of another core counts through its leaf (16:R307, 18:R347). -/
def State.countRequest (s : State) (r : CoreRequest) (line : Nat) (write : Bool) : State :=
  match r.count with
  | none => s
  | some m => s.countMark (line * 64) m write r.core

/-- The accesses of another core at its own copy: its race record goes with the line (09:R198). -/
def State.markOnly (s : State) (r : CoreRequest) (line : Nat) (write : Bool) : State := (s.enterMark r line write).getD s

/-- A core owns the committed line, or under h the version. -/
def State.ownsLine (s : State) (core : BitVec 9) (line : Nat) (h : BitVec 12) : Bool :=
  if h = 0#12 then (s.pkg.home line).owner = some core
  else (s.pkg.findVersion line h).any (fun v => v.place = .other core)

/-- A read of another core served at the home; a line of a host UC region has no times (18:R341). -/
def State.otherRead (s : State) (r : CoreRequest) (line : Nat) : Result :=
  if s.ownsLine r.core line r.hyp then .next (s.markOnly r line false)
  else s.atHome line r.hyp false (fun s =>
    match s.enterMark r line false with
    | none => s
    | some s =>
      let s := s.countRequest r line false
      if s.pkg.hostUcLine line then s else (s.homeReadTimes line r.t r.lease).1)

/-- A read of this core served at the home: the line's wts counts as returned; a line of a host UC region has no times, and the read
takes one past everything seen (log 89). An acquire raises LTIME to it (09:R203, R205). -/
def State.ownRead (s : State) (line : Nat) (o : MemOrd) : Result :=
  if s.ownsLine s.core.num line 0#12 || s.hart.maint then .next s
  else s.atHome line 0#12 true (fun s =>
    if s.pkg.hostUcLine line then s.returned none o
    else
      let r := s.homeReadTimes line s.hart.ltime s.hart.lease
      r.1.returned (some r.2.wts) o)

/-- HOME_READ: rts is extended by the requester's time and lease; in the maintenance regime by neither (09:R203, R208). -/
def execHomeRead (who : Requester) (line : Nat) (s : State) : Result :=
  match who with
  | .self => s.ownRead line .rlx
  | .other r => if r.core = s.core.num then .next s else s.otherRead r line

/-- HOME_ACQUIRE_READ: as a read, and the requester's LTIME becomes max(t, wts) (09:R203). -/
def execHomeAcquireRead (who : Requester) (line : Nat) (s : State) : Result :=
  match who with
  | .self => s.ownRead line .acq
  | .other r => if r.core = s.core.num then .next s else s.otherRead r line

/-- This core takes ownership of a committed line and holds it in state O; without a way for it the ownership goes back. -/
def State.takeLine (s : State) (line : Nat) : State :=
  let r := s.homeWriteTimes line s.hart.ltime (some s.core.num)
  let s := r.1.mapHart (fun h => { h with ltime := r.2 })
  let f := s.fill (copyOf line 0#12 .o r.2 r.2 (s.homeImage line))
  if f.2 then f.1 else f.1.mapPkg (fun p => p.setHome line { p.home line with owner := none })

/-- Another core takes ownership of a committed line, or under h of the version (line, h), to write it (09:R203, 17:R324). -/
def State.otherOwns (s : State) (r : CoreRequest) (line : Nat) : State :=
  match s.enterMark r line true with
  | none => s
  | some s =>
    let s := s.countRequest r line true
    if r.hyp = 0#12 then ((s.homeWriteTimes line r.t (some r.core)).1).wakeLine line
    else
      let x := s.versionAt line r.hyp
      (s.homeWriteTimes line r.t (s.pkg.home line).owner).1.mapPkg (fun p => p.putVersion { x with place := .other r.core })

/-- HOME_OWNERSHIP: the requester owns the line, with a new wts; this core then holds it in state O. Host lines, lines of a page
in host bias and the lines of a maintenance context are never owned (08:R169, 09:R203, R208, 18:R341, R349). -/
def execHomeOwnership (who : Requester) (line : Nat) (s : State) : Result :=
  if !s.ownable line then .next s
  else match who with
  | .self =>
    if s.ownsLine s.core.num line 0#12 || s.hart.maint then .next s else s.atHome line 0#12 true (·.takeLine line)
  | .other r =>
    if r.core = s.core.num || (s.pkg.hypEntry r.hyp).st != .open then .next s
    else if s.ownsLine r.core line r.hyp then .next (s.markOnly r line true)
    else s.atHome line r.hyp false (·.otherOwns r line)

/-- An atomic of another core at the home: under the root on the line, in a superstep on the version; a write takes a new wts,
one that writes nothing is a read (10:R218 to R220). The adapter performs one on a host UC region without times (18:R341). -/
def State.otherAtomic (s : State) (r : CoreRequest) (dpa n : Nat) (op : AmoOp) (v cmp : Nat) : State :=
  let line := dpa / 64
  let o := dpa % 64
  let h := s.pkg.requestHyp r line
  let timed := !s.pkg.hostUcLine line
  let d := s.compose line h (s.homeImage line)
  if poisonHit d.2 o n then s
  else
    let new := amoNew op n (lineNat d.1 o n) v cmp
    match s.enterMark r line new.isSome with
    | none => s
    | some s =>
      let s := s.countRequest r line new.isSome
      match new with
      | none => if timed then (s.homeReadTimes line r.t r.lease).1 else s
      | some w =>
        let s := s.noteStale dpa n
        if h = 0#12 then
          (((if timed then (s.homeWriteTimes line r.t none).1 else s)).mapPkg (fun p => p.writeNat dpa n w)).wakeLine line
        else
          let s := (s.homeWriteTimes line r.t (s.pkg.home line).owner).1
          (s.storeAtHome { (s.versionAt line h) with place := .home } o n w).getD s

/-- HOME_ATOMIC: an atomic request reaches its home (10:R219, R220). -/
def execHomeAtomic (who : Requester) (dpa : Nat) (op : AmoOp) (w4 : Bool) (v cmp : Word) (s : State) : Result :=
  let n := amoSize w4
  if dpa % n != 0 then .next s
  else match who with
  | .self => s.atHome (dpa / 64) 0#12 true (fun s =>
      match s.atomicHome dpa n (s.pkg.lineType (dpa / 64)) false 0#12 (BitVec.ofNat 64 dpa) op .rlx v.toNat cmp.toNat with
      | .ok _ s => s
      | _ => s)
  | .other r =>
    if r.core = s.core.num || (s.pkg.hypEntry r.hyp).st != .open then .next s
    else s.atHome (dpa / 64) (s.pkg.requestHyp r (dpa / 64)) false (fun s => s.otherAtomic r dpa n op v.toNat cmp.toNat)

/-- Another core's committed line returns: wts = max(wts, t), rts = wts, data and poison when it is dirty (09:R203, 21:R359). -/
def State.otherReturns (s : State) (r : CoreRequest) (line : Nat) (data : Option LineImage) : State :=
  let w := serMax (s.pkg.home line).wts r.t
  let back : HomeLine := { wts := w, rts := w, owner := none }
  match data with
  | none => (s.assign w).mapPkg (fun p => p.setHome line back)
  | some d =>
    let s := (s.noteStale (line * 64) 64).assign w
    (s.mapPkg (fun p => (p.putLine line d.data d.poison).setHome line back)).wakeLine line

/-- Another core's version returns to its home: the bytes stored under its tag, or nothing when it was not written; the line's
one rts is not lowered. A pantry version without a slot stays (17:R324, R326, log 90). -/
def State.otherSinks (s : State) (r : CoreRequest) (v : Version) (data : Option LineImage) : State :=
  let h := s.pkg.home v.line
  let w := serMax h.wts r.t
  let v' : Version := match data with
    | none => v
    | some d => v.joinInto { v with mask := d.mask, data := d.data, poison := d.poison }
  if s.versionStays v' then s
  else
    let s := ((s.noteStale (v.line * 64) 64).assign w).mapPkg (fun p =>
      p.setHome v.line { h with wts := w, rts := serMax h.rts w })
    if regionOf (v.line * 64) = some .pantry then (s.mapPkg (fun p => p.putVersion v')).spill v'
    else (s.mapPkg (fun p => p.putVersion { v' with place := .home })).settle v.line

/-- HOME_WRITE_BACK: an owned line, or under h an owned version, returns to its home; a release carries no data (08:R169,
09:R203, 17:R324; log 85). A locked line is not evicted (08:R167). -/
def execHomeWriteBack (who : Requester) (line : Nat) (data : Option LineImage) (s : State) : Result :=
  match who with
  | .self =>
    match s.core.owned line with
    | some l => if l.lock.isEmpty then .next (s.writeBack l none) else .next s
    | none => .next s
  | .other r =>
    if r.hyp = 0#12 then
      if s.ownsLine r.core line 0#12 && r.core != s.core.num then .next ((s.markOnly r line data.isSome).otherReturns r line data)
      else .next s
    else match (s.pkg.findVersion line r.hyp).filter (fun v => v.place = .other r.core) with
    | some v => .next ((s.markOnly r line data.isSome).otherSinks r v data)
    | none => .next s

/-- LINE_FILL: the home's reply puts a leased copy of the committed line into the core in state V; the adapter serves it as a read of
a line that it may have lost to the host (08:R169, 18:R341, R342, R349). -/
def execLineFill (line : Nat) (s : State) : Result :=
  if !homedLine line || s.hart.maint || (s.core.findLine line 0#12).isSome || (s.pkg.home line).owner.isSome ||
      s.inHostBias (line * 64) || s.pkg.hostUcLine line then .next s
  else
    let s := s.meetErrors line
    let s := if s.pkg.atAdapter line then (s.homeReadTimes line s.hart.ltime s.hart.lease).1 else s
    let h := s.pkg.home line
    .next (s.fill (copyOf line 0#12 .v h.wts h.rts (s.homeImage line))).1

/-- OWNER_RECALL: an owned line of this core becomes V, written back when dirty (08:R169). -/
def execOwnerRecall (line : Nat) (s : State) : Result :=
  match s.core.owned line with
  | some l => .next (s.writeBack l (some .v))
  | none => .next s

/-- HORIZON_BROADCAST (09:R206). -/
def execHorizonBroadcast (s : State) : Result := .next s.broadcast

/-! ### Race sweeps and the scrub (09:R200, 21:R358). -/

/-- A side whose stamp lies more than 2^18 behind the counter is cleared. -/
def sweepSide (stamp : BitVec 20) (e : Option RaceSide) : Option RaceSide :=
  e.filter (fun x => (stamp - x.stamp).toNat ≤ 2 ^ 18)

/-- A record after a sweep. -/
def RaceRec.sweep (stamp : BitVec 20) (r : RaceRec) : RaceRec :=
  { writer := sweepSide stamp r.writer, reader := sweepSide stamp r.reader }

/-- Clear the stale records of the words that a test selects. -/
def Pkg.sweep (p : Pkg) (q : Nat → Bool) : Pkg :=
  { p with races :=
      (p.races.map (fun e => if q e.1 then (e.1, e.2.sweep p.stamp) else e)).filter (fun e => e.2 != RaceRec.empty) }

/-- SLICE_RACE_SWEEP: a slice walks over a line (09:R200). -/
def execSliceRaceSweep (line : Nat) (s : State) : Result := .next (s.mapPkg (fun p => p.sweep (fun w => w / 8 = line)))

/-- CORE_RACE_SWEEP: the core walks over the entries of its CACHE ways (09:R200). -/
def execCoreRaceSweep (s : State) : Result :=
  .next (s.mapPkg (fun p => p.sweep (fun w => s.core.lines.any (fun l => l.line = w / 8))))

/-- HBM_SCRUB: a block of 64 bytes of HBM is scrubbed: its single-bit errors are corrected, which no core counts, and its
words with an uncorrectable error are poisoned (21:R358, R371). -/
def execHbmScrub (block : Nat) (s : State) : Result :=
  if regionOf (block * 64) = some .hbm then .next (s.mapPkg (·.clearErrors block)) else .next s

/-! ### Asynchronous steps of the hart. -/

/-- STORE_DEPART: the oldest store leaves the queue (10:R215). -/
def execStoreDepart (s : State) : Result :=
  match s.departHead with
  | some s => .next s
  | none => .next s

/-- ILLEGAL_INSTRUCTION: a fetched word that is no instruction (02:R38, R40). -/
def execIllegalInstruction (w : IWord) (s : State) : Result := .next (s.illegal w)

/-- IDLE_WAKE: a write has been performed at the line that an idle hart watches (16:R316). -/
def execIdleWake (s : State) : Result :=
  match s.hart.run with
  | .watch _ true => .next (s.mapHart (fun h => { h with run := .running }))
  | _ => .next s

/-- IDLE_TIMEOUT: 65,536 clk have passed (16:R316). -/
def execIdleTimeout (s : State) : Result :=
  match s.hart.run with
  | .watch _ _ => .next (s.mapHart (fun h => { h with run := .running }))
  | _ => .next s

/-- ARRAY_DATA_ERROR_TRAP: the trap 0x0B at an instruction boundary, TRAPVAL the PC of the detecting instruction
(21:R361). -/
def execArrayDataErrorTrap (s : State) : Result :=
  match s.hart.arrayError with
  | none => .next s
  | some v =>
    if s.canOrphan && s.atBoundary then .next ((s.mapHart (fun h => { h with arrayError := none })).trap 0x0B#8 v)
    else .next s

/-- A hart state error: its event, and the gang is rolled back or discarded (21:R365, R371, R372). -/
def State.lostHart (s : State) (src : BitVec 4) : State :=
  if s.hart.run = .idle then s else (s.recordUe src (Config.hartErrorLoc s.tick)).hartStateError

/-- HART_STATE_ERROR (21:R365). -/
def execHartStateError (s : State) : Result := .next (s.lostHart 12#4)

/-- The poisoned word of a shadow or of its slots, as an event names it. -/
def State.shadowPoison (s : State) (x : Shadow) : Option (BitVec 4 × Word) :=
  match x.poison, x.slot with
  | e :: _, _ => some (2#4, BitVec.ofNat 64 (3 * 2 ^ 62 + e.1 * 8))
  | [], some n =>
    ((natRange (s.ownArea.slotAt n / 8) (33 * 16)).find? (fun w => s.peekPoison (w * 8) 8)).map
      (fun w => (s.poisonSource (w * 8), BitVec.ofNat 64 (w * 8)))
  | [], none => none

/-- A word of the captured state, of a shadow or of its slots that holds an uncorrectable error: its source and its address (21:R367,
R372, R373). -/
def State.shadowLost (s : State) : Option (BitVec 4 × Word) :=
  if (s.core.captured.map (·.spoilt)).getD false then some (12#4, Config.hartErrorLoc s.tick)
  else s.core.shadows.findSome? s.shadowPoison

/-- ROLLBACK_COMPLETE: the superstep is restored and counted; a loss in what is to be restored discards the gang
(21:R367, R368). -/
def execRollbackComplete (s : State) : Result :=
  if !s.hart.trigger then .next s
  else match s.shadowLost with
  | some e =>
    .next ((s.recordUe e.1 e.2).discardGang (Config.discardCause s.tick) (Config.discardVal s.tick) (s.hart.pc.setWidth 64))
  | none => .next s.rollback

/-! ### Report rings (16:R306, 18:R344). -/

/-- Slots of ring r. -/
def State.ringSize (s : State) (r : BitVec 12) : Nat :=
  2 ^ (s.peek (s.pkg.rrtbase.toNat + 16 * r.toNat + 8) 8 % 16 + 1)

/-- Ring r has room: no other core owns the line of its entry, no word of that is poisoned (00:R5, log 103), and a slot is free. -/
def State.ringFree (s : State) (r : BitVec 12) : Bool :=
  !s.peekPoison (s.pkg.rrtbase.toNat + 16 * r.toNat) 16 && !s.foreignIn (s.pkg.rrtbase.toNat + 16 * r.toNat) 16 &&
  ((sparseGet 0#64 s.pkg.rtail r.toNat).toNat + 1) % s.ringSize r != (sparseGet 0#64 s.pkg.rhead r.toNat).toNat % s.ringSize r

/-- Ring r can take a record: no freeze has stopped the adapter's port (23:R387), and it has room. -/
def State.ringRoom (s : State) (r : BitVec 12) : Bool := !s.pkg.freezing && s.ringFree r

/-- Write a record at RTAIL of its ring, in host memory, and advance RTAIL (18:R344). -/
def State.writeRing (s : State) (x : RingRecord) : State :=
  let r := x.ring.toNat
  let tail := (sparseGet 0#64 s.pkg.rtail r).toNat % s.ringSize x.ring
  let n := s.ringSize x.ring
  let dpa := 0x0400_0000_0000 + s.peek (s.pkg.rrtbase.toNat + 16 * r) 8 + 32 * tail
  (s.poke dpa 32 (wordsNat [x.w0, x.w1, x.w2, x.w3] % 2 ^ 256)).mapPkg (fun p =>
    { p with rtail := sparseSet 0#64 p.rtail r (BitVec.ofNat 64 ((tail + 1) % n)) })

/-- FAULT_RECORD_POST: the core's oldest fault record is written once its queue has room (16:R306). -/
def execFaultRecordPost (s : State) : Result :=
  match s.core.faultRecs with
  | [] => .next s
  | x :: rest =>
    if s.ringRoom x.ring then .next ((s.mapCore (fun c => { c with faultRecs := rest })).writeRing x) else .next s

/-- The reports of discarded gangs go to their rings once the gangs' accesses have been performed (21:R370). -/
def State.releaseReports (s : State) : State :=
  if s.reportsDue then
    { s with core := { s.core with reports := [] }, pkg := { s.pkg with ring := s.pkg.ring ++ s.core.reports } }
  else s

/-- RING_RECORD_WRITE: the oldest record held for a ring is written once it has room (18:R344). -/
def execRingRecordWrite (ring : Nat) (s : State) : Result :=
  let s := s.releaseReports
  match s.pkg.ring.find? (fun x => x.ring.toNat = ring) with
  | none => .next s
  | some x =>
    if s.ringRoom x.ring then .next ((s.mapPkg (fun p => { p with ring := p.ring.erase x })).writeRing x) else .next s

end Sys2Proof.Machine
end

