-- ==== Sys2Proof/Machine/Adapter.lean ====
section
/-! DEFINITION. Machine/Adapter.lean: what the host does to the package: queue tails, fault answers, the end of a context,
bias flips, host accesses and snoops, the adapter's registers, attestation; and requests of peer packages
(18:R339 to R352, 16:R304, R306, 23:R387, R395). -/

namespace Sys2Proof.Machine

/-! ### Queue tails (18:R343). -/

/-- A write of a host queue's TAIL: ignored when the queue is disabled or a device queue, for a value of N or more, and
when the new TAIL would pass HEAD. -/
def State.moveTail (s : State) (q : BitVec 12) (v : Word) : State :=
  let d := s.queueDesc q
  let t := v.toNat % 2 ^ 16
  if !d.en || !d.host || d.n ≤ t then s
  else if d.n ≤ d.used + (t + d.n - d.tail % d.n) % d.n then s
  else s.setTail q t

/-- The adapter's held tail writes are made in order, up to one whose descriptor another core has still to write back. -/
def State.moveTails (s : State) : List (BitVec 12 × Word) → State
  | [] => s.mapPkg (fun p => { p with heldTails := [] })
  | (q, v) :: rest =>
    if s.foreignIn (s.queueAt q) 32 then s.mapPkg (fun p => { p with heldTails := (q, v) :: rest })
    else (s.moveTail q v).moveTails rest

/-- QTAIL_WRITE; while the package is frozen the adapter keeps it for the thaw (23:R387). -/
def execQtailWrite (q : BitVec 12) (v : Word) (s : State) : Result :=
  let all := s.pkg.heldTails ++ [(q, v)]
  .next (if s.pkg.frozen then s.mapPkg (fun p => { p with heldTails := all }) else s.moveTails all)

/-! ### Fault answers (16:R304, R306, 18:R344). -/

/-- A parked agent carries this FID. -/
def parkedAs (fid : BitVec 32) (p : Option (BitVec 32 × Addr)) : Bool := (p.map (·.1)) = some fid

/-- The parked entries of SAVED gangs that an answer is for. -/
def State.entriesOf (s : State) (fid : BitVec 32) : List SavedFault :=
  (s.pkg.saved.flatMap (·.fids)).filter (fun f => f.fid = fid && !f.unresolved)

/-- Word 0 of an entry is made over from what it holds: its reserved bits become zero, its poison stays (00:R5, R9, 13:R288). -/
def State.markEntry (s : State) (f : SavedFault) (g : Nat → Nat) : State :=
  s.pokeOver f.entry (g (s.peek f.entry 8 % 2 ^ 36))

/-- FANS with ACT 1: the agent tries the access again; for a SAVED gang the answer is recorded in its entry, which is no longer
PARKED, and tries at the resume (13:R285, R290, log 68). -/
def execFansReplay (fid : BitVec 32) (s : State) : Result :=
  let s := if s.hart.run = .parked fid then s.mapHart (fun h => { h with run := .running }) else s
  let s := s.mapCore (fun c => { c with
    units := c.units.map (fun u => if parkedAs fid u.parked && !u.unresolved then { u with parked := none } else u)
    peel := c.peel.map (fun o => if parkedAs fid o.parked && !o.unresolved then { o with parked := none } else o) })
  let s := (s.entriesOf fid).foldl (fun s f => s.markEntry f (fun w => if w.testBit 33 then w - 2 ^ 33 else w)) s
  .next (s.mapPkg (fun p => { p with saved := p.saved.map (fun g =>
    { g with fids := g.fids.filter (fun f => f.fid != fid || f.unresolved) }) }))

/-- The entry of a SAVED gang's parked operation takes UNRESOLVED (13:R285, R288). -/
def State.markUnresolved (s : State) (fid : BitVec 32) : State :=
  let s := (s.entriesOf fid).foldl (fun s f => s.markEntry f (fun w => w ||| 2 ^ 34)) s
  s.mapPkg (fun p => { p with saved := p.saved.map (fun g =>
    { g with fids := g.fids.map (fun f => if f.fid = fid then { f with unresolved := true } else f) }) })

/-- FANS with ACT 2: a hart path takes the trap 0x0E, a peel path ends with EC 4 (16:R304, 11:R253). The fault of a hart whose orphan
trap is due is abandoned: its answer changes nothing (16:R319). -/
def execFansUnresolved (fid : BitVec 32) (s : State) : Result :=
  let s := s.mapCore (fun c => { c with
    units := c.units.map (fun u => if parkedAs fid u.parked then { u with unresolved := true } else u)
    peel := c.peel.map (fun o => if parkedAs fid o.parked then { o with unresolved := true } else o) })
  let s := s.markUnresolved fid
  .next (if s.hart.run = .parked fid && s.hart.orphan.isNone then s.trap 0x0E#8 (s.hart.faultVa.setWidth 64) else s)

/-! ### The end of a context (18:R346). -/

/-- Records of the context that wait in a grant request do not start. -/
def State.dropRecords (s : State) (c : BitVec 8) : State :=
  s.pkg.requests.foldl (fun s r =>
    match r.kind with
    | .record q ws =>
      if (taskRec ws).ctxid = c then (s.mapPkg (fun p => p.dropRequest r)).discardRecord q (taskRec ws) else s
    | .resume _ => s) s

/-- Every OPEN hypothesis of the context is refuted and its slots are freed. -/
def State.refuteContext (s : State) (c : BitVec 8) : State :=
  let ids := (s.pkg.hyps.filter (fun e => e.2.owner = c && (e.2.st = .open || e.2.st = .merged))).map
    (fun e => BitVec.ofNat 12 e.1)
  let sweep (s : State) : State := ids.foldl State.freeHyp s
  (List.range 16).foldl (fun s _ => sweep s) (s.refuteIds ids)

/-- Ways recorded for the context. -/
def Core.waysOf (k : Core) (c : BitVec 8) : BitVec 8 :=
  BitVec.ofNat 8 ((List.range 8).foldl (fun n i =>
    n + (if (k.ways[i]?.map (fun w => w.mode != .cache && w.ctx = c)) = some true then 2 ^ i else 0)) 0)

/-- The rack of the context is gone: puts on their way to it are refused with EC 3 (11:R249). -/
def Core.dropRack (k : Core) (c : BitVec 8) : Core :=
  if (k.rack.map (·.ctx)) = some c then
    { k with rack := none, rackGone := true, landing := k.landing.map (fun l => { l with gone := true }) }
  else k

/-- Destroy context c (18:R346). -/
def State.killContext (s : State) (c : BitVec 8) : State :=
  let s := s.mapPkg (fun p => { p with killed := natSetPut p.killed c.toNat true })
  let s := s.dropRecords c
  let s := if s.hart.run != .idle && s.hart.ctxid = c then
      s.discardGang (Config.discardCause s.tick) (Config.discardVal s.tick) (s.hart.pc.setWidth 64)
    else s
  let s := (s.pkg.saved.filter (fun g => g.ctxid = c)).foldl
    (fun s g => s.discardSaved g (Config.discardCause s.tick) (Config.discardVal s.tick)) s
  let s := s.refuteContext c
  let m := s.core.waysOf c
  let s := s.mapCore (fun k => (k.wipeWays m).dropRack c)
  (s.unlockFor c (fun _ => true)).mapPkg (fun p => p.post (sysReport p.sysring 3 c 0 0 0 0 0 0))

/-- CTXKILL: a write with bit 8 set destroys context v[7:0] (18:R346). -/
def execCtxkill (v : Word) (s : State) : Result :=
  if v.getLsbD 8 then .next (s.killContext (v.setWidth 8)) else .next s

/-! ### Bias (18:R349, R350). -/

/-- The 64 lines of a page. -/
def pageLines (page : Nat) : List Nat := natRange (page * 64) 64

/-- A page of HBM or pantry. -/
def biasPageOk (page : Nat) : Bool := isDevice (page * 4096)

/-- Another core owns a line of the page and has not written back. -/
def State.pageBlocked (s : State) (page : Nat) : Bool := (pageLines page).any s.foreign

/-- The page goes to host bias: owned lines are recalled, every copy of its lines is dropped, a locked one too, which is then I (log 20),
and the hearth's with their race records; the adapter is its home and holds none of its lines, whose rts count toward HR (18:R342, R349, R350, 09:R200). -/
def State.toHostBias (s : State) (page : Nat) : State :=
  let s := (pageLines page).foldl (fun s l => (s.recall l false).getD s) s
  let s := s.dropLines (fun l => l.line / 64 = page)
  s.mapPkg (fun p => { p with
    hr := (pageLines page).foldl (fun r l => serMax r (p.home l).rts) p.hr
    races := sparseDrop (fun w => w / 8 / 64 = page) p.races
    hostBias := natSetPut p.hostBias page true
    hostHeld := p.hostHeld.filter (fun l => l / 64 != page) })

/-- The page goes to device bias: the host's dirty data is in memory, and the slice is its home again, which takes the lines in with the
times that the adapter held (08:R172, 18:R350). -/
def State.toDeviceBias (s : State) (page : Nat) : State :=
  (pageLines page).foldl State.settle (s.mapPkg (fun p => { p with hostBias := natSetPut p.hostBias page false }))

/-- BIASCMD is written: a flip begins unless one is in progress (18:R349). -/
def State.startFlip (s : State) (page : Nat) (cmd : BitVec 2) : State :=
  if s.pkg.biasBusy then s
  else s.mapPkg (fun p => { p with
    biasPage := BitVec.ofNat 48 (page * 4096), biasCmd := cmd, biasBusy := cmd = 1#2 || cmd = 2#2 })

/-- BIAS_TO_HOST (18:R349). -/
def execBiasToHost (page : Nat) (s : State) : Result := .next (s.startFlip page 1#2)

/-- BIAS_TO_DEVICE (18:R349). -/
def execBiasToDevice (page : Nat) (s : State) : Result := .next (s.startFlip page 2#2)

/-! ### Host accesses (18:R342, R349). -/

/-- The adapter loses a line to the host. -/
def Pkg.loseLine (p : Pkg) (line : Nat) : Pkg := { p with hostHeld := p.hostHeld.filter (fun l => l != line) }

/-- The host writes bytes of a line whose home is the adapter, which has then lost the line (18:R342). -/
def State.hostWrite (s : State) (dpa : Nat) (bs : List Byte) : State :=
  let s := s.noteStale dpa bs.length
  (s.mapPkg (fun p => (p.write dpa bs).loseLine (dpa / 64))).wakeLine (dpa / 64)

/-- A host CXL.mem access to a device page served at the adapter; a page in device bias flips first. A read changes nothing but
the bias, and finds the errors of its line (18:R349, 21:R357). -/
def State.hostMem (s : State) (dpa : Nat) (data : Option (List Byte)) : State :=
  let page := dpa / 4096
  if !isDevice dpa then s
  else
    let s := if natSetHas s.pkg.hostBias page then s else s.toHostBias page
    match data with
    | none => s.mapPkg (·.clearErrors (dpa / 64))
    | some bs => s.hostWrite dpa (bs.take (64 - dpa % 64))

/-- The host accesses that wait at the adapter are served in order, up to one that must wait: for a flip in progress, or for the
lines of its page that other cores own (18:R349, R351). -/
def State.serveHost (s : State) : List (Nat × Option (List Byte)) → State
  | [] => s.mapPkg (fun p => { p with heldReqs := [] })
  | (dpa, data) :: rest =>
    if s.pkg.biasBusy || (!natSetHas s.pkg.hostBias (dpa / 4096) && isDevice dpa && s.pageBlocked (dpa / 4096)) then
      s.mapPkg (fun p => { p with heldReqs := (dpa, data) :: rest })
    else (s.hostMem dpa data).serveHost rest

/-- HOST_CXL_MEM_REQUEST; while the package is frozen the adapter holds it (23:R387). -/
def execHostCxlMemRequest (dpa : Nat) (data : Option (List Byte)) (s : State) : Result :=
  let all := s.pkg.heldReqs ++ [(dpa, data)]
  .next (if s.pkg.frozen then s.mapPkg (fun p => { p with heldReqs := all }) else s.serveHost all)

/-- The steps of the flip in progress. -/
def State.endFlip (s : State) : State :=
  let page := s.pkg.biasPage.toNat / 4096
  let s := if s.pkg.biasCmd = 1#2 && biasPageOk page then s.toHostBias page else s.toDeviceBias page
  s.mapPkg (fun p => { p with biasBusy := false })

/-- BIAS_FLIP_COMPLETE: the steps of the flip, and BUSY is clear; it waits for lines that other cores own. The host accesses
that waited are served (18:R350, R351). -/
def execBiasFlipComplete (s : State) : Result :=
  let page := s.pkg.biasPage.toNat / 4096
  if s.pkg.biasBusy && s.pkg.biasCmd = 1#2 && biasPageOk page && s.pageBlocked page then .next s
  else
    let s := if s.pkg.biasBusy then s.endFlip else s
    .next (if s.pkg.frozen then s else s.serveHost s.pkg.heldReqs)

/-- HOST_SNOOP: the host takes a line from the adapter, and has written it when data is given (18:R342). -/
def execHostSnoop (line : Nat) (data : Option (BitVec 512)) (s : State) : Result :=
  if !s.pkg.atAdapter line then .next s
  else match data with
  | some d => .next (s.hostWrite (line * 64) (leBytes 64 d.toNat))
  | none => .next (s.mapPkg (·.loseLine line))

/-! ### The adapter window (18:R340). -/

/-- A table base: aligned to 4 KiB. -/
def tableBase (v : Word) : Addr := v.setWidth 48 &&& ~~~0xFFF#48

/-- HOST_REGISTER_WRITE: a register of the window without a row of its own; any other offset is ignored here
(18:R340). -/
def execHostRegisterWrite (off : Nat) (v : Word) (s : State) : Result :=
  if off = 0x10018 then .next (s.mapPkg (fun p => { p with qdtbase := tableBase v, queuesOn := true }))
  else if off = 0x10020 then .next (s.mapPkg (fun p => { p with cdtbase := tableBase v }))
  else if off = 0x10028 then .next (s.mapPkg (fun p => { p with rrtbase := tableBase v }))
  else if off = 0x10030 then .next (s.mapPkg (fun p => { p with prtbase := tableBase v }))
  else if off = 0x10038 then .next (s.mapPkg (fun p => { p with sysring := v.setWidth 12 }))
  else if off = 0x10048 then .next (s.mapPkg (fun p => { p with huc := v }))
  else if 0x20000 ≤ off && off < 0x28000 && off % 8 = 0 then
    .next (s.mapPkg (fun p => { p with rhead := sparseSet 0#64 p.rhead ((off - 0x20000) / 8) v }))
  else .next s

/-! ### Attestation (23:R385, R395). -/

/-- STAT (23:R385). -/
def Pkg.stat (p : Pkg) : BitVec 8 :=
  BitVec.ofNat 8 ((if p.frozen then 1 else 0) + (if p.hard then 2 else 0) + (if p.auth then 4 else 0) + (if p.dbgw then 8 else 0))

/-- ATTESTATION_REQUEST: evidence with the requester's nonce, STAT, and the digest of the firmware and the fuse state, which are the
package's own (23:R395, log 45). -/
def execAttestationRequest (nonce : BitVec 256) (s : State) : Result :=
  .next (s.mapPkg (fun p => { p with
    evidence := some { nonce := nonce, stat := p.stat, firmware := Config.firmwareDigest, fuses := Config.fuseState } }))

/-! ### Peers (18:R352, 10:R220). -/

/-- A peer package may reach this DPA: its route has IN set, and the address lies in memory of this package. -/
def State.peerAllowed (s : State) (src : BitVec 12) (dpa : Nat) : Bool :=
  (s.peerRoute src).into && (regionOf dpa).isSome && regionOf dpa != some .peer

/-- The line of a peer's route entry, or the line that it reaches, is another core's: the access waits (09:R203). -/
def State.peerHeld (s : State) (src : BitVec 12) (dpa : Nat) : Bool :=
  s.foreignIn (s.pkg.prtbase.toNat + 8 * src.toNat) 8 || s.foreign (dpa / 64)

/-- What a peer's read of this package gives: refused without IN, poison, or the committed bytes; an atomic that it carries is
performed here. -/
def State.servePeerRead (s : State) (src : BitVec 12) (dpa n : Nat) (op : Option PeerAtomic) : State × PeerReply :=
  if !s.peerAllowed src dpa then (s, .refused)
  else
    let s := (s.recall (dpa / 64) false).getD s
    if s.pkg.poisoned dpa n then (s, .poison)
    else
      let old := PeerReply.data (cellsGet s.pkg.mem dpa n)
      match op.bind (fun o => amoNew o.op n (s.pkg.read dpa n) o.v.toNat o.cmp.toNat) with
      | none => (s, old)
      | some w => ((s.noteStale dpa n).poke dpa n w, old)

/-- A peer's write arrives: dropped without IN, else performed at its home with the poison it carries (21:R359). Whether it was
dropped. -/
def State.servePeerWrite (s : State) (src : BitVec 12) (dpa : Nat) (bs : List Byte) (poison : Bool) : State × Bool :=
  if !s.peerAllowed src dpa then (s, true)
  else
    let n := min bs.length (64 - dpa % 64)
    let s := (s.noteStale dpa n).poke dpa n (ofBytes bs)
    (if poison then s.mapPkg (fun p => p.setPoison dpa true) else s, false)

/-- PEER_READ: a peer read is served and its answer sent over the port of the source's route (18:R352). -/
def execPeerRead (src : BitVec 12) (dpa : Nat) (ask : PeerAsk) (s : State) : Result :=
  if s.peerHeld src dpa then .next s
  else
    let r := s.servePeerRead src dpa ask.size ask.op
    .next (r.1.mapPkg (fun p => p.send (s.peerRoute src).port [mkFlit src (.peerReply dpa r.2) none]))

/-- PEER_WRITE: performed, or dropped (18:R352). -/
def execPeerWrite (src : BitVec 12) (dpa : Nat) (data : PeerBytes) (s : State) : Result :=
  if s.peerHeld src dpa then .next s else .next (s.servePeerWrite src dpa data.bytes data.poison).1

/-- PEER_READ_REPLY: the answer of a package about its DPA to a request of this core (18:R352). -/
def execPeerReadReply (place : PeerPlace) (answer : PeerReply) (s : State) : Result :=
  .next (s.mapPkg (·.acceptReply place.src place.dpa answer))

/-- PEER_WRITE_REFUSAL: the notice that a peer write of a task was dropped is a KIND 4 report (18:R345, R352). -/
def execPeerWriteRefusal (n : PeerNotice) (s : State) : Result :=
  .next (s.mapPkg (fun p => p.refusedWrite n.dpa.toNat n.ctx n.cookie))

end Sys2Proof.Machine
end

