-- ==== Sys2Proof/Machine/Errors.lean ====
section
/-! DEFINITION. Machine/Errors.lean: natural errors, where they strike (21:R357, R358, R365; log 78). A word in memory or in a
way keeps its error until something reads it. -/

namespace Sys2Proof.Machine

/-- A line of which nothing can be had any more is poisoned at its home (21:R357, 23:R392). -/
def Pkg.spoilLine (p : Pkg) (line : Nat) : Pkg :=
  (natRange (line * 8) 8).foldl (fun p w => { p.setPoison (w * 8) true with poisonSrc := sparseSet 0#4 p.poisonSrc w 1#4 }) p

/-- The version (line, h) stands in its hearth slice. -/
def State.sliceVersion (s : State) (line : Nat) (h : BitVec 12) : Bool :=
  (s.pkg.findVersion line h).any (fun v => v.place = .home)

/-- An error strikes a word that lines and versions in CACHE ways hold, or a version in a hearth slice: a single-bit one waits for a
read, there by the home, and a double-bit one poisons the word (21:R357). -/
def State.strikeLine (s : State) (line : Nat) (h : BitVec 12) (word : BitVec 3) (double : Bool) : State :=
  let w := line * 8 + word.toNat
  let bit : BitVec 8 := BitVec.ofNat 8 (2 ^ word.toNat)
  let there := s.sliceVersion line h
  if (s.core.findLine line h).isNone && (s.ownVersion line h).isNone && !there then s
  else if !double then
    if there then s.mapPkg (fun p => { p with memSoft := natSetPut p.memSoft w true })
    else s.mapCore (fun c => { c with softLine := natSetPut c.softLine w true })
  else
    { s with
      core := { s.core with lines := s.core.lines.map (fun l =>
        if l.line = line && l.hyp = h then { l with poison := l.poison ||| bit } else l) }
      pkg := { s.pkg with
        poisonSrc := sparseSet 0#4 s.pkg.poisonSrc w (if there then 8#4 else 1#4)
        versions := s.pkg.versions.map (fun v =>
          if v.line = line && v.id = h && (there || (s.ownVersion line h).isSome) then { v with poison := v.poison ||| bit }
          else v) } }

/-- A damaged tag or state entry turns its line into I, with poison at the home; a pantry version without a slot is poisoned where it
stands (21:R357, log 90). -/
def State.strikeTag (s : State) (line : Nat) (h : BitVec 12) : State :=
  let found (s : State) : State := s.recordUe 1#4 (BitVec.ofNat 64 (line * 64))
  match s.ownVersion line h, s.core.findLine line h with
  | some v, _ =>
    let v := { v with poison := 255#8 }
    let s := (found s).mapPkg (fun p => { p with
      poisonSrc := (natRange (line * 8) 8).foldl (fun m w => sparseSet 0#4 m w 1#4) p.poisonSrc })
    if regionOf (line * 64) = some .pantry then (s.mapPkg (fun p => p.putVersion v)).spill v
    else (s.mapPkg (fun p => p.putVersion { v with place := .home, lock := [] })).settle line
  | none, some l =>
    ((found s).mapCore (fun c => c.dropLines (fun x => x.line = line && x.hyp = h))).mapPkg (fun p =>
      (if l.st = .v then p else p.setHome line { p.home line with owner := none }).spoilLine line)
  | none, none => s

/-- An error strikes a word of bench (21:R357). -/
def State.strikeBench (s : State) (w : Nat) (double : Bool) : State :=
  if (s.core.ways[w / 2 ^ 17 + 1]?.map (·.mode)) != some .bench then s
  else if double then s.mapCore (fun c => { c with benchPoison := natSetPut c.benchPoison w true })
  else s.mapCore (fun c => { c with softBench := natSetPut c.softBench w true })

/-- An error strikes a word of a slice, HBM or the pantry (21:R357). -/
def State.strikeMemory (s : State) (w : Nat) (double : Bool) : State :=
  if !isDevice (w * 8) then s
  else if double then s.mapPkg (fun p => { p with memHard := natSetPut p.memHard w true })
  else s.mapPkg (fun p => { p with memSoft := natSetPut p.memSoft w true })

/-- A natural error strikes (21:R357): the L1 caches refetch and a mesh message is sent again, which corrects it; a row, a
lane, a product, a cell, the captured state, or a line on its way keeps it until its check. -/
def State.hwError (s : State) (e : HwError) : State :=
  match e with
  | .l1 => s.recordCe
  | .meshRetry => s.recordCe
  | .line line h word double => s.strikeLine line h word double
  | .tag line h => s.strikeTag line h
  | .bench w double => s.strikeBench w double
  | .memory w double => s.strikeMemory w double
  | .row way sub row =>
    if (s.core.ways[way.toNat]).mode = .array && row < 672#10 then
      s.mapCore (fun c => { c with badRows := natSetPut c.badRows (rowId way.toNat sub.toNat row.toNat) true })
    else s
  | .column => s.mapCore (fun c => { c with columnFault := true })
  | .product exponent => s.mapCore (fun c => { c with productFault := some exponent })
  | .cell n => s.mapCore (fun c => { c with badCells := natSetPut c.badCells n.toNat true })
  | .register => s.lostHart 12#4
  | .captured => s.mapCore (fun c => { c with captured := c.captured.map (fun k => { k with spoilt := true }) })
  | .meshData => s.mapCore (fun c => { c with meshFault := true })
  | .meshLost => s.lostHart 11#4

end Sys2Proof.Machine
end

