-- ==== Sys2Proof/Machine/Links.lean ====
section
/-! DEFINITION. Machine/Links.lean: Poerius ports: what a flit does on arrival, acknowledgement, replay, lanes, loss and
new sessions (22:R376 to R384, 11:R252). -/

namespace Sys2Proof.Machine

/-! ### Flits (22:R376). -/

/-- The flit's CRC holds: bytes 0 to 11 and 16 to 255. -/
def flitCrcOk (f : Flit) : Bool :=
  f.body.length = 240 && crc32c (leBytes 8 f.w0.toNat ++ leBytes 4 f.w1.toNat ++ f.body) = f.w1.extractLsb' 32 32

/-- Header fields. -/
def flitType (f : Flit) : Nat := (f.w0.extractLsb' 60 4).toNat
def flitSeq (f : Flit) : BitVec 12 := f.w0.extractLsb' 48 12
def flitAck (f : Flit) : Option (BitVec 12) := if f.w0.getLsbD 35 then some (f.w0.extractLsb' 36 12) else none
def flitNk (f : Flit) : Option (BitVec 12) := if f.w0.getLsbD 34 then some (f.w1.extractLsb' 20 12) else none
def flitDpkg (f : Flit) : BitVec 12 := f.w0.extractLsb' 12 12
def flitSpkg (f : Flit) : BitVec 12 := f.w0.extractLsb' 0 12

/-- The payload bytes say what the typed payload says, as far as the rule lays them out: the data of a put, and the fields of a
put-status. -/
def flitSays (f : Flit) : Bool :=
  match f.payload with
  | .putFirst p => p.data.length ≤ 224 && (f.body.drop 16).take p.data.length = p.data
  | .putContinuation p => p.data.length ≤ 240 && f.body.take p.data.length = p.data
  | .putStatus p => f.body.take 16 = statusBytes p
  | _ => true

/-- The typed payload is of the header's TYPE, of which 9 to 15 are reserved, and says what the bytes say; a flit whose CRC fails says
nothing. -/
def flitTyped (f : Flit) : Bool :=
  !flitCrcOk f || (payloadType f.payload = min (flitType f) 9 && flitSays f)

/-! ### The sender: acknowledgement and replay (22:R378, R379). -/

/-- The port stops and retrains; an outstanding replay request is cleared (22:R377, R380). -/
def PortRec.goDown (r : PortRec) : PortRec := if r.st = .lost then r else { r with st := .down, nkOut := false }

/-- A port that sends puts buffered flits on its lanes again, in order; one sent 16 times makes the port retrain. -/
def Pkg.resend (p : Pkg) (k : Port) (q : SentFlit → Bool) : Pkg :=
  if p.sends k then
    let b := (p.port k).buffer.map (fun f => if q f then { f with times := f.times + 1 } else f)
    let p := (p.setPort k { p.port k with buffer := b }).carry k false (b.filter q)
    if b.any (fun f => 16 ≤ f.times) then p.setPort k (p.port k).goDown else p
  else p

/-- The flits that an ACK frees: every one up to and including it. -/
def PortRec.freed (r : PortRec) (a : BitVec 12) : List SentFlit :=
  match r.buffer.findIdx? (fun f => f.seq = a) with
  | some i => r.buffer.take (i + 1)
  | none => []

/-- An ACK: flits are freed, and the elements of puts they carried land at the sender, but for those of the flits that the far end has
performed as refused (22:R378, R383). -/
def State.takeAck (s : State) (k : Port) (a : BitVec 12) (refused : List (BitVec 12)) : State :=
  let r := s.pkg.port k
  let fs := r.freed a
  let s := s.mapPkg (fun p => p.setPort k { r with buffer := r.buffer.drop fs.length })
  let s := (fs.filter (fun f => !refused.contains f.seq)).foldl (fun s f => match f.lands with
    | some (id, idx) => s.landSent id idx
    | none => s) s
  s.mapPkg (·.pump k)

/-- An NK: every buffered flit from NSEQ onward is sent again. -/
def State.takeNk (s : State) (k : Port) (n : BitVec 12) : State :=
  let r := s.pkg.port k
  match r.buffer.findIdx? (fun f => f.seq = n) with
  | none => s
  | some i => s.mapPkg (fun p => p.resend k (fun f => ((r.buffer.drop i).map (·.seq)).contains f.seq))

/-- ACK and NK of a flit that is read. -/
def State.takeHeader (s : State) (k : Port) (f : Flit) : State :=
  let s := match (flitAck f) with
    | some a => s.takeAck k a f.refused
    | none => s
  match (flitNk f) with
  | some n => s.takeNk k n
  | none => s

/-! ### The receiver (22:R377). -/

/-- The payload is applied at its destination; none while it must wait for another core's write-back. -/
def State.deliver (s : State) (k : Port) (f : Flit) : Option State :=
  match f.payload with
  | .idle => some s
  | .putFirst p => some (s.receivePut { p with spkg := (flitSpkg f), port := some k } true)
  | .putContinuation p => some (s.receivePut { p with spkg := (flitSpkg f), port := some k } false)
  | .reservationRequest q =>
    if q.core = s.core.num then
      let r := s.reserve { q with hpkg := (flitSpkg f), port := some k }
      some (r.1.mapPkg (fun p => p.send k [mkFlit (flitSpkg f) (.reservationAnswer q.hcore r.2) none]))
    else some s
  | .reservationAnswer c v => some (if c = s.core.num then s.answerPrsv (some k) (flitSpkg f) v else s)
  | .putStatus p => some (match s.core.putTo p.ref (flitSpkg f) (some k) with
    | some o => s.refusePut o p.ec p.done
    | none => s)
  | .peerRead dpa n op =>
    if s.peerHeld (flitSpkg f) dpa then none
    else
      let r := s.servePeerRead (flitSpkg f) dpa n op
      some (r.1.mapPkg (fun p => p.send k [mkFlit (flitSpkg f) (.peerReply dpa r.2) none]))
  | .peerReply dpa a => some (s.mapPkg (·.acceptReply (flitSpkg f) dpa a))
  | .peerWrite dpa bs q =>
    if s.peerHeld (flitSpkg f) dpa then none else some (s.servePeerWrite (flitSpkg f) dpa bs q).1
  | .reserved => some s

/-- A flit that is not idle is accepted. -/
def State.accepts (s : State) (k : Port) (f : Flit) : Bool :=
  (flitCrcOk f) && (flitType f) < 9 && (flitDpkg f) = s.pkg.mypkg && (flitSeq f) = (s.pkg.port k).expected

/-- The flits accepted are performed in order, up to one that must wait for another core's write-back; ACK names the last performed
(22:R378, log 83). -/
def State.performHeld (s : State) (k : Port) : Nat → State
  | 0 => s
  | n + 1 =>
    match (s.pkg.port k).held with
    | [] => s
    | f :: rest =>
      match s.deliver k f with
      | none => s
      | some s =>
        (s.mapPkg (fun p =>
          p.setPort k { p.port k with held := rest, acked := some (flitSeq f), ackDue := true })).performHeld k n

/-- The accepted flits of a port that can be performed now. -/
def State.performFlits (s : State) (k : Port) : State := s.performHeld k (s.pkg.port k).held.length

/-- A flit is accepted: the next in sequence. Its ACK and NK are read, and it is performed once every flit before it has been
(22:R377, R378). -/
def State.acceptFlit (s : State) (k : Port) (f : Flit) : State :=
  let s := s.mapPkg (fun p =>
    let r := p.port k
    p.setPort k { r with expected := r.expected + 1#12, nkOut := false, held := r.held ++ [f] })
  (s.takeHeader k f).performFlits k

/-- A flit is discarded: a replay from the number expected is asked for, unless that request is outstanding (22:R377). -/
def Pkg.discardFlit (p : Pkg) (k : Port) : Pkg :=
  if (p.port k).nkOut then p
  else
    let p := p.askReplay k
    p.setPort k { p.port k with nkOut := true }

/-- FLIT_RECEIVE: a port that is up accepts the next flit in sequence and discards any other; of an idle one ACK and NK are read
(22:R377). A package that is to freeze discards every flit without a word (23:R387). -/
def execFlitReceive (port : Port) (f : Flit) (s : State) : Result :=
  if (s.pkg.port port).st != .up || s.pkg.freezing || !(flitTyped f) then .next s
  else if (flitType f) = 0 then .next (if (flitCrcOk f) then (s.takeHeader port f).performFlits port else s)
  else if s.accepts port f then .next (s.acceptFlit port f)
  else .next (s.mapPkg (·.discardFlit port))

/-- NK_RESEND_TIMEOUT: the outstanding replay request is sent again, and stays outstanding (22:R377). -/
def execNkResendTimeout (port : Port) (s : State) : Result :=
  .next (if (s.pkg.port port).nkOut then s.mapPkg (·.askReplay port) else s)

/-- REPLAY_TIMEOUT: no ACK for 2,500 clk sends again from the oldest buffered flit (22:R379). -/
def execReplayTimeout (port : Port) (s : State) : Result := .next (s.mapPkg (·.resend port (fun _ => true)))

/-- ACK_IDLE_FLIT: an idle flit carries the advanced ACK (22:R378). -/
def execAckIdleFlit (port : Port) (s : State) : Result :=
  let s := s.performFlits port
  .next (if (s.pkg.port port).ackDue && s.pkg.sends port then s.mapPkg (·.carry port false [idleFlit port]) else s)

/-! ### Loss (22:R381, 11:R252). -/

/-- A started put of this core over the port that has not ended, its flits sent or not. -/
def PeelOp.putOver (o : PeelOp) (mypkg : BitVec 12) (k : Port) : Bool :=
  isPut o.instr && o.tokPkg != mypkg && o.tokPort = k && (o.gone || (o.active && o.unsent))

/-- Pans held over the port take EC 2 (11:R252). -/
def Core.losePans (c : Core) (k : Port) : Core :=
  match c.rack with
  | none => c
  | some r => (List.range r.pans.length).foldl (fun c i =>
      match r.pans[i]? with
      | some p => if p.port = some k then c.poisonPan i 2#4 else c
      | none => c) c

/-- The port is lost: R252 applies, its buffer is discarded and what it has not delivered, and the requests that left by it are answered
(22:R381). -/
def State.losePort (s : State) (k : Port) : State :=
  let r := s.pkg.port k
  if r.st = .lost then s
  else
    let gone := r.buffer ++ r.waiting
    let s := s.mapPkg (fun p => p.setPort k { r with
      st := .lost, buffer := [], waiting := [], nkOut := false, ackDue := false, held := [], farLost := false })
    let s := s.mapCore (fun c => { (c.losePans k) with landing := c.landing.filter (fun l => l.port != some k) })
    let s := (s.core.peel.filter (fun o => o.putOver s.pkg.mypkg k)).foldl (fun s o => s.endSide o 2#4) s
    let asked := s.pkg.prsvOut.filter (fun x => x.port = some k)
    let s := asked.foldl (fun s x => s.answerPrsv (some k) x.pkg (refusal 5)) s
    let lostAsk (w : PeerWait) : Bool := w.answer.isNone && w.port = k
    s.mapPkg (fun p =>
      let p := { p with peerWaits := p.peerWaits.map (fun w => if lostAsk w then { w with answer := some .poison } else w) }
      gone.foldl (fun p f => match f.payload with
        | .peerWrite dpa _ _ => p.refusedWrite (2 ^ 47 + f.dpkg.toNat * 2 ^ 35 + dpa % 2 ^ 35) f.ctx f.cookie
        | _ => p) p)

/-- The group after a lane of the active group fails; the lane outside it changes nothing: outer none (22:R380). -/
def groupAfter (g : LaneGroup) (lane : BitVec 4) : Option (Option LaneGroup) :=
  let n := lane.toNat
  match g with
  | .all => some (some (if n < 8 then .high8 else .low8))
  | .low8 => if 8 ≤ n then none else some (some (.quarter (if n < 4 then 1#2 else 0#2)))
  | .high8 => if n < 8 then none else some (some (.quarter (if n < 12 then 3#2 else 2#2)))
  | .quarter q => if n / 4 = q.toNat then some none else none

/-- LANE_FAIL: the port stops and retrains on the narrower group; without one it is lost (22:R380). -/
def execLaneFail (port : Port) (lane : BitVec 4) (s : State) : Result :=
  let r := s.pkg.port port
  if r.st = .lost then .next s
  else match groupAfter r.group lane with
  | none => .next s
  | some none => .next (s.losePort port)
  | some (some g) => .next (s.mapPkg (fun p => p.setPort port { r.goDown with group := g }))

/-- RETRAIN_SUCCESS: the port is up and sends again from its oldest buffered flit (22:R380). -/
def execRetrainSuccess (port : Port) (s : State) : Result :=
  let r := s.pkg.port port
  if r.st = .down then
    .next (s.mapPkg (fun p =>
      ((p.setPort port { r with st := .up, nkOut := false, buffer := r.buffer.map (fun f => { f with times := 0 }) }).resend port
        (fun _ => true)).pump port))
  else .next s

/-- LINK_LOST: a down port has been down too long (22:R381). -/
def execLinkLost (port : Port) (s : State) : Result :=
  if (s.pkg.port port).st = .down then .next (s.losePort port) else .next s

/-- NEW_SESSION: a lost port trains anew, with sequence numbers 0 (22:R382). While this package stands frozen it is the far end alone that
begins one: this end learns of it at the thaw (23:R389). -/
def execNewSession (port : Port) (g : LaneGroup) (s : State) : Result :=
  if s.pkg.frozen then
    .next (s.mapPkg (fun p => p.setPort port { p.port port with farLost := (p.port port).st != .lost }))
  else if (s.pkg.port port).st = .lost then
    .next (s.mapPkg (fun p => p.setPort port { PortRec.reset with group := g }))
  else .next s

end Sys2Proof.Machine
end

