-- ==== Sys2Proof/Machine/Debug.lean ====
section
/-! DEFINITION. Machine/Debug.lean: Mbofeura, freeze and thaw, halts, resets, thermal and power limits
(23:R385 to R396). -/

/-- FREE VALUE (log 44). What a scan chain holds after the write of an image, as the part of a state that stands in it: the
layout of an image is not given (23:R385). The first state counts; without one the chain keeps what it held. -/
opaque Sys2Proof.Config.scanned : BitVec 16 → List Sys2Proof.Byte → Nat → List Sys2Proof.Machine.State

namespace Sys2Proof.Machine

/-! ### Freeze and thaw (23:R387 to R390). -/

/-- FRZ: the ports stop, and every core stops issuing (23:R387). -/
def execFrz (s : State) : Result := .next (s.mapPkg (fun p => { p with freezing := true }))

/-- What a freeze lets finish first: a save and a rollback (23:R390). -/
def State.mustFinish (s : State) : Bool := s.pkg.saving || s.hart.trigger

/-- A request of an agent at a peer package is without an answer: the ports have stopped, so it is answered after the thaw. -/
def State.asked (s : State) (who : PeerAsker) : Bool := s.pkg.peerWaits.any (fun w => w.who = who && w.answer.isNone)

/-- A slot, a 64-byte block, a vector store whose elements have been checked, or the elements of a peel operation are under way, and
the units stop at their end (23:R387). -/
def State.stopping (s : State) : Bool :=
  s.core.storePending || (!s.asked .unit && s.core.units.any (fun u => u.busy && u.parked.isNone)) ||
    (!s.asked .engine && s.core.peel.any (fun o => !o.out && o.parked.isNone && !o.moved.isEmpty))

/-- FREEZE_COMPLETE: the store queue has drained, every unit has stopped at its boundary, the clocks stop (23:R387, 13:R282). -/
def execFreezeComplete (s : State) : Result :=
  if !s.pkg.freezing || s.mustFinish then .next s
  else
    let s := s.drain
    if s.stopping || !s.core.storeQ.isEmpty then .next s
    else
      let s := s.finishFrame queueDepth
      if s.mustFinish then .next s else .next (s.mapPkg (fun p => { p with frozen := true }))

/-- ADAPTER_HOLD_TIMEOUT: the held host requests have been answered with poison (23:R387). -/
def execAdapterHoldTimeout (s : State) : Result :=
  .next (if s.pkg.frozen then s.mapPkg (fun p => { p with heldReqs := [] }) else s)

/-- FRZH: every clock stops at once (23:R388). -/
def execFrzh (s : State) : Result := .next (s.mapPkg (fun p => { p with frozen := true, hard := true, freezing := true }))

/-- The ports whose far end has begun a new session meanwhile are lost (23:R389). -/
def State.loseFar (s : State) : State :=
  ((List.finRange 8).filter (fun k => s.pkg.ports[k].farLost)).foldl (fun s k => s.losePort (BitVec.ofNat 3 k)) s

/-- THAW: after an orderly freeze the clocks restart, every port retrains or is lost, and what the adapter held is applied, or waits
further where it must (18:R351, 23:R387 to R389). -/
def execThaw (s : State) : Result :=
  if !s.pkg.frozen || s.pkg.hard then .next s
  else
    let s := s.mapPkg (fun p => { p with frozen := false, freezing := false, ports := p.ports.map PortRec.goDown })
    let s := s.loseFar
    let s := s.moveTails s.pkg.heldTails
    .next (s.serveHost s.pkg.heldReqs)

/-! ### Scan chains and status (23:R385, R386). -/

/-- SELCH: selects a chain (23:R385). -/
def execSelch (v : BitVec 16) (s : State) : Result := .next (s.mapPkg (fun p => { p with chain := v }))

/-- RDCH: streams the selected chain; a read changes nothing (23:R385). -/
def execRdch (s : State) : Result := .next s

/-- The selected chain is empty: an index outside the ranges of its kind (23:R385). -/
def chainEmpty (c : BitVec 16) : Bool :=
  let i := (c.extractLsb' 0 12).toNat
  match (c.extractLsb' 12 4).toNat with
  | 0 => 512 ≤ i
  | 1 => false
  | 2 => 512 ≤ i
  | 3 => 32 ≤ i
  | 4 => 8 ≤ i
  | 5 => i != 0
  | _ => true

/-- The entries of new under the keys that q selects, in place of those of old. -/
def splice {α : Type} [DecidableEq α] (d : α) (q : Nat → Bool) (old new : Sparse α) : Sparse α :=
  (new.filter (fun e => q e.1)).foldl (fun m e => sparseSet d m e.1 e.2) (sparseDrop q old)

/-- Kind 0: the hart's registers, the core's error registers, the store queue and the queues of the units. Bits [1:0] of PC
stay zero (02:R32); whether the hart runs, waits or is halted is no register. -/
def State.scanHart (s f : State) : State :=
  { s with
    hart := { f.hart with
      run := s.hart.run, pc := f.hart.pc &&& ~~~3#48, trigger := s.hart.trigger, halted := s.hart.halted,
      brkArmed := s.hart.brkArmed, stale := s.hart.stale }
    core := { s.core with
      storeQ := f.core.storeQ, units := f.core.units, peel := f.core.peel, cecnt := f.core.cecnt, uesrc := f.core.uesrc,
      uectx := f.core.uectx, ovf := f.core.ovf, ue := f.core.ue, ce := f.core.ce, erraddr := f.core.erraddr,
      inj := f.core.inj, injArm := f.core.injArm } }

/-- Kind 1: the rows of a way with their check and parity columns, which hold registers, bench or lines and versions by its mode; the
errors that stood in them go with what they held. -/
def State.scanWay (s f : State) (w : BitVec 3) : State :=
  let k := w.toNat
  let byte (o : Nat) : Bool := o / 2 ^ 20 + 1 = k
  let here (v : Version) : Bool := v.place = .way w
  let lined (t : State) (x : Nat) : Bool :=
    t.core.lines.any (fun l => l.way = w && l.line = x / 8) || t.pkg.versions.any (fun v => here v && v.line = x / 8)
  { s with
    core := { s.core with
      softBench := splice false (fun o => byte (o * 8)) s.core.softBench f.core.softBench
      softLine := splice false (fun x => lined s x || lined f x) s.core.softLine f.core.softLine
      vrows := splice 0#32 (fun r => keyWay r = k) s.core.vrows f.core.vrows
      prows := splice 0#4 (fun r => keyWay r = k) s.core.prows f.core.prows
      badRows := splice false (fun e => e / 2 ^ 16 = k) s.core.badRows f.core.badRows
      bench := splice 0 byte s.core.bench f.core.bench
      benchInvalid := splice false (fun o => byte (o * 8)) s.core.benchInvalid f.core.benchInvalid
      benchEngine := splice false (fun g => byte (g * 4096)) s.core.benchEngine f.core.benchEngine
      benchPoison := splice false (fun o => byte (o * 8)) s.core.benchPoison f.core.benchPoison
      lines := s.core.lines.filter (fun l => l.way != w) ++ f.core.lines.filter (fun l => l.way = w) }
    pkg := { s.pkg with
      versions := s.pkg.versions.filter (fun v => !here v) ++ f.pkg.versions.filter here } }

/-- Kind 2: the frame, its cells with their residues. -/
def State.scanFrame (s f : State) : State :=
  s.mapCore (fun c => { c with
    cells := splice 0#64 (fun _ => true) c.cells f.core.cells
    chans := splice Chan.zero (fun _ => true) c.chans f.core.chans
    badCells := splice false (fun _ => true) c.badCells f.core.badCells
    winCount := f.core.winCount
    winPair := f.core.winPair })

/-- Kind 3: a hearth slice: the lines it holds with their times and data, and versions. -/
def State.scanSlice (s f : State) (k : Nat) : State :=
  let mine (line : Nat) : Bool := regionOf (line * 64) = some .hbm && homeOf line = k
  let here (v : Version) : Bool := v.place = .home && mine v.line
  (f.pkg.homes.filter (fun e => e.2.isSome && mine e.1)).foldl
    (fun s e => s.mapPkg (fun p => p.putLine e.1 (f.pkg.lineData e.1) (f.pkg.linePoison e.1)))
    (s.mapPkg (fun p => { p with
      homes := splice none mine p.homes f.pkg.homes
      races := splice RaceRec.empty (fun w => mine (w / 8)) p.races f.pkg.races
      versions := p.versions.filter (fun v => !here v) ++ f.pkg.versions.filter here }))

/-- Kind 5: the hypothesis table, the dispatchers and the lane allocator. -/
def State.scanAllocator (s f : State) : State :=
  s.mapPkg (fun p => { p with
    hyps := splice HypEntry.free (fun _ => true) p.hyps f.pkg.hyps
    lastPop := f.pkg.lastPop
    requests := f.pkg.requests
    nextOrder := f.pkg.nextOrder
    waits := f.pkg.waits })

/-- The selected chain as state f has it; the chains of other cores hold nothing of this machine's (23:R385). -/
def State.scanWrite (s f : State) : State :=
  let i := (s.pkg.chain.extractLsb' 0 12).toNat
  match (s.pkg.chain.extractLsb' 12 4).toNat with
  | 0 => if i = s.core.num.toNat then s.scanHart f else s
  | 1 => if i / 8 = s.core.num.toNat then s.scanWay f (BitVec.ofNat 3 i) else s
  | 2 => if i = s.core.num.toNat then s.scanFrame f else s
  | 3 => s.scanSlice f i
  | 4 => s.mapPkg (fun p => p.setPort (BitVec.ofNat 3 i) (f.pkg.port (BitVec.ofNat 3 i)))
  | _ => s.scanAllocator f

/-- WRCH: BYPASS without DBGAUTH; with it the selected chain is written and DBGW is set. What the image writes is a free value
(23:R385, R386, log 44). -/
def execWrch (image : List Byte) (s : State) : Result :=
  if !s.pkg.auth then .next s
  else
    let s := if chainEmpty s.pkg.chain then s
      else s.scanWrite ((Config.scanned s.pkg.chain image s.tick).headD s)
    .next (s.mapPkg (fun p => { p with dbgw := true }))

/-- STAT: captures the status, and returns a challenge (23:R385, R386). -/
def execStat (s : State) : Result :=
  .next (s.mapPkg (fun p => { p with statData := p.stat, challenges := p.challenges + 1 }))

/-- DBGAUTH: a signature that verifies over the challenge that STAT last returned enables WRCH, HALT and ARMBRK
(23:R386). -/
def execDbgauth (verified : Bool) (s : State) : Result :=
  .next (if verified && 0 < s.pkg.challenges then s.mapPkg (fun p => { p with auth := true }) else s)

/-- BYPASS (23:R385). -/
def execBypass (s : State) : Result := .next s

/-! ### Halts (23:R391). -/

/-- HALT: stops the hart of a core at an instruction boundary; BYPASS without DBGAUTH (23:R386, R391). -/
def execHalt (core : BitVec 9) (s : State) : Result :=
  .next (if s.pkg.auth && core = s.core.num then s.mapHart (fun h => { h with halted := true }) else s)

/-- GO: releases it (23:R391). -/
def execGo (core : BitVec 9) (s : State) : Result :=
  .next (if core = s.core.num then s.mapHart (fun h => { h with halted := false }) else s)

/-- ARMBRK: brk halts in place of trapping; BYPASS without DBGAUTH (23:R385, R386). -/
def execArmbrk (core : BitVec 9) (arm : Bool) (s : State) : Result :=
  .next (if s.pkg.auth && core = s.core.num then s.mapHart (fun h => { h with brkArmed := arm }) else s)

/-! ### Resets (23:R392 to R394). -/

/-- The machine after a package reset: every register at its reset value, every queue disabled; memory stays, with the errors
that nothing has met, and so does what core and package are called (23:R392). -/
def State.packageReset (s : State) : State :=
  { hart := Hart.reset
    core := { Core.reset with num := s.core.num }
    pkg := { Pkg.resetOver s.pkg.mem s.pkg.memPoison s.pkg.mypkg with
      memSoft := s.pkg.memSoft, memHard := s.pkg.memHard, poisonSrc := s.pkg.poisonSrc }
    turns := s.turns
    tick := 0 }

/-- The versions in this core's ways. -/
def Pkg.coreVersions (p : Pkg) : List Version :=
  p.versions.filter (fun v => match v.place with
    | .way _ => true
    | _ => false)

/-- Every owned line is written back and every version leaves the core's ways (23:R392). -/
def State.flushCore (s : State) : State :=
  let s := s.core.lines.foldl (fun s l => if l.st = .v then s else s.writeBack l none) s
  let s := (s.dropLines (fun _ => true)).mapCore (fun c => { c with softLine := [], l1d := [], l1i := [] })
  s.pkg.coreVersions.foldl State.sinkVersion s

/-- The core cannot answer: the lines that it owns are its own no longer, and what was dirty is poisoned at its home, a version too
(23:R392). -/
def State.loseCore (s : State) : State :=
  let lost (s : State) (l : Line) : State := s.mapPkg (fun p =>
    let p := p.setHome l.line { p.home l.line with owner := none }
    if l.st = .d then p.spoilLine l.line else p)
  let s := (s.core.lines.filter (fun l => l.st != .v)).foldl lost s
  let s := (s.dropLines (fun _ => true)).mapCore (fun c => { c with softLine := [], l1d := [], l1i := [] })
  s.pkg.coreVersions.foldl (fun s v => s.sinkVersion { v with poison := 255#8 }) s

/-- The core's registers and structures after a core reset; ERRSTAT and ERRADDR stay, and the count of array instructions,
which runs since package reset (21:R360, 23:R392). What has left the core stays as well: stores that are still to be performed,
records on their way to a ring, puts whose flits are out, and queue slots held for SAVED gangs. -/
def Core.afterReset (c : Core) (saved : List SavedGang) : Core :=
  { Core.reset with
    num := c.num
    storeQ := c.storeQ
    faultRecs := c.faultRecs
    reports := c.reports
    peel := c.peel.filter (·.out)
    cecnt := c.cecnt, uesrc := c.uesrc, uectx := c.uectx, ovf := c.ovf, ue := c.ue, ce := c.ce, erraddr := c.erraddr
    arrayCount := c.arrayCount
    peelIds := c.peelIds
    rackGone := c.rackGone || c.rack.isSome
    landing := c.landing.map (fun l => { l with gone := true })
    reserved := c.reserved.filter (fun r => saved.any (fun g => g.gangid = r.gangid))
    inReset := true }

/-- A core reset: the gang is discarded, owned lines are written back, or poisoned at their homes when the core cannot answer, which the
rule leaves open (23:R392, free value, log 102), and the core's registers take their reset values. -/
def State.coreReset (s : State) : State :=
  let s := if s.hart.run = .idle then s
    else s.discardGang (Config.discardCause s.tick) (Config.discardVal s.tick) (s.hart.pc.setWidth 64)
  let s := if Config.coreAnswers s.tick then s.flushCore else s.loseCore
  { s with hart := Hart.reset, core := s.core.afterReset s.pkg.saved }

/-- CORE_RESET: the management controller resets a core; another core's is outside the model (23:R392). -/
def execCoreReset (core : BitVec 9) (s : State) : Result := .next (if core = s.core.num then s.coreReset else s)

/-- CORE_RESET_COMPLETE: reservations are served again (23:R393). -/
def execCoreResetComplete (core : BitVec 9) (s : State) : Result :=
  .next (if core = s.core.num then s.mapCore (fun c => { c with inReset := false }) else s)

/-- RSTCORE (23:R392). -/
def execRstcore (core : BitVec 9) (s : State) : Result := .next (if core = s.core.num then s.coreReset else s)

/-- RSTPORT: the port is lost at once; its new session is a step of its own (23:R392). -/
def execRstport (port : Port) (s : State) : Result := .next (s.losePort port)

/-- RSTPKG (23:R392, R390). -/
def execRstpkg (s : State) : Result := .next s.packageReset

/-- PACKAGE_RESET (23:R392). -/
def execPackageReset (s : State) : Result := .next s.packageReset

/-! ### Power and cooling (23:R396). -/

/-- The management controller gates no core whose ways hold a rack, a locked line or a pinned way. -/
def State.mayGate (s : State) : Bool :=
  s.hart.run = .idle && s.core.rack.isNone && !s.locksIn 0xFF#8 &&
  (List.range 8).all (fun k => (s.core.ways[k]?.map (·.mode)) = some .cache)

/-- CORE_POWER_GATE: an idle core is gated, its lines having left it (23:R396). -/
def execCorePowerGate (core : BitVec 9) (s : State) : Result :=
  .next (if core = s.core.num && s.mayGate then s.flushCore.mapCore (fun c => { c with gated := true }) else s)

/-- THERMAL_WARNING: the controller reports over its own bus (23:R396). -/
def execThermalWarning (s : State) : Result := .next s

/-- A thermal or power limit: FRZ, a report to SYSRING, and a package reset to follow. The report is written at once, by the management
controller whatever stands still, for the freeze stops the adapter's port and the reset ends what waits; in a full ring it has no
place (23:R396, log 34). -/
def State.limit (s : State) : State :=
  let x : RingRecord := { ring := s.pkg.sysring, w0 := Config.thermalReport s.tick 0, w1 := Config.thermalReport s.tick 1,
                          w2 := Config.thermalReport s.tick 2, w3 := Config.thermalReport s.tick 3 }
  (if s.ringFree x.ring then s.writeRing x else s.mapPkg (fun p => p.post x)).mapPkg (fun p =>
    { p with freezing := true, thermal := true })

/-- THERMAL_LIMIT (23:R396). -/
def execThermalLimit (s : State) : Result := .next s.limit

/-- POWER_LIMIT (23:R396). -/
def execPowerLimit (s : State) : Result := .next s.limit

/-- THERMAL_RESET_TIMER: one second later the package resets (23:R396). -/
def execThermalResetTimer (s : State) : Result := .next (if s.pkg.thermal then s.packageReset else s)

end Sys2Proof.Machine
end

