-- ==== Sys2Proof/Machine/ScalarFloat.lean ====
section
/-! DEFINITION. Machine/ScalarFloat.lean: scalar floating-point instructions (04:R88 to R92). -/

namespace Sys2Proof.Machine

/-- The format FMT names (04:R88). -/
def fmtOf : FFmt → Fmt
  | .bf16 => .bf16
  | .fp16 => .fp16
  | .fp32 => .fp32
  | .fp64 => .fp64

/-- The operand of a format: the low bits of its register (04:R89). -/
def State.fbits (s : State) (f : FFmt) (r : GReg) : Nat := (s.g r).toNat % 2 ^ (fmtOf f).width

/-- Its value. -/
def State.fval (s : State) (f : FFmt) (r : GReg) : FVal := (fmtOf f).decode (s.fbits f r)

/-- The rounding of a scalar instruction: FRM, never SAT, and the seed and count of this issue (04:R89). -/
def State.frnd (s : State) (rm : Rm) : Rnd := { rm := rm, sat := false, seed := s.hart.srseed, count := s.hart.srcount }

/-- The end of a scalar float instruction: flags, SRCOUNT with FRM = RSR, the result (04:R89). -/
def State.floatDone (s : State) (d : GReg) (rm : Rm) (r : FRes) : Result :=
  let s := s.orVfsr r.fl
  let s := if rm = .rsr then s.mapHart (fun h => { h with srcount := h.srcount + 1#64 }) else s
  .next (s.result d (BitVec.ofNat 64 r.bits))

/-- A result rounded into FMT with index 0 (04:R89, R90). -/
def State.floatRound (s : State) (f : FFmt) (d : GReg) (rm : Rm) (x : XRes) : Result :=
  s.floatDone d rm ((fmtOf f).round (s.frnd rm) 0 x)

/-- The flags of a compare: NV for a signalling NaN, and for any NaN when it is ordered (04:R90). -/
def cmpFlags (x y : FVal) (ordered : Bool) : Flags :=
  x.snan ||| y.snan ||| Flags.when (ordered && (x.isNan || y.isNan)) Flags.nv

/-- A compare writes 0 or 1. -/
def State.floatCompare (s : State) (f : FFmt) (d a b : GReg) (ordered : Bool) (c : FVal → FVal → Bool) : Result :=
  let x := s.fval f a
  let y := s.fval f b
  let t := !x.isNan && !y.isNan && c x y
  s.floatDone d .rne { bits := if t then 1 else 0, fl := cmpFlags x y ordered }

/-- Width and signedness of an integer kind (04:R92). -/
def IntKind.width : IntKind → Nat
  | .i64 => 64
  | .u64 => 64
  | .i32 => 32
  | .u32 => 32
def IntKind.isSigned : IntKind → Bool
  | .i64 => true
  | .i32 => true
  | .u64 => false
  | .u32 => false

/-- fadd (04:R90). -/
def execFadd (f : FFmt) (d a b : GReg) (rm : Rm) (s : State) : Result :=
  s.floatRound f d rm (exactAdd rm (s.fval f a) (s.fval f b))

/-- fsub (04:R90). -/
def execFsub (f : FFmt) (d a b : GReg) (rm : Rm) (s : State) : Result :=
  s.floatRound f d rm (exactAdd rm (s.fval f a) (s.fval f b).negate)

/-- fmul (04:R90). -/
def execFmul (f : FFmt) (d a b : GReg) (rm : Rm) (s : State) : Result :=
  s.floatRound f d rm (exactMul (s.fval f a) (s.fval f b))

/-- fdiv (04:R90). -/
def execFdiv (f : FFmt) (d a b : GReg) (rm : Rm) (s : State) : Result :=
  s.floatRound f d rm (exactDiv (s.fval f a) (s.fval f b))

/-- fsqrt (04:R90). -/
def execFsqrt (f : FFmt) (d a : GReg) (rm : Rm) (s : State) : Result :=
  s.floatRound f d rm (exactSqrt (s.fval f a))

/-- fma: X × Y + D, D the old contents of gd (04:R90). -/
def execFma (f : FFmt) (d a b : GReg) (rm : Rm) (s : State) : Result :=
  s.floatRound f d rm (exactFma rm (s.fval f a) (s.fval f b) (s.fval f d))

/-- fmin (04:R90, 03:R67). -/
def execFmin (f : FFmt) (d a b : GReg) (s : State) : Result :=
  s.floatDone d .rne ((fmtOf f).minMax false (s.fbits f a) (s.fbits f b))

/-- fmax (04:R90, 03:R67). -/
def execFmax (f : FFmt) (d a b : GReg) (s : State) : Result :=
  s.floatDone d .rne ((fmtOf f).minMax true (s.fbits f a) (s.fbits f b))

/-- feq: a quiet compare (04:R90). -/
def execFeq (f : FFmt) (d a b : GReg) (s : State) : Result := s.floatCompare f d a b false FVal.eq

/-- flt: an ordered compare (04:R90). -/
def execFlt (f : FFmt) (d a b : GReg) (s : State) : Result := s.floatCompare f d a b true FVal.lt

/-- fle: an ordered compare (04:R90). -/
def execFle (f : FFmt) (d a b : GReg) (s : State) : Result :=
  s.floatCompare f d a b true (fun x y => !FVal.lt y x)

/-- fclass: the class word; no flag (04:R91). -/
def execFclass (f : FFmt) (d a : GReg) (s : State) : Result := .next (s.result d ((fmtOf f).classWord (s.fbits f a)))

/-- fcvt.if: integer to float (04:R92, 03:R75). -/
def execFcvtIf (f : FFmt) (d a : GReg) (k : IntKind) (rm : Rm) (s : State) : Result :=
  s.floatRound f d rm (intExact (readInt (s.g a).toNat (IntKind.width k) (IntKind.isSigned k)))

/-- fcvt.fi: float to integer; a 32-bit result is extended by its signedness (04:R92, 03:R75). -/
def execFcvtFi (f : FFmt) (d a : GReg) (k : IntKind) (rm : Rm) (s : State) : Result :=
  let r := toInt (s.frnd rm) 0 (s.fval f a) (IntKind.width k) (IntKind.isSigned k)
  s.floatDone d rm { r with bits := if IntKind.isSigned k then (sext64 r.bits (IntKind.width k)).toNat else r.bits }

/-- fcvt.ff: float to float (04:R92, 03:R75). -/
def execFcvtFf (f : FFmt) (d a : GReg) (src : FFmt) (rm : Rm) (s : State) : Result :=
  s.floatRound f d rm (s.fval src a).exact

end Sys2Proof.Machine
end

