-- ==== Sys2Proof/Machine/Dispatch.lean ====
section
/-! DEFINITION. Machine/Dispatch.lean: the meaning of every instruction and event, one arm each. -/

namespace Sys2Proof.Machine

def exec (i : Instr) (s : State) : Host.Outcome State Fault Refusal :=
  match i with
  | .add d a b => Sys2Proof.Machine.execAdd d a b s
  | .sub d a b => Sys2Proof.Machine.execSub d a b s
  | .addw d a b => Sys2Proof.Machine.execAddw d a b s
  | .subw d a b => Sys2Proof.Machine.execSubw d a b s
  | .and_ d a b => Sys2Proof.Machine.execAnd d a b s
  | .or_ d a b => Sys2Proof.Machine.execOr d a b s
  | .xor_ d a b => Sys2Proof.Machine.execXor d a b s
  | .andn d a b => Sys2Proof.Machine.execAndn d a b s
  | .orn d a b => Sys2Proof.Machine.execOrn d a b s
  | .sll d a b => Sys2Proof.Machine.execSll d a b s
  | .srl d a b => Sys2Proof.Machine.execSrl d a b s
  | .sra d a b => Sys2Proof.Machine.execSra d a b s
  | .rol d a b => Sys2Proof.Machine.execRol d a b s
  | .ror d a b => Sys2Proof.Machine.execRor d a b s
  | .slt d a b => Sys2Proof.Machine.execSlt d a b s
  | .sltu d a b => Sys2Proof.Machine.execSltu d a b s
  | .min_ d a b => Sys2Proof.Machine.execMin d a b s
  | .max_ d a b => Sys2Proof.Machine.execMax d a b s
  | .minu d a b => Sys2Proof.Machine.execMinu d a b s
  | .maxu d a b => Sys2Proof.Machine.execMaxu d a b s
  | .clz d a => Sys2Proof.Machine.execClz d a s
  | .ctz d a => Sys2Proof.Machine.execCtz d a s
  | .popc d a => Sys2Proof.Machine.execPopc d a s
  | .sextB d a => Sys2Proof.Machine.execSextB d a s
  | .sextH d a => Sys2Proof.Machine.execSextH d a s
  | .sextW d a => Sys2Proof.Machine.execSextW d a s
  | .zextB d a => Sys2Proof.Machine.execZextB d a s
  | .zextH d a => Sys2Proof.Machine.execZextH d a s
  | .zextW d a => Sys2Proof.Machine.execZextW d a s
  | .addi d a imm => Sys2Proof.Machine.execAddi d a imm s
  | .andi d a imm => Sys2Proof.Machine.execAndi d a imm s
  | .ori d a imm => Sys2Proof.Machine.execOri d a imm s
  | .xori d a imm => Sys2Proof.Machine.execXori d a imm s
  | .slti d a imm => Sys2Proof.Machine.execSlti d a imm s
  | .sltiu d a imm => Sys2Proof.Machine.execSltiu d a imm s
  | .slli d a n => Sys2Proof.Machine.execSlli d a n s
  | .srli d a n => Sys2Proof.Machine.execSrli d a n s
  | .srai d a n => Sys2Proof.Machine.execSrai d a n s
  | .rori d a n => Sys2Proof.Machine.execRori d a n s
  | .ldhi d imm => Sys2Proof.Machine.execLdhi d imm s
  | .pcrel d imm => Sys2Proof.Machine.execPcrel d imm s
  | .mul d a b => Sys2Proof.Machine.execMul d a b s
  | .mulh d a b => Sys2Proof.Machine.execMulh d a b s
  | .mulhu d a b => Sys2Proof.Machine.execMulhu d a b s
  | .mulhsu d a b => Sys2Proof.Machine.execMulhsu d a b s
  | .mulw d a b => Sys2Proof.Machine.execMulw d a b s
  | .div d a b => Sys2Proof.Machine.execDiv d a b s
  | .divu d a b => Sys2Proof.Machine.execDivu d a b s
  | .rem d a b => Sys2Proof.Machine.execRem d a b s
  | .remu d a b => Sys2Proof.Machine.execRemu d a b s
  | .fadd f d a b rm => Sys2Proof.Machine.execFadd f d a b rm s
  | .fsub f d a b rm => Sys2Proof.Machine.execFsub f d a b rm s
  | .fmul f d a b rm => Sys2Proof.Machine.execFmul f d a b rm s
  | .fdiv f d a b rm => Sys2Proof.Machine.execFdiv f d a b rm s
  | .fsqrt f d a rm => Sys2Proof.Machine.execFsqrt f d a rm s
  | .fma f d a b rm => Sys2Proof.Machine.execFma f d a b rm s
  | .fmin f d a b => Sys2Proof.Machine.execFmin f d a b s
  | .fmax f d a b => Sys2Proof.Machine.execFmax f d a b s
  | .feq f d a b => Sys2Proof.Machine.execFeq f d a b s
  | .flt f d a b => Sys2Proof.Machine.execFlt f d a b s
  | .fle f d a b => Sys2Proof.Machine.execFle f d a b s
  | .fclass f d a => Sys2Proof.Machine.execFclass f d a s
  | .fcvtIf f d a k rm => Sys2Proof.Machine.execFcvtIf f d a k rm s
  | .fcvtFi f d a k rm => Sys2Proof.Machine.execFcvtFi f d a k rm s
  | .fcvtFf f d a src rm => Sys2Proof.Machine.execFcvtFf f d a src rm s
  | .ldb d a imm => Sys2Proof.Machine.execLdb d a imm s
  | .ldh d a imm => Sys2Proof.Machine.execLdh d a imm s
  | .ldw d a imm => Sys2Proof.Machine.execLdw d a imm s
  | .ldd d a imm => Sys2Proof.Machine.execLdd d a imm s
  | .ldbu d a imm => Sys2Proof.Machine.execLdbu d a imm s
  | .ldhu d a imm => Sys2Proof.Machine.execLdhu d a imm s
  | .ldwu d a imm => Sys2Proof.Machine.execLdwu d a imm s
  | .stb y a imm => Sys2Proof.Machine.execStb y a imm s
  | .sth y a imm => Sys2Proof.Machine.execSth y a imm s
  | .stw y a imm => Sys2Proof.Machine.execStw y a imm s
  | .std y a imm => Sys2Proof.Machine.execStd y a imm s
  | .beq y a imm => Sys2Proof.Machine.execBeq y a imm s
  | .bne y a imm => Sys2Proof.Machine.execBne y a imm s
  | .blt y a imm => Sys2Proof.Machine.execBlt y a imm s
  | .bge y a imm => Sys2Proof.Machine.execBge y a imm s
  | .bltu y a imm => Sys2Proof.Machine.execBltu y a imm s
  | .bgeu y a imm => Sys2Proof.Machine.execBgeu y a imm s
  | .jal d imm => Sys2Proof.Machine.execJal d imm s
  | .jalr d a imm => Sys2Proof.Machine.execJalr d a imm s
  | .ald d a ord sc w4 => Sys2Proof.Machine.execAld d a ord sc w4 s
  | .ast a b ord sc w4 => Sys2Proof.Machine.execAst a b ord sc w4 s
  | .amoadd d a b ord sc w4 => Sys2Proof.Machine.execAmoadd d a b ord sc w4 s
  | .amoswap d a b ord sc w4 => Sys2Proof.Machine.execAmoswap d a b ord sc w4 s
  | .amoand d a b ord sc w4 => Sys2Proof.Machine.execAmoand d a b ord sc w4 s
  | .amoor d a b ord sc w4 => Sys2Proof.Machine.execAmoor d a b ord sc w4 s
  | .amoxor d a b ord sc w4 => Sys2Proof.Machine.execAmoxor d a b ord sc w4 s
  | .amomin d a b ord sc w4 => Sys2Proof.Machine.execAmomin d a b ord sc w4 s
  | .amomax d a b ord sc w4 => Sys2Proof.Machine.execAmomax d a b ord sc w4 s
  | .amominu d a b ord sc w4 => Sys2Proof.Machine.execAmominu d a b ord sc w4 s
  | .amomaxu d a b ord sc w4 => Sys2Proof.Machine.execAmomaxu d a b ord sc w4 s
  | .cas d a b ord sc w4 => Sys2Proof.Machine.execCas d a b ord sc w4 s
  | .fence sc ord => Sys2Proof.Machine.execFence sc ord s
  | .gbar => Sys2Proof.Machine.execGbar s
  | .gred d a op rm => Sys2Proof.Machine.execGred d a op rm s
  | .mfs d r => Sys2Proof.Machine.execMfs d r s
  | .mts r a => Sys2Proof.Machine.execMts r a s
  | .mtsMode a => Sys2Proof.Machine.execMtsMode a s
  | .mtsVl a => Sys2Proof.Machine.execMtsVl a s
  | .mtsVstart a => Sys2Proof.Machine.execMtsVstart a s
  | .mtsFcr a => Sys2Proof.Machine.execMtsFcr a s
  | .mtsLtime a => Sys2Proof.Machine.execMtsLtime a s
  | .mtsBenchchk a => Sys2Proof.Machine.execMtsBenchchk a s
  | .mtsChkctl a => Sys2Proof.Machine.execMtsChkctl a s
  | .svc imm => Sys2Proof.Machine.execSvc imm s
  | .brk imm => Sys2Proof.Machine.execBrk imm s
  | .eret => Sys2Proof.Machine.execEret s
  | .idle a => Sys2Proof.Machine.execIdle a s
  | .ifence => Sys2Proof.Machine.execIfence s
  | .tlbiVa d a pkg => Sys2Proof.Machine.execTlbiVa d a pkg s
  | .tlbiCtx d pkg => Sys2Proof.Machine.execTlbiCtx d pkg s
  | .tlbiAll pkg => Sys2Proof.Machine.execTlbiAll pkg s
  | .tend => Sys2Proof.Machine.execTend s
  | .spawn d a => Sys2Proof.Machine.execSpawn d a s
  | .qput d a => Sys2Proof.Machine.execQput d a s
  | .join d a => Sys2Proof.Machine.execJoin d a s
  | .gmode m => Sys2Proof.Machine.execGmode m s
  | .vsetl d a => Sys2Proof.Machine.execVsetl d a s
  | .wconvArray d a => Sys2Proof.Machine.execWconvArray d a s
  | .wconvBench d a => Sys2Proof.Machine.execWconvBench d a s
  | .wrel d a => Sys2Proof.Machine.execWrel d a s
  | .vadd d a y => Sys2Proof.Machine.execVadd d a y s
  | .vsub d a y => Sys2Proof.Machine.execVsub d a y s
  | .vrsub d a y => Sys2Proof.Machine.execVrsub d a y s
  | .vmul d a y => Sys2Proof.Machine.execVmul d a y s
  | .vmulh d a y => Sys2Proof.Machine.execVmulh d a y s
  | .vmacc d a y => Sys2Proof.Machine.execVmacc d a y s
  | .vnmsac d a y => Sys2Proof.Machine.execVnmsac d a y s
  | .vdiv d a y => Sys2Proof.Machine.execVdiv d a y s
  | .vdivu d a y => Sys2Proof.Machine.execVdivu d a y s
  | .vrem d a y => Sys2Proof.Machine.execVrem d a y s
  | .vmin d a y => Sys2Proof.Machine.execVmin d a y s
  | .vmax d a y => Sys2Proof.Machine.execVmax d a y s
  | .vminu d a y => Sys2Proof.Machine.execVminu d a y s
  | .vmaxu d a y => Sys2Proof.Machine.execVmaxu d a y s
  | .vand d a y => Sys2Proof.Machine.execVand d a y s
  | .vor d a y => Sys2Proof.Machine.execVor d a y s
  | .vxor d a y => Sys2Proof.Machine.execVxor d a y s
  | .vandn d a y => Sys2Proof.Machine.execVandn d a y s
  | .vsll d a y => Sys2Proof.Machine.execVsll d a y s
  | .vsrl d a y => Sys2Proof.Machine.execVsrl d a y s
  | .vsra d a y => Sys2Proof.Machine.execVsra d a y s
  | .vabs d a => Sys2Proof.Machine.execVabs d a s
  | .vabsd d a y => Sys2Proof.Machine.execVabsd d a y s
  | .vmerge d a y => Sys2Proof.Machine.execVmerge d a y s
  | .vmv d a y => Sys2Proof.Machine.execVmv d a y s
  | .vid d => Sys2Proof.Machine.execVid d s
  | .vclip d a y => Sys2Proof.Machine.execVclip d a y s
  | .vfadd d a y => Sys2Proof.Machine.execVfadd d a y s
  | .vfsub d a y => Sys2Proof.Machine.execVfsub d a y s
  | .vfmul d a y => Sys2Proof.Machine.execVfmul d a y s
  | .vfma d a y => Sys2Proof.Machine.execVfma d a y s
  | .vfnma d a y => Sys2Proof.Machine.execVfnma d a y s
  | .vfdiv d a y => Sys2Proof.Machine.execVfdiv d a y s
  | .vfsqrt d a => Sys2Proof.Machine.execVfsqrt d a s
  | .vfmin d a y => Sys2Proof.Machine.execVfmin d a y s
  | .vfmax d a y => Sys2Proof.Machine.execVfmax d a y s
  | .vfsgn d a b => Sys2Proof.Machine.execVfsgn d a b s
  | .vfsgnN d a b => Sys2Proof.Machine.execVfsgnN d a b s
  | .vfsgnX d a b => Sys2Proof.Machine.execVfsgnX d a b s
  | .vfexp2 d a => Sys2Proof.Machine.execVfexp2 d a s
  | .vflog2 d a => Sys2Proof.Machine.execVflog2 d a s
  | .vfrecip d a => Sys2Proof.Machine.execVfrecip d a s
  | .vfrsqrt d a => Sys2Proof.Machine.execVfrsqrt d a s
  | .vcvt d a t => Sys2Proof.Machine.execVcvt d a t s
  | .vcmpeq p a y => Sys2Proof.Machine.execVcmpeq p a y s
  | .vcmpne p a y => Sys2Proof.Machine.execVcmpne p a y s
  | .vcmplt p a y => Sys2Proof.Machine.execVcmplt p a y s
  | .vcmple p a y => Sys2Proof.Machine.execVcmple p a y s
  | .vcmpltu p a y => Sys2Proof.Machine.execVcmpltu p a y s
  | .vcmpleu p a y => Sys2Proof.Machine.execVcmpleu p a y s
  | .vfcmpeq p a y => Sys2Proof.Machine.execVfcmpeq p a y s
  | .vfcmplt p a y => Sys2Proof.Machine.execVfcmplt p a y s
  | .vfcmple p a y => Sys2Proof.Machine.execVfcmple p a y s
  | .vfcmpun p a y => Sys2Proof.Machine.execVfcmpun p a y s
  | .pand d a b => Sys2Proof.Machine.execPand d a b s
  | .por d a b => Sys2Proof.Machine.execPor d a b s
  | .pxor d a b => Sys2Proof.Machine.execPxor d a b s
  | .pandn d a b => Sys2Proof.Machine.execPandn d a b s
  | .pmov d a => Sys2Proof.Machine.execPmov d a s
  | .psbf d a b => Sys2Proof.Machine.execPsbf d a b s
  | .psif d a b => Sys2Proof.Machine.execPsif d a b s
  | .pfirst d a b => Sys2Proof.Machine.execPfirst d a b s
  | .pcount d a => Sys2Proof.Machine.execPcount d a s
  | .pset d a => Sys2Proof.Machine.execPset d a s
  | .vloop d a off => Sys2Proof.Machine.execVloop d a off s
  | .vredsum g a => Sys2Proof.Machine.execVredsum g a s
  | .vredosum g a => Sys2Proof.Machine.execVredosum g a s
  | .vredmin g a => Sys2Proof.Machine.execVredmin g a s
  | .vredmax g a => Sys2Proof.Machine.execVredmax g a s
  | .vredbitAnd g a => Sys2Proof.Machine.execVredbitAnd g a s
  | .vredbitOr g a => Sys2Proof.Machine.execVredbitOr g a s
  | .vredbitXor g a => Sys2Proof.Machine.execVredbitXor g a s
  | .vscan d a => Sys2Proof.Machine.execVscan d a s
  | .vslideup d a y => Sys2Proof.Machine.execVslideup d a y s
  | .vslidedn d a y => Sys2Proof.Machine.execVslidedn d a y s
  | .vslide1up d a g => Sys2Proof.Machine.execVslide1up d a g s
  | .vslide1dn d a g => Sys2Proof.Machine.execVslide1dn d a g s
  | .vpick d a b => Sys2Proof.Machine.execVpick d a b s
  | .vsqueeze d a g => Sys2Proof.Machine.execVsqueeze d a g s
  | .vbcast d a y => Sys2Proof.Machine.execVbcast d a y s
  | .vextr g a => Sys2Proof.Machine.execVextr g a s
  | .vinsr d g => Sys2Proof.Machine.execVinsr d g s
  | .vld x a => Sys2Proof.Machine.execVld x a s
  | .vlds x a b => Sys2Proof.Machine.execVlds x a b s
  | .vldx x a b => Sys2Proof.Machine.execVldx x a b s
  | .vldff d x a => Sys2Proof.Machine.execVldff d x a s
  | .vst x a => Sys2Proof.Machine.execVst x a s
  | .vsts x a b => Sys2Proof.Machine.execVsts x a b s
  | .vstx x a b => Sys2Proof.Machine.execVstx x a b s
  | .pcopy d a b => Sys2Proof.Machine.execPcopy d a b s
  | .pcopyX d a b x => Sys2Proof.Machine.execPcopyX d a b x s
  | .ownE a b => Sys2Proof.Machine.execOwnE a b s
  | .ownH d a b => Sys2Proof.Machine.execOwnH d a b s
  | .tbi a b => Sys2Proof.Machine.execTbi a b s
  | .tbarr a => Sys2Proof.Machine.execTbarr a s
  | .tbwait d a b => Sys2Proof.Machine.execTbwait d a b s
  | .tbtest d a => Sys2Proof.Machine.execTbtest d a s
  | .rkdef d a b => Sys2Proof.Machine.execRkdef d a b s
  | .prsv d a b => Sys2Proof.Machine.execPrsv d a b s
  | .prel d a => Sys2Proof.Machine.execPrel d a s
  | .pstat d a => Sys2Proof.Machine.execPstat d a s
  | .bput d a b => Sys2Proof.Machine.execBput d a b s
  | .bputF d a b => Sys2Proof.Machine.execBputF d a b s
  | .vput d x b => Sys2Proof.Machine.execVput d x b s
  | .vputF d x b => Sys2Proof.Machine.execVputF d x b s
  | .rrot d a b => Sys2Proof.Machine.execRrot d a b s
  | .fcfg a => Sys2Proof.Machine.execFcfg a s
  | .fzero => Sys2Proof.Machine.execFzero s
  | .fzeroC => Sys2Proof.Machine.execFzeroC s
  | .mmo a b xb => Sys2Proof.Machine.execMmo a b xb s
  | .mmoSp a b v xb => Sys2Proof.Machine.execMmoSp a b v xb s
  | .mmoSt d a b v s24 xb => Sys2Proof.Machine.execMmoSt d a b v s24 xb s
  | .frc => Sys2Proof.Machine.execFrc s
  | .fdrain d c => Sys2Proof.Machine.execFdrain d c s
  | .fdrainNcs d => Sys2Proof.Machine.execFdrainNcs d s
  | .fdrainZ d c => Sys2Proof.Machine.execFdrainZ d c s
  | .fdrainZNcs d => Sys2Proof.Machine.execFdrainZNcs d s
  | .frowadd a => Sys2Proof.Machine.execFrowadd a s
  | .frowaddC a => Sys2Proof.Machine.execFrowaddC a s
  | .fsave a => Sys2Proof.Machine.execFsave a s
  | .fload a => Sys2Proof.Machine.execFload a s
  | .hopen d => Sys2Proof.Machine.execHopen d s
  | .henter d a => Sys2Proof.Machine.execHenter d a s
  | .hleave d => Sys2Proof.Machine.execHleave d s
  | .hresConfirm d a => Sys2Proof.Machine.execHresConfirm d a s
  | .hresRefute d a => Sys2Proof.Machine.execHresRefute d a s
  | .hstat d a => Sys2Proof.Machine.execHstat d a s
  | .cflush a => Sys2Proof.Machine.execCflush a s
  | .cclean a => Sys2Proof.Machine.execCclean a s
  | .cinv a => Sys2Proof.Machine.execCinv a s
  | .lock d a => Sys2Proof.Machine.execLock d a s
  | .unlock d a => Sys2Proof.Machine.execUnlock d a s
  | .bclr a b => Sys2Proof.Machine.execBclr a b s
  | .hint h => Sys2Proof.Machine.execHint h s
  | .illegalInstruction w => Sys2Proof.Machine.execIllegalInstruction w s
  | .faultRecordPost => Sys2Proof.Machine.execFaultRecordPost s
  | .storeDepart => Sys2Proof.Machine.execStoreDepart s
  | .lineFill line => Sys2Proof.Machine.execLineFill line s
  | .ownerRecall line => Sys2Proof.Machine.execOwnerRecall line s
  | .homeRead who line => Sys2Proof.Machine.execHomeRead who line s
  | .homeAcquireRead who line => Sys2Proof.Machine.execHomeAcquireRead who line s
  | .homeOwnership who line => Sys2Proof.Machine.execHomeOwnership who line s
  | .homeAtomic who dpa op w4 v cmp => Sys2Proof.Machine.execHomeAtomic who dpa op w4 v cmp s
  | .homeWriteBack who line data => Sys2Proof.Machine.execHomeWriteBack who line data s
  | .horizonBroadcast => Sys2Proof.Machine.execHorizonBroadcast s
  | .sliceRaceSweep line => Sys2Proof.Machine.execSliceRaceSweep line s
  | .coreRaceSweep => Sys2Proof.Machine.execCoreRaceSweep s
  | .hbmScrub block => Sys2Proof.Machine.execHbmScrub block s
  | .idleWake => Sys2Proof.Machine.execIdleWake s
  | .idleTimeout => Sys2Proof.Machine.execIdleTimeout s
  | .kneaderSlot => Sys2Proof.Machine.execKneaderSlot s
  | .arrayDataErrorTrap => Sys2Proof.Machine.execArrayDataErrorTrap s
  | .frameKstep => Sys2Proof.Machine.execFrameKstep s
  | .peelOpStart => Sys2Proof.Machine.execPeelOpStart s
  | .peelElement k m => Sys2Proof.Machine.execPeelElement k m s
  | .tbwaitAnswer => Sys2Proof.Machine.execTbwaitAnswer s
  | .reservationRequest r => Sys2Proof.Machine.execReservationRequest r s
  | .reservationAnswer v => Sys2Proof.Machine.execReservationAnswer v s
  | .putFirstFlit p => Sys2Proof.Machine.execPutFirstFlit p s
  | .putContinuationFlit p => Sys2Proof.Machine.execPutContinuationFlit p s
  | .putStatus p => Sys2Proof.Machine.execPutStatus p s
  | .barrierArrival m => Sys2Proof.Machine.execBarrierArrival m s
  | .barrierRelease => Sys2Proof.Machine.execBarrierRelease s
  | .queuePop disp => Sys2Proof.Machine.execQueuePop disp s
  | .agingTick req => Sys2Proof.Machine.execAgingTick req s
  | .laneGrant c => Sys2Proof.Machine.execLaneGrant c s
  | .preemption => Sys2Proof.Machine.execPreemption s
  | .gangSaved => Sys2Proof.Machine.execGangSaved s
  | .resume ways => Sys2Proof.Machine.execResume ways s
  | .orphanTrap => Sys2Proof.Machine.execOrphanTrap s
  | .hypothesisFree id => Sys2Proof.Machine.execHypothesisFree id s
  | .hartStateError => Sys2Proof.Machine.execHartStateError s
  | .rollbackComplete => Sys2Proof.Machine.execRollbackComplete s
  | .ringRecordWrite ring => Sys2Proof.Machine.execRingRecordWrite ring s
  | .qtailWrite q v => Sys2Proof.Machine.execQtailWrite q v s
  | .fansReplay fid => Sys2Proof.Machine.execFansReplay fid s
  | .fansUnresolved fid => Sys2Proof.Machine.execFansUnresolved fid s
  | .ctxkill v => Sys2Proof.Machine.execCtxkill v s
  | .biasToHost page => Sys2Proof.Machine.execBiasToHost page s
  | .biasToDevice page => Sys2Proof.Machine.execBiasToDevice page s
  | .biasFlipComplete => Sys2Proof.Machine.execBiasFlipComplete s
  | .hostCxlMemRequest dpa data => Sys2Proof.Machine.execHostCxlMemRequest dpa data s
  | .hostSnoop line data => Sys2Proof.Machine.execHostSnoop line data s
  | .hostRegisterWrite off v => Sys2Proof.Machine.execHostRegisterWrite off v s
  | .attestationRequest nonce => Sys2Proof.Machine.execAttestationRequest nonce s
  | .peerRead src dpa ask => Sys2Proof.Machine.execPeerRead src dpa ask s
  | .peerWrite src dpa data => Sys2Proof.Machine.execPeerWrite src dpa data s
  | .peerReadReply place answer => Sys2Proof.Machine.execPeerReadReply place answer s
  | .flitReceive port f => Sys2Proof.Machine.execFlitReceive port f s
  | .nkResendTimeout port => Sys2Proof.Machine.execNkResendTimeout port s
  | .replayTimeout port => Sys2Proof.Machine.execReplayTimeout port s
  | .ackIdleFlit port => Sys2Proof.Machine.execAckIdleFlit port s
  | .laneFail port lane => Sys2Proof.Machine.execLaneFail port lane s
  | .retrainSuccess port => Sys2Proof.Machine.execRetrainSuccess port s
  | .linkLost port => Sys2Proof.Machine.execLinkLost port s
  | .newSession port g => Sys2Proof.Machine.execNewSession port g s
  | .frz => Sys2Proof.Machine.execFrz s
  | .freezeComplete => Sys2Proof.Machine.execFreezeComplete s
  | .adapterHoldTimeout => Sys2Proof.Machine.execAdapterHoldTimeout s
  | .frzh => Sys2Proof.Machine.execFrzh s
  | .thaw => Sys2Proof.Machine.execThaw s
  | .selch v => Sys2Proof.Machine.execSelch v s
  | .rdch => Sys2Proof.Machine.execRdch s
  | .wrch image => Sys2Proof.Machine.execWrch image s
  | .halt core => Sys2Proof.Machine.execHalt core s
  | .go core => Sys2Proof.Machine.execGo core s
  | .armbrk core arm => Sys2Proof.Machine.execArmbrk core arm s
  | .rstcore core => Sys2Proof.Machine.execRstcore core s
  | .rstport port => Sys2Proof.Machine.execRstport port s
  | .rstpkg => Sys2Proof.Machine.execRstpkg s
  | .dbgauth verified => Sys2Proof.Machine.execDbgauth verified s
  | .stat => Sys2Proof.Machine.execStat s
  | .bypass => Sys2Proof.Machine.execBypass s
  | .packageReset => Sys2Proof.Machine.execPackageReset s
  | .coreReset core => Sys2Proof.Machine.execCoreReset core s
  | .coreResetComplete core => Sys2Proof.Machine.execCoreResetComplete core s
  | .corePowerGate core => Sys2Proof.Machine.execCorePowerGate core s
  | .thermalWarning => Sys2Proof.Machine.execThermalWarning s
  | .thermalLimit => Sys2Proof.Machine.execThermalLimit s
  | .powerLimit => Sys2Proof.Machine.execPowerLimit s
  | .thermalResetTimer => Sys2Proof.Machine.execThermalResetTimer s
  | .rodTreeComplete => Sys2Proof.Machine.execRodTreeComplete s
  | .panDiscardNotice r => Sys2Proof.Machine.execPanDiscardNotice r s
  | .peerWriteRefusal n => Sys2Proof.Machine.execPeerWriteRefusal n s

end Sys2Proof.Machine
end

