-- ==== Sys2Proof/Machine/Fetch.lean ====
section
/-! DEFINITION. Machine/Fetch.lean: fetching an instruction word, and which step comes next when no turn is given
(00:R3, 02:R32, R33, R40, 08:R168, R173, 16:R304, 21:R359; log 2). -/

namespace Sys2Proof.Machine

/-! ### Fetch (02:R40, check 1). -/

/-- How a fetch ends: a word and the state after it, or the state in which the hart does not execute. -/
inductive Fetched where
  | word (w : IWord) (s : State)
  | stop (s : State)
  deriving Repr

/-- A word that was written since the last ifence: the new word or one of the old ones (02:R33, log 7). -/
def State.staleWord (s : State) (dpa : Nat) (h : BitVec 12) (w : IWord) : IWord :=
  match s.oldWords (dpa / 4) h with
  | [] => w
  | olds => if Config.fetchNew s.tick then w else (olds[Config.fetchOld s.tick % olds.length]?).getD w

/-- The L1 instruction cache takes a line that stands in a CACHE way (08:R168). -/
def Core.touchCode (c : Core) (line : Nat) (h : BitVec 12) : Core :=
  if (c.findLine line h).isSome || c.l1i.contains (line, h) then { c with l1i := touchL1 c.l1i line h } else c

/-- The word at a DPA for a fetch under h: what the L1 instruction cache holds, else a read as a load of the line makes it,
which an acquire does not count (02:R33, 08:R168, 09:R205, 16:R307, log 74). None while the line is with another core. -/
def State.fetchRead (s : State) (dpa : Nat) (mt : MemType) (cnt : Bool) (h : BitVec 12) : Option (State × ReadVal) :=
  let line := dpa / 64
  let o := dpa % 64
  if s.core.l1i.contains (line, h) then
    some (s, { val := (s.codeWord dpa h).toNat, poison := poisonHit (s.visible dpa h).2 o 4 })
  else
    let r : Option (State × ReadVal) := match s.route dpa mt with
      | .cached => (s.cachedRead line h (maskOf o 4) dpa cnt).map (fun r =>
          (r.1, { val := lineNat r.2.1 o 4, poison := poisonHit r.2.2 o 4 }))
      | _ => s.readMem dpa 4 mt cnt h
    r.map (fun r => (r.1.mapHart (fun x => { x with maxRead := s.hart.maxRead }), r.2))

/-- Fetch from memory of this package: poison traps (21:R359). -/
def State.fetchMem (s : State) (dpa : Nat) (mt : MemType) (cnt : Bool) : Fetched :=
  let h := if mt = .wb then s.hart.hyp else 0#12
  match s.fetchRead dpa mt cnt h with
  | none => .stop s
  | some (s, v) =>
    let s := s.mapCore (·.touchCode (dpa / 64) h)
    if v.poison then .stop ((s.consumePoison dpa).trap 0x0A#8 (s.hart.pc.setWidth 64))
    else .word (s.staleWord dpa h (BitVec.ofNat 32 v.val)) (s.correct (.mem dpa mt cnt) 4)

/-- Fetch at PC: execute permission and translation, a page fault parks the hart, poison traps; the line of another owner
is awaited, and the reply of a peer package, whose words may be had again until ifence as they were (02:R33, R40, 08:R173, 09:R203,
16:R304, 18:R352, 21:R359, log 7). -/
def State.fetch (s : State) : Fetched :=
  let pc := s.hart.pc
  let va : Word := pc.setWidth 64
  if inBenchWindow pc.toNat then .stop (s.trap 0x03#8 va)
  else match s.translate pc .fetch with
  | .trap c v _ s => .stop (s.trap c v)
  | .fault f s => .stop (s.parkHart f .fetch)
  | .wait s => .stop s
  | .ok (dpa, mt, cnt) s =>
    if mt = .peer then
      let t := s.mapPkg (·.takeReply dpa 4 .hart)
      match s.pkg.peerReply dpa 4 .hart with
      | some (.data bs) =>
        let w := BitVec.ofNat 32 (ofBytes bs)
        .word (s.staleWord dpa 0#12 w) (t.mapHart (fun h => h.keepOld (dpa / 4) 0#12 (s.oldWords (dpa / 4) 0#12) w))
      | some .refused => .stop (t.trap 0x03#8 va)
      | some .poison => .stop ((t.consumePoison dpa).trap 0x0A#8 va)
      | none => .stop (s.peerAsk dpa 4 none .hart)
    else s.fetchMem dpa mt cnt

/-- The hart may execute the instruction at PC: it runs, no entry holds it, no trap is due at this boundary, no halt, rollback or
freeze stops it (17:R338, 21:R361). -/
def State.hartReady (s : State) : Bool :=
  s.hart.run = .running && !s.hart.halted && !s.hartHeld && !s.hart.trigger && !s.pkg.freezing && !s.core.inReset &&
    !((s.hart.orphan.isSome || s.hart.arrayError.isSome) && s.atBoundary)

/-! ### What moves next without a turn (log 2). -/

/-- A step that the machine takes by itself. -/
inductive Auto where
  | rollback | saved | freeze | orphan | arrayTrap | store | kneader | rodTree | frame | peelStart
  | peelElement (k : Nat)
  | tbwait | barrier | wake | timeout | faultPost
  | ring (r : Nat)
  | pop (disp : Nat)
  | grant (g : GrantChoice)
  | preempt
  | resume (ways : BitVec 8)
  | free (id : BitVec 12)
  | hart
  deriving DecidableEq, Repr

/-- An active peel operation has something to do. -/
def State.peelActs (s : State) (o : PeelOp) : Bool :=
  match o.parked with
  | some _ => o.unresolved
  | none =>
    if isPut o.instr then (o.unsent && !s.putHeld o) || (o.tokPkg = s.pkg.mypkg && o.gone) else o.vstart < o.vl

/-- A queued peel operation can start. -/
def State.peelStarts (s : State) : Bool :=
  !s.pkg.freezing && s.core.peel.any (fun o => !o.active) && s.core.peel.countP (·.active) < 8

/-- The step of the peel engine. -/
def State.peelMove (s : State) : Option Auto :=
  if s.peelStarts then some .peelStart
  else ((s.core.peel.filter (·.active)).findIdx? s.peelActs).map .peelElement

/-- The unit of the frame queue or of the other one can go on with its operation. -/
def State.unitActs (s : State) (frame : Bool) : Option Auto :=
  (s.turnOf frame).bind (fun u =>
    if u.parked.isSome && !u.unresolved then none
    else some (if isFrame u.instr then .frame else if isRodTree u.instr then .rodTree else .kneader))

/-- A step of the units, which work concurrently: they take turns (01:R21). -/
def State.unitMove (s : State) : Option Auto :=
  let first := s.tick / 8 % 2 = 0
  match s.unitActs first with
  | some a => some a
  | none => s.unitActs (!first)

/-- A record that is still to reach its ring. -/
def State.recordMove (s : State) : Option Auto :=
  if (s.core.faultRecs.head?).any (fun x => s.ringRoom x.ring) then some .faultPost
  else match s.pkg.ring.find? (fun x => s.ringRoom x.ring), s.core.reports with
    | some x, _ => some (.ring x.ring.toNat)
    | none, x :: _ => if s.reportsDue then some (.ring x.ring.toNat) else none
    | none, [] => none

/-- A granted gang is resumed here with the ways that are free now. -/
def State.resumeMove (s : State) : Option Auto :=
  (s.pkg.saved.find? (·.granted)).bind (fun g =>
    let ways := (s.ownChoice { kind := .resume g.gangid, popped := g.level, level := g.level, order := 0, ages := false, disp := 0 }).ways
    if s.canResume g ways then some (.resume ways) else none)

/-- The allocator grants the request that it serves, or pre-empts for it (13:R280, R281). -/
def State.grantMove (s : State) : Option Auto :=
  s.pkg.served.bind (fun r =>
    let g := s.ownChoice r
    if s.canGrant r g then some (.grant g)
    else if s.mayPreempt r && !s.trapFirst && !s.inFlight && s.core.storeQ.isEmpty then some .preempt
    else none)

/-- A dispatcher that can pop. -/
def State.popMove (s : State) : Option Auto :=
  if s.pkg.queuesOn then ((List.range 4).find? (fun k => (s.popNow k).isSome)).map .pop else none

/-- A resolved hypothesis that nothing names becomes FREE (17:R321). -/
def State.freeMove (s : State) : Option Auto :=
  (s.pkg.hyps.find? (fun e =>
    let h : BitVec 12 := BitVec.ofNat 12 e.1
    ((s.freeHyp h).pkg.hypEntry h).st != e.2.st)).map (fun e => .free (BitVec.ofNat 12 e.1))

/-- A step of the dispatchers, the allocator and the hypothesis unit, so that every queued task starts in the end (00:R3); a freeze
lets none begin (23:R387). -/
def State.schedMove (s : State) : Option Auto :=
  if s.pkg.freezing then none else [s.resumeMove, s.grantMove, s.popMove, s.freeMove].findSome? id

/-- The step of the hart or of what it waits for. -/
def State.hartMove (s : State) : Auto :=
  match s.hart.run with
  | .waitTb .. => .tbwait
  | .barrier => .barrier
  | .ending => .barrier
  | .watch _ true => .wake
  | .watch _ false => .timeout
  | _ => .hart

/-- Which step comes next: what must finish first, a trap that is due, the stores; then the units, the peel engine, the
scheduler, the records and the hart, each first in one of five steps. -/
def State.auto (s : State) : Auto :=
  if s.hart.trigger then .rollback
  else if s.pkg.saving then .saved
  else if s.hart.orphan.isSome && s.canOrphan && s.atBoundary then .orphan
  else if s.hart.arrayError.isSome && s.canOrphan && s.atBoundary then .arrayTrap
  else if s.departHead.isSome then .store
  else if s.pkg.freezing && !s.stopping then .freeze
  else
    let moves := [s.unitMove, s.peelMove, s.schedMove, s.recordMove, some s.hartMove]
    ((moves.drop (s.tick % 5) ++ moves.take (s.tick % 5)).findSome? id).getD .hart

/-! ### Events (log 2). -/

/-- An event of the package or of the outside: a row of the opcode table without an encoding. ILLEGAL_INSTRUCTION is the
hart's own, at a fetched word. -/
def isEvent : Instr → Bool
  | .lineFill .. => true
  | .ownerRecall .. => true
  | .homeRead .. => true
  | .homeAcquireRead .. => true
  | .homeOwnership .. => true
  | .homeAtomic .. => true
  | .homeWriteBack .. => true
  | .sliceRaceSweep .. => true
  | .hbmScrub .. => true
  | .peelElement .. => true
  | .reservationRequest .. => true
  | .reservationAnswer .. => true
  | .putFirstFlit .. => true
  | .putContinuationFlit .. => true
  | .putStatus .. => true
  | .barrierArrival .. => true
  | .queuePop .. => true
  | .agingTick .. => true
  | .laneGrant .. => true
  | .resume .. => true
  | .hypothesisFree .. => true
  | .ringRecordWrite .. => true
  | .qtailWrite .. => true
  | .fansReplay .. => true
  | .fansUnresolved .. => true
  | .ctxkill .. => true
  | .biasToHost .. => true
  | .biasToDevice .. => true
  | .hostCxlMemRequest .. => true
  | .hostSnoop .. => true
  | .hostRegisterWrite .. => true
  | .attestationRequest .. => true
  | .peerRead .. => true
  | .peerWrite .. => true
  | .peerReadReply .. => true
  | .flitReceive .. => true
  | .nkResendTimeout .. => true
  | .replayTimeout .. => true
  | .ackIdleFlit .. => true
  | .laneFail .. => true
  | .retrainSuccess .. => true
  | .linkLost .. => true
  | .newSession .. => true
  | .selch .. => true
  | .wrch .. => true
  | .halt .. => true
  | .go .. => true
  | .armbrk .. => true
  | .rstcore .. => true
  | .rstport .. => true
  | .dbgauth .. => true
  | .coreReset .. => true
  | .coreResetComplete .. => true
  | .corePowerGate .. => true
  | .panDiscardNotice .. => true
  | .peerWriteRefusal .. => true
  | .faultRecordPost => true
  | .storeDepart => true
  | .horizonBroadcast => true
  | .coreRaceSweep => true
  | .idleWake => true
  | .idleTimeout => true
  | .kneaderSlot => true
  | .arrayDataErrorTrap => true
  | .frameKstep => true
  | .peelOpStart => true
  | .tbwaitAnswer => true
  | .barrierRelease => true
  | .preemption => true
  | .gangSaved => true
  | .orphanTrap => true
  | .hartStateError => true
  | .rollbackComplete => true
  | .biasFlipComplete => true
  | .frz => true
  | .freezeComplete => true
  | .adapterHoldTimeout => true
  | .frzh => true
  | .thaw => true
  | .rdch => true
  | .rstpkg => true
  | .stat => true
  | .bypass => true
  | .packageReset => true
  | .thermalWarning => true
  | .thermalLimit => true
  | .powerLimit => true
  | .thermalResetTimer => true
  | .rodTreeComplete => true
  | _ => false

/-- An event that acts while the clocks of the package stand (23:R385 to R390, R392, R395, R396). -/
def actsFrozen : Instr → Bool
  | .qtailWrite .. => true
  | .hostCxlMemRequest .. => true
  | .adapterHoldTimeout => true
  | .frz => true
  | .frzh => true
  | .thaw => true
  | .selch .. => true
  | .rdch => true
  | .wrch .. => true
  | .halt .. => true
  | .go .. => true
  | .armbrk .. => true
  | .dbgauth .. => true
  | .stat => true
  | .bypass => true
  | .rstpkg => true
  | .packageReset => true
  | .thermalWarning => true
  | .thermalLimit => true
  | .powerLimit => true
  | .thermalResetTimer => true
  | .attestationRequest .. => true
  | .newSession .. => true
  | _ => false

/-! ### The first step of a program (log 40). -/

/-- A TLB entry that maps the page of an address, executable and readable, to the HBM page of the same number. -/
def placedEntry (ctx : BitVec 8) (pc : Addr) : TlbEntry :=
  { ctx := ctx, va := pc.toNat / 4096, bits := 12, pa := pc.toNat / 4096 % 2 ^ 27, mt := 0, r := true, w := false, x := true,
    sysp := false, cnt := false, leaf := 0, dirty := false }

/-- DPA of a placed word. -/
def placedAt (pc : Addr) : Nat := pc.toNat / 4096 % 2 ^ 27 * 4096 + pc.toNat % 4096

/-- The word w stands where the hart fetches next, and the hart runs: what a loader and the start of a task do
(12:R259, R264). -/
def State.place (s : State) (w : IWord) : State :=
  let a := placedAt s.hart.pc
  let e := placedEntry s.hart.ctxid s.hart.pc
  { hart := { s.hart with run := .running, halted := false, trigger := false, orphan := none, arrayError := none,
                          stale := [], hyp := 0, hypdepth := 0 }
    core := { s.core with tlb := e :: s.core.tlb, tlb1 := e :: s.core.tlb1, units := [], inReset := false, meshFault := false
                          lines := s.core.lines.filter (fun l => l.line != a / 64)
                          l1i := s.core.l1i.filter (fun x => x.1 != a / 64) }
    pkg := { (s.pkg.writeNat a 4 w.toNat) with
      memPoison := natSetPut s.pkg.memPoison (a / 8) false
      memHard := natSetPut s.pkg.memHard (a / 8) false
      homes := sparseSet none s.pkg.homes (a / 64) none
      frozen := false, freezing := false, hard := false }
    turns := [.hart]
    tick := s.tick }

end Sys2Proof.Machine
end

