-- ==== Sys2Proof/Machine/Step.lean ====
section
/-! DEFINITION. Machine/Step.lean: one step of the machine: the turn that plain data of the state names, or without one
the step that State.auto chooses (log 2). -/

namespace Sys2Proof.Machine

/-- Execute a decoded word. -/
def runOp (o : Op) (s : State) : Result :=
  match o with
  | .instr i => exec i s
  | .hint h => execHint h s
  | .mtsRow .mode a => execMtsMode a s
  | .mtsRow .vl a => execMtsVl a s
  | .mtsRow .vstart a => execMtsVstart a s
  | .mtsRow .fcr a => execMtsFcr a s
  | .mtsRow .ltime a => execMtsLtime a s
  | .mtsRow .benchchk a => execMtsBenchchk a s
  | .mtsRow .chkctl a => execMtsChkctl a s

/-- Execute a fetched word (02:R38, R40). -/
def runWord (w : IWord) (s : State) : Result :=
  match decodeWord w with
  | .ok o => runOp o s
  | .error _ => execIllegalInstruction w s

/-- The hart fetches and executes the instruction at PC, when it may (02:R32, R40). -/
def hartStep (s : State) : Result :=
  if s.hartReady then
    match s.fetch with
    | .word w s => runWord w s
    | .stop s => .next s
  else .next s

/-- A step that the machine takes by itself. -/
def autoStep (a : Auto) (s : State) : Result :=
  match a with
  | .rollback => execRollbackComplete s
  | .saved => execGangSaved s
  | .freeze => execFreezeComplete s
  | .orphan => execOrphanTrap s
  | .arrayTrap => execArrayDataErrorTrap s
  | .store => execStoreDepart s
  | .kneader => execKneaderSlot s
  | .rodTree => execRodTreeComplete s
  | .frame => execFrameKstep s
  | .peelStart => execPeelOpStart s
  | .peelElement k => execPeelElement k (.own none none) s
  | .tbwait => execTbwaitAnswer s
  | .barrier => execBarrierRelease s
  | .wake => execIdleWake s
  | .timeout => execIdleTimeout s
  | .faultPost => execFaultRecordPost s
  | .ring r => execRingRecordWrite r s
  | .pop k => execQueuePop k s
  | .grant g => execLaneGrant g s
  | .preempt => execPreemption s
  | .resume w => execResume w s
  | .free h => execHypothesisFree h s
  | .hart => hartStep s

/-- The state as a turn begins: the turn taken off, and, unless the clocks stand, the clock further on and what the ports had on their
lanes on its way (23:R387). -/
def State.beginTurn (s : State) : State :=
  { s with
    pkg := if s.pkg.frozen then s.pkg else s.pkg.quietLanes
    turns := s.turns.drop 1
    tick := if s.pkg.frozen then s.tick else s.tick + 1 }

/-- One turn: the hart's, an event's, a hart's of another core, or an error; nothing but what acts on a frozen package happens to
one. -/
def runTurn (t : Turn) (s : State) : Result :=
  match t with
  | .hart => if s.pkg.frozen then .next s else hartStep s
  | .other a => .next (if s.pkg.frozen then s else s.otherAct a)
  | .error e => .next (if s.pkg.frozen then s else s.hwError e)
  | .event i => if !isEvent i || (s.pkg.frozen && !actsFrozen i) then .next s else exec i s

/-- One step of the machine. -/
def step (s : State) : Host.Outcome State Fault Refusal :=
  match s.turns with
  | t :: _ => runTurn t s.beginTurn
  | [] => if s.pkg.frozen then .next s else autoStep s.auto s.beginTurn

/-- The instruction word of the table's numbering stands where step fetches next, and the next turn is the hart's. -/
def State.withFetchWord (s : State) (nbits w : Nat) : State := s.place (BitVec.ofNat 32 (w % 2 ^ nbits))

end Sys2Proof.Machine
end

