-- ==== Sys2Proof/Safety.lean ====
section
/-! DEFINITION. Safety.lean: what holds of every state that a run of the machine reaches. -/

namespace Sys2Proof.Machine

/-- Memory stands in its canonical form. -/
def State.MemWf (s : State) : Prop := Memory.wf s.pkg.mem = true

/-- Bits [1:0] of PC are zero (02:R32). -/
def State.PcAligned (s : State) : Prop := s.hart.pc.extractLsb' 0 2 = 0#2

/-- The grant names as many ways as it counts, way 0 not among them (02:R52, 12:R263). -/
def State.GrantWf (s : State) : Prop :=
  popcount8 s.hart.lanesWays = s.hart.lanesW.toNat ∧ s.hart.lanesWays.getLsbD 0 = false

/-- What every step keeps, the grant but for a scan write. -/
structure State.Inv (s : State) : Prop where
  mem : s.MemWf
  pc : s.PcAligned
  grant : s.GrantWf

/-- The other maps of the state stand in canonical form. -/
structure State.Canonical (s : State) : Prop where
  bench : sparseWf (0 : Byte) s.core.bench = true
  invalid : sparseWf false s.core.benchInvalid = true
  engine : sparseWf false s.core.benchEngine = true
  vrows : sparseWf 0#32 s.core.vrows = true
  prows : sparseWf 0#4 s.core.prows = true
  cells : sparseWf 0#64 s.core.cells = true
  chans : sparseWf Chan.zero s.core.chans = true
  homes : sparseWf none s.pkg.homes = true
  hyps : sparseWf HypEntry.free s.pkg.hyps = true
  races : sparseWf RaceRec.empty s.pkg.races = true
  rhead : sparseWf 0#64 s.pkg.rhead = true
  rtail : sparseWf 0#64 s.pkg.rtail = true
  hostBias : sparseWf false s.pkg.hostBias = true
  memPoison : sparseWf false s.pkg.memPoison = true
  counters : sparseWf Counter.zero s.pkg.counters = true
  areas : sparseWf Area.none s.pkg.areas = true

/-- The next turn is an authenticated scan write, which may put anything into the registers (23:R385, R386). -/
def State.scans (s : State) : Prop :=
  ∃ image rest, s.turns = .event (.wrch image) :: rest ∧ s.pkg.auth = true

end Sys2Proof.Machine
end

