-- ==== Sys2Proof/WellFormed.lean ====
section
/-! DEFINITION. WellFormed.lean: which terms of Instr are instructions: the operand values that no encoding admits are
ruled out (02:R36, R38 and the rule named at each check). Events take any argument. -/

namespace Sys2Proof

/-- The kind is vector-immediate. -/
def VSrc.isImmediate : VSrc → Bool
  | .imm _ => true
  | .vec _ => false
  | .scal _ => false

/-- The kind is vector-vector. -/
def VSrc.isVector : VSrc → Bool
  | .vec _ => true
  | .scal _ => false
  | .imm _ => false

/-- vmv: kind 0b00 has vb = 0, the other kinds va = 0 (R117). -/
def VSrc.moves (y : VSrc) (a : VReg) : Bool :=
  match y with
  | .vec b => b = 0#4
  | .scal _ => a = 0#4
  | .imm _ => a = 0#4

/-- An even register other than g0 (R238). -/
def evenNonzero (g : GReg) : Bool := !g.getLsbD 0 && g != 0#5

/-- The registers whose mts is no row of its own in the opcode table (R314). -/
def SysReg.plainMts : SysReg → Bool
  | .mode => false
  | .vl => false
  | .vstart => false
  | .fcr => false
  | .ltime => false
  | .benchchk => false
  | .chkctl => false
  | _ => true

/-- The term is an instruction: its operands have an encoding. Rules: ald and ast R219, fence R222, gred R276, mts R314,
vmv R117, vclip R116, float kinds R118 and R124, vloop R128, slides and vbcast R131, vinsr R131, peel pairs R238,
mmo.st R157. -/
def Instr.wellFormed : Instr → Bool
  | .add _ _ _ => true
  | .sub _ _ _ => true
  | .addw _ _ _ => true
  | .subw _ _ _ => true
  | .and_ _ _ _ => true
  | .or_ _ _ _ => true
  | .xor_ _ _ _ => true
  | .andn _ _ _ => true
  | .orn _ _ _ => true
  | .sll _ _ _ => true
  | .srl _ _ _ => true
  | .sra _ _ _ => true
  | .rol _ _ _ => true
  | .ror _ _ _ => true
  | .slt _ _ _ => true
  | .sltu _ _ _ => true
  | .min_ _ _ _ => true
  | .max_ _ _ _ => true
  | .minu _ _ _ => true
  | .maxu _ _ _ => true
  | .clz _ _ => true
  | .ctz _ _ => true
  | .popc _ _ => true
  | .sextB _ _ => true
  | .sextH _ _ => true
  | .sextW _ _ => true
  | .zextB _ _ => true
  | .zextH _ _ => true
  | .zextW _ _ => true
  | .addi _ _ _ => true
  | .andi _ _ _ => true
  | .ori _ _ _ => true
  | .xori _ _ _ => true
  | .slti _ _ _ => true
  | .sltiu _ _ _ => true
  | .slli _ _ _ => true
  | .srli _ _ _ => true
  | .srai _ _ _ => true
  | .rori _ _ _ => true
  | .ldhi _ _ => true
  | .pcrel _ _ => true
  | .mul _ _ _ => true
  | .mulh _ _ _ => true
  | .mulhu _ _ _ => true
  | .mulhsu _ _ _ => true
  | .mulw _ _ _ => true
  | .div _ _ _ => true
  | .divu _ _ _ => true
  | .rem _ _ _ => true
  | .remu _ _ _ => true
  | .fadd _ _ _ _ _ => true
  | .fsub _ _ _ _ _ => true
  | .fmul _ _ _ _ _ => true
  | .fdiv _ _ _ _ _ => true
  | .fsqrt _ _ _ _ => true
  | .fma _ _ _ _ _ => true
  | .fmin _ _ _ _ => true
  | .fmax _ _ _ _ => true
  | .feq _ _ _ _ => true
  | .flt _ _ _ _ => true
  | .fle _ _ _ _ => true
  | .fclass _ _ _ => true
  | .fcvtIf _ _ _ _ _ => true
  | .fcvtFi _ _ _ _ _ => true
  | .fcvtFf _ _ _ _ _ => true
  | .ldb _ _ _ => true
  | .ldh _ _ _ => true
  | .ldw _ _ _ => true
  | .ldd _ _ _ => true
  | .ldbu _ _ _ => true
  | .ldhu _ _ _ => true
  | .ldwu _ _ _ => true
  | .stb _ _ _ => true
  | .sth _ _ _ => true
  | .stw _ _ _ => true
  | .std _ _ _ => true
  | .beq _ _ _ => true
  | .bne _ _ _ => true
  | .blt _ _ _ => true
  | .bge _ _ _ => true
  | .bltu _ _ _ => true
  | .bgeu _ _ _ => true
  | .jal _ _ => true
  | .jalr _ _ _ => true
  | .ald _ _ o _ _ => o = .rlx || o = .acq
  | .ast _ _ o _ _ => o = .rlx || o = .rel
  | .amoadd _ _ _ _ _ _ => true
  | .amoswap _ _ _ _ _ _ => true
  | .amoand _ _ _ _ _ _ => true
  | .amoor _ _ _ _ _ _ => true
  | .amoxor _ _ _ _ _ _ => true
  | .amomin _ _ _ _ _ _ => true
  | .amomax _ _ _ _ _ _ => true
  | .amominu _ _ _ _ _ _ => true
  | .amomaxu _ _ _ _ _ _ => true
  | .cas _ _ _ _ _ _ => true
  | .fence _ o => o != .rlx
  | .gbar => true
  | .gred _ _ op rm => if op = .faddD then rm != .rsr else rm = .rne
  | .mfs _ _ => true
  | .mts r _ => r.plainMts
  | .mtsMode _ => true
  | .mtsVl _ => true
  | .mtsVstart _ => true
  | .mtsFcr _ => true
  | .mtsLtime _ => true
  | .mtsBenchchk _ => true
  | .mtsChkctl _ => true
  | .svc _ => true
  | .brk _ => true
  | .eret => true
  | .idle _ => true
  | .ifence => true
  | .tlbiVa _ _ _ => true
  | .tlbiCtx _ _ => true
  | .tlbiAll _ => true
  | .tend => true
  | .spawn _ _ => true
  | .qput _ _ => true
  | .join _ _ => true
  | .gmode _ => true
  | .vsetl _ _ => true
  | .wconvArray _ _ => true
  | .wconvBench _ _ => true
  | .wrel _ _ => true
  | .vadd _ _ _ => true
  | .vsub _ _ _ => true
  | .vrsub _ _ _ => true
  | .vmul _ _ _ => true
  | .vmulh _ _ _ => true
  | .vmacc _ _ _ => true
  | .vnmsac _ _ _ => true
  | .vdiv _ _ _ => true
  | .vdivu _ _ _ => true
  | .vrem _ _ _ => true
  | .vmin _ _ _ => true
  | .vmax _ _ _ => true
  | .vminu _ _ _ => true
  | .vmaxu _ _ _ => true
  | .vand _ _ _ => true
  | .vor _ _ _ => true
  | .vxor _ _ _ => true
  | .vandn _ _ _ => true
  | .vsll _ _ _ => true
  | .vsrl _ _ _ => true
  | .vsra _ _ _ => true
  | .vabs _ _ => true
  | .vabsd _ _ _ => true
  | .vmerge _ _ _ => true
  | .vmv _ a y => y.moves a
  | .vid _ => true
  | .vclip _ _ y => !y.isVector
  | .vfadd _ _ y => !y.isImmediate
  | .vfsub _ _ y => !y.isImmediate
  | .vfmul _ _ y => !y.isImmediate
  | .vfma _ _ y => !y.isImmediate
  | .vfnma _ _ y => !y.isImmediate
  | .vfdiv _ _ y => !y.isImmediate
  | .vfsqrt _ _ => true
  | .vfmin _ _ y => !y.isImmediate
  | .vfmax _ _ y => !y.isImmediate
  | .vfsgn _ _ _ => true
  | .vfsgnN _ _ _ => true
  | .vfsgnX _ _ _ => true
  | .vfexp2 _ _ => true
  | .vflog2 _ _ => true
  | .vfrecip _ _ => true
  | .vfrsqrt _ _ => true
  | .vcvt _ _ _ => true
  | .vcmpeq _ _ _ => true
  | .vcmpne _ _ _ => true
  | .vcmplt _ _ _ => true
  | .vcmple _ _ _ => true
  | .vcmpltu _ _ _ => true
  | .vcmpleu _ _ _ => true
  | .vfcmpeq _ _ y => !y.isImmediate
  | .vfcmplt _ _ y => !y.isImmediate
  | .vfcmple _ _ y => !y.isImmediate
  | .vfcmpun _ _ y => !y.isImmediate
  | .pand _ _ _ => true
  | .por _ _ _ => true
  | .pxor _ _ _ => true
  | .pandn _ _ _ => true
  | .pmov _ _ => true
  | .psbf _ _ _ => true
  | .psif _ _ _ => true
  | .pfirst _ _ _ => true
  | .pcount _ _ => true
  | .pset _ _ => true
  | .vloop p _ off => p != 0#5 && off != 0#9
  | .vredsum _ _ => true
  | .vredosum _ _ => true
  | .vredmin _ _ => true
  | .vredmax _ _ => true
  | .vredbitAnd _ _ => true
  | .vredbitOr _ _ => true
  | .vredbitXor _ _ => true
  | .vscan _ _ => true
  | .vslideup _ _ y => !y.isVector
  | .vslidedn _ _ y => !y.isVector
  | .vslide1up _ _ _ => true
  | .vslide1dn _ _ _ => true
  | .vpick _ _ _ => true
  | .vsqueeze _ _ _ => true
  | .vbcast _ _ y => !y.isVector
  | .vextr _ _ => true
  | .vinsr _ g => !g.getLsbD 0
  | .vld _ _ => true
  | .vlds _ _ _ => true
  | .vldx _ _ _ => true
  | .vldff _ _ _ => true
  | .vst _ _ => true
  | .vsts _ _ _ => true
  | .vstx _ _ _ => true
  | .pcopy _ _ _ => true
  | .pcopyX _ _ _ _ => true
  | .ownE _ _ => true
  | .ownH _ _ _ => true
  | .tbi _ _ => true
  | .tbarr _ => true
  | .tbwait _ _ _ => true
  | .tbtest _ _ => true
  | .rkdef _ _ b => evenNonzero b
  | .prsv _ _ _ => true
  | .prel _ _ => true
  | .pstat d _ => !d.getLsbD 0
  | .bput d _ _ => evenNonzero d
  | .bputF d _ _ => evenNonzero d
  | .vput d _ _ => evenNonzero d
  | .vputF d _ _ => evenNonzero d
  | .rrot _ _ _ => true
  | .fcfg _ => true
  | .fzero => true
  | .fzeroC => true
  | .mmo _ _ _ => true
  | .mmoSp _ _ _ _ => true
  | .mmoSt _ _ _ v s24 _ => s24 || v = 0#4
  | .frc => true
  | .fdrain _ _ => true
  | .fdrainNcs _ => true
  | .fdrainZ _ _ => true
  | .fdrainZNcs _ => true
  | .frowadd _ => true
  | .frowaddC _ => true
  | .fsave _ => true
  | .fload _ => true
  | .hopen _ => true
  | .henter _ _ => true
  | .hleave _ => true
  | .hresConfirm _ _ => true
  | .hresRefute _ _ => true
  | .hstat _ _ => true
  | .cflush _ => true
  | .cclean _ => true
  | .cinv _ => true
  | .lock _ _ => true
  | .unlock _ _ => true
  | .bclr _ _ => true
  | .hint _ => true
  | .illegalInstruction _ => true
  | .faultRecordPost => true
  | .storeDepart => true
  | .lineFill _ => true
  | .ownerRecall _ => true
  | .homeRead _ _ => true
  | .homeAcquireRead _ _ => true
  | .homeOwnership _ _ => true
  | .homeAtomic _ _ _ _ _ _ => true
  | .homeWriteBack _ _ _ => true
  | .horizonBroadcast => true
  | .sliceRaceSweep _ => true
  | .coreRaceSweep => true
  | .hbmScrub _ => true
  | .idleWake => true
  | .idleTimeout => true
  | .kneaderSlot => true
  | .arrayDataErrorTrap => true
  | .frameKstep => true
  | .peelOpStart => true
  | .peelElement _ _ => true
  | .tbwaitAnswer => true
  | .reservationRequest _ => true
  | .reservationAnswer _ => true
  | .putFirstFlit _ => true
  | .putContinuationFlit _ => true
  | .putStatus _ => true
  | .barrierArrival _ => true
  | .barrierRelease => true
  | .queuePop _ => true
  | .agingTick _ => true
  | .laneGrant _ => true
  | .preemption => true
  | .gangSaved => true
  | .resume _ => true
  | .orphanTrap => true
  | .hypothesisFree _ => true
  | .hartStateError => true
  | .rollbackComplete => true
  | .ringRecordWrite _ => true
  | .qtailWrite _ _ => true
  | .fansReplay _ => true
  | .fansUnresolved _ => true
  | .ctxkill _ => true
  | .biasToHost _ => true
  | .biasToDevice _ => true
  | .biasFlipComplete => true
  | .hostCxlMemRequest _ _ => true
  | .hostSnoop _ _ => true
  | .hostRegisterWrite _ _ => true
  | .attestationRequest _ => true
  | .peerRead _ _ _ => true
  | .peerWrite _ _ _ => true
  | .peerReadReply _ _ => true
  | .flitReceive _ _ => true
  | .nkResendTimeout _ => true
  | .replayTimeout _ => true
  | .ackIdleFlit _ => true
  | .laneFail _ _ => true
  | .retrainSuccess _ => true
  | .linkLost _ => true
  | .newSession _ _ => true
  | .frz => true
  | .freezeComplete => true
  | .adapterHoldTimeout => true
  | .frzh => true
  | .thaw => true
  | .selch _ => true
  | .rdch => true
  | .wrch _ => true
  | .halt _ => true
  | .go _ => true
  | .armbrk _ _ => true
  | .rstcore _ => true
  | .rstport _ => true
  | .rstpkg => true
  | .dbgauth _ => true
  | .stat => true
  | .bypass => true
  | .packageReset => true
  | .coreReset _ => true
  | .coreResetComplete _ => true
  | .corePowerGate _ => true
  | .thermalWarning => true
  | .thermalLimit => true
  | .powerLimit => true
  | .thermalResetTimer => true
  | .rodTreeComplete => true
  | .panDiscardNotice _ => true
  | .peerWriteRefusal _ => true

end Sys2Proof
end

