-- ==== Sys2Proof/Certificates/Slice0/Obligations.lean ====
section
/-! DEFINITION. Certificates/Slice0/Obligations.lean: the statements for the provers, and the shapes they share: how
an instruction completes, what its result is, what it leaves unchanged. -/

namespace Sys2Proof.Claims
open Machine

/-! ### Shapes. -/

/-- The instruction completes: exec answers a next state with the property. -/
def Completes (i : Instr) (s : State) (P : State → Prop) : Prop := ∃ t, Machine.exec i s = .next t ∧ P t

/-- Every byte of memory, as its owner holds it, and every byte of bench reads as before. -/
structure SameBytes (s t : State) : Prop where
  memory : ∀ a, t.peek a 1 = s.peek a 1
  bench : ∀ o, t.core.benchNat o 1 = s.core.benchNat o 1

/-- The general registers after g(d) was written: g0 reads zero and discards writes (02:R41). -/
def RegsAfter (d : GReg) (v : Word) (s t : State) : Prop :=
  ∀ r, t.g r = if r = 0#5 then 0 else if r = d then v else s.g r

/-- Every general register reads as before. -/
def SameRegs (s t : State) : Prop := ∀ r, t.g r = s.g r

/-- Retired and continued at PC + 4 (02:R32, 16:R311). -/
structure Retired (s t : State) : Prop where
  pc : t.hart.pc = s.hart.pc + 4#48
  instret : t.hart.instret = s.hart.instret + 1#64

/-- Of the hart, only g registers, PC and INSTRET may differ: every flag, mode, special and exception register is
unchanged. -/
def OnlyRegs (s t : State) : Prop :=
  t.hart = { s.hart with g := t.hart.g, pc := t.hart.pc, instret := t.hart.instret }

/-- Nothing outside the hart is changed, bytes of memory and bench included. -/
structure OutsideSame (s t : State) : Prop where
  core : t.core = s.core
  pkg : t.pkg = s.pkg
  bytes : SameBytes s t

/-- An instruction whose one effect is g(d) = v. -/
structure Writes (d : GReg) (v : Word) (s t : State) : Prop where
  regs : RegsAfter d v s t
  retired : Retired s t
  hart : OnlyRegs s t
  outside : OutsideSame s t

/-- i completes with g(d) = v and changes nothing else. -/
def Gives (i : Instr) (d : GReg) (v : Word) (s : State) : Prop := Completes i s (Writes d v s)

/-- 1 or 0. -/
def bit (p : Prop) [Decidable p] : Word := if p then 1 else 0

/-- The signed and the unsigned value of a register. -/
def sv (x : Word) : Int := x.toInt
def uv (x : Word) : Nat := x.toNat

/-- Leading and trailing zero bits, 64 for zero, and one bits. -/
def leadingZeros (x : Word) : Nat := ((List.range 64).find? (fun i => x.getLsbD (63 - i))).getD 64
def trailingZeros (x : Word) : Nat := ((List.range 64).find? (fun i => x.getLsbD i)).getD 64
def oneBits (x : Word) : Nat := ((List.range 64).filter (fun i => x.getLsbD i)).length

/-- The quotient and the remainder of 04:R87, with its fixed results. -/
def quotS (a b : Int) : Int :=
  if b = 0 then (if 0 < a then 2 ^ 63 - 1 else if a < 0 then -2 ^ 63 else 0)
  else if a = -2 ^ 63 ∧ b = -1 then 2 ^ 63 - 1 else a.tdiv b
def remS (a b : Int) : Int :=
  if b = 0 then a else if a = -2 ^ 63 ∧ b = -1 then 0 else a - a.tdiv b * b
def quotU (a b : Nat) : Nat := if b = 0 then 2 ^ 64 - 1 else a / b
def remU (a b : Nat) : Nat := if b = 0 then a else a - a / b * b

/-! ### Floating point (04:R89). -/

/-- VFSR after the flags of a result are ORed in, and SRCOUNT counted when FRM is RSR. -/
def FloatRegs (rm : Rm) (fl : Flags) (s t : State) : Prop :=
  t.hart = { s.hart with
    g := t.hart.g, pc := t.hart.pc, instret := t.hart.instret
    vfsr := s.hart.vfsr ||| fl
    srcount := if rm = .rsr then s.hart.srcount + 1#64 else s.hart.srcount }

/-- A float instruction completes with the result and flags r. -/
def GivesFloat (i : Instr) (d : GReg) (rm : Rm) (r : FRes) (s : State) : Prop :=
  Completes i s (fun t => RegsAfter d (BitVec.ofNat 64 r.bits) s t ∧ Retired s t ∧ FloatRegs rm r.fl s t ∧ OutsideSame s t)

/-- round(x) into the format f with the seed and count as they stand and index 0. -/
def rounded (f : FFmt) (rm : Rm) (s : State) (x : XRes) : FRes :=
  (fmtOf f).round { rm := rm, sat := false, seed := s.hart.srseed, count := s.hart.srcount } 0 x

/-- A converted integer as a register holds it: an i32 result is sign-extended (04:R92). -/
def kindResult (k : IntKind) (r : FRes) : FRes :=
  match k with
  | .i32 => { r with bits := ((BitVec.ofNat 32 r.bits).signExtend 64).toNat }
  | _ => r

/-- The pattern of an operand, bits [w-1:0] of its register, and its value. -/
def pattern (f : FFmt) (s : State) (r : GReg) : Nat := uv (s.g r) % 2 ^ (fmtOf f).width
def value (f : FFmt) (s : State) (r : GReg) : FVal := (fmtOf f).decode (pattern f s r)

/-- Neither operand is a NaN. -/
abbrev ordered (x y : FVal) : Prop := x.isNan = false ∧ y.isNan = false
/-- An operand is a signalling NaN. -/
abbrev signalling (x y : FVal) : Prop := x = .nan true ∨ y = .nan true

/-! ### Bench accesses (08:R173, R174). -/

/-- n bytes of bench at window offset o, named by the address ea, may be accessed by the hart (10:R213, checks 1 to
5): the address lies in the window and is aligned, the bytes lie in BENCH ways of the context and belong to HART. -/
structure BenchAccess (s : State) (ea : Word) (o n : Nat) : Prop where
  address : uv ea = 0xFF00_0000_0000 + o
  window : o < 2 ^ 32
  aligned : uv ea % n = 0
  ways : s.core.benchIn s.hart.ctxid o n = true
  owner : (granules o n).any s.core.engineOwned = false

/-- No store that has been queued, or checked by a vector store, touches the bytes. -/
def NoStoreOver (s : State) (t : Target) (n : Nat) : Prop :=
  (∀ q ∈ s.core.storeQ, q.overlaps t n = false) ∧ ∀ q ∈ s.core.checkedStores, q.overlaps t n = false

/-- The hart's own access need not wait: no unit still has a memory access to check, and no earlier store touches the
bytes. -/
structure NoWait (s : State) (t : Target) (n : Nat) : Prop where
  units : s.memBusy = false
  stores : NoStoreOver s t n

/-- The bench bytes are valid, not poisoned, and no injected error lies in them. -/
structure CleanBench (s : State) (o n : Nat) : Prop where
  valid : s.core.invalidWords o n = []
  poison : s.core.benchPoisoned o n = false
  soft : (natRange (o / 8) ((o + n + 7) / 8 - o / 8)).any (natSetHas s.core.softBench) = false

/-- What a load of n bytes at ea needs to read bench bytes at o. -/
structure BenchLoad (s : State) (ea : Word) (o n : Nat) : Prop where
  access : BenchAccess s ea o n
  nowait : NoWait s (.bench o) n
  clean : CleanBench s o n

/-- The hart stores outside any hypothesis, and the store queue has room. -/
structure BenchStore (s : State) (ea : Word) (o n : Nat) : Prop where
  access : BenchAccess s ea o n
  units : s.memBusy = false
  room : s.core.storeQ.length < 16
  root : s.hart.hyp = 0#12
  super : s.core.captured = none

/-- The store is appended to the store queue; nothing else but PC and INSTRET changes, no byte yet. -/
structure Queued (q : QStore) (s t : State) : Prop where
  regs : SameRegs s t
  retired : Retired s t
  hart : OnlyRegs s t
  core : t.core = { s.core with storeQ := s.core.storeQ ++ [q] }
  pkg : t.pkg = s.pkg
  bytes : SameBytes s t

/-- The n low bytes of a register as a queued store. -/
def benchStoreOf (s : State) (o n : Nat) (v : Word) (a : Option (MemOrd × Scope)) : QStore :=
  { target := .bench o, size := n, value := BitVec.ofNat 64 (uv v % 2 ^ (8 * n)), hyp := 0#12, atomic := a,
    pc := s.hart.pc }

/-- Bench after n bytes of v were written at o: those bytes read as v, every other byte as before, and the words are
valid. -/
structure BenchWritten (s t : State) (o n v : Nat) : Prop where
  here : t.core.benchNat o n = v % 2 ^ (8 * n)
  elsewhere : ∀ o', (o' < o / 8 * 8 ∨ (o + n + 7) / 8 * 8 ≤ o') → t.core.benchNat o' 1 = s.core.benchNat o' 1
  memory : ∀ a, t.peek a 1 = s.peek a 1
  valid : t.core.invalidWords o n = []

/-- The bytes beside the written ones, in words that were valid, are as before. -/
def BesideKept (s t : State) (o n : Nat) : Prop :=
  ∀ o', (o' < o ∨ o + n ≤ o') → natSetHas s.core.benchInvalid (o' / 8) = false →
    t.core.benchNat o' 1 = s.core.benchNat o' 1

/-- Bench bytes and the invalid set stand in canonical form. -/
def BenchWf (s : State) : Prop :=
  sparseWf (0 : Byte) s.core.bench = true ∧ sparseWf false s.core.benchInvalid = true

/-- No bit of an armed injection strikes. -/
def NoInjection (s : State) : Prop := s.core.injArm = false

/-- No superstep is captured, so a bench write copies no granule. -/
structure NoSuperstep (s : State) : Prop where
  captured : s.core.captured = none
  shadows : s.core.shadows = []

/-! ### Atomics on bench (10:R218, R220). -/

/-- The new value of an operation of 10:R218 on n bytes, none where it writes nothing. -/
def amoTable (op : AmoOp) (n old v cmp : Nat) : Option Nat :=
  let m := 2 ^ (8 * n)
  let so := (BitVec.ofNat (8 * n) old).toInt
  let svv := (BitVec.ofNat (8 * n) v).toInt
  match op with
  | .ald => none
  | .ast => some (v % m)
  | .add => some ((old + v) % m)
  | .swap => some (v % m)
  | .and => some (old &&& v % m)
  | .or => some (old ||| v % m)
  | .xor => some (old ^^^ v % m)
  | .min => some (if so ≤ svv then old else v % m)
  | .max => some (if svv ≤ so then old else v % m)
  | .minu => some (if old ≤ v % m then old else v % m)
  | .maxu => some (if v % m ≤ old then old else v % m)
  | .cas => if old = cmp % m then some (v % m) else none

/-- An atomic of n bytes at bench offset o completes: g(d) is the old value, sign-extended; the bytes hold the new
value or are as before. -/
def GivesBenchAmo (i : Instr) (op : AmoOp) (d : GReg) (v cmp : Word) (o n : Nat) (s : State) : Prop :=
  Completes i s (fun t =>
    RegsAfter d ((BitVec.ofNat (8 * n) (s.core.benchNat o n)).signExtend 64) s t ∧ Retired s t ∧ OnlyRegs s t ∧
    t.pkg = s.pkg ∧ BesideKept s t o n ∧
    t.core.benchNat o n = (amoTable op n (s.core.benchNat o n) (uv v) (uv cmp)).getD (s.core.benchNat o n))

/-- What a bench atomic needs. -/
structure BenchAmo (s : State) (ea : Word) (o n : Nat) : Prop where
  load : BenchLoad s ea o n
  root : s.hart.hyp = 0#12
  super : NoSuperstep s
  released : s.quiet = true
  acked : s.pkg.peerWritesOut = false
  wf : BenchWf s
  inj : NoInjection s


/-! ### Traps (16:R308 to R310). -/

/-- The next trap enters the handler: no handler runs and TRAPVEC is not 0. -/
structure HandlerReady (s : State) : Prop where
  th : s.hart.th = false
  vec : s.hart.trapvec ≠ 0#48

/-- A trap was taken: the cause, value and address recorded, TH set, PC at TRAPVEC, and nothing else changed but the
count of retired instructions; what the hart had asked of a peer package is forgotten. -/
structure Trapped (cause : BitVec 8) (val : Word) (tpc : Addr) (s t : State) : Prop where
  hart : t.hart = { s.hart with
    trapcause := cause, trapval := val, trappc := tpc, th := true, pc := s.hart.trapvec &&& 0xFFFF_FFFF_FFFC#48,
    run := .running, arrival := none, instret := t.hart.instret }
  core : t.core = s.core
  pkg : t.pkg = { s.pkg with peerWaits := s.pkg.peerWaits.filter (fun w => decide (w.who ≠ .hart)) }
  bytes : SameBytes s t
  regs : SameRegs s t

/-- i raises a trap at its own address, with nothing of its effect done. -/
def Traps (i : Instr) (cause : BitVec 8) (val : Word) (s : State) : Prop :=
  HandlerReady s → Completes i s (fun t => Trapped cause val s.hart.pc s t ∧ t.hart.instret = s.hart.instret)

/-! ### System registers (16:R312 to R314). -/

/-- The registers that an mts without a row of its own writes, with what it stores. -/
def plainRegs : List (SysReg × (Word → Word)) :=
  [(.rds, id), (.vfsr, (· &&& 0x1F#64)), (.vdirty, (· &&& 0xFFFF#64)), (.pdirty, (· &&& 0xFFFF_FFFE#64)), (.srseed, id),
   (.srcount, id), (.fsr, (· &&& 0x1F#64)), (.lease, (· &&& 0xFF#64)), (.trapcause, (· &&& 0xFF#64)),
   (.trappc, (· &&& 0xFFFF_FFFF_FFFF#64)), (.trapval, id), (.trapvec, (· &&& 0xFFFF_FFFF_FFFC#64))]

/-- The registers that an mts leaves alone. -/
def readOnlyRegs : List SysReg :=
  [.hartid, .gangid, .gidx, .gsize, .taskrec, .ctxid, .prio, .cycle, .instret, .vlmax, .vlceil, .lanes, .syncst, .hyp,
   .hypdepth, .lockq, .lockuse, .waymode, .ptroot, .csaptr, .savepc, .erraddr, .rbcount]

/-- Registers that are a field of the hart, with their value. -/
def fieldRegs (h : Hart) : List (SysReg × Word) :=
  [(.gangid, h.gangid.zeroExtend 64), (.gidx, h.gidx.zeroExtend 64), (.gsize, h.gsize.zeroExtend 64),
   (.taskrec, h.taskrec.zeroExtend 64), (.ctxid, h.ctxid.zeroExtend 64), (.prio, h.prio.zeroExtend 64),
   (.instret, h.instret), (.mode, h.mode.zeroExtend 64), (.vl, h.vl.zeroExtend 64), (.vlmax, h.vlmax.zeroExtend 64),
   (.vlceil, h.vlceil.zeroExtend 64), (.rds, h.rds), (.vfsr, h.vfsr.zeroExtend 64), (.vdirty, h.vdirty.zeroExtend 64),
   (.pdirty, h.pdirty.zeroExtend 64), (.srseed, h.srseed), (.srcount, h.srcount), (.fsr, h.fsr.zeroExtend 64),
   (.ltime, h.ltime.zeroExtend 64), (.lease, h.lease.zeroExtend 64), (.syncst, h.syncst.zeroExtend 64),
   (.hyp, h.hyp.zeroExtend 64), (.hypdepth, h.hypdepth.zeroExtend 64), (.lockq, h.lockq.zeroExtend 64),
   (.trapcause, h.trapcause.zeroExtend 64), (.trappc, h.trappc.zeroExtend 64), (.trapval, h.trapval),
   (.trapvec, h.trapvec.zeroExtend 64), (.ptroot, h.ptroot.zeroExtend 64), (.csaptr, h.csaptr.zeroExtend 64),
   (.savepc, h.savepc.zeroExtend 64)]

/-- Registers of several fields: each part of their word, and nothing beside them. -/
def partRegs (s : State) : List (SysReg × Word) :=
  let h := s.hart
  let b (x : Bool) : BitVec 1 := if x then 1#1 else 0#1
  [(.hartid, s.core.num.zeroExtend 64),
   (.vstart, (0#32 ++ b h.vstartArm ++ 0#11 ++ h.vstartIdx)),
   (.lanes, (0#52 ++ h.lanesW ++ h.lanesWays)),
   (.fcr, (0#46 ++ h.fcrShape ++ h.fcrFe)),
   (.benchchk, (h.wcount ++ 0#30 ++ h.act)),
   (.status, (0#59 ++ b h.racechk ++ b h.snap ++ b h.maint ++ b h.sys ++ b h.th)),
   (.chkctl, (0#56 ++ s.core.inj ++ 0#3 ++ b s.core.injArm)),
   (.errstat, if h.sys then (s.core.cecnt ++ 0#4 ++ s.core.uesrc ++ s.core.uectx ++ 0#15 ++ b s.core.ovf ++ 0#14 ++ b s.core.ue
      ++ b s.core.ce) else 0#64),
   (.rbcount, if h.snap then (h.rbTotal ++ 0#30 ++ h.rbCur) else 0#64)]

/-! ### Array, rod-tree, vector memory and frame instructions: issue (05:R93, R97, R101, R104, R107 to R110). -/

def allTypes : List ElemType :=
  [.i8, .u8, .i16, .u16, .i32, .u32, .i64, .u64, .e4m3, .e5m2, .e2m1, .bf16, .fp16, .fp32, .fp64, .e8m0]
/-- ET 0 to 7, and of them those below 64 bits. -/
def intTypes : List ElemType := [.i8, .u8, .i16, .u16, .i32, .u32, .i64, .u64]
def narrowInts : List ElemType := [.i8, .u8, .i16, .u16, .i32, .u32]
/-- ET 11 to 14, 11 to 13, 11 and 12, and 8, 9, 11 to 14. -/
def floats14 : List ElemType := [.bf16, .fp16, .fp32, .fp64]
def floats13 : List ElemType := [.bf16, .fp16, .fp32]
def floats12 : List ElemType := [.bf16, .fp16]
def floatsAll : List ElemType := [.e4m3, .e5m2, .bf16, .fp16, .fp32, .fp64]

/-- MODE.ET. -/
def et (s : State) : ElemType := modeEt s.hart.mode

/-- The vector registers of a first and a second operand, and the sampled general register of the second. -/
def vecs (a : VReg) : VSrc → List VReg
  | .vec b => [a, b]
  | _ => [a]
def scalar (s : State) : VSrc → Word
  | .scal g => s.g g
  | _ => 0

/-- At width 64 every register named is even (05:R108). -/
def Even (w : Nat) (ks : List VReg) : Prop := w = 64 → ∀ k ∈ ks, k.toNat % 2 = 0

/-- The registers of a field at a width; at 64 a pair. -/
def fieldOf (k : VReg) (w : Nat) : List Nat := if w = 64 then [k.toNat, k.toNat + 1] else [k.toNat]

/-- No register of d at width w is one of ks at width v (05:R110). -/
def Apart (d : VReg) (w : Nat) (ks : List VReg) (v : Nat) : Prop := ∀ k ∈ ks, ∀ r ∈ fieldOf d w, r ∉ fieldOf k v

/-- The start index (05:R101). -/
def startIndex (s : State) : Nat := if s.hart.vstartArm = true then s.hart.vstartIdx.toNat else 0

/-- VLMAX at a width (02:R52). -/
def vlmaxFor (s : State) (w : Nat) : Nat :=
  if w = 64 then 16384 * s.hart.lanesW.toNat else 16384 * s.hart.lanesW.toNat * 32 / w

/-- The instruction entered its unit's queue as the last entry u: the hart has retired it, VSTART reads 0 when it is an
instruction that reads VSTART, the destinations are marked dirty when an element lies in range, SRCOUNT counts a
rounding under RSR, and nothing else has changed but what the core remembers for the instructions in progress: pages walked
and invalid words counted. -/
structure Issued (u : UnitOp) (clears : Bool) (vd : BitVec 16) (pd : BitVec 32) (rounds : Bool) (s t : State) : Prop where
  core : t.core = { s.core with units := s.core.units ++ [u], walks := t.core.walks, counted := t.core.counted }
  hart : t.hart = { s.hart with
    pc := s.hart.pc + 4#48
    instret := s.hart.instret + 1#64
    vstartArm := if clears = true then false else s.hart.vstartArm
    vstartIdx := if clears = true then 0#20 else s.hart.vstartIdx
    vdirty := if u.vstart < s.hart.vl.toNat then s.hart.vdirty ||| vd else s.hart.vdirty
    pdirty := if u.vstart < s.hart.vl.toNat then s.hart.pdirty ||| pd else s.hart.pdirty
    srcount := if rounds = true ∧ modeRm s.hart.mode = .rsr then s.hart.srcount + 1#64 else s.hart.srcount }
  pkg : t.pkg = s.pkg
  bytes : SameBytes s t

/-- The entries in the queue that i enters: the frame's, or the kneader's with the rod tree's and the vector memory's. -/
def queued (i : Instr) (s : State) : Nat := s.core.units.countP (fun u => isFrame u.instr = isFrame i)

/-- An entry that a resume refilled stands in the queue that i enters. -/
def refilled (i : Instr) (s : State) : Prop := ∃ v ∈ s.core.units, isFrame v.instr = isFrame i ∧ v.restored = true

/-- i issues where ok holds: into its queue as u when the queue holds fewer than four, none of which a resume refilled, and no
queued peel operation has still to read a destination; it waits while the queue is full, while a refilled entry is not
complete (13:R285), and while a peel operation has still to read a destination (11:R231). -/
def IssuesInto (ok : Prop) (i : Instr) (u : UnitOp) (clears : Bool) (vd : BitVec 16) (pd : BitVec 32) (rounds : Bool)
    (s : State) : Prop :=
  (ok → queued i s < 4 → ¬refilled i s → s.peelReads &&& vd = 0#16 → Completes i s (Issued u clears vd pd rounds s)) ∧
  (ok → (4 ≤ queued i s ∨ refilled i s ∨ s.peelReads &&& vd ≠ 0#16) → Machine.exec i s = .next s)

/-- i raises the illegal-instruction trap with its word unless ok holds (05:R93). -/
def IllegalUnless (ok : Prop) (i : Instr) (s : State) : Prop :=
  ¬ok → Traps i 0x01#8 (((encode i).getD 0).zeroExtend 64) s

/-- Both. -/
def Issues (ok : Prop) (i : Instr) (u : UnitOp) (clears : Bool) (vd : BitVec 16) (pd : BitVec 32) (rounds : Bool)
    (s : State) : Prop :=
  IssuesInto ok i u clears vd pd rounds s ∧ IllegalUnless ok i s

/-- A guarded instruction of opcodes 0x26 to 0x28 with the destination d at width w. -/
def IssuesV (ok : Prop) (i : Instr) (d : VReg) (w : Nat) (y : VSrc) (rounds : Bool) (s : State) : Prop :=
  Issues (s.arrayReady = true ∧ ok) i (s.sample i (startIndex s) 0 0 0 (scalar s y)) true (dirtyOf d w) 0 rounds s

/-- One without a wide form. -/
def IssuesPlain (i : Instr) (types : List ElemType) (d a : VReg) (y : VSrc) (rounds : Bool) (s : State) : Prop :=
  IssuesV (et s ∈ types ∧ Even (et s).sew (d :: vecs a y)) i d (et s).sew y rounds s

/-- One that MODE.WD widens for the types in wides (05:R109). -/
def IssuesWide (i : Instr) (types wides : List ElemType) (d a : VReg) (y : VSrc) (rounds : Bool) (s : State) : Prop :=
  (modeWd s.hart.mode = false → IssuesPlain i types d a y rounds s) ∧
  (modeWd s.hart.mode = true →
    (et s ∉ wides → Traps i 0x01#8 (((encode i).getD 0).zeroExtend 64) s) ∧
    (et s ∈ wides → ∀ t, (et s).wide = some t → IssuesV
      (Even t.sew [d] ∧ Even (et s).sew (vecs a y) ∧ Apart d t.sew (vecs a y) (et s).sew ∧
        s.hart.vl.toNat ≤ vlmaxFor s t.sew) i d t.sew y rounds s))

/-! ### Array instructions: slots of the kneader (05:R98, R100, R106, R112). -/

/-- The lane grant names as many ways as it counts, at least one, and the register rows stand in canonical form. -/
structure LanesWf (s : State) : Prop where
  grant : s.hart.grantWays.length = s.hart.lanesW.toNat
  some : 0 < s.hart.lanesW.toNat
  rows : sparseWf 0#32 s.core.vrows = true
  preds : sparseWf 0#4 s.core.prows = true

/-- The oldest entry u of the units' queues is not stopped: no rollback trigger stands, and no injected, parity or lane
error can strike. -/
structure UnitReady (u : UnitOp) (rest : List UnitOp) (s : State) : Prop where
  product : s.core.productFault = none
  cells : s.core.badCells = []
  head : s.core.units = u :: rest
  trigger : s.hart.trigger = false
  parity : s.core.badRows = []
  column : s.core.columnFault = false
  inject : s.core.injArm = false

/-- L, and the end of the slot that holds element n, at most VL. -/
def lanesOf (s : State) : Nat := 16384 * s.hart.lanesW.toNat
def slotTop (s : State) (u : UnitOp) : Nat := min u.vl ((u.vstart / lanesOf s + 1) * lanesOf s)

/-- Element e lies in the slot that the entry runs next. -/
abbrev InSlot (s : State) (u : UnitOp) (e : Nat) : Prop := u.vstart ≤ e ∧ e < slotTop s u

/-- The entry after its slot: gone when the slot was its last, else at the next slot. -/
def unitsAfter (s : State) (u : UnitOp) (rest : List UnitOp) : List UnitOp :=
  let next := (u.vstart / lanesOf s + 1) * lanesOf s
  if u.vl ≤ next then rest else { u with started := true, vstart := next } :: rest

/-- Rows of registers other than those of d at width w are as before. -/
def OtherRowsSame (d : VReg) (w : Nat) (s t : State) : Prop :=
  ∀ k < 16, k ∉ fieldOf d w → ∀ x < 2 ^ 17,
    sparseGet 0#32 t.core.vrows (k * 2 ^ 17 + x) = sparseGet 0#32 s.core.vrows (k * 2 ^ 17 + x)

/-- One slot wrote v e to the active elements of d at width w and idle e to the inactive ones, ORed the flags of the
active ones into VFSR, and changed nothing else. -/
structure SlotDone (u : UnitOp) (rest : List UnitOp) (d : VReg) (w : Nat) (v : Nat → FRes) (idle : Nat → Nat)
    (s t : State) : Prop where
  active : ∀ e, InSlot s u e → s.active u.mode e = true → t.vGet d w e = (v e).bits % 2 ^ w
  inactive : ∀ e, InSlot s u e → s.active u.mode e = false → t.vGet d w e = idle e
  outside : ∀ e, e < vlmaxFor s w → ¬InSlot s u e → t.vGet d w e = s.vGet d w e
  others : OtherRowsSame d w s t
  queue : t.core.units = unitsAfter s u rest
  hart : t.hart = { s.hart with vfsr :=
    (((List.range u.vl).filter (fun e => decide (InSlot s u e) && s.active u.mode e)).foldl (fun n e => n ||| (v e).fl)
      s.hart.vfsr) }
  core : t.core = { s.core with vrows := t.core.vrows, units := t.core.units, arrayCount := t.core.arrayCount }
  pkg : t.pkg = s.pkg
  bytes : SameBytes s t

/-- KNEADER_SLOT completes a slot of the oldest entry, when that is i with elements left. -/
def SlotGives (i : Instr) (d : VReg) (w : Nat) (v : Nat → FRes) (idle : Nat → Nat) (u : UnitOp) (rest : List UnitOp)
    (s : State) : Prop :=
  u.instr = i → Completes .kneaderSlot s (SlotDone u rest d w v idle s)

/-- Bits as a number under a signedness; a number wrapped to, or clamped into, a width. -/
def asInt (signed : Bool) (w b : Nat) : Int := if signed = true then (BitVec.ofNat w b).toInt else ((b % 2 ^ w : Nat) : Int)
def wrapped (w : Nat) (v : Int) : Nat := (v % 2 ^ w).toNat
def clamped (signed : Bool) (w : Nat) (v : Int) : Nat :=
  wrapped w (if signed = true then max (-2 ^ (w - 1)) (min v (2 ^ (w - 1) - 1)) else max 0 (min v (2 ^ w - 1)))

/-- b(e) as bits: an element, a sampled register's low bits, or a sign-extended immediate; a shift amount is not
sign-extended (05:R106). -/
def second (s : State) (u : UnitOp) (y : VSrc) (shift : Bool) (e : Nat) : Nat :=
  match y with
  | .vec b => s.vGet b (modeEt u.mode).sew e
  | .scal _ => uv u.gb % 2 ^ (modeEt u.mode).sew
  | .imm i => if shift = true then i.toNat else wrapped (modeEt u.mode).sew i.toInt

/-- A result without flags. -/
def plainBits (v : Nat → Nat) (e : Nat) : FRes := { bits := v e, fl := 0#5 }

/-- Elements fit the destination. -/
structure SlotFits (u : UnitOp) (w : Nat) (s : State) : Prop where
  some : u.vstart < u.vl
  fits : u.vl ≤ vlmaxFor s w

/-- The slot of a compare or vloop, on predicate p: bits in the slot take b, every other bit of p, and every other
predicate, is as before. -/
structure PredBits (p : PReg) (inside : Nat → Prop) (b : Nat → Bool) (s t : State) : Prop where
  within : p ≠ 0#5 → ∀ e, inside e → t.pGet p e = b e
  beyond : ∀ e, e < vlmaxFor s 8 → ¬inside e → t.pGet p e = s.pGet p e
  others : ∀ q, q ≠ p → ∀ e, e < vlmaxFor s 8 → t.pGet q e = s.pGet q e

/-- Element f stands before e in the segment of e, b marking where segments start (05:R127). -/
def SegBefore (s : State) (b : PReg) (f e : Nat) : Prop :=
  f < e ∧ ∀ k, f < k → k ≤ e → ¬(b ≠ 0#5 ∧ s.pGet b k = true)

/-- The register result of a unit: g(d) = v, the entry gone, nothing else of the hart changed but VFSR flags. -/
structure UnitResult (rest : List UnitOp) (d : GReg) (v : Word) (fl : Flags) (s t : State) : Prop where
  regs : RegsAfter d v s t
  hart : t.hart = { s.hart with g := t.hart.g, vfsr := s.hart.vfsr ||| fl }
  core : t.core = { s.core with units := rest, arrayCount := t.core.arrayCount }
  pkg : t.pkg = s.pkg
  bytes : SameBytes s t

/-! ### Rod tree (06:R129 to R138). -/

/-- The active elements below VL, in ascending order. -/
def actives (s : State) (u : UnitOp) : List Nat := (List.range u.vl).filter (fun e => s.active u.mode e)

/-- A shuffle wrote v e to the elements of d that p selects below VL; nothing else changed, and the entry is gone. -/
structure Shuffled (u : UnitOp) (rest : List UnitOp) (d : VReg) (p : Nat → Prop) (v : Nat → Nat) (s t : State) : Prop where
  written : ∀ e, e < u.vl → p e → t.vGet d (modeEt u.mode).sew e = v e % 2 ^ (modeEt u.mode).sew
  kept : ∀ e, e < vlmaxFor s (modeEt u.mode).sew → ¬(e < u.vl ∧ p e) →
    t.vGet d (modeEt u.mode).sew e = s.vGet d (modeEt u.mode).sew e
  others : OtherRowsSame d (modeEt u.mode).sew s t
  hart : t.hart = { s.hart with g := t.hart.g }
  core : t.core = { s.core with vrows := t.core.vrows, units := rest, arrayCount := t.core.arrayCount }
  pkg : t.pkg = s.pkg
  bytes : SameBytes s t

/-- Node (j, i) of the index tree over the given leaves, with the flags of its nodes: two children are combined by f at
the node's level and index, one passes unchanged, none leaves it empty (06:R129). -/
def treeNode (f : Nat → Nat → Nat → Nat × Flags) (leaf : Nat → Option Nat) : Nat → Nat → Option Nat × Flags
  | 0, i => (leaf i, 0#5)
  | j + 1, i =>
    let l := treeNode f leaf j (2 * i)
    let r := treeNode f leaf j (2 * i + 1)
    let fl := l.2 ||| r.2
    match l.1, r.1 with
    | some a, some b => let c := f ((j + 1) * 2 ^ 20 + i) a b; (some c.1, fl ||| c.2)
    | some a, none => (some a, fl)
    | none, b => (b, fl)

/-- D of 06:R129. -/
def treeDepth (vl : Nat) : Nat := if vl ≤ 1 then 0 else (vl - 1).log2 + 1

/-- The root combined with the initial value, which alone remains when no leaf is filled (06:R133). -/
def treeResult (f : Nat → Nat → Nat → Nat × Flags) (leaf : Nat → Option Nat) (vl init : Nat) : Nat × Flags :=
  let r := treeNode f leaf (treeDepth vl) 0
  match r.1 with
  | none => (init, r.2)
  | some v => let c := f (31 * 2 ^ 20) init v; (c.1, r.2 ||| c.2)

/-- The fold of 06:R136 for element e: the nodes of the blocks that the binary digits of e + 1 name, the highest first, an empty one
passed over; f combines at draw index 2^25 + e. -/
def scanFold (f : Nat → Nat → Nat → Nat × Flags) (leaf : Nat → Option Nat) (e : Nat) : Option Nat × Flags :=
  ((List.range 20).reverse.filter (fun k => (e + 1).testBit k)).foldl (fun acc k =>
    match acc.1, (treeNode f leaf k (2 * ((e + 1) / 2 ^ (k + 1)))).1 with
    | none, x => (x, acc.2)
    | some x, none => (some x, acc.2)
    | some x, some y => (some (f (2 ^ 25 + e) x y).1, acc.2 ||| (f (2 ^ 25 + e) x y).2)) (none, 0#5)

/-- round(x + y) in a format, with its flags, at a draw index. -/
def addRounded (f : Fmt) (r : Rnd) (idx x y : Nat) : Nat × Flags :=
  let v := f.round r idx (exactAdd r.rm (f.decode x) (f.decode y))
  (v.bits, v.fl)

/-! ### Vector memory (10:R225, R226). -/

/-- Every active element of the slot lies in bench bytes that may be read: element e at offset o e. -/
structure SlotReads (u : UnitOp) (addr : Nat → Word) (o : Nat → Nat) (n : Nat) (s : State) : Prop where
  access : ∀ e, InSlot s u e → s.active u.mode e = true → BenchAccess s (addr e) (o e) n
  clean : ∀ e, InSlot s u e → s.active u.mode e = true → CleanBench s (o e) n
  stores : s.core.storeQ = []
  checked : s.core.checkedStores = []

/-- Every active element of a vector store that is left lies in bench bytes that may be written: element e at offset o e. -/
structure SlotWrites (u : UnitOp) (addr : Nat → Word) (o : Nat → Nat) (n : Nat) (s : State) : Prop where
  access : ∀ e, u.vstart ≤ e → e < u.vl → s.active u.mode e = true → BenchAccess s (addr e) (o e) n
  stores : s.core.storeQ = []
  unchecked : u.checked = none
  root : u.hyp = 0#12
  alone : NoSuperstep s
  wf : BenchWf s

/-- k is the only active element of [VSTART, top). -/
def OnlyElem (u : UnitOp) (top k : Nat) (s : State) : Prop :=
  u.vstart ≤ k ∧ k < top ∧ ∀ e, u.vstart ≤ e → e < top → (s.active u.mode e = true ↔ e = k)

/-! ### The frame (07:R140 to R164). -/

/-- Cell and channels n of 0 to 4095. -/
def cellOf (s : State) (n : Nat) : BitVec 64 := sparseGet 0#64 s.core.cells n
def chanOf (s : State) (n : Nat) : Chan := sparseGet Chan.zero s.core.chans n

/-- A contribution added to a cell: a poisoned or pinned cell stays, a sum beyond 2^63 - 1 in magnitude pins (07:R141). -/
def cellPlus (c : BitVec 64) (v : Int) : BitVec 64 :=
  if c = 0x8000000000000000#64 ∨ c = 0x7FFFFFFFFFFFFFFF#64 ∨ c = 0x8000000000000001#64 then c
  else BitVec.ofInt 64 (max (-(2 ^ 63 - 1)) (min (c.toInt + v) (2 ^ 63 - 1)))

/-- The integer between -8388480 and 8388479 with the residues of the channels modulo 255, 256 and 257 (03:R79). -/
def Represents (x : Chan) (v : Int) : Prop :=
  -8388480 ≤ v ∧ v < 8388480 ∧ v % 255 = x.a.toNat % 255 ∧ v % 256 = x.b.toNat ∧ v % 257 = x.c.toNat % 257

/-- A pattern of an operand type under a scale byte as sign, magnitude and exponent, none where it poisons the cell; byte 127 is
the factor 1 (07:R149, R151, R152). -/
def factor (t : ElemType) (bits sc : Nat) : Option (Bool × Nat × Int) :=
  if sc = 255 then none
  else match t.value bits with
    | .fin neg m e => some (neg, m, e + (sc : Int) - 127)
    | _ => none

/-- The exact product of two factors. -/
def factorProduct (x y : Option (Bool × Nat × Int)) : Option (Bool × Nat × Int) :=
  match x, y with
  | some (sa, ma, ea), some (sb, mb, eb) => some (sa != sb, ma * mb, ea + eb)
  | _, _ => none

/-- What fdrain writes for element n of a cell's total c: the total at the frame exponent FE times the column scale, converted once;
a poisoned cell gives 0 or the canonical NaN (07:R161). -/
def drained (u : UnitOp) (n : Nat) (c : BitVec 64) (scale : FVal) : Nat :=
  let m := modeEt u.mode
  if c = 0x8000000000000000#64 then (match m.fmt with | some f => f.nanBits | none => 0)
  else
    let x := (exactProd (.fin (decide (c.toInt < 0)) c.toInt.natAbs u.fe.toInt) scale).1
    match m.fmt with
    | some f => (f.round u.rnd n x.exact).bits
    | none => (toInt u.rnd n x m.sew m.signed).bits

/-- A frame event ends the oldest entry or moves it on; the registers, VFSR and memory stay as they are. -/
structure FrameDone (queue : List UnitOp) (s t : State) : Prop where
  queue : t.core.units = queue
  hart : t.hart = { s.hart with fsr := t.hart.fsr }
  rows : t.core.vrows = s.core.vrows
  pkg : t.pkg = s.pkg
  bytes : SameBytes s t

/-- R and C of the sampled shape. -/
def frameRows (u : UnitOp) : Nat := if u.shape = 0#2 then 64 else if u.shape = 1#2 then 128 else 32
def frameCols (u : UnitOp) : Nat := if u.shape = 0#2 then 64 else if u.shape = 1#2 then 32 else 128
def frameP (u : UnitOp) : Nat := max (frameRows u) (frameCols u)

/-! ### Tasks (12:R257 to R276). -/

/-- Dword k of a record. -/
def recWord (ws : List Word) (k : Nat) : Word := ws.getD k 0

/-- A record is well formed for a context with or without system permission (12:R258). -/
structure GoodRecord (ws : List Word) (ctx : BitVec 8) (sys : Bool) (s : State) : Prop where
  entry : (recWord ws 0).extractLsb' 0 2 = 0#2
  w : 1 ≤ ((recWord ws 3).extractLsb' 12 4).toNat ∧ ((recWord ws 3).extractLsb' 12 4).toNat ≤ 7
  gang : 1 ≤ ((recWord ws 3).extractLsb' 16 10).toNat ∧ ((recWord ws 3).extractLsb' 16 10).toNat ≤ 512
  vlceil : 1 ≤ ((recWord ws 3).extractLsb' 32 20).toNat ∧
    ((recWord ws 3).extractLsb' 32 20).toNat ≤ 65536 * ((recWord ws 3).extractLsb' 12 4).toNat
  csa : (recWord ws 4).extractLsb' 0 48 ≠ 0#48 ∧ (recWord ws 4).extractLsb' 0 12 = 0#12
  prio : (recWord ws 3).extractLsb' 8 3 = 7#3 → sys = true
  context : (recWord ws 3).extractLsb' 0 8 = ctx
  hyp : (recWord ws 3).extractLsb' 52 12 = 0#12 ∨
    ((s.pkg.hypEntry ((recWord ws 3).extractLsb' 52 12)).st = .open ∧
      (s.pkg.hypEntry ((recWord ws 3).extractLsb' 52 12)).owner = ctx ∧ (recWord ws 5).getLsbD 0 = false)

/-- Queue q of the context's tasks is a device queue that admits the context and is enabled. -/
def Admits (q : BitVec 12) (s : State) : Prop :=
  (s.queueDesc q).host = false ∧ ((s.queueDesc q).all = true ∨ (s.queueDesc q).admitted = s.hart.ctxid) ∧
    (s.queueDesc q).en = true

/-- The queue is full, the slots that supersteps have reserved counted (12:R273). -/
def FullQueue (q : BitVec 12) (s : State) : Prop :=
  (s.queueDesc q).n ≤ (s.queueDesc q).used + s.core.reserved.countP (fun r => r.queue = q) + 1

/-- The hart's earlier reads and writes have been performed: no store is queued, no unit has a memory access in progress. -/
def Settled (s : State) : Prop := s.quiet = true

/-- No error waits in the line's words at its home or on its way to the core (21:R357). -/
def Unspoilt (s : State) (line : Nat) : Prop :=
  (∀ e ∈ s.pkg.memSoft, e.1 / 8 ≠ line) ∧ (∀ e ∈ s.pkg.memHard, e.1 / 8 ≠ line) ∧ s.core.meshFault = false

/-- The line's hearth slice has room in every set for two lines more (08:R172). -/
def RoomInSlice (s : State) (line : Nat) : Prop := (s.pkg.sliceEntries (homeOf line)).length + 2 ≤ 16

/-- A record's word k without the bits that 12:R257 reserves. -/
def recKept (ws : List Word) (k : Nat) : Word :=
  recWord ws k &&& ([0xFFFF_FFFF_FFFF#64, -1#64, -1#64, 0xFFFF_FFFF_03FF_F7FF#64, 0xFFFF_FFFF_FFFF#64, 3#64, -1#64, 0#64].getD k 0)

/-- A 4-byte counter of device memory at dpa that no core owns, without an error, its slice with room for it. -/
structure HomeCounter (s : State) (dpa : Nat) : Prop where
  aligned : dpa % 64 = 0
  device : s.pkg.atAdapter (dpa / 64) = false
  owner : (s.pkg.home (dpa / 64)).owner = none
  poison : s.pkg.linePoison (dpa / 64) = 0#8
  unspoilt : Unspoilt s (dpa / 64)
  room : RoomInSlice s (dpa / 64)
  wf : s.MemWf

/-! ### Ways, lines and bench ranges (08:R166, R169, R178 to R186). -/

/-- Some way of the mask satisfies p. -/
def SomeWay (m : BitVec 8) (p : Fin 8 → Prop) : Prop := ∃ k : Fin 8, m.getLsbD k.val = true ∧ p k

/-- A way mask that no way instruction takes: high bits set, way 0 named, or empty. -/
def BadMask (v : Word) : Prop := 2 ^ 8 ≤ uv v ∨ v.getLsbD 0 = true ∨ v = 0#64

/-- A cache instruction retired: registers, PC and INSTRET as of any instruction; LTIME may rise with the horizon. -/
structure CacheDone (s t : State) : Prop where
  regs : SameRegs s t
  retired : Retired s t
  hart : t.hart = { s.hart with pc := t.hart.pc, instret := t.hart.instret, ltime := t.hart.ltime, maxRead := t.hart.maxRead }
  bench : ∀ o, t.core.benchNat o 1 = s.core.benchNat o 1

/-- The address names a byte of WB-device memory whose line the core holds as l, in the service regime, with no earlier
access of the hart outstanding. -/
structure HoldsLine (s : State) (ea : Word) (acc : FaultAccess) (dpa : Nat) (l : Line) : Prop where
  place : s.locate ea 1 acc = .ok (.mem dpa .wb false) s
  stores : NoStoreOver s (.mem (dpa / 64 * 64) .wb false) 64
  units : s.memBusy = false
  held : s.core.findLine (dpa / 64) 0#12 = some l
  service : s.hart.maint = false
  device : s.pkg.atAdapter (dpa / 64) = false
  wf : s.MemWf

/-! ### The peel engine (11:R231 to R254). -/

/-- The checks of an instruction, in their order: the first that fails is the trap it raises. -/
def TrapsInOrder (i : Instr) (s : State) : List (Prop × BitVec 8 × Word) → Prop
  | [] => True
  | (p, c, v) :: rest => (¬p → Traps i c v s) ∧ (p → TrapsInOrder i s rest)

/-- Every check holds. -/
def AllHold : List (Prop × BitVec 8 × Word) → Prop
  | [] => True
  | (p, _, _) :: rest => p ∧ AllHold rest

/-- An address of the bench window, its offset, and n bytes there in BENCH ways of the context. -/
def InWindow (a : Word) : Prop := 0xFF00_0000_0000 ≤ uv a ∧ uv a < 0xFF01_0000_0000
def offsetOf (a : Word) : Nat := uv a - 0xFF00_0000_0000
def BenchRange (s : State) (a : Word) (n : Nat) : Prop :=
  InWindow a ∧ (n = 0 ∨ s.core.benchIn s.hart.ctxid (offsetOf a) n = true)

/-- Elements from the start index to VL, their size, and an operand's first element (11:R232). -/
def peelElems (s : State) : Nat := s.hart.vl.toNat - startIndex s
def peelWidth (s : State) : Nat := (et s).sew / 8
def firstAt (s : State) (a : Word) : Word := a + BitVec.ofNat 64 (startIndex s * peelWidth s)

/-- A peel instruction retired and cleared VSTART; memory and every other register are as before. -/
structure PeelRetired (s t : State) : Prop where
  hart : t.hart = { s.hart with
    g := t.hart.g, pc := s.hart.pc + 4#48, instret := s.hart.instret + 1#64, vstartArm := false, vstartIdx := 0#20 }
  memory : ∀ a, t.peek a 1 = s.peek a 1

/-- The operation as it joins the queue. -/
structure PeelQueued (o : PeelOp) (i : Instr) (gd gd1 ga gb : Word) (s : State) : Prop where
  instr : o.instr = i
  at_ : o.pc = s.hart.pc
  mode : o.mode = s.hart.mode
  range : o.vl = s.hart.vl.toNat ∧ o.vstart = startIndex s ∧ o.count = peelElems s
  seeds : o.srseed = s.hart.srseed ∧ o.srcount = s.hart.srcount
  operands : o.gd = gd ∧ o.gd1 = gd1 ∧ o.ga = ga ∧ o.gb = gb
  base : o.base = (s.core.tbTrack (offsetOf gb)).base
  hyp : o.hyp = if s.hart.snap = true then s.hart.hyp else 0#12
  waiting : o.active = false ∧ o.sent = [] ∧ o.moved = [] ∧ o.gone = false ∧ o.parked = none ∧ o.out = false

/-- An operation issues once its checks hold: it joins the queue, its n elements are added to EP of the barrier at gb,
and no other byte changes; with sixteen operations in the queue, one that a resume brought back among them, or array work
before a vector operand, it waits. -/
def PeelIssues (i : Instr) (cs : List (Prop × BitVec 8 × Word)) (gd gd1 ga gb : Word) (vec : Bool) (n : Nat) (s : State) :
    Prop :=
  let b := offsetOf gb
  let resident := s.core.peel.countP (fun o => !o.out)
  let back := ∃ o ∈ s.core.peel, o.restored = true
  TrapsInOrder i s cs ∧
  (AllHold cs → (16 ≤ resident ∨ back ∨ (vec = true ∧ s.core.units ≠ [])) → Machine.exec i s = .next s) ∧
  (AllHold cs → resident < 16 → ¬back → (vec = true → s.core.units = []) → BenchWf s → NoSuperstep s →
    (0 < n ∨ (s.core.tb b).ap ≠ 0#16) → (s.core.tb b).ep.toNat + n < 2 ^ 32 →
    Completes i s (fun t => SameRegs s t ∧ PeelRetired s t ∧ t.pkg = s.pkg ∧ t.core.units = s.core.units ∧
      (∃ o, t.core.peel = s.core.peel ++ [o] ∧ PeelQueued o i gd gd1 ga gb s) ∧
      t.core.tb b = { s.core.tb b with ep := (s.core.tb b).ep + BitVec.ofNat 32 n } ∧
      (∀ x, (x < b / 8 * 8 ∨ (b + 23) / 8 * 8 ≤ x) → t.core.benchNat x 1 = s.core.benchNat x 1)))

/-- A peel instruction writes g(d) and changes nothing else but VSTART. -/
def PeelGives (i : Instr) (d : GReg) (v : Word) (s : State) : Prop :=
  Completes i s (fun t => RegsAfter d v s t ∧ PeelRetired s t ∧ t.core = s.core ∧ t.pkg = s.pkg)

/-- The status word of a barrier: LL, AP, EF, EC and PH (11:R243). -/
def tbStatus (t : Tb) : Word := t.ll ++ t.ap ++ 0#7 ++ (if t.ef = true then 1#1 else 0#1) ++ t.ec ++ t.ph

/-! ### Racks and puts (11:R244 to R254). -/

/-- A refusal word of a reservation. -/
def refused (n : Nat) : Word := BitVec.ofNat 64 (2 ^ 63 + n)

/-- The rack of the core, when it is of the running context, and pan v of it. -/
def rackPan (s : State) (v : Word) : Option Pan :=
  match s.core.rack with
  | some r => if r.ctx = s.hart.ctxid ∧ uv v < 64 then r.pans[uv v]? else none
  | none => none

/-- Pan i of the core's rack. -/
def panAt (s : State) (i : Nat) : Option Pan := s.core.rack.bind (fun r => r.pans[i]?)

/-- Bench offset of pan i and of its barrier. -/
def panBase (r : Rack) (i : Nat) : Nat := r.base + i * r.panSize
def panTb (r : Rack) (i : Nat) : Nat := r.tbs + 16 * i

/-- A flit of a put that its pan takes (11:R248, R249): the pan waits for or takes a put under this sequence, the put
fits the pan, its bytes lie in ENGINE granules, nothing of it is poisoned, and the pan lies apart from the barriers. -/
structure PanTakes (s : State) (r : Rack) (p : Pan) (f : PutFlit) : Prop where
  here : f.ref.core = s.core.num ∧ s.core.rack = some r ∧ r.pans[f.ref.pan.toNat]? = some p
  seq : p.seq = f.ref.seq
  fits : f.base + f.count ≤ r.panSize
  engine : (granules (panBase r f.ref.pan.toNat + f.base) f.count).all s.core.engineOwned = true
  clean : f.poison = [] ∧ s.core.inReset = false
  inside : f.data ≠ [] ∧ f.start + f.data.length ≤ f.count
  apart : panBase r f.ref.pan.toNat + r.panSize ≤ r.tbs ∨ r.tbs + 16 * r.pans.length ≤ panBase r f.ref.pan.toNat
  wide : r.panSize % 4096 = 0 ∧ r.base % 4096 = 0 ∧ r.tbs % 16 = 0
  wf : BenchWf s


/-! ### Homes (09:R203). -/

/-- A line of device memory that no core owns. -/
structure FreeLine (s : State) (line : Nat) : Prop where
  device : isDevice (line * 64) = true
  bias : s.pkg.atAdapter line = false
  owner : (s.pkg.home line).owner = none
  wf : s.MemWf

/-- And without an error, its slice with room for it. -/
structure CalmLine (s : State) (line : Nat) : Prop where
  free : FreeLine s line
  unspoilt : Unspoilt s line
  room : RoomInSlice s line

/-- A request of another core under the root that is not race-checked and not counted. -/
structure PlainRequest (s : State) (r : CoreRequest) : Prop where
  core : r.core ≠ s.core.num
  hyp : r.hyp = 0#12
  race : r.race = none
  count : r.count = none

/-- The timestamp lies within 2^12 of the horizon, so its home assigns it at once (09:R206). -/
def Near (s : State) (w : BitVec 16) : Prop := serBehind w s.pkg.horizon 0x1000 = false

/-- The home of the line now holds h; every other home is as before. -/
def HomeNow (line : Nat) (h : HomeLine) (s u : State) : Prop :=
  u.pkg.home line = h ∧ ∀ l, l ≠ line → u.pkg.home l = s.pkg.home l

/-- The core holds no line and no version, and way 0 is CACHE. -/
def EmptyCache (s : State) : Prop := s.core.lines = [] ∧ s.pkg.versions = [] ∧ (s.core.ways[0]).mode = .cache

/-- Only RUN of the hart may differ, and only by a wake of the line that an idle hart watches (16:R316). -/
def HartWoken (line : Nat) (s u : State) : Prop :=
  u.hart = { s.hart with run := u.hart.run } ∧
  (∀ hit, s.hart.run = .watch (some line) hit → u.hart.run = .watch (some line) true) ∧
  ((∀ hit, s.hart.run ≠ .watch (some line) hit) → u.hart.run = s.hart.run)

/-! ### The host, peers and ports (18:R339 to R352, 22:R376 to R382). -/

/-- Only the package changed, and of its bytes of memory none. -/
structure PkgOnly (s u : State) : Prop where
  hart : u.hart = s.hart
  core : u.core = s.core
  mem : u.pkg.mem = s.pkg.mem

/-- The bytes bs were written at dpa; every other byte of memory, as its owner holds it, and the registers are as before. -/
structure BytesAt (dpa : Nat) (bs : List Byte) (s u : State) : Prop where
  here : ∀ k (h : k < bs.length), u.peek (dpa + k) 1 = (bs[k]).toNat
  elsewhere : ∀ x, (x < dpa ∨ dpa + bs.length ≤ x) → u.peek x 1 = s.peek x 1
  regs : SameRegs s u
  bench : ∀ o, u.core.benchNat o 1 = s.core.benchNat o 1

/-- A write at the home of the byte at dpa meets nothing: the core holds no line and no version stands in the package, no core
owns the line, and no error waits in it. -/
structure LoneHome (s : State) (dpa : Nat) : Prop where
  lines : s.core.lines = []
  versions : s.pkg.versions = []
  owner : (s.pkg.home (dpa / 64)).owner = none
  unspoilt : Unspoilt s (dpa / 64)
  wf : s.MemWf

/-- A port that is up with room in its replay buffer and nothing waiting, in a package that is not to freeze. -/
def PortFree (s : State) (k : Port) : Prop :=
  s.pkg.freezing = false ∧ (s.pkg.port k).st = .up ∧ (s.pkg.port k).waiting = [] ∧ (s.pkg.port k).buffer.length < 1024

/-- One flit with this payload left over port k in its place in the sequence, with the ACK that was due; nothing else
changed. -/
def SentOver (k : Port) (dst : BitVec 12) (m : Payload) (s u : State) : Prop :=
  let f : SentFlit :=
    { seq := (s.pkg.port k).nextSeq, dpkg := dst, payload := m, times := 1, lands := none, ctx := 0, cookie := 0 }
  u.hart = s.hart ∧ u.core = s.core ∧ u.pkg.mem = s.pkg.mem ∧ (∀ j, j ≠ k → u.pkg.port j = s.pkg.port j) ∧
  u.pkg.port k = { s.pkg.port k with
    buffer := (s.pkg.port k).buffer ++ [f], nextSeq := (s.pkg.port k).nextSeq + 1#12, ackDue := false
    lanes := (s.pkg.port k).lanes ++ [s.pkg.wire k false f] }

/-- Of a core's chain only the hart, its queues and its error registers change: rows, bench, frame, lines and the package stay,
but for DBGW (23:R385). -/
structure OutsideRegs (s u : State) : Prop where
  pkg : u.pkg = { s.pkg with dbgw := true }
  run : u.hart.run = s.hart.run
  bench : u.core.bench = s.core.bench
  rows : u.core.vrows = s.core.vrows ∧ u.core.prows = s.core.prows
  frame : u.core.cells = s.core.cells ∧ u.core.chans = s.core.chans
  lines : u.core.lines = s.core.lines ∧ u.core.ways = s.core.ways

/-- The port's record became r; every other port, the hart and the core are as before. -/
def PortNow (k : Port) (r : PortRec) (s u : State) : Prop :=
  PkgOnly s u ∧ u.pkg.port k = r ∧ ∀ j, j ≠ k → u.pkg.port j = s.pkg.port j

/-- Nothing but the port itself depends on the link over port k: no put, pan, landing, reservation or request. -/
structure Unused (s : State) (k : Port) : Prop where
  peel : s.core.peel = []
  rack : s.core.rack = none
  landing : s.core.landing = []
  prsv : s.pkg.prsvOut = []
  saved : s.pkg.saved = []
  waits : s.pkg.peerWaits = []
  empty : (s.pkg.port k).buffer = [] ∧ (s.pkg.port k).waiting = []

/-- The lane group that a port retrains on after a lane of its group failed, none when none is left (22:R380). -/
def narrower (g : LaneGroup) (lane : Nat) : Option LaneGroup :=
  match g with
  | .all => some (if lane < 8 then .high8 else .low8)
  | .low8 => some (.quarter (if lane < 4 then 1#2 else 0#2))
  | .high8 => some (.quarter (if lane < 12 then 3#2 else 2#2))
  | .quarter _ => none

/-- The lane is one of the group. -/
def inGroup (g : LaneGroup) (lane : Nat) : Prop :=
  match g with
  | .all => True
  | .low8 => lane < 8
  | .high8 => 8 ≤ lane
  | .quarter q => lane / 4 = q.toNat
end Sys2Proof.Claims

open Sys2Proof Sys2Proof.Machine Sys2Proof.Claims
/-! ### Scalar instructions. -/

/-- The results of opcode 0x01 (04:R82), every row, and the frame of each: only g(d), PC and INSTRET change. -/
def Sys2Proof.Claims.IntegerRegisterResults : Prop :=
  ∀ (d a b : GReg) (s : State),
    let x := s.g a
    let y := s.g b
    let n := uv y % 64
    Gives (.add d a b) d (x + y) s ∧
    Gives (.sub d a b) d (x - y) s ∧
    Gives (.addw d a b) d (((x + y).setWidth 32).signExtend 64) s ∧
    Gives (.subw d a b) d (((x - y).setWidth 32).signExtend 64) s ∧
    Gives (.and_ d a b) d (x &&& y) s ∧
    Gives (.or_ d a b) d (x ||| y) s ∧
    Gives (.xor_ d a b) d (x ^^^ y) s ∧
    Gives (.andn d a b) d (x &&& ~~~y) s ∧
    Gives (.orn d a b) d (x ||| ~~~y) s ∧
    Gives (.sll d a b) d (x <<< n) s ∧
    Gives (.srl d a b) d (BitVec.ofNat 64 (uv x / 2 ^ n)) s ∧
    Gives (.sra d a b) d (BitVec.ofInt 64 (sv x / 2 ^ n)) s ∧
    Gives (.rol d a b) d (x.rotateLeft n) s ∧
    Gives (.ror d a b) d (x.rotateRight n) s ∧
    Gives (.slt d a b) d (bit (sv x < sv y)) s ∧
    Gives (.sltu d a b) d (bit (uv x < uv y)) s ∧
    Gives (.min_ d a b) d (BitVec.ofInt 64 (min (sv x) (sv y))) s ∧
    Gives (.max_ d a b) d (BitVec.ofInt 64 (max (sv x) (sv y))) s ∧
    Gives (.minu d a b) d (BitVec.ofNat 64 (min (uv x) (uv y))) s ∧
    Gives (.maxu d a b) d (BitVec.ofNat 64 (max (uv x) (uv y))) s ∧
    Gives (.clz d a) d (BitVec.ofNat 64 (leadingZeros x)) s ∧
    Gives (.ctz d a) d (BitVec.ofNat 64 (trailingZeros x)) s ∧
    Gives (.popc d a) d (BitVec.ofNat 64 (oneBits x)) s ∧
    Gives (.sextB d a) d ((x.setWidth 8).signExtend 64) s ∧
    Gives (.sextH d a) d ((x.setWidth 16).signExtend 64) s ∧
    Gives (.sextW d a) d ((x.setWidth 32).signExtend 64) s ∧
    Gives (.zextB d a) d (x &&& 0xFF#64) s ∧
    Gives (.zextH d a) d (x &&& 0xFFFF#64) s ∧
    Gives (.zextW d a) d (x &&& 0xFFFF_FFFF#64) s

/-- The results of the immediate instructions and of the two address instructions (04:R83 to R85), with their frame. -/
def Sys2Proof.Claims.ImmediateResults : Prop :=
  ∀ (d a : GReg) (imm : BitVec 16) (sh : BitVec 6) (u : BitVec 21) (s : State),
    let x := s.g a
    let i : Word := imm.signExtend 64
    let n := sh.toNat
    Gives (.addi d a imm) d (x + i) s ∧
    Gives (.andi d a imm) d (x &&& imm.zeroExtend 64) s ∧
    Gives (.ori d a imm) d (x ||| imm.zeroExtend 64) s ∧
    Gives (.xori d a imm) d (x ^^^ imm.zeroExtend 64) s ∧
    Gives (.slti d a imm) d (bit (sv x < imm.toInt)) s ∧
    Gives (.sltiu d a imm) d (bit (uv x < uv i)) s ∧
    Gives (.slli d a sh) d (x <<< n) s ∧
    Gives (.srli d a sh) d (BitVec.ofNat 64 (uv x / 2 ^ n)) s ∧
    Gives (.srai d a sh) d (BitVec.ofInt 64 (sv x / 2 ^ n)) s ∧
    Gives (.rori d a sh) d (x.rotateRight n) s ∧
    Gives (.ldhi d u) d (BitVec.ofInt 64 (u.toInt * 2 ^ 16)) s ∧
    Gives (.pcrel d u) d (BitVec.ofInt 64 (s.hart.pc.toNat + u.toInt * 2 ^ 12)) s

/-- The products of opcode 0x0B (04:R86): the named bits of the exact product, with their frame. -/
def Sys2Proof.Claims.ProductResults : Prop :=
  ∀ (d a b : GReg) (s : State),
    let x := s.g a
    let y := s.g b
    Gives (.mul d a b) d (BitVec.ofNat 64 (uv x * uv y)) s ∧
    Gives (.mulh d a b) d ((BitVec.ofInt 128 (sv x * sv y)).extractLsb' 64 64) s ∧
    Gives (.mulhu d a b) d ((BitVec.ofNat 128 (uv x * uv y)).extractLsb' 64 64) s ∧
    Gives (.mulhsu d a b) d ((BitVec.ofInt 128 (sv x * uv y)).extractLsb' 64 64) s ∧
    Gives (.mulw d a b) d (((BitVec.ofNat 64 (uv x * uv y)).setWidth 32).signExtend 64) s

/-- The results of the scalar integer instructions (04:R82 to R86): register and immediate forms, addresses and
products, and the frame of each: only g(d), PC and INSTRET change. -/
def Obligations.IntegerResults : Prop := Claims.IntegerRegisterResults ∧ Claims.ImmediateResults ∧ Claims.ProductResults

/-- Division (04:R87): the quotient truncated toward zero, the remainder with the sign of the dividend, the fixed
results for a zero divisor and for -2^63 / -1, and no trap and no flag. -/
def Obligations.DivisionResults : Prop :=
  ∀ (d a b : GReg) (s : State),
    Gives (.div d a b) d (BitVec.ofInt 64 (quotS (sv (s.g a)) (sv (s.g b)))) s ∧
    Gives (.rem d a b) d (BitVec.ofInt 64 (remS (sv (s.g a)) (sv (s.g b)))) s ∧
    Gives (.divu d a b) d (BitVec.ofNat 64 (quotU (uv (s.g a)) (uv (s.g b)))) s ∧
    Gives (.remu d a b) d (BitVec.ofNat 64 (remU (uv (s.g a)) (uv (s.g b)))) s

/-- The rounding operations of 04:R90 and the conversions of 04:R92: one rounding of the exact result into FMT, the
flags ORed into VFSR, SRCOUNT counted for FRM = RSR (04:R89), and nothing else changed. -/
def Obligations.FloatArithmeticResults : Prop :=
  ∀ (f src : FFmt) (d a b : GReg) (rm : Rm) (s : State),
    let x := value f s a
    let y := value f s b
    GivesFloat (.fadd f d a b rm) d rm (rounded f rm s (exactAdd rm x y)) s ∧
    GivesFloat (.fsub f d a b rm) d rm (rounded f rm s (exactAdd rm x y.negate)) s ∧
    GivesFloat (.fmul f d a b rm) d rm (rounded f rm s (exactMul x y)) s ∧
    GivesFloat (.fdiv f d a b rm) d rm (rounded f rm s (exactDiv x y)) s ∧
    GivesFloat (.fsqrt f d a rm) d rm (rounded f rm s (exactSqrt x)) s ∧
    GivesFloat (.fma f d a b rm) d rm (rounded f rm s (exactFma rm x y (value f s d))) s ∧
    GivesFloat (.fcvtFf f d a src rm) d rm (rounded f rm s (value src s a).exact) s ∧
    GivesFloat (.fcvtIf f d a .i64 rm) d rm (rounded f rm s (intExact (sv (s.g a)))) s ∧
    GivesFloat (.fcvtIf f d a .u64 rm) d rm (rounded f rm s (intExact (uv (s.g a)))) s ∧
    GivesFloat (.fcvtIf f d a .i32 rm) d rm (rounded f rm s (intExact ((s.g a).setWidth 32).toInt)) s ∧
    GivesFloat (.fcvtIf f d a .u32 rm) d rm (rounded f rm s (intExact ((s.g a).setWidth 32).toNat)) s ∧
    (∀ k, GivesFloat (.fcvtFi f d a k rm) d rm (kindResult k
      (toInt { rm := rm, sat := false, seed := s.hart.srseed, count := s.hart.srcount } 0 x (IntKind.width k)
        (IntKind.isSigned k))) s)

/-- The selections, compares and class of 04:R90 and R91: minimumNumber and maximumNumber, quiet equality, ordered
comparisons with NV for any NaN, and the class word without a flag. -/
def Obligations.FloatCompareResults : Prop :=
  ∀ (f : FFmt) (d a b : GReg) (s : State),
    let x := value f s a
    let y := value f s b
    let quiet : Flags := if signalling x y then Flags.nv else 0#5
    let strict : Flags := if ordered x y then 0#5 else Flags.nv
    GivesFloat (.fmin f d a b) d .rne ((fmtOf f).minMax false (pattern f s a) (pattern f s b)) s ∧
    GivesFloat (.fmax f d a b) d .rne ((fmtOf f).minMax true (pattern f s a) (pattern f s b)) s ∧
    GivesFloat (.feq f d a b) d .rne { bits := if ordered x y ∧ FVal.eq x y = true then 1 else 0, fl := quiet } s ∧
    GivesFloat (.flt f d a b) d .rne { bits := if ordered x y ∧ FVal.lt x y = true then 1 else 0, fl := strict } s ∧
    GivesFloat (.fle f d a b) d .rne
      { bits := if ordered x y ∧ (FVal.lt x y = true ∨ FVal.eq x y = true) then 1 else 0, fl := strict } s ∧
    Gives (.fclass f d a) d ((fmtOf f).classWord (pattern f s a)) s

/-- A value of a format rounds to its own pattern, in every rounding mode and with no flag (03:R64, R69): decoding and
rounding are inverse on every finite pattern of the seven formats. -/
def Sys2Proof.Claims.RepresentableValuesRoundToThemselves : Prop :=
  ∀ f ∈ [Fmt.fp64, Fmt.fp32, Fmt.fp16, Fmt.bf16, Fmt.e5m2, Fmt.e4m3, Fmt.e2m1], ∀ (b idx : Nat) (r : Rnd) (n : Bool)
    (m : Nat) (e : Int),
    b < 2 ^ f.width → f.decode b = .fin n m e → f.round r idx (f.decode b).exact = { bits := b, fl := 0#5 }

/-- A result of a format lies in its width, so bits [63:w] of gd are zero (04:R89). -/
def Sys2Proof.Claims.RoundedResultsFitTheirFormat : Prop :=
  ∀ f ∈ [Fmt.fp64, Fmt.fp32, Fmt.fp16, Fmt.bf16, Fmt.e5m2, Fmt.e4m3, Fmt.e2m1], ∀ (r : Rnd) (idx : Nat) (x : XRes),
    (f.round r idx x).bits < 2 ^ f.width

/-- Rounding into a format (03:R64, R69, 04:R89): a finite pattern rounds to itself without a flag in every mode, and
every result lies in its width. -/
def Obligations.RoundingIsRight : Prop := Claims.RepresentableValuesRoundToThemselves ∧ Claims.RoundedResultsFitTheirFormat

/-- Branches and jumps (12:R267, R268): taken by the compare, to PC + 4 x offset modulo 2^48; jal and jalr write
PC + 4; jalr reads g(a) first and clears bits [1:0] of its target; a jalr target beyond 48 bits raises 0x03 with the
target as TRAPVAL and g(d) unchanged. -/
def Obligations.BranchesAndJumps : Prop :=
  ∀ (d y a : GReg) (imm : BitVec 16) (u : BitVec 21) (s : State),
    let at16 : Addr := BitVec.ofInt 48 (s.hart.pc.toNat + imm.toInt * 4)
    let at21 : Addr := BitVec.ofInt 48 (s.hart.pc.toNat + u.toInt * 4)
    let goes (i : Instr) (p : Prop) : Prop := Completes i s (fun t => SameRegs s t ∧ OnlyRegs s t ∧ OutsideSame s t ∧
      t.hart.instret = s.hart.instret + 1#64 ∧ (p → t.hart.pc = at16) ∧ (¬p → t.hart.pc = s.hart.pc + 4#48))
    let link : Word := (s.hart.pc + 4#48).zeroExtend 64
    let target : Word := s.g a + imm.signExtend 64
    goes (.beq y a imm) (s.g a = s.g y) ∧
    goes (.bne y a imm) (s.g a ≠ s.g y) ∧
    goes (.blt y a imm) (sv (s.g a) < sv (s.g y)) ∧
    goes (.bge y a imm) (sv (s.g a) ≥ sv (s.g y)) ∧
    goes (.bltu y a imm) (uv (s.g a) < uv (s.g y)) ∧
    goes (.bgeu y a imm) (uv (s.g a) ≥ uv (s.g y)) ∧
    Completes (.jal d u) s (fun t => RegsAfter d link s t ∧ OnlyRegs s t ∧ OutsideSame s t ∧
      t.hart.instret = s.hart.instret + 1#64 ∧ t.hart.pc = at21) ∧
    (uv target < 2 ^ 48 → Completes (.jalr d a imm) s (fun t => RegsAfter d link s t ∧ OnlyRegs s t ∧ OutsideSame s t ∧
      t.hart.instret = s.hart.instret + 1#64 ∧ t.hart.pc = target.setWidth 48 &&& 0xFFFF_FFFF_FFFC#48)) ∧
    (2 ^ 48 ≤ uv target → s.hart.th = false → s.hart.trapvec ≠ 0#48 → Completes (.jalr d a imm) s (fun t =>
      SameRegs s t ∧ t.hart.trapcause = 0x03#8 ∧ t.hart.trapval = target ∧ t.hart.trappc = s.hart.pc))

/-! ### Memory instructions. -/

/-- Loads from bench (10:R214, 08:R173): 1, 2, 4 or 8 bytes, sign-extended or zero-extended; nothing else changes. -/
def Sys2Proof.Claims.LoadsReadBench : Prop :=
  ∀ (d a : GReg) (imm : BitVec 16) (o : Nat) (s : State),
    let ea := s.g a + imm.signExtend 64
    let b (n : Nat) : Nat := s.core.benchNat o n
    (BenchLoad s ea o 1 →
      Gives (.ldb d a imm) d ((BitVec.ofNat 8 (b 1)).signExtend 64) s ∧ Gives (.ldbu d a imm) d (BitVec.ofNat 64 (b 1)) s) ∧
    (BenchLoad s ea o 2 →
      Gives (.ldh d a imm) d ((BitVec.ofNat 16 (b 2)).signExtend 64) s ∧ Gives (.ldhu d a imm) d (BitVec.ofNat 64 (b 2)) s) ∧
    (BenchLoad s ea o 4 →
      Gives (.ldw d a imm) d ((BitVec.ofNat 32 (b 4)).signExtend 64) s ∧ Gives (.ldwu d a imm) d (BitVec.ofNat 64 (b 4)) s) ∧
    (BenchLoad s ea o 8 → Gives (.ldd d a imm) d (BitVec.ofNat 64 (b 8)) s)

/-- A load whose bytes lie in the core's own copy of a line (08:R169, 09:R204, R205): an owned line, or a V copy whose lease
covers LTIME, gives its bytes without asking the home, and its wts counts as returned; of memory and bench no byte
changes. u is the state in which the translation of the address leaves the machine. -/
def Sys2Proof.Claims.LoadsReadOwnCopies : Prop :=
  ∀ (d a : GReg) (imm : BitVec 16) (s u : State) (l : Line) (dpa : Nat) (cnt : Bool),
    let ea := s.g a + imm.signExtend 64
    s.memBusy = false → s.locate ea 8 .read = .ok (.mem dpa .wb cnt) u →
    NoStoreOver u (.mem dpa .wb cnt) 8 → u.hart.racechk = false →
    u.hart.maint = false → u.inHostBias dpa = false → u.core.findLine (dpa / 64) u.hart.hyp = some l →
    (l.st ≠ .v ∨ serLe u.hart.ltime l.rts = true) → l.poison = 0#8 → natSetHas u.core.softLine (dpa / 8) = false →
    (∀ v ∈ u.pkg.versions, v.line = dpa / 64 → v.id = u.hart.hyp → ∀ w, v.place ≠ .way w) →
    Completes (.ldd d a imm) s (fun t =>
      RegsAfter d (BitVec.ofNat 64 (lineNat l.data (dpa % 64) 8)) u t ∧ Retired u t ∧
      t.hart = { u.hart with
        g := t.hart.g, pc := t.hart.pc, instret := t.hart.instret
        maxRead := some (match u.hart.maxRead with | none => l.wts | some m => serMax m l.wts) } ∧
      t.pkg = u.pkg ∧ SameBytes u t)

/-- Loads (10:R214, 08:R169, R173, 09:R204, R205): from bench, and from a copy of a line that the core holds; of
memory and bench no byte changes. -/
def Obligations.Loads : Prop := Claims.LoadsReadBench ∧ Claims.LoadsReadOwnCopies

/-- Stores and ast enter the store queue (10:R214, R215, R219): the low bytes of the source, at the address, behind the
stores before it; no byte of memory changes at issue. -/
def Obligations.StoresEnterTheQueue : Prop :=
  ∀ (y a : GReg) (imm : BitVec 16) (ord : MemOrd) (sc : Scope) (o : Nat) (s : State),
    let ea := s.g a + imm.signExtend 64
    let q (n : Nat) : QStore := benchStoreOf s o n (s.g y) none
    (BenchStore s ea o 1 → Completes (.stb y a imm) s (Queued (q 1) s)) ∧
    (BenchStore s ea o 2 → Completes (.sth y a imm) s (Queued (q 2) s)) ∧
    (BenchStore s ea o 4 → Completes (.stw y a imm) s (Queued (q 4) s)) ∧
    (BenchStore s ea o 8 → Completes (.std y a imm) s (Queued (q 8) s)) ∧
    (BenchStore s (s.g a) o 4 →
      Completes (.ast a y ord sc true) s (Queued (benchStoreOf s o 4 (s.g y) (some (ord, sc))) s)) ∧
    (BenchStore s (s.g a) o 8 →
      Completes (.ast a y ord sc false) s (Queued (benchStoreOf s o 8 (s.g y) (some (ord, sc))) s))

/-- STORE_DEPART (10:R215): the oldest store is performed; a bench store writes its bytes, zeroes the rest of a word that
was invalid and makes it valid (08:R174), and changes no other byte. -/
def Sys2Proof.Claims.QueuedBenchStoreIsPerformed : Prop :=
  ∀ (s : State) (q : QStore) (rest : List QStore) (o n : Nat),
    s.core.storeQ = q :: rest → q.target = .bench o → q.size = n → 0 < n → n ≤ 8 → o % n = 0 → q.hyp = 0#12 →
    q.atomic = none → s.core.storePending = false → NoSuperstep s → BenchWf s → NoInjection s →
    Completes .storeDepart s (fun t =>
      BenchWritten s t o n q.value.toNat ∧ BesideKept s t o n ∧ t.core.storeQ = rest ∧ t.hart = s.hart ∧ t.pkg = s.pkg)

/-- A queued store to a line that the core owns (08:R169, 10:R215) goes into the copy, which becomes D; memory, as its
owner holds it, reads the new bytes there and every other byte as before. -/
def Sys2Proof.Claims.QueuedStoreEntersOwnedLine : Prop :=
  ∀ (s : State) (q : QStore) (rest : List QStore) (dpa n : Nat) (l : Line),
    s.core.storeQ = q :: rest → q.target = .mem dpa .wb false → q.size = n → (n = 1 ∨ n = 2 ∨ n = 4 ∨ n = 8) →
    dpa % n = 0 → q.hyp = 0#12 → q.atomic = none → s.hart.maint = false → s.inHostBias dpa = false →
    s.core.owned (dpa / 64) = some l → s.core.storePending = false → NoInjection s →
    Completes .storeDepart s (fun t =>
      t.core.storeQ = rest ∧ t.peek dpa n = q.value.toNat % 2 ^ (8 * n) ∧
      (∀ a, (a < dpa ∨ dpa + n ≤ a) → t.peek a 1 = s.peek a 1) ∧
      (∀ o, t.core.benchNat o 1 = s.core.benchNat o 1) ∧ SameRegs s t ∧
      t.pkg = { s.pkg with poisonSrc := t.pkg.poisonSrc, versions := t.pkg.versions } ∧
      t.pkg.versions.map (fun v => { v with lock := [] }) = s.pkg.versions.map (fun v => { v with lock := [] }))

/-- STORE_DEPART (10:R215, 08:R169, R174): the oldest store is performed in bench or in the owned line, and no other
byte changes. -/
def Obligations.QueuedStoresArePerformed : Prop := Claims.QueuedBenchStoreIsPerformed ∧ Claims.QueuedStoreEntersOwnedLine

/-- Every atomic on bench (10:R217 to R220): g(d) takes the old value, sign-extended from the size, and the bytes take
the new value of the table; an ald, and a cas that compares unequal, write nothing. -/
def Obligations.AtomicsOnBench : Prop :=
  ∀ (d a b : GReg) (ord : MemOrd) (sc : Scope) (w4 : Bool) (o : Nat) (s : State),
    let n := if w4 then 4 else 8
    let v := s.g b
    let c := s.g d
    BenchAmo s (s.g a) o n →
    GivesBenchAmo (.ald d a ord sc w4) .ald d v c o n s ∧
    GivesBenchAmo (.amoadd d a b ord sc w4) .add d v c o n s ∧
    GivesBenchAmo (.amoswap d a b ord sc w4) .swap d v c o n s ∧
    GivesBenchAmo (.amoand d a b ord sc w4) .and d v c o n s ∧
    GivesBenchAmo (.amoor d a b ord sc w4) .or d v c o n s ∧
    GivesBenchAmo (.amoxor d a b ord sc w4) .xor d v c o n s ∧
    GivesBenchAmo (.amomin d a b ord sc w4) .min d v c o n s ∧
    GivesBenchAmo (.amomax d a b ord sc w4) .max d v c o n s ∧
    GivesBenchAmo (.amominu d a b ord sc w4) .minu d v c o n s ∧
    GivesBenchAmo (.amomaxu d a b ord sc w4) .maxu d v c o n s ∧
    GivesBenchAmo (.cas d a b ord sc w4) .cas d v c o n s

/-- An atomic write to WB-device memory that nobody owns (09:R203, 10:R218, R220): the old value to g(d), the new value
to memory at the home and no other byte changed, wts = rts = LTIME = max(LTIME, rts + 1), no owner. u is the state in
which the translation of the address leaves the machine. -/
def Obligations.AtomicsAtTheHome : Prop :=
  ∀ (d a b : GReg) (ord : MemOrd) (sc : Scope) (w4 : Bool) (dpa : Nat) (s u : State),
    let n := if w4 then 4 else 8
    let h := u.pkg.home (dpa / 64)
    let w := serMax u.hart.ltime (h.rts + 1#16)
    s.memBusy = false → s.locate (s.g a) n .atomic = .ok (.mem dpa .wb false) u → u.quiet = true →
    NoStoreOver u (.mem dpa .wb false) n → u.pkg.peerWritesOut = false → u.hart.hyp = 0#12 → u.hart.maint = false → dpa % n = 0 →
    u.pkg.atAdapter (dpa / 64) = false → h.owner = none → Unspoilt u (dpa / 64) → RoomInSlice u (dpa / 64) →
    u.pkg.linePoison (dpa / 64) = 0#8 → u.MemWf →
    Completes (.amoadd d a b ord sc w4) s (fun t =>
      RegsAfter d ((BitVec.ofNat (8 * n) (u.pkg.read dpa n)).signExtend 64) u t ∧ Retired u t ∧
      t.pkg.read dpa n = (u.pkg.read dpa n + uv (u.g b)) % 2 ^ (8 * n) ∧
      (∀ x, (x < dpa ∨ dpa + n ≤ x) → t.pkg.read x 1 = u.pkg.read x 1) ∧
      t.pkg.home (dpa / 64) = { wts := w, rts := w, owner := none } ∧ t.hart.ltime = w)

/-- fence (09:R205, 10:R222): with the hart's earlier writes performed it retires; an acquire in the service regime
raises LTIME to the largest wts returned since the last acquire, and nothing else of memory or registers changes. -/
def Obligations.FenceRaisesLtime : Prop :=
  ∀ (sc : Scope) (ord : MemOrd) (s : State),
    s.quiet = true → s.pkg.peerWritesOut = false →
    Completes (.fence sc ord) s (fun t => SameRegs s t ∧ Retired s t ∧ OutsideSame s t ∧
      t.hart.ltime = (if (ord = .acq ∨ ord = .ar) ∧ s.hart.maint = false then
          (match s.hart.maxRead with
          | none => s.hart.ltime
          | some w => serMax s.hart.ltime w)
        else s.hart.ltime) ∧
      t.hart = { s.hart with
        pc := t.hart.pc, instret := t.hart.instret, ltime := t.hart.ltime, maxRead := t.hart.maxRead })

/-- The address checks of an access come in their order (10:R213): bits above 47 raise 0x03, then a misaligned address
0x02, then outside the BENCH ways of the context 0x03, then an ENGINE granule 0x09; TRAPVAL is the address, and of the
access nothing is done. -/
def Sys2Proof.Claims.AddressChecksInOrder : Prop :=
  ∀ (d y a : GReg) (imm : BitVec 16) (s : State),
    let ea := s.g a + imm.signExtend 64
    s.memBusy = false → s.core.storeQ = [] →
    (2 ^ 48 ≤ uv ea → Traps (.ldd d a imm) 0x03#8 ea s ∧ Traps (.std y a imm) 0x03#8 ea s) ∧
    (uv ea < 2 ^ 48 → uv ea % 8 ≠ 0 → Traps (.ldd d a imm) 0x02#8 ea s ∧ Traps (.std y a imm) 0x02#8 ea s) ∧
    (∀ o, uv ea = 0xFF00_0000_0000 + o → o < 2 ^ 32 → uv ea % 8 = 0 → s.core.benchIn s.hart.ctxid o 8 = false →
      Traps (.ldd d a imm) 0x03#8 ea s ∧ Traps (.std y a imm) 0x03#8 ea s) ∧
    (∀ o, uv ea = 0xFF00_0000_0000 + o → o < 2 ^ 32 → uv ea % 8 = 0 → s.core.benchIn s.hart.ctxid o 8 = true →
      s.core.engineOwned (o / 4096) = true → Traps (.ldd d a imm) 0x09#8 ea s ∧ Traps (.std y a imm) 0x09#8 ea s)

/-- BENCHCHK (08:R175): a load that meets an invalid bench word reads it; with ACT 1 WCOUNT counts the words, and with
ACT 2 the load traps with 0x08 and the lowest invalid address. -/
def Sys2Proof.Claims.InvalidBenchWordsAreChecked : Prop :=
  ∀ (d a : GReg) (imm : BitVec 16) (o : Nat) (s : State),
    let ea := s.g a + imm.signExtend 64
    BenchAccess s ea o 8 → NoWait s (.bench o) 8 → natSetHas s.core.benchInvalid (o / 8) = true →
    s.core.benchPoisoned o 8 = false → natSetHas s.core.softBench (o / 8) = false →
    (s.hart.act = 2#2 → Traps (.ldd d a imm) 0x08#8 ea s) ∧
    (s.hart.act = 1#2 → s.hart.wcount.toNat + 1 < 2 ^ 32 → Completes (.ldd d a imm) s (fun t =>
      RegsAfter d (BitVec.ofNat 64 (s.core.benchNat o 8)) s t ∧ t.hart.wcount = s.hart.wcount + 1#32)) ∧
    (s.hart.act = 0#2 → Gives (.ldd d a imm) d (BitVec.ofNat 64 (s.core.benchNat o 8)) s)

/-- The checks of an access (10:R213, 08:R175): the address checks in their order, and BENCHCHK for invalid words. -/
def Obligations.AccessChecks : Prop := Claims.AddressChecksInOrder ∧ Claims.InvalidBenchWordsAreChecked

/-! ### System instructions. -/

/-- mfs (16:R314): once the units it waits for are empty it gives the register's value; the value of each register is
its field map's (16:R310, R311, 05:R95, R96, 07:R142, 08:R175, 21:R369, R371, R374). -/
def Sys2Proof.Claims.SystemRegisterReads : Prop :=
  (∀ (d : GReg) (r : SysReg) (s : State), s.core.units = [] → Gives (.mfs d r) d (s.sysRead r) s) ∧
  (∀ (s : State), (∀ e ∈ fieldRegs s.hart, s.sysRead e.1 = e.2) ∧ (∀ e ∈ partRegs s, s.sysRead e.1 = e.2) ∧
    s.sysRead .lockuse = BitVec.ofNat 64 (s.core.lines.countP (fun l => l.lock.contains s.hart.ctxid) +
      s.pkg.versions.countP (fun v => v.lock.contains s.hart.ctxid)))

/-- mts (16:R314): the register then reads as the value, in its writable bits; a register that is wholly RO ignores the
write; every other register reads as before. -/
def Sys2Proof.Claims.SystemRegisterWrites : Prop :=
  ∀ (a : GReg) (s : State), s.core.units = [] →
    (∀ e ∈ plainRegs, Completes (.mts e.1 a) s (fun t =>
      t.sysRead e.1 = e.2 (s.g a) ∧ SameRegs s t ∧ Retired s t ∧ OutsideSame s t ∧
      ∀ r, r ≠ e.1 → r ≠ .instret → t.sysRead r = s.sysRead r)) ∧
    (∀ r ∈ readOnlyRegs, Completes (.mts r a) s (fun t => SameRegs s t ∧ Retired s t ∧ OnlyRegs s t ∧ OutsideSame s t)) ∧
    Completes (.mts .status a) s (fun t => SameRegs s t ∧ Retired s t ∧ OutsideSame s t ∧
      t.hart = { s.hart with th := (s.g a).getLsbD 0, pc := t.hart.pc, instret := t.hart.instret }) ∧
    (s.hart.sys = false → Completes (.mts .errstat a) s (fun t => SameRegs s t ∧ Retired s t ∧ OnlyRegs s t ∧ OutsideSame s t))

/-- mfs and mts (16:R314): a read gives the value of the field map, a write the writable bits, and a register that is
wholly RO ignores it. -/
def Obligations.SystemRegisters : Prop := Claims.SystemRegisterReads ∧ Claims.SystemRegisterWrites

/-- The registers with rules of their own: VL takes min(value, VLMAX, VLCEIL), VSTART ARM and IDX (05:R95), FCR SHAPE
and FE with SHAPE 3 illegal, by mts and fcfg (07:R142), LTIME only a value ahead of it by less than 2^12 (09:R201),
BENCHCHK with ACT 3 illegal (08:R175), CHKCTL only with SYS and MAINT (21:R374). -/
def Sys2Proof.Claims.SpecialRegisterWrites : Prop :=
  ∀ (a : GReg) (s : State), s.core.units = [] →
    let v := s.g a
    let only (h : Hart → Hart) : State → Prop := fun t => SameRegs s t ∧ Retired s t ∧ OutsideSame s t ∧
      t.hart = { h s.hart with pc := t.hart.pc, instret := t.hart.instret }
    Completes (.mtsVl a) s (only (fun h =>
      { h with vl := BitVec.ofNat 20 (min (uv v) (min h.vlmax.toNat h.vlceil.toNat)) })) ∧
    Completes (.mtsVstart a) s (only (fun h => { h with vstartArm := v.getLsbD 31, vstartIdx := v.setWidth 20 })) ∧
    (v.extractLsb' 16 2 ≠ 3#2 →
      Completes (.mtsFcr a) s (only (fun h => { h with fcrShape := v.extractLsb' 16 2, fcrFe := v.setWidth 16 })) ∧
      Completes (.fcfg a) s (only (fun h => { h with fcrShape := v.extractLsb' 16 2, fcrFe := v.setWidth 16 }))) ∧
    (v.extractLsb' 16 2 = 3#2 → Traps (.mtsFcr a) 0x01#8 (0x88001120#64 ||| (a.zeroExtend 64 <<< 16)) s) ∧
    (let n := (v.setWidth 16 - s.hart.ltime).toNat;
      Completes (.mtsLtime a) s (only (fun h => if 0 < n ∧ n < 2 ^ 12 then { h with ltime := v.setWidth 16 } else h))) ∧
    (v.extractLsb' 0 2 ≠ 3#2 →
      Completes (.mtsBenchchk a) s (only (fun h => { h with wcount := v.extractLsb' 32 32, act := v.extractLsb' 0 2 }))) ∧
    (v.extractLsb' 0 2 = 3#2 → Traps (.mtsBenchchk a) 0x01#8 (0x88001207#64 ||| (a.zeroExtend 64 <<< 16)) s) ∧
    (¬(s.hart.sys = true ∧ s.hart.maint = true) → Completes (.mtsChkctl a) s (only id)) ∧
    (s.hart.sys = true → s.hart.maint = true → (v.extractLsb' 4 4).toNat < 6 → Completes (.mtsChkctl a) s (fun t =>
      SameRegs s t ∧ Retired s t ∧ OnlyRegs s t ∧ t.core = { s.core with inj := v.extractLsb' 4 4, injArm := v.getLsbD 0 } ∧
      t.pkg = s.pkg))

/-- gmode and mts MODE (02:R46): a legal word becomes MODE, VLMAX follows R52 for the grant, VL is clamped to it, and
nothing else changes; RM 6 or 7, or a scale register beyond v14 with block scales, is illegal and leaves MODE, VL and
VLMAX unchanged. vsetl (05:R94) sets VL, clears VSTART and returns what it did not take. -/
def Sys2Proof.Claims.ModeAndVectorLength : Prop :=
  ∀ (m : BitVec 21) (d a : GReg) (s : State),
    let legal := (m.extractLsb' 9 3).toNat < 6 ∧ (m.extractLsb' 14 2 = 0#2 ∨ m.extractLsb' 16 4 ≠ 15#4)
    let sew := (ElemType.ofBits (m.extractLsb' 5 4)).sew
    let lanes := 16384 * s.hart.lanesW.toNat
    let vlmax : BitVec 20 := BitVec.ofNat 20 (if sew = 64 then lanes else lanes * 32 / sew)
    let done : State → Prop := fun t => SameRegs s t ∧ Retired s t ∧ OutsideSame s t ∧
      t.hart = { s.hart with
        mode := m, vlmax := vlmax, vl := if s.hart.vl.toNat ≤ vlmax.toNat then s.hart.vl else vlmax
        pc := t.hart.pc, instret := t.hart.instret }
    (legal → Completes (.gmode m) s done ∧ ((s.g a).setWidth 21 = m → Completes (.mtsMode a) s done)) ∧
    (¬legal → Traps (.gmode m) 0x01#8 (0x90000000#64 ||| m.zeroExtend 64) s ∧
      ((s.g a).setWidth 21 = m → Traps (.mtsMode a) 0x01#8 (0x88001100#64 ||| (a.zeroExtend 64 <<< 16)) s)) ∧
    (let n := min (uv (s.g a)) (min s.hart.vlmax.toNat s.hart.vlceil.toNat);
      Completes (.vsetl d a) s (fun t => RegsAfter d (s.g a - BitVec.ofNat 64 n) s t ∧ Retired s t ∧ OutsideSame s t ∧
        t.hart = { s.hart with
          vl := BitVec.ofNat 20 n, vstartArm := false, vstartIdx := 0
          g := t.hart.g, pc := t.hart.pc, instret := t.hart.instret }))

/-- Registers with rules of their own: MODE with VLMAX and VL, vsetl, VL, VSTART, FCR, LTIME, BENCHCHK and CHKCTL
(02:R46, R52, 05:R94, R95, 07:R142, 08:R175, 09:R201, 21:R374). -/
def Obligations.ModeAndSpecialRegisters : Prop := Claims.SpecialRegisterWrites ∧ Claims.ModeAndVectorLength

/-- svc, brk and eret (16:R315, R308): svc raises 0x0C with TRAPPC past it and brk 0x0D with TRAPPC at it, TRAPVAL the
immediate, both counted as retired; a brk that the debugger armed halts the hart in place of the trap (23:R391); eret
clears TH and continues at TRAPPC with bits [1:0] cleared, whether or not a trap was taken. -/
def Obligations.TrapInstructions : Prop :=
  ∀ (imm : BitVec 12) (s : State),
    (HandlerReady s → Completes (.svc imm) s (fun t => Trapped 0x0C#8 (imm.zeroExtend 64) (s.hart.pc + 4#48) s t ∧
      t.hart.instret = s.hart.instret + 1#64)) ∧
    (HandlerReady s → s.hart.brkArmed = false → Completes (.brk imm) s (fun t =>
      Trapped 0x0D#8 (imm.zeroExtend 64) s.hart.pc s t ∧ t.hart.instret = s.hart.instret + 1#64)) ∧
    (s.hart.brkArmed = true → Completes (.brk imm) s (fun t =>
      t.hart = { s.hart with halted := true } ∧ OutsideSame s t)) ∧
    Completes .eret s (fun t => SameRegs s t ∧ OutsideSame s t ∧
      t.hart = { s.hart with
        th := false, pc := s.hart.trappc &&& 0xFFFF_FFFF_FFFC#48, instret := s.hart.instret + 1#64 })

/-- An illegal word traps with 0x01 and the word as TRAPVAL (02:R38); a trap while TH = 1, or with TRAPVEC = 0, is fatal:
the hart stops, a SNAP superstep apart, and the trap's report with COOKIE stands ready (16:R308, 21:R370). -/
def Obligations.IllegalWordsAndFatalTraps : Prop :=
  ∀ (w : IWord) (s : State),
    Traps (.illegalInstruction w) 0x01#8 (w.zeroExtend 64) s ∧
    (¬HandlerReady s → s.hart.snap = false → s.core.storeQ = [] → s.core.checkedStores = [] → s.core.peel = [] →
      Completes (.illegalInstruction w) s (fun t => t.hart.run = .idle ∧ t.core.units = [] ∧ SameRegs s t ∧
        t.hart.trapcause = 0x01#8 ∧ t.hart.trapval = w.zeroExtend 64 ∧ t.hart.trappc = s.hart.pc ∧
        ∃ r ∈ t.core.reports, r.w0.extractLsb' 56 8 = 2#8 ∧ r.w0.extractLsb' 0 8 = 0x01#8 ∧ r.w1 = w.zeroExtend 64 ∧
          r.w2 = s.hart.pc.zeroExtend 64 ∧ r.w3 = s.hart.cookie))

/-- idle, ifence and hints (16:R316, R317, 02:R39): idle checks its address as a 1-byte load, stops fetch and continues
at PC + 4, or traps where that load would; ifence, with the hart's stores performed, makes every word be fetched anew; a hint
only advances. That an idle counts and enters nothing is the model's reading (log 48). -/
def Sys2Proof.Claims.IdleIfenceAndHints : Prop :=
  ∀ (a : GReg) (h : BitVec 26) (o : Nat) (s : State),
    (BenchAccess s (s.g a) o 1 → CleanBench s o 1 → Completes (.idle a) s (fun t =>
      SameRegs s t ∧ Retired s t ∧ OutsideSame s t ∧
      t.hart = { s.hart with run := .watch none false, pc := t.hart.pc, instret := t.hart.instret })) ∧
    (BenchAccess s (s.g a) o 1 → s.hart.act = 2#2 → natSetHas s.core.benchInvalid (o / 8) = true →
      Traps (.idle a) 0x08#8 (s.g a) s) ∧
    (2 ^ 48 ≤ uv (s.g a) → Traps (.idle a) 0x03#8 (s.g a) s) ∧
    (s.quiet = true → Completes .ifence s (fun t => SameRegs s t ∧ Retired s t ∧
      t.core = { s.core with l1i := [] } ∧ t.pkg = s.pkg ∧ SameBytes s t ∧
      t.hart = { s.hart with stale := [], pc := t.hart.pc, instret := t.hart.instret })) ∧
    Completes (.hint h) s (fun t => SameRegs s t ∧ Retired s t ∧ OnlyRegs s t ∧ OutsideSame s t)

/-- tlbi (16:R318): without SYS it raises 0x03 with TRAPVAL 0; with it, and the hart's writes performed, the core keeps
exactly the translations it does not select, and nothing else changes. -/
def Sys2Proof.Claims.TlbInvalidation : Prop :=
  ∀ (d a : GReg) (pkg : Bool) (s : State),
    let drops (i : Instr) (sel : TlbEntry → Prop) : Prop :=
      (s.hart.sys = false → Traps i 0x03#8 0 s) ∧
      (s.hart.sys = true → s.quiet = true → Completes i s (fun t =>
        SameRegs s t ∧ Retired s t ∧ OnlyRegs s t ∧ t.pkg = s.pkg ∧ SameBytes s t ∧
        t.core = { s.core with tlb := t.core.tlb, tlb1 := t.core.tlb1, walks := t.core.walks } ∧
        ∀ e, (e ∈ t.core.tlb ↔ e ∈ s.core.tlb ∧ ¬sel e) ∧ (e ∈ t.core.tlb1 ↔ e ∈ s.core.tlb1 ∧ ¬sel e) ∧
          (e ∈ t.core.walks ↔ e ∈ s.core.walks ∧ ¬sel e)))
    drops (.tlbiVa d a pkg) (fun e =>
      e.ctx = (s.g d).setWidth 8 ∧ ((s.g a).setWidth 48).toNat / 2 ^ e.bits = e.va) ∧
    drops (.tlbiCtx d pkg) (fun e => e.ctx = (s.g d).setWidth 8) ∧
    drops (.tlbiAll pkg) (fun _ => True)

/-- idle, ifence, hints and tlbi (16:R316 to R318, 02:R39). -/
def Obligations.IdleIfenceHintsAndTlbi : Prop := Claims.IdleIfenceAndHints ∧ Claims.TlbInvalidation

/-! ### Array instructions: issue. -/

/-- Issue of opcode 0x26 (05:R93, R97, R104, R107 to R110, R116, R117): the checks, the trap when one fails, and what
issue changes. -/
def Sys2Proof.Claims.VectorIntegerIssue : Prop :=
  ∀ (d a : VReg) (y : VSrc) (s : State),
    (∀ i ∈ [Instr.vadd d a y, .vsub d a y, .vrsub d a y, .vmul d a y, .vmacc d a y, .vnmsac d a y],
      IssuesWide i intTypes narrowInts d a y false s) ∧
    (∀ i ∈ [Instr.vmulh d a y, .vdiv d a y, .vdivu d a y, .vrem d a y], IssuesPlain i narrowInts d a y false s) ∧
    (∀ i ∈ [Instr.vmin d a y, .vmax d a y, .vminu d a y, .vmaxu d a y, .vsll d a y, .vsrl d a y, .vsra d a y, .vabsd d a y],
      IssuesPlain i intTypes d a y false s) ∧
    (∀ i ∈ [Instr.vand d a y, .vor d a y, .vxor d a y, .vandn d a y, .vmerge d a y, .vmv d a y],
      IssuesPlain i allTypes d a y false s) ∧
    IssuesPlain (.vabs d a) intTypes d a (.imm 0#5) false s ∧
    IssuesPlain (.vid d) intTypes d d (.imm 0#5) false s ∧
    IssuesV (et s ∈ narrowInts ∧ Even (et s).sew [d] ∧ Even (2 * (et s).sew) [a] ∧ Apart d (et s).sew [a] (2 * (et s).sew) ∧
      s.hart.vl.toNat ≤ vlmaxFor s (2 * (et s).sew)) (.vclip d a y) d (et s).sew y true s

/-- Issue of opcodes 0x27 and 0x28 (05:R107 to R110, R118, R121 to R123); a vcvt between integer types counts no
rounding. -/
def Sys2Proof.Claims.VectorFloatIssue : Prop :=
  ∀ (d a b : VReg) (y : VSrc) (t : ElemType) (s : State),
    let vl := s.hart.vl.toNat
    let packs := t ≠ .e2m1 ∧ et s = .e2m1
    let unpacks := t = .e2m1 ∧ et s ≠ .e2m1
    (∀ i ∈ [Instr.vfadd d a y, .vfsub d a y, .vfmul d a y], IssuesWide i floats14 floats13 d a y true s) ∧
    (∀ i ∈ [Instr.vfma d a y, .vfnma d a y], IssuesWide i floats13 floats12 d a y true s) ∧
    IssuesPlain (.vfdiv d a y) floats13 d a y true s ∧
    (∀ i ∈ [Instr.vfsqrt d a, .vfrecip d a], IssuesPlain i floats13 d a (.imm 0#5) true s) ∧
    (∀ i ∈ [Instr.vfexp2 d a, .vflog2 d a, .vfrsqrt d a], IssuesPlain i floats12 d a (.imm 0#5) true s) ∧
    (∀ i ∈ [Instr.vfmin d a y, .vfmax d a y], IssuesPlain i floatsAll d a y false s) ∧
    (∀ i ∈ [Instr.vfsgn d a b, .vfsgnN d a b, .vfsgnX d a b], IssuesPlain i floatsAll d a (.vec b) false s) ∧
    IssuesV (Even (et s).sew [d] ∧ Even t.sew [a] ∧
      (t.sew ≠ (et s).sew ∨ packs ∨ unpacks → Apart d (et s).sew [a] t.sew) ∧
      (packs → 2 * vl ≤ vlmaxFor s t.sew) ∧ (unpacks → (vl + 1) / 2 ≤ vlmaxFor s t.sew) ∧
      (¬packs → ¬unpacks → vl ≤ vlmaxFor s t.sew))
      (.vcvt d a t) d (et s).sew (.imm 0#5) (decide (¬(t ∈ intTypes ∧ et s ∈ intTypes))) s

/-- Issue of opcodes 0x29 and 0x2A (05:R107, R124, R126 to R128): compares and vloop take the start index, the predicate
instructions none; p0 is never dirty. -/
def Sys2Proof.Claims.PredicateIssue : Prop :=
  ∀ (p q r : PReg) (a : VReg) (y : VSrc) (g : GReg) (off : BitVec 9) (s : State),
    let pd (k : PReg) : BitVec 32 := if k = 0#5 then 0 else BitVec.ofNat 32 (2 ^ k.toNat)
    let compares (i : Instr) (types : List ElemType) : Prop :=
      Issues (s.arrayReady = true ∧ et s ∈ types ∧ Even (et s).sew (vecs a y)) i
        (s.sample i (startIndex s) 0 0 0 (scalar s y)) true 0 (pd p) false s
    let pred (i : Instr) (k : PReg) (v : Word) : Prop :=
      Issues (s.arrayReady = true) i (s.sample i 0 0 0 v 0) true 0 (pd k) false s
    (∀ i ∈ [Instr.vcmpeq p a y, .vcmpne p a y], compares i allTypes) ∧
    (∀ i ∈ [Instr.vcmplt p a y, .vcmple p a y, .vcmpltu p a y, .vcmpleu p a y], compares i intTypes) ∧
    (∀ i ∈ [Instr.vfcmpeq p a y, .vfcmplt p a y, .vfcmple p a y, .vfcmpun p a y], compares i floatsAll) ∧
    (∀ i ∈ [Instr.pand p q r, .por p q r, .pxor p q r, .pandn p q r, .psbf p q r, .psif p q r, .pfirst p q r, .pmov p q],
      pred i p 0) ∧
    pred (.pcount g q) 0#5 0 ∧
    pred (.pset p g) p (s.g g) ∧
    Issues (s.arrayReady = true ∧ et s ∈ intTypes ∧ Even (et s).sew [a]) (.vloop p a off)
      (s.sample (.vloop p a off) (startIndex s) 0 0 0 0) true (dirtyOf a (et s).sew) (pd p) false s

/-- Issue of opcodes 0x26 to 0x2A (05:R93, R97, R101, R104, R107 to R110): where the checks hold the instruction joins
its queue with what it samples; where one fails it raises 0x01 with its word. -/
def Obligations.ArrayIssue : Prop := Claims.VectorIntegerIssue ∧ Claims.VectorFloatIssue ∧ Claims.PredicateIssue

/-- Issue of opcode 0x2B (06:R131 to R133, R137): every instruction but vredosum needs start index 0; a float sum
rounds; g(N) and, for vinsr, g(N + 1) are sampled. -/
def Sys2Proof.Claims.RodTreeIssue : Prop :=
  ∀ (d a b : VReg) (y : VSrc) (g : GReg) (s : State),
    let e := et s
    let float : Bool := decide (e ∉ intTypes)
    let rod (i : Instr) (types : List ElemType) (ks : List VReg) (vd : BitVec 16) (v w : Word) (rounds : Bool) : Prop :=
      Issues (s.arrayReady = true ∧ e ∈ types ∧ Even e.sew ks ∧ startIndex s = 0) i (s.sample i 0 0 w 0 v) true vd 0 rounds s
    let dd := dirtyOf d e.sew
    rod (.vredsum g a) (intTypes ++ floats14) [a] 0 (s.g g) 0 float ∧
    Issues (s.arrayReady = true ∧ e ∈ intTypes ++ floats14 ∧ Even e.sew [a]) (.vredosum g a)
      (s.sample (.vredosum g a) (startIndex s) 0 0 0 (s.g g)) true 0 0 float s ∧
    (∀ i ∈ [Instr.vredmin g a, .vredmax g a], rod i (intTypes ++ floatsAll) [a] 0 (s.g g) 0 false) ∧
    (∀ i ∈ [Instr.vredbitAnd g a, .vredbitOr g a, .vredbitXor g a, .vextr g a], rod i allTypes [a] 0 (s.g g) 0 false) ∧
    rod (.vscan d a) (intTypes ++ floats14) [d, a] dd 0 0 float ∧
    (∀ i ∈ [Instr.vslideup d a y, .vslidedn d a y, .vbcast d a y], rod i allTypes [d, a] dd (scalar s y) 0 false) ∧
    (∀ i ∈ [Instr.vslide1up d a g, .vslide1dn d a g, .vsqueeze d a g], rod i allTypes [d, a] dd (s.g g) 0 false) ∧
    rod (.vpick d a b) allTypes [d, a, b] dd 0 0 false ∧
    rod (.vinsr d g) allTypes [d] dd (s.g g) (s.g (g + 1#5)) false

/-- Issue of the vector memory instructions (10:R223, R224): the checks of opcode 0x26's kind come first, then a base or
stride that is not aligned to the element raises 0x02 with it as TRAPVAL; loads mark their destination. -/
def Sys2Proof.Claims.VectorMemoryIssue : Prop :=
  ∀ (x b : VReg) (a c d : GReg) (s : State),
    let w := (et s).sew
    let vmem (i : Instr) (ks : List VReg) (stride : Word) (vd : BitVec 16) : Prop :=
      let ok := s.arrayReady = true ∧ Even w ks;
      IllegalUnless ok i s ∧
      (ok → uv (s.g a) % (w / 8) ≠ 0 → Traps i 0x02#8 (s.g a) s) ∧
      (ok → uv (s.g a) % (w / 8) = 0 → uv stride % (w / 8) ≠ 0 → Traps i 0x02#8 stride s) ∧
      IssuesInto (ok ∧ uv (s.g a) % (w / 8) = 0 ∧ uv stride % (w / 8) = 0) i
        (s.sample i (startIndex s) 0 0 (s.g a) stride) true vd 0 false s
    vmem (.vld x a) [x] 0 (dirtyOf x w) ∧
    vmem (.vlds x a c) [x] (s.g c) (dirtyOf x w) ∧
    vmem (.vldx x a b) [x, b] 0 (dirtyOf x w) ∧
    vmem (.vldff d x a) [x] 0 (dirtyOf x w) ∧
    vmem (.vst x a) [x] 0 0 ∧
    vmem (.vsts x a c) [x] (s.g c) 0 ∧
    vmem (.vstx x a b) [x, b] 0 0

/-- Issue of opcodes 0x2B and 0x2C (06:R131 to R133, R137, 10:R223, R224), with their checks and traps. -/
def Obligations.RodTreeAndVectorMemoryIssue : Prop := Claims.RodTreeIssue ∧ Claims.VectorMemoryIssue

/-- Issue of the frame instructions (07:R145, R152, R157, R160 to R163): a matrix instruction needs accepted types,
scales only with 8-bit or 4-bit floats, and a start index at a k-step; fdrain a listed type and VL up to 4096; mmo.st,
fsave and fload aligned addresses; fzero, frc and frowadd leave VSTART alone.
That fdrain and frowadd are refused where the array is not ready (log 26) and that every operand is sampled at issue (log 54)
are the model's choices. -/
def Obligations.FrameIssue : Prop :=
  ∀ (d a b v : VReg) (g h : GReg) (xb s24 : Bool) (s : State),
    let e := et s
    let rounds : Bool := decide (e ∉ intTypes)
    let p : Nat := if s.hart.fcrShape = 0#2 then 64 else 128
    let k := (s.hart.vl.toNat + p - 1) / p
    let deep := if e = .e2m1 then 2 * k else k
    let block := 8 * 2 ^ (modeSb s.hart.mode).toNat
    let matrix (sparse : Bool) : Prop :=
      s.arrayReady = true ∧
      (e ∈ [.i8, .u8, .e4m3, .e5m2] ∨ (e ∈ [.e2m1, .bf16, .fp16, .fp32] ∧ xb = false)) ∧
      (modeSb s.hart.mode ≠ 0#2 → e ∈ [.e4m3, .e5m2, .e2m1] ∧
        (0 < k → (((if sparse = true then (deep + 3) / 4 * 4 else deep) - 1) / block + 1) * p ≤ vlmaxFor s 8)) ∧
      startIndex s % p = 0
    let issue (ok : Prop) (i : Instr) (ga gb : Word) (rnd : Bool) : Prop :=
      IssuesInto ok i (s.sample i (startIndex s) 0 0 ga gb) true 0 0 rnd s
    (issue (matrix false) (.mmo a b xb) 0 0 rounds ∧ IllegalUnless (matrix false) (.mmo a b xb) s) ∧
    (issue (matrix true) (.mmoSp a b v xb) 0 0 rounds ∧ IllegalUnless (matrix true) (.mmoSp a b v xb) s) ∧
    (let i : Instr := .mmoSt d g h v s24 xb;
      IllegalUnless (matrix s24) i s ∧
      (matrix s24 → uv (s.g g) % (e.sew / 8) ≠ 0 → Traps i 0x02#8 (s.g g) s) ∧
      (matrix s24 → uv (s.g g) % (e.sew / 8) = 0 → uv (s.g h) % (e.sew / 8) ≠ 0 → Traps i 0x02#8 (s.g h) s) ∧
      issue (matrix s24 ∧ uv (s.g g) % (e.sew / 8) = 0 ∧ uv (s.g h) % (e.sew / 8) = 0) i (s.g g) (s.g h) rounds) ∧
    (∀ i ∈ [Instr.fzero, .fzeroC, .frc], IssuesInto True i (s.sample i 0 0 0 0 0) false 0 0 false s) ∧
    (∀ i ∈ [Instr.fdrain d a, .fdrainNcs d, .fdrainZ d a, .fdrainZNcs d],
      Issues (s.arrayReady = true ∧ e ∈ [.i8, .u8, .i16, .i32, .e4m3, .e5m2, .bf16, .fp16, .fp32] ∧ s.hart.vl.toNat ≤ 4096) i
        (s.sample i (startIndex s) 0 0 0 0) true (dirtyOf d 32) 0 true s) ∧
    (∀ i ∈ [Instr.frowadd a, .frowaddC a],
      Issues (s.arrayReady = true ∧ e ∈ narrowInts ++ [.e4m3, .e5m2, .bf16, .fp16, .fp32]) i
        (s.sample i 0 0 0 0 0) false 0 0 rounds s) ∧
    (∀ i ∈ [Instr.fsave g, .fload g],
      (uv (s.g g) % 64 ≠ 0 → Traps i 0x02#8 (s.g g) s) ∧ issue (uv (s.g g) % 64 = 0) i (s.g g) 0 false)

/-! ### Array instructions: results. -/

/-- The results of opcode 0x26, slot by slot (05:R98, R100, R106, R109, R111 to R117): each function's exact integer,
clamped where SAT applies and MODE.SAT is 1, else wrapped; vclip always clamps; vmerge writes x where the guard does
not hold. -/
def Obligations.VectorIntegerResults : Prop :=
  ∀ (d a : VReg) (y : VSrc) (u : UnitOp) (rest : List UnitOp) (s : State),
    LanesWf s → UnitReady u rest s →
    let m := modeEt u.mode
    let w := m.sew
    let sg := m.signed
    let t : ElemType := if modeWd u.mode = true then m.wide.getD m else m
    let xb := fun e => s.vGet a w e
    let yb := second s u y false
    let n := fun e => second s u y true e % w
    let x := fun e => asInt sg w (xb e)
    let yv := fun e => asInt sg w (yb e)
    let xs := fun e => asInt true w (xb e)
    let ys := fun e => asInt true w (yb e)
    let z := fun e => asInt t.signed t.sew (s.vGet d t.sew e)
    let stay := fun (v : Nat) e => s.vGet d v e
    let fit (k : ElemType) (v : Int) : Nat := if modeSat u.mode = true then clamped k.signed k.sew v else wrapped k.sew v
    let wide (i : Instr) (f : Nat → Int) : Prop :=
      SlotGives i d t.sew (plainBits (fun e => fit t (f e))) (stay t.sew) u rest s
    let same (i : Instr) (f : Nat → Nat) : Prop := SlotGives i d w (plainBits f) (stay w) u rest s
    (m ∈ intTypes → SlotFits u t.sew s →
      wide (.vadd d a y) (fun e => x e + yv e) ∧
      wide (.vsub d a y) (fun e => x e - yv e) ∧
      wide (.vrsub d a y) (fun e => yv e - x e) ∧
      wide (.vmul d a y) (fun e => x e * yv e) ∧
      wide (.vmacc d a y) (fun e => z e + x e * yv e) ∧
      wide (.vnmsac d a y) (fun e => z e - x e * yv e)) ∧
    (m ∈ intTypes → SlotFits u w s →
      same (.vmulh d a y) (fun e => wrapped w (x e * yv e / 2 ^ w)) ∧
      same (.vdiv d a y) (fun e => wrapped w
        (if ys e = 0 then (if 0 < xs e then 2 ^ (w - 1) - 1 else if xs e < 0 then -2 ^ (w - 1) else 0)
        else if xs e = -2 ^ (w - 1) ∧ ys e = -1 ∧ modeSat u.mode = true then 2 ^ (w - 1) - 1 else (xs e).tdiv (ys e))) ∧
      same (.vdivu d a y) (fun e => if yb e = 0 then 2 ^ w - 1 else xb e / yb e) ∧
      same (.vrem d a y) (fun e => wrapped w (if yv e = 0 then x e else x e - (x e).tdiv (yv e) * yv e)) ∧
      same (.vmin d a y) (fun e => wrapped w (min (xs e) (ys e))) ∧
      same (.vmax d a y) (fun e => wrapped w (max (xs e) (ys e))) ∧
      same (.vminu d a y) (fun e => min (xb e) (yb e)) ∧
      same (.vmaxu d a y) (fun e => max (xb e) (yb e)) ∧
      same (.vsll d a y) (fun e => xb e * 2 ^ n e % 2 ^ w) ∧
      same (.vsrl d a y) (fun e => xb e / 2 ^ n e) ∧
      same (.vsra d a y) (fun e => wrapped w (xs e / 2 ^ n e)) ∧
      same (.vabs d a) (fun e => fit m (x e).natAbs) ∧
      same (.vabsd d a y) (fun e => wrapped w (x e - yv e).natAbs) ∧
      same (.vid d) (fun e => e % 2 ^ w)) ∧
    (SlotFits u w s →
      same (.vand d a y) (fun e => xb e &&& yb e) ∧
      same (.vor d a y) (fun e => xb e ||| yb e) ∧
      same (.vxor d a y) (fun e => xb e ^^^ yb e) ∧
      same (.vandn d a y) (fun e => xb e &&& (2 ^ w - 1 - yb e)) ∧
      (∀ b, y = .vec b → same (.vmv d a y) xb) ∧
      ((∀ b, y ≠ .vec b) → same (.vmv d a y) yb) ∧
      SlotGives (.vmerge d a y) d w (plainBits yb) xb u rest s) ∧
    (m ∈ narrowInts → SlotFits u (2 * w) s →
      let v := fun e => asInt sg (2 * w) (s.vGet a (2 * w) e)
      let k := fun e => second s u y true e % (2 * w)
      same (.vclip d a y) (fun e => clamped sg w
        (if v e = 0 then 0 else
          let q : Int := (roundGrid (modeRm u.mode) (decide (v e < 0)) (.rat (v e).natAbs 1 (-(k e : Int))) 0
            (u.rnd.draw e)).1
          if v e < 0 then -q else q)))

/-- The results of opcodes 0x27 and 0x28 (05:R118 to R123): one rounding of the exact result into the destination type
with draw index e, its flags to VFSR; minima and signs copy bits; vcvt converts, two values to a slot of e2m1.
The addend of vfma and vfnma at the wide type (log 49), and the exact value that vfexp2 and vflog2 round (log 14), are the
model's readings. -/
def Obligations.VectorFloatResults : Prop :=
  ∀ (d a b : VReg) (y : VSrc) (src : ElemType) (f ft : Fmt) (u : UnitOp) (rest : List UnitOp) (s : State),
    LanesWf s → UnitReady u rest s →
    let m := modeEt u.mode
    let w := m.sew
    let t : ElemType := if modeWd u.mode = true then m.wide.getD m else m
    let xb := fun e => s.vGet a w e
    let yb := second s u y false
    let x := fun e => f.decode (xb e)
    let yv := fun e => f.decode (yb e)
    let z := fun e => ft.decode (s.vGet d t.sew e)
    let rm := modeRm u.mode
    let wide (i : Instr) (r : Nat → XRes) : Prop :=
      SlotGives i d t.sew (fun e => ft.round u.rnd e (r e)) (fun e => s.vGet d t.sew e) u rest s
    let same (i : Instr) (r : Nat → FRes) : Prop := SlotGives i d w r (fun e => s.vGet d w e) u rest s
    let signed (i : Instr) (sign : Bool → Bool → Bool) : Prop := same i (plainBits (fun e =>
      f.signed (sign (decide (2 ^ (w - 1) ≤ xb e)) (decide (2 ^ (w - 1) ≤ s.vGet b w e))) (xb e % 2 ^ (w - 1))))
    (m.fmt = some f → t.fmt = some ft → SlotFits u t.sew s →
      wide (.vfadd d a y) (fun e => exactAdd rm (x e) (yv e)) ∧
      wide (.vfsub d a y) (fun e => exactAdd rm (x e) (yv e).negate) ∧
      wide (.vfmul d a y) (fun e => exactMul (x e) (yv e)) ∧
      wide (.vfma d a y) (fun e => exactFma rm (x e) (yv e) (z e)) ∧
      wide (.vfnma d a y) (fun e => exactFma rm (x e).negate (yv e) (z e))) ∧
    (m.fmt = some f → SlotFits u w s →
      same (.vfdiv d a y) (fun e => f.round u.rnd e (exactDiv (x e) (yv e))) ∧
      same (.vfsqrt d a) (fun e => f.round u.rnd e (exactSqrt (x e))) ∧
      same (.vfexp2 d a) (fun e => f.round u.rnd e (exactExp2 (x e))) ∧
      same (.vflog2 d a) (fun e => f.round u.rnd e (exactLog2 (x e))) ∧
      same (.vfrecip d a) (fun e => f.round u.rnd e (exactRecip (x e))) ∧
      same (.vfrsqrt d a) (fun e => f.round u.rnd e (exactRsqrt (x e))) ∧
      same (.vfmin d a y) (fun e => f.minMax false (xb e) (yb e)) ∧
      same (.vfmax d a y) (fun e => f.minMax true (xb e) (yb e)) ∧
      (m ∈ floatsAll →
        signed (.vfsgn d a b) (fun _ q => q) ∧ signed (.vfsgnN d a b) (fun _ q => !q) ∧
        signed (.vfsgnX d a b) (fun p q => p != q))) ∧
    (SlotFits u w s →
      let el := fun k => s.vGet a src.sew k
      let lo := fun e => convert src m u.rnd (2 * e) (el (2 * e))
      let hi := fun e => convert src m u.rnd (2 * e + 1) (el (2 * e + 1))
      same (.vcvt d a src) (fun e =>
        if m = .e2m1 ∧ src = .e2m1 then { bits := el e, fl := 0#5 }
        else if m = .e2m1 then { bits := (lo e).bits % 16 + 16 * ((hi e).bits % 16), fl := (lo e).fl ||| (hi e).fl }
        else if src = .e2m1 then convert src m u.rnd e (el (e / 2) / 16 ^ (e % 2) % 16)
        else convert src m u.rnd e (el e)))

/-- Compares, predicate instructions, pcount and vloop (05:R100, R124, R125, R127, R128): a compare writes the result
where the guard holds and 0 elsewhere; the predicate instructions write every element below VL at once; vloop counts
its lanes down and branches back while one runs on. -/
def Obligations.PredicateResults : Prop :=
  ∀ (p q r : PReg) (a : VReg) (y : VSrc) (g : GReg) (off : BitVec 9) (f : Fmt) (u : UnitOp) (rest : List UnitOp) (s : State),
    LanesWf s → UnitReady u rest s → u.vl ≤ vlmaxFor s (modeEt u.mode).sew →
    let w := (modeEt u.mode).sew
    let xb := fun e => s.vGet a w e
    let yb := second s u y false
    let sx := fun e => asInt true w (xb e)
    let sy := fun e => asInt true w (yb e)
    let x := fun e => f.decode (xb e)
    let yv := fun e => f.decode (yb e)
    let un := fun e => (x e).isNan || (yv e).isNan
    let sn := fun e => if x e = .nan true ∨ yv e = .nan true then Flags.nv else 0#5
    let none5 : Nat → Flags := fun _ => 0#5
    let cmp (i : Instr) (v : Nat → Bool) (fl : Nat → Flags) : Prop := u.instr = i → u.vstart < u.vl →
      Completes .kneaderSlot s (fun t =>
        PredBits p (InSlot s u) (fun e => s.active u.mode e && v e) s t ∧ t.core.units = unitsAfter s u rest ∧
        t.core.vrows = s.core.vrows ∧ t.pkg = s.pkg ∧
        t.hart = { s.hart with vfsr := (((List.range u.vl).filter (fun e => decide (InSlot s u e) && s.active u.mode e)).foldl
          (fun n e => n ||| fl e) s.hart.vfsr) })
    let pred (i : Instr) (v : Nat → Prop) : Prop := u.instr = i → Completes .kneaderSlot s (fun t =>
      (∀ b : Nat → Bool, (∀ e, b e = true ↔ v e) → PredBits p (· < u.vl) b s t) ∧ t.core.units = rest ∧
      t.core.vrows = s.core.vrows ∧ t.hart = s.hart ∧ t.pkg = s.pkg)
    let pa := fun e => s.pGet q e = true
    cmp (.vcmpeq p a y) (fun e => xb e = yb e) none5 ∧
    cmp (.vcmpne p a y) (fun e => xb e ≠ yb e) none5 ∧
    cmp (.vcmplt p a y) (fun e => sx e < sy e) none5 ∧
    cmp (.vcmple p a y) (fun e => sx e ≤ sy e) none5 ∧
    cmp (.vcmpltu p a y) (fun e => xb e < yb e) none5 ∧
    cmp (.vcmpleu p a y) (fun e => xb e ≤ yb e) none5 ∧
    ((modeEt u.mode).fmt = some f →
      cmp (.vfcmpeq p a y) (fun e => FVal.eq (x e) (yv e)) sn ∧
      cmp (.vfcmplt p a y) (fun e => !un e && FVal.lt (x e) (yv e)) (fun e => if un e = true then Flags.nv else 0#5) ∧
      cmp (.vfcmple p a y) (fun e => !un e && !FVal.lt (yv e) (x e)) (fun e => if un e = true then Flags.nv else 0#5) ∧
      cmp (.vfcmpun p a y) un sn) ∧
    pred (.pand p q r) (fun e => pa e ∧ s.pGet r e = true) ∧
    pred (.por p q r) (fun e => pa e ∨ s.pGet r e = true) ∧
    pred (.pxor p q r) (fun e => s.pGet q e ≠ s.pGet r e) ∧
    pred (.pandn p q r) (fun e => pa e ∧ s.pGet r e = false) ∧
    pred (.pmov p q) pa ∧
    pred (.psbf p q r) (fun e => ¬pa e ∧ ∀ k, SegBefore s r k e → ¬pa k) ∧
    pred (.psif p q r) (fun e => ∀ k, SegBefore s r k e → ¬pa k) ∧
    pred (.pfirst p q r) (fun e => pa e ∧ ∀ k, SegBefore s r k e → ¬pa k) ∧
    pred (.pset p g) (fun e => uv u.ga / 2 ^ 32 % 2 ^ 20 ≤ e ∧ e < uv u.ga / 2 ^ 32 % 2 ^ 20 + uv u.ga % 2 ^ 20) ∧
    (u.instr = .pcount g q → Completes .kneaderSlot s
      (UnitResult rest g (BitVec.ofNat 64 ((List.range u.vl).countP (fun e => s.pGet q e))) 0#5 s)) ∧
    (u.instr = .vloop p a off → p ≠ 0#5 → u.vstart < u.vl → Completes .kneaderSlot s (fun t =>
      let runs := fun e => s.pGet p e = true
      let c := fun e => (xb e + 2 ^ w - 1) % 2 ^ w
      (∀ e, InSlot s u e → t.vGet a w e = if runs e then c e else xb e) ∧
      PredBits p (InSlot s u) (fun e => decide (runs e ∧ c e ≠ 0)) s t ∧ OtherRowsSame a w s t ∧
      t.core.units = unitsAfter s u rest ∧
      (u.vl ≤ (u.vstart / lanesOf s + 1) * lanesOf s → ((∃ e, e < u.vl ∧ t.pGet p e = true) →
        t.hart.pc = (u.pc - BitVec.ofNat 48 (4 * off.toNat)) &&& 0xFFFF_FFFF_FFFC#48) ∧
        (¬(∃ e, e < u.vl ∧ t.pGet p e = true) → t.hart.pc = s.hart.pc))))

/-- The shuffles (06:R138): what each active element receives; an index outside [0, VL) reads 0; vsqueeze packs the active
elements and writes their number; vextr and vinsr are not guarded. -/
def Obligations.ShuffleResults : Prop :=
  ∀ (d a b : VReg) (y : VSrc) (g : GReg) (u : UnitOp) (rest : List UnitOp) (s : State),
    LanesWf s → UnitReady u rest s → u.vl ≤ vlmaxFor s (modeEt u.mode).sew →
    let m := modeEt u.mode
    let w := m.sew
    let el := fun e => s.vGet a w e
    let pick := fun i => if i < u.vl then el i else 0
    let act := fun e => s.active u.mode e = true
    let k : Nat := match y with
      | .imm i => i.toNat
      | _ => uv u.gb
    let gv := uv u.gb % 2 ^ w
    let gives (i : Instr) (p : Nat → Prop) (v : Nat → Nat) : Prop := u.instr = i →
      Completes .rodTreeComplete s (fun t => Shuffled u rest d p v s t ∧ t.hart = s.hart)
    gives (.vslideup d a y) (fun e => act e ∧ k ≤ e) (fun e => el (e - k)) ∧
    gives (.vslidedn d a y) act (fun e => pick (e + k)) ∧
    gives (.vslide1up d a g) act (fun e => if e = 0 then gv else el (e - 1)) ∧
    gives (.vslide1dn d a g) act (fun e => if e + 1 = u.vl then gv else el (e + 1)) ∧
    gives (.vpick d a b) act (fun e => pick (s.vGet b w e)) ∧
    gives (.vbcast d a y) act (fun _ => pick k) ∧
    gives (.vinsr d g) (fun e => e = uv u.gd1) (fun _ => gv) ∧
    (u.instr = .vsqueeze d a g → Completes .rodTreeComplete s (fun t =>
      Shuffled u rest d (· < (actives s u).length) (fun e => el ((actives s u)[e]?.getD 0)) s t ∧
      RegsAfter g (BitVec.ofNat 64 (actives s u).length) s t)) ∧
    (u.instr = .vextr g a → Completes .rodTreeComplete s (UnitResult rest g
      (if uv u.gb < u.vl then BitVec.ofInt 64 (asInt m.signed w (el (uv u.gb))) else 0) 0#5 s))

/-- Integer reductions and scans (06:R133, R136): the exact total with the initial value, reduced once to 64 bits; the
minimum, maximum and bit combinations with it; the prefix sums, each reduced to the element. -/
def Sys2Proof.Claims.IntegerReductionResults : Prop :=
  ∀ (d a : VReg) (g : GReg) (u : UnitOp) (rest : List UnitOp) (s : State),
    LanesWf s → UnitReady u rest s → u.vl ≤ vlmaxFor s (modeEt u.mode).sew →
    let m := modeEt u.mode
    let w := m.sew
    let xb := fun e => s.vGet a w e
    let x := fun e => asInt m.signed w (xb e)
    let acts := actives s u
    let sum (l : List Nat) : Int := l.foldl (fun n e => n + x e) 0
    let fit (v : Nat) (n : Int) : Nat := if modeSat u.mode = true then clamped m.signed v n else wrapped v n
    let init := asInt m.signed w (uv u.gb)
    let gives (i : Instr) (v : Word) : Prop := u.instr = i → Completes .rodTreeComplete s (UnitResult rest g v 0#5 s)
    let word (n : Nat) : Word := BitVec.ofNat 64 n
    (m ∈ intTypes →
      gives (.vredsum g a) (word (fit 64 (asInt m.signed 64 (uv u.gb) + sum acts))) ∧
      gives (.vredmin g a) (BitVec.ofInt 64 (acts.foldl (fun n e => min n (x e)) init)) ∧
      gives (.vredmax g a) (BitVec.ofInt 64 (acts.foldl (fun n e => max n (x e)) init)) ∧
      (u.instr = .vscan d a → Completes .rodTreeComplete s (fun t => t.hart = s.hart ∧
        Shuffled u rest d (fun e => s.active u.mode e = true) (fun e => fit w (sum (acts.filter (· ≤ e)))) s t))) ∧
    gives (.vredbitAnd g a) (word (acts.foldl (fun n e => n &&& xb e) (uv u.gb % 2 ^ w))) ∧
    gives (.vredbitOr g a) (word (acts.foldl (fun n e => n ||| xb e) (uv u.gb % 2 ^ w))) ∧
    gives (.vredbitXor g a) (word (acts.foldl (fun n e => n ^^^ xb e) (uv u.gb % 2 ^ w)))

/-- Float reductions (06:R129, R130, R133): nodes of the fixed index tree, each rounded with draw index j x 2^20 + i, then
the initial value with 31 x 2^20; bf16 and fp16 sums accumulate in fp32; minima and maxima copy bits. -/
def Sys2Proof.Claims.FloatReductionsUseTheIndexTree : Prop :=
  ∀ (a : VReg) (g : GReg) (f : Fmt) (u : UnitOp) (rest : List UnitOp) (s : State),
    LanesWf s → UnitReady u rest s → u.vl ≤ vlmaxFor s (modeEt u.mode).sew → (modeEt u.mode).fmt = some f →
    let m := modeEt u.mode
    let leaf := fun e => if e < u.vl ∧ s.active u.mode e = true then some (s.vGet a m.sew e) else none
    let pick (big : Bool) (_ x y : Nat) : Nat × Flags := ((f.minMax big x y).bits, (f.minMax big x y).fl)
    let gives (i : Instr) (r : Nat × Flags) : Prop := u.instr = i →
      Completes .rodTreeComplete s (UnitResult rest g (BitVec.ofNat 64 r.1) r.2 s)
    let init := uv u.gb % 2 ^ m.sew
    (m = .fp32 ∨ m = .fp64 → gives (.vredsum g a) (treeResult (addRounded f u.rnd) leaf u.vl init)) ∧
    (m = .bf16 ∨ m = .fp16 →
      let wide := fun b => (Fmt.fp32.round { rm := .rne, sat := false, seed := 0, count := 0 } 0 (f.decode b).exact).bits
      let nv := (actives s u).foldl (fun n e => n ||| (f.decode (s.vGet a m.sew e)).snan) 0#5
      let r := treeResult (addRounded .fp32 u.rnd) (fun e => (leaf e).map wide) u.vl (uv u.gb % 2 ^ 32)
      gives (.vredsum g a) (r.1, nv ||| r.2)) ∧
    (m ∈ floatsAll →
      gives (.vredmin g a) (treeResult (pick false) leaf u.vl init) ∧
      gives (.vredmax g a) (treeResult (pick true) leaf u.vl init))

/-- vscan of floats (06:R129, R130, R136): active element e is the fold, in ascending order, of the nodes that the binary digits
of e + 1 name, each step rounded with draw index 2^25 + e; nodes round at ET, and VFSR takes the flags of nodes and folds. -/
def Sys2Proof.Claims.FloatScansFoldTheIndexTree : Prop :=
  ∀ (d a : VReg) (f : Fmt) (u : UnitOp) (rest : List UnitOp) (s : State),
    LanesWf s → UnitReady u rest s → u.vl ≤ vlmaxFor s (modeEt u.mode).sew → (modeEt u.mode).fmt = some f →
    modeEt u.mode ∈ floatsAll → u.instr = .vscan d a →
    let w := (modeEt u.mode).sew
    let leaf := fun e => if e < u.vl ∧ s.active u.mode e = true then some (s.vGet a w e) else none
    let v := scanFold (addRounded f u.rnd) leaf
    let nodes := s.hart.vfsr ||| (treeNode (addRounded f u.rnd) leaf (treeDepth u.vl) 0).2
    Completes .rodTreeComplete s (fun t =>
      (∀ e, e < u.vl → s.active u.mode e = true → t.vGet d w e = ((v e).1.getD 0) % 2 ^ w) ∧
      (∀ e, e < vlmaxFor s w → ¬(e < u.vl ∧ s.active u.mode e = true) → t.vGet d w e = s.vGet d w e) ∧
      OtherRowsSame d w s t ∧
      t.hart = { s.hart with vfsr := (actives s u).foldl (fun n e => n ||| (v e).2) nodes } ∧
      t.core = { s.core with vrows := t.core.vrows, units := rest, arrayCount := t.core.arrayCount } ∧ t.pkg = s.pkg)

/-- vredosum (06:R137): each event adds the next element to the running sum in RDS, which starts from g(gs) at element 0
and is resumed from RDS, read in the accumulation type (log 87); bf16 and fp16 elements are widened to fp32. After the
last one, and where none is left, an event writes g(gs). That an event adds one element, and that one more writes the
result, are the model's steps (log 57). -/
def Sys2Proof.Claims.OrderedSumAddsInOrder : Prop :=
  ∀ (a : VReg) (g : GReg) (f : Fmt) (u : UnitOp) (rest : List UnitOp) (s : State),
    UnitReady u rest s → u.instr = .vredosum g a →
    let m := modeEt u.mode
    let b := s.vGet a m.sew u.vstart
    let acc := fun w => (if u.vstart = 0 then uv u.gb else uv s.hart.rds) % 2 ^ w
    let act := s.active u.mode u.vstart = true
    let wide := fun f : Fmt => (Fmt.fp32.round { rm := .rne, sat := false, seed := 0, count := 0 } 0 (f.decode b).exact).bits
    let adds (sum : Nat) (fl : Flags) : Prop := u.vstart < u.vl → Completes .rodTreeComplete s (fun t =>
      t.hart = { s.hart with rds := BitVec.ofNat 64 sum, vfsr := s.hart.vfsr ||| fl } ∧
      t.core = { s.core with units := { u with started := true, vstart := u.vstart + 1 } :: rest, arrayCount := t.core.arrayCount } ∧
      t.pkg = s.pkg)
    let ends (w : Nat) : Prop := u.vl ≤ u.vstart → Completes .rodTreeComplete s (fun t =>
      RegsAfter g (BitVec.ofNat 64 (acc w)) s t ∧ t.hart = { s.hart with g := t.hart.g } ∧
      t.core = { s.core with units := rest, arrayCount := t.core.arrayCount } ∧ t.pkg = s.pkg)
    (m ∈ intTypes ∨ m = .fp64 → ends 64) ∧
    (m = .fp32 ∨ m = .bf16 ∨ m = .fp16 → ends 32) ∧
    (m = .bf16 ∨ m = .fp16 → m.fmt = some f →
      (¬act → adds (acc 32) 0#5) ∧
      (act →
        let r := addRounded .fp32 u.rnd u.vstart (acc 32) (wide f)
        adds r.1 (r.2 ||| (f.decode b).snan))) ∧
    (m ∈ intTypes → ¬act → adds (acc 64) 0#5) ∧
    (m ∈ intTypes → act →
      let v := asInt m.signed 64 (acc 64) + asInt m.signed m.sew b
      adds (if modeSat u.mode = true then clamped m.signed 64 v else wrapped 64 v) 0#5) ∧
    (m = .fp32 ∨ m = .fp64 → m.fmt = some f → ¬act → adds (acc m.sew) 0#5) ∧
    (m = .fp32 ∨ m = .fp64 → m.fmt = some f → act →
      let r := addRounded f u.rnd u.vstart (acc m.sew) b
      adds r.1 r.2)

/-- Reductions and scans (06:R129, R130, R133, R136, R137): integers exactly, floats over the fixed index tree,
vredosum in element order, one element an event by the model's choice (logs 57, 87). -/
def Obligations.Reductions : Prop := Claims.IntegerReductionResults ∧ Claims.FloatReductionsUseTheIndexTree ∧ Claims.FloatScansFoldTheIndexTree ∧ Claims.OrderedSumAddsInOrder

/-- The slots of the vector memory instructions on bench (10:R225, R226): a load writes each active element of the slot
with the bytes at its address, unit-stride, strided or indexed, and no other; a store writes the bytes of the active
elements, the highest where several meet, once all that it has left are checked (log 13); vldff that meets no failing
check reports VL (10:R228), and one that meets one stops there, with the number of the check. -/
def Obligations.VectorMemorySlots : Prop :=
  ∀ (x b : VReg) (a c g : GReg) (o : Nat → Nat) (u : UnitOp) (rest : List UnitOp) (s : State),
    LanesWf s → UnitReady u rest s → u.parked = none → u.vstart < u.vl → u.vl ≤ vlmaxFor s (modeEt u.mode).sew →
    let w := (modeEt u.mode).sew
    let n := w / 8
    let unit : Nat → Word := fun e => u.ga + BitVec.ofNat 64 (e * n)
    let strided : Nat → Word := fun e => u.ga + BitVec.ofNat 64 e * u.gb
    let indexed : Nat → Word := fun e => u.ga + BitVec.ofNat 64 (s.vGet b w e * n)
    let next := (u.vstart / lanesOf s + 1) * lanesOf s
    let loads (t : State) : Prop :=
      (∀ e, InSlot s u e → s.active u.mode e = true → t.vGet x w e = s.core.benchNat (o e) n) ∧
      (∀ e, e < vlmaxFor s w → ¬(InSlot s u e ∧ s.active u.mode e = true) → t.vGet x w e = s.vGet x w e) ∧
      OtherRowsSame x w s t ∧ t.pkg = s.pkg ∧ SameBytes s t
    let after (t : State) : Prop := t.core.units = if u.vl ≤ next then rest else { u with vstart := next, busy := false } :: rest
    let stores (t : State) : Prop :=
      (∀ e, InSlot s u e → s.active u.mode e = true →
        (∀ k, e < k → InSlot s u k → s.active u.mode k = true → o k + n ≤ o e ∨ o e + n ≤ o k) →
        t.core.benchNat (o e) n = s.vGet x w e) ∧
      (∀ z, natSetHas s.core.benchInvalid (z / 8) = false →
        (∀ e, InSlot s u e → s.active u.mode e = true → z < o e ∨ o e + n ≤ z) →
        t.core.benchNat z 1 = s.core.benchNat z 1) ∧
      (∀ z, t.peek z 1 = s.peek z 1) ∧ t.core.vrows = s.core.vrows ∧ t.hart = s.hart ∧ t.pkg = s.pkg ∧
      (u.vl ≤ next → t.core.units = rest) ∧
      (next < u.vl → ∃ l, t.core.units = { u with vstart := next, busy := false, checked := some l } :: rest ∧
        ∀ q ∈ l, next ≤ q.1)
    let stops (k : Nat) (f : Nat) : Prop := u.instr = .vldff g x a →
      (∀ e, u.vstart ≤ e → e < f → s.active u.mode e = true → BenchAccess s (unit e) (o e) n ∧ CleanBench s (o e) n) →
      Completes .kneaderSlot s (fun t =>
        (∀ e, u.vstart ≤ e → e < f → s.active u.mode e = true → t.vGet x w e = s.core.benchNat (o e) n) ∧
        (∀ e, e < vlmaxFor s w → ¬(u.vstart ≤ e ∧ e < f ∧ s.active u.mode e = true) → t.vGet x w e = s.vGet x w e) ∧
        OtherRowsSame x w s t ∧ t.core.units = rest ∧ RegsAfter g (BitVec.ofNat 64 (2 ^ 63 + k * 2 ^ 24 + f)) s t ∧
        t.hart = { s.hart with g := t.hart.g } ∧ SameBytes s t)
    (u.instr = .vld x a → SlotReads u unit o n s → Completes .kneaderSlot s (fun t =>
      loads t ∧ after t ∧ t.hart = s.hart)) ∧
    (u.instr = .vlds x a c → SlotReads u strided o n s → Completes .kneaderSlot s (fun t =>
      loads t ∧ after t ∧ t.hart = s.hart)) ∧
    (u.instr = .vldx x a b → x ≠ b → (w = 64 → x.toNat % 2 = 0 ∧ b.toNat % 2 = 0) → SlotReads u indexed o n s →
      Completes .kneaderSlot s (fun t => loads t ∧ after t ∧ t.hart = s.hart)) ∧
    (u.instr = .vldff g x a → SlotReads u unit o n s → u.vl ≤ next → Completes .kneaderSlot s (fun t =>
      loads t ∧ t.core.units = rest ∧ RegsAfter g (BitVec.ofNat 64 u.vl) s t)) ∧
    (u.instr = .vst x a → SlotWrites u unit o n s → Completes .kneaderSlot s stores) ∧
    (u.instr = .vsts x a c → SlotWrites u strided o n s → Completes .kneaderSlot s stores) ∧
    (u.instr = .vstx x a b → SlotWrites u indexed o n s → Completes .kneaderSlot s stores) ∧
    (∀ f z, InSlot s u f → s.active u.mode f = true → s.core.storeQ = [] → s.core.checkedStores = [] →
      uv (unit f) = 0xFF00_0000_0000 + z → z < 2 ^ 32 → uv (unit f) % n = 0 →
      (s.core.benchIn s.hart.ctxid z n = false → stops 3 f) ∧
      (s.core.benchIn s.hart.ctxid z n = true → (granules z n).any s.core.engineOwned = true → stops 4 f) ∧
      (BenchAccess s (unit f) z n → s.hart.act = 2#2 → s.core.invalidWords z n ≠ [] → stops 8 f) ∧
      (BenchAccess s (unit f) z n → s.core.invalidWords z n = [] → s.core.benchPoisoned z n = true → stops 10 f))

/-- A vector memory instruction whose only element left to the event lies in a line of which the core has a copy (08:R169, 10:R225,
R226): a load writes the element with the bytes of the copy, and a store enters the owned copy, which reads the new bytes
and every other byte as before. -/
def Obligations.VectorMemoryAtLines : Prop :=
  ∀ (x b : VReg) (a c : GReg) (k dpa : Nat) (cnt : Bool) (l : Line) (u : UnitOp) (rest : List UnitOp) (s v : State),
    LanesWf s → UnitReady u rest s → u.parked = none → u.checked = none → u.vstart < u.vl →
    u.vl ≤ vlmaxFor s (modeEt u.mode).sew →
    let w := (modeEt u.mode).sew
    let n := w / 8
    let next := (u.vstart / lanesOf s + 1) * lanesOf s
    let ea : Word := match u.instr with
      | .vlds .. => u.ga + BitVec.ofNat 64 k * u.gb
      | .vsts .. => u.ga + BitVec.ofNat 64 k * u.gb
      | .vldx .. => u.ga + BitVec.ofNat 64 (s.vGet b w k * n)
      | .vstx .. => u.ga + BitVec.ofNat 64 (s.vGet b w k * n)
      | _ => u.ga + BitVec.ofNat 64 (k * n)
    v.hart.racechk = false → v.hart.maint = false → v.inHostBias dpa = false →
    (u.instr ∈ [Instr.vld x a, .vlds x a c, .vldx x a b] → OnlyElem u (slotTop s u) k s →
      s.locate ea n .read true = .ok (.mem dpa .wb cnt) v → NoStoreOver v (.mem dpa .wb cnt) n →
      v.core.findLine (dpa / 64) u.hyp = some l → (l.st ≠ .v ∨ serLe v.hart.ltime l.rts = true) → l.poison = 0#8 →
      natSetHas v.core.softLine (dpa / 8) = false →
      (∀ y ∈ v.pkg.versions, y.line = dpa / 64 → y.id = u.hyp → ∀ z, y.place ≠ .way z) →
      Completes .kneaderSlot s (fun t =>
        t.vGet x w k = lineNat l.data (dpa % 64) n ∧ (∀ e, e < vlmaxFor s w → e ≠ k → t.vGet x w e = s.vGet x w e) ∧
        OtherRowsSame x w s t ∧ t.pkg = v.pkg ∧ SameBytes v t ∧
        t.hart = { v.hart with maxRead := some (match v.hart.maxRead with | none => l.wts | some m => serMax m l.wts) } ∧
        t.core.units = if u.vl ≤ next then rest else { u with vstart := next, busy := false } :: rest)) ∧
    (u.instr ∈ [Instr.vst x a, .vsts x a c, .vstx x a b] → OnlyElem u u.vl k s → k < next → u.hyp = 0#12 →
      s.core.storeQ = [] → s.locate ea n .write true = .ok (.mem dpa .wb cnt) v → v.core.owned (dpa / 64) = some l →
      NoInjection v → Completes .kneaderSlot s (fun t =>
        t.peek dpa n = s.vGet x w k ∧ (∀ z, (z < dpa ∨ dpa + n ≤ z) → t.peek z 1 = v.peek z 1) ∧
        (∀ o, t.core.benchNat o 1 = v.core.benchNat o 1) ∧ t.core.vrows = s.core.vrows ∧ SameRegs v t ∧
        t.core.units = if u.vl ≤ next then rest else { u with vstart := next, busy := false, checked := some [] } :: rest))

/-- The frame's operations on cells and channels (07:R141, R147, R160): fzero and fzero.c clear the frame, fzero.c FSR too;
frc concludes, each cell taking the integer that its channels represent. -/
def Sys2Proof.Claims.FrameClearAndConclude : Prop :=
  ∀ (u : UnitOp) (rest : List UnitOp) (s : State), UnitReady u rest s → u.parked = none → s.hart.snap = false →
    let cleared (t : State) : Prop := (∀ n, cellOf t n = 0#64 ∧ chanOf t n = Chan.zero) ∧ t.core.winCount = 0 ∧
      t.core.winPair = .none
    (u.instr = .fzero → Completes .frameKstep s (fun t => FrameDone rest s t ∧ cleared t ∧ t.hart.fsr = s.hart.fsr)) ∧
    (u.instr = .fzeroC → Completes .frameKstep s (fun t => FrameDone rest s t ∧ cleared t ∧ t.hart.fsr = 0#5)) ∧
    (u.instr = .frc → s.core.winPair ≠ .none → Completes .frameKstep s (fun t => FrameDone rest s t ∧
      (∀ n < 4096, (chanOf s n).a.toNat < 255 → (chanOf s n).c.toNat < 257 →
        ∃ v, Represents (chanOf s n) v ∧ cellOf t n = cellPlus (cellOf s n) v) ∧
      (∀ n, chanOf t n = Chan.zero) ∧ t.core.winCount = 0 ∧ t.core.winPair = .none ∧
      (t.hart.fsr = s.hart.fsr ∨ t.hart.fsr = s.hart.fsr ||| Flags.fov))) ∧
    (u.instr = .frc → s.core.winPair = .none → s.core.winCount = 0 → Completes .frameKstep s (fun t =>
      FrameDone rest s t ∧ (∀ n, cellOf t n = cellOf s n) ∧ t.hart.fsr = s.hart.fsr))

/-- One live k-step of mmo without scales (07:R144, R146, R147, R149, R156, 03:R78): in INT mode every cell's channels take
the product of its row's element of vA and its column's element of vB, elements at or beyond VL read as zero, and the
window count rises; in FX mode every cell takes its product's one contribution at the frame exponent. -/
def Sys2Proof.Claims.MatrixStep : Prop :=
  ∀ (a b : VReg) (xb : Bool) (u : UnitOp) (rest : List UnitOp) (s : State),
    LanesWf s → UnitReady u rest s → u.parked = none → s.hart.snap = false → u.instr = .mmo a b xb →
    let m := modeEt u.mode
    let k := u.vstart / frameP u
    modeSb u.mode = 0#2 → u.vstart % frameP u = 0 → u.vstart < u.vl → s.active u.mode k = true →
    let at_ (r : VReg) (i : Nat) : Nat := if i < u.vl then s.vGet r m.sew i else 0
    let av := fun n => at_ a (k * frameRows u + n / frameCols u)
    let bv := fun n => at_ b (k * frameCols u + n % frameCols u)
    let after := if u.vl ≤ (k + 1) * frameP u then rest else { u with vstart := (k + 1) * frameP u, got := [] } :: rest
    (∀ sb : Bool, (m = .i8 ∨ m = .u8) → sb = (if xb = true then !m.signed else m.signed) →
      let pair : WinPair := if m = .i8 ∧ xb = false then .ss else if m = .u8 ∧ xb = false then .uu else .su
      let limit := if pair = .ss then 511 else if pair = .su then 257 else 129
      (s.core.winPair = .none ∨ s.core.winPair = pair) → s.core.winCount + 1 < limit →
      Completes .frameKstep s (fun t => FrameDone after s t ∧ (∀ n, n < 4096 →
        let p := asInt m.signed 8 (av n) * asInt sb 8 (bv n)
        ((chanOf t n).a.toNat : Int) = ((chanOf s n).a.toNat + p) % 255 ∧
        ((chanOf t n).b.toNat : Int) = ((chanOf s n).b.toNat + p) % 256 ∧
        ((chanOf t n).c.toNat : Int) = ((chanOf s n).c.toNat + p) % 257) ∧
        (∀ n, cellOf t n = cellOf s n) ∧ t.core.winCount = s.core.winCount + 1 ∧ t.core.winPair = pair ∧
        t.hart.fsr = s.hart.fsr)) ∧
    (∀ f, m = .bf16 ∨ m = .fp16 ∨ m = .fp32 → xb = false → m.fmt = some f → s.core.winPair = .none →
      Completes .frameKstep s (fun t => FrameDone after s t ∧
        (∀ n, n < 4096 → cellOf t n = match f.decode (av n), f.decode (bv n) with
          | .fin sa ma ea, .fin sb mb eb =>
            (contribute (cellOf s n) u.fe.toInt u.rnd (k * 4096 + n) (some (sa != sb, ma * mb, ea + eb))).1
          | _, _ => 0x8000000000000000#64) ∧
        (∀ n, chanOf t n = chanOf s n) ∧ t.core.winCount = s.core.winCount ∧ t.core.winPair = .none))

/-- fdrain and frowadd (07:R161, R162): after the conclusion each active element in range takes its cell's total times its column
scale, converted once, fdrain.z clears the drained cells; frowadd adds element j, and frowadd.c element i, to every cell (i, j),
integers exactly and floats as one contribution at the frame exponent; an element at or beyond VL adds nothing. Where vc is vd,
a scale is read after the lower elements have been drained: that the elements come in order is the model's reading (log 55). -/
def Obligations.FrameDrainAndRowAdd : Prop :=
  ∀ (d vc a : VReg) (u : UnitOp) (rest : List UnitOp) (s : State),
    LanesWf s → UnitReady u rest s → u.parked = none → s.hart.snap = false → u.vl ≤ vlmaxFor s (modeEt u.mode).sew →
    sparseWf 0#64 s.core.cells = true →
    let m := modeEt u.mode
    let hit := fun n => u.vstart ≤ n ∧ n < u.vl ∧ s.active u.mode n = true
    let one : State → Nat → FVal := fun _ _ => .fin false 1 0
    let apart : State → Nat → FVal := fun _ n => Fmt.fp32.decode (s.vGet vc 32 (n % frameCols u))
    let self : State → Nat → FVal := fun t n => Fmt.fp32.decode
      ((if hit (n % frameCols u) ∧ n % frameCols u < n then t else s).vGet vc 32 (n % frameCols u))
    let drains (z : Bool) (cs : State → Nat → FVal) : Prop := s.core.winPair = .none → s.core.winCount = 0 →
      u.vl ≤ 4096 → m ∈ [.i8, .u8, .i16, .i32, .e4m3, .e5m2, .bf16, .fp16, .fp32] → Completes .frameKstep s (fun t =>
      (∀ n, hit n → t.vGet d m.sew n = drained u n (cellOf s n) (cs t n) % 2 ^ m.sew) ∧
      (∀ n, n < vlmaxFor s m.sew → ¬hit n → t.vGet d m.sew n = s.vGet d m.sew n) ∧ OtherRowsSame d m.sew s t ∧
      (∀ n, cellOf t n = if z = true ∧ hit n then 0#64 else cellOf s n) ∧ t.core.units = rest ∧
      t.hart = { s.hart with vfsr := t.hart.vfsr } ∧ t.pkg = s.pkg ∧ SameBytes s t)
    let adds (col : Bool) : Prop :=
      let at_ := fun n => if col = true then n / frameCols u else n % frameCols u
      let el := fun n => if at_ n < u.vl then s.vGet a m.sew (at_ n) else 0
      (m ∈ intTypes → Completes .frameKstep s (fun t => FrameDone rest s t ∧
        ∀ n, n < 4096 → cellOf t n = cellPlus (cellOf s n) (asInt m.signed m.sew (el n)))) ∧
      (m ∈ [.e4m3, .e5m2, .bf16, .fp16, .fp32] → Completes .frameKstep s (fun t => FrameDone rest s t ∧
        ∀ n, n < 4096 → cellOf t n = (contribute (cellOf s n) u.fe.toInt u.rnd (2 ^ 40 + n) (factor m (el n) 127)).1))
    (u.instr = .fdrainNcs d → drains false one) ∧
    (u.instr = .fdrainZNcs d → drains true one) ∧
    (u.instr = .fdrain d vc → vc ≠ d → drains false apart) ∧
    (u.instr = .fdrainZ d vc → vc ≠ d → drains true apart) ∧
    (u.instr = .fdrain d d → vc = d → m.sew = 32 → drains false self) ∧
    (u.instr = .fdrainZ d d → vc = d → m.sew = 32 → drains true self) ∧
    (u.instr = .frowadd a → adds false) ∧
    (u.instr = .frowaddC a → adds true)

/-- One live k-step of mmo and mmo.st, or one live group of mmo.sp and of mmo.st with S24, in every form (07:R144, R146, R149,
R151 to R153, R157): with or without scale blocks, of every operand type, B in a register or in bench. In FX mode every cell
takes the contributions of its kept products in order; in INT mode its channels take their sum, and the window count rises by
the longest row. -/
def Obligations.MatrixStepsOfEveryForm : Prop :=
  ∀ (a b v : VReg) (ra rb : GReg) (xb sp : Bool) (B : Nat → Nat → Nat) (o : Nat → Nat → Nat) (ta tb : ElemType)
    (u : UnitOp) (rest : List UnitOp) (s : State),
    LanesWf s → UnitReady u rest s → u.parked = none → s.hart.snap = false →
    let m := modeEt u.mode
    let d := if m = .e2m1 then 2 else 1
    let R := frameRows u
    let C := frameCols u
    let P := frameP u
    let K := (u.vl + P - 1) / P
    let k := u.vstart / P
    let g := k * d / 4
    let top := if sp = true then (g + 1) * (4 / d) else k + 1
    let live := fun kk => s.active u.mode kk = true
    let sb := if modeSb u.mode = 0#2 then 0 else 8 * 2 ^ (modeSb u.mode).toNat
    let nib := fun x h => if d = 2 then x / 16 ^ h % 16 else x
    let n := m.sew / 8
    let ea := fun kk j => u.ga + BitVec.ofNat 64 kk * u.gb + BitVec.ofNat 64 (j * n)
    let sampled := fun kk j => if kk * C + j < u.vl then s.vGet b m.sew (kk * C + j) else 0
    let fetched := fun kk j => if kk * C + j < u.vl then s.core.benchNat (o kk j) n else 0
    let index := fun i => s.vGet v 8 (g * R + i)
    let kept : Nat → List (Nat × Nat) := fun i =>
      if sp = true then
        ((List.range 2).map (fun h => (4 * g + index i / 4 ^ h % 4, 2 * g + h))).filter
          (fun e => decide (d * K ≤ e.1 ∨ (k ≤ e.1 / d ∧ live (e.1 / d))))
      else (List.range d).map (fun h => (d * k + h, d * k + h))
    let scale := fun (second : Bool) dim kappa i =>
      if sb = 0 then 127 else s.vGet (modeSr u.mode + (if second = true then 1#4 else 0#4)) 8 (kappa / sb * dim + i)
    let aBits := fun i pos => if pos / d * R + i < u.vl then nib (s.vGet a m.sew (pos / d * R + i)) (pos % d) else 0
    let bBits := fun kappa j => nib (B (kappa / d) j) (kappa % d)
    let after := if u.vl ≤ top * P then rest else { u with vstart := top * P, got := [] } :: rest
    u.vstart % P = 0 → (∃ kk, k ≤ kk ∧ kk < top ∧ kk < K ∧ live kk) → (sp = true ∨ live k) →
    ((u.instr = .mmo a b xb ∧ sp = false ∧ B = sampled) ∨ (u.instr = .mmoSp a b v xb ∧ sp = true ∧ B = sampled) ∨
      (u.instr = .mmoSt a ra rb v sp xb ∧ u.got = [] ∧ B = fetched ∧ s.core.storeQ = [] ∧ s.core.checkedStores = [] ∧
        ∀ kk j, k ≤ kk → kk < top → kk < K → live kk → j < C → kk * C + j < u.vl →
          BenchAccess s (ea kk j) (o kk j) n ∧ CleanBench s (o kk j) n)) →
    ((ta, tb) ∈ (if xb = true then [(.e4m3, .e5m2), (.e5m2, .e4m3)] else
        [(.e4m3, .e4m3), (.e5m2, .e5m2), (.e2m1, .e2m1), (.bf16, .bf16), (.fp16, .fp16), (.fp32, .fp32)] : List (ElemType × ElemType)) →
      m = ta → s.core.winPair = .none → Completes .frameKstep s (fun t => FrameDone after s t ∧
        (∀ c, c < 4096 → cellOf t c = (kept (c / C)).foldl (fun x e =>
          (contribute x u.fe.toInt u.rnd (e.1 * 4096 + c)
            (factorProduct (factor ta (aBits (c / C) e.2) (scale false R e.1 (c / C)))
              (if d * K ≤ e.1 then some (false, 0, 0) else factor tb (bBits e.1 (c % C)) (scale true C e.1 (c % C))))).1)
          (cellOf s c)) ∧
        (∀ c, chanOf t c = chanOf s c) ∧ t.core.winCount = s.core.winCount ∧ t.core.winPair = .none)) ∧
    (∀ sgn : Bool, (m = .i8 ∨ m = .u8) → sgn = (if xb = true then !m.signed else m.signed) →
      let pair : WinPair := if m = .i8 ∧ xb = false then .ss else if m = .u8 ∧ xb = false then .uu else .su
      let limit := if pair = .ss then 511 else if pair = .su then 257 else 129
      let rise := if sp = true then (List.range R).foldl (fun x i => max x (kept i).length) 0 else 1
      (s.core.winPair = .none ∨ s.core.winPair = pair) → s.core.winCount + rise < limit →
      (∀ c, (chanOf s c).a.toNat < 255 ∧ (chanOf s c).c.toNat < 257) →
      Completes .frameKstep s (fun t => FrameDone after s t ∧
        (∀ c, c < 4096 →
          let p := ((kept (c / C)).filter (fun e => decide (e.1 < K))).foldl (fun x e =>
            x + asInt m.signed 8 (aBits (c / C) e.2) * asInt sgn 8 (bBits e.1 (c % C))) 0
          ((chanOf t c).a.toNat : Int) = ((chanOf s c).a.toNat + p) % 255 ∧
          ((chanOf t c).b.toNat : Int) = ((chanOf s c).b.toNat + p) % 256 ∧
          ((chanOf t c).c.toNat : Int) = ((chanOf s c).c.toNat + p) % 257) ∧
        (∀ c, cellOf t c = cellOf s c) ∧ t.core.winCount = s.core.winCount + rise ∧
        t.core.winPair = (if s.core.winCount + rise = 0 then .none else pair) ∧ t.hart.fsr = s.hart.fsr))

/-- fsave and fload on bench (07:R163, 21:R359): an event moves the cells of one 64-byte block, each as 8 bytes in cell order; fload
empties the windows, and a poisoned word poisons its cell and sets FMC. -/
def Sys2Proof.Claims.FrameSaveAndLoad : Prop :=
  ∀ (a : GReg) (o : Nat → Nat) (u : UnitOp) (rest : List UnitOp) (s : State),
    UnitReady u rest s → u.parked = none → s.hart.snap = false → u.vstart < 4096 → s.core.storeQ = [] →
    sparseWf 0#64 s.core.cells = true →
    let top := u.vstart / 8 * 8 + 8
    let block := fun n => u.vstart ≤ n ∧ n < top
    let after := if 4096 ≤ top then rest else { u with vstart := top, busy := false } :: rest
    (∀ n, block n → BenchAccess s (u.ga + BitVec.ofNat 64 (8 * n)) (o n) 8) →
    (u.instr = .fsave a → u.hyp = 0#12 → NoSuperstep s → BenchWf s → s.core.winPair = .none → s.core.winCount = 0 →
      Completes .frameKstep s (fun t =>
        (∀ n, block n → t.core.benchNat (o n) 8 = uv (cellOf s n)) ∧
        (∀ z, (∀ n, block n → z < o n ∨ o n + 8 ≤ z) → t.core.benchNat z 1 = s.core.benchNat z 1) ∧
        (∀ z, t.peek z 1 = s.peek z 1) ∧ (∀ n, cellOf t n = cellOf s n) ∧ t.core.units = after ∧
        t.core.vrows = s.core.vrows ∧ t.hart = s.hart ∧ t.pkg = s.pkg)) ∧
    (u.instr = .fload a → s.core.checkedStores = [] →
      (∀ n, block n → s.core.invalidWords (o n) 8 = [] ∧ natSetHas s.core.softBench (o n / 8) = false) →
      Completes .frameKstep s (fun t =>
        (∀ n, cellOf t n = if block n then
            (if s.core.benchPoisoned (o n) 8 = true then 0x8000000000000000#64 else BitVec.ofNat 64 (s.core.benchNat (o n) 8))
          else cellOf s n) ∧
        (∀ n, chanOf t n = Chan.zero) ∧ t.core.winCount = 0 ∧ t.core.winPair = .none ∧ t.core.units = after ∧
        t.hart = { s.hart with fsr := t.hart.fsr } ∧ t.core.vrows = s.core.vrows ∧ t.pkg = s.pkg ∧ SameBytes s t ∧
        ((∀ n, block n → s.core.benchPoisoned (o n) 8 = false) → t.hart.fsr = s.hart.fsr) ∧
        ((∃ n, block n ∧ s.core.benchPoisoned (o n) 8 = true) → t.hart.fsr = s.hart.fsr ||| Flags.fmc)))

/-- The frame (07:R141, R144, R146, R147, R149, R156, R160, R163): clearing, concluding, one k-step of mmo without
scales, and fsave and fload of a block. -/
def Obligations.FrameOperations : Prop := Claims.FrameClearAndConclude ∧ Claims.MatrixStep ∧ Claims.FrameSaveAndLoad

/-! ### Tasks, joins and the gang barrier. -/

/-- spawn and qput (12:R273): status 3, 2 or 1 in the order of the rule, and then nothing but g(d) is changed; status 0 in
a SNAP superstep reserves a slot for the record. A misaligned record address raises 0x02, an explicit hypothesis 0x07. u is
the state in which the reads of the record leave the machine; the instruction waits while another core owns the line of the
queue's descriptor or of its slot. -/
def Sys2Proof.Claims.EnqueueStatuses : Prop :=
  ∀ (d a : GReg) (ws : List Word) (s u : State),
    let ea := s.g a
    let puts (i : Instr) (named : Prop) (q : BitVec 12) : Prop :=
      (uv ea % 64 ≠ 0 → Traps i 0x02#8 ea s) ∧
      (uv ea % 64 = 0 → s.hart.hyp ≠ 0#12 → s.hart.snap = false → Traps i 0x07#8 ea s) ∧
      (uv ea % 64 = 0 → (s.hart.hyp = 0#12 ∨ s.hart.snap = true) → named → s.queueForeign q = true →
        Machine.exec i s = .next s) ∧
      (uv ea % 64 = 0 → (s.hart.hyp = 0#12 ∨ s.hart.snap = true) → Settled s → (named → s.queueForeign q = false) →
        s.readRecord ea = .ok ws u →
        let good := GoodRecord ws u.hart.ctxid u.hart.sys u
        let gives (v : Word) : Prop := Completes i s (Writes d v u)
        (¬(named ∧ Admits q u) → gives 3) ∧
        (named → Admits q u → ¬good → gives 2) ∧
        (named → Admits q u → good → FullQueue q u → gives 1) ∧
        (named → Admits q u → good → ¬FullQueue q u → u.hart.snap = true → Completes i s (fun t =>
          RegsAfter d 0 u t ∧ Retired u t ∧ OnlyRegs u t ∧ t.pkg = u.pkg ∧ SameBytes u t ∧
          t.core = { u.core with reserved := u.core.reserved ++ [Reserved.mk u.hart.gangid q ws] })))
    puts (.spawn d a) True s.hart.queue ∧
    puts (.qput d a) ((s.g d).extractLsb' 12 52 = 0#52) ((s.g d).setWidth 12)

/-- Status 0 outside a SNAP superstep (12:R260, R273): the record stands in the slot at the old tail, zero in its reserved
bits, the tail has moved on by one modulo N, and every other byte of memory is as before. u is the state in which the reads of
the record leave the machine. -/
def Sys2Proof.Claims.EnqueuePlacesTheRecord : Prop :=
  ∀ (d a : GReg) (ws : List Word) (s u : State),
    let q := s.hart.queue
    let desc := u.queueDesc q
    let slot := desc.base + 64 * desc.tail
    let at_ := u.pkg.qdtbase.toNat + 32 * q.toNat
    uv (s.g a) % 64 = 0 → s.hart.hyp = 0#12 → s.hart.snap = false → Settled s → s.queueForeign q = false →
    s.readRecord (s.g a) = .ok ws u → u.hart.snap = false → GoodRecord ws u.hart.ctxid u.hart.sys u → Admits q u →
    ¬FullQueue q u → u.queueForeign q = false → u.core.owned (slot / 64) = none → u.core.owned (at_ / 64) = none →
    u.pkg.versions = [] → desc.base % 64 = 0 → u.pkg.qdtbase.toNat % 64 = 0 → u.MemWf → (slot + 64 ≤ at_ ∨ at_ + 32 ≤ slot) →
    Completes (.spawn d a) s (fun t =>
      RegsAfter d 0 u t ∧ Retired u t ∧
      (∀ k < 8, t.peek (slot + 8 * k) 8 = uv (recKept ws k)) ∧
      (t.queueDesc q).tail = (desc.tail + 1) % desc.n ∧ (t.queueDesc q).head = desc.head ∧
      (∀ x, (x < slot ∨ slot + 64 ≤ x) → (x < at_ + 14 ∨ at_ + 16 ≤ x) → t.peek x 1 = u.peek x 1) ∧
      (∀ o, t.core.benchNat o 1 = u.core.benchNat o 1))

/-- spawn and qput (12:R260, R273): the statuses in their order, and with status 0 the record in the slot at the tail.
-/
def Obligations.Enqueues : Prop := Claims.EnqueueStatuses ∧ Claims.EnqueuePlacesTheRecord

/-- join (12:R274): the traps of a misaligned address, of an address that is neither WB-device nor UC-device memory, the
bench window among them, and under an explicit hypothesis; on a counter of WB-device memory, once the checks of the
continuation's record have been made (s1), g(d) is the old count; 0 changes nothing, a count above 1 falls by one, and a
count of 1 gives 1, bit 63 telling that the continuation was not enqueued.
When the record is read is the model's reading (log 62). -/
def Obligations.JoinCountsDown : Prop :=
  ∀ (d a : GReg) (dpa : Nat) (mt : MemType) (cnt : Bool) (first : List Word × Bool) (s s0 s1 : State),
    let ea := s.g a
    let i : Instr := .join d a
    let old := s1.pkg.read dpa 4
    (uv ea % 64 ≠ 0 → Traps i 0x02#8 ea s) ∧
    (uv ea % 64 = 0 → InWindow ea → Traps i 0x03#8 ea s) ∧
    (uv ea % 64 = 0 → ¬InWindow ea → s.locate ea 4 .atomic = .ok (.mem dpa mt cnt) s0 → HandlerReady s0 →
      (mt ≠ .wb ∧ mt ≠ .uc → Completes i s (Trapped 0x03#8 ea s0.hart.pc s0)) ∧
      ((mt = .wb ∨ mt = .uc) → s0.hart.hyp ≠ 0#12 → s0.hart.snap = false →
        Completes i s (Trapped 0x07#8 ea s0.hart.pc s0))) ∧
    (uv ea % 64 = 0 → ¬InWindow ea → s.locate ea 4 .atomic = .ok (.mem dpa .wb cnt) s0 → s0.hart.hyp = 0#12 →
      s0.checkRecord (ea + 64#64) = .ok first s1 → s1.hart.hyp = 0#12 → s1.hart.maint = false → Settled s1 → HomeCounter s1 dpa →
      s1.queueForeign (BitVec.ofNat 12 (s1.peek (dpa + 8) 8)) = false →
      (old = 0 → Completes i s (fun t => RegsAfter d 0 s1 t ∧ Retired s1 t ∧ ∀ x, t.pkg.read x 1 = s1.pkg.read x 1)) ∧
      (1 < old → Completes i s (fun t =>
        RegsAfter d (BitVec.ofNat 64 old) s1 t ∧ Retired s1 t ∧ t.pkg.read dpa 4 = old - 1 ∧
        ∀ x, (x < dpa ∨ dpa + 4 ≤ x) → t.pkg.read x 1 = s1.pkg.read x 1)) ∧
      (old = 1 → s1.hart.snap = false → Completes i s (fun t =>
        (RegsAfter d 1 s1 t ∨ RegsAfter d (1#64 ||| (1#64 <<< 63)) s1 t) ∧ Retired s1 t)))

/-- The gang barrier (12:R265, R275, R276): gbar, with the hart's writes performed and its puts landed, and gred record an
arrival and wait while another live member has not arrived; in a gang without other live members gbar releases at
once with a fresh stamp and gred gives back its operand.
Which puts a gbar waits for is the model's reading (log 61). -/
def Sys2Proof.Claims.BarrierArrivals : Prop :=
  ∀ (d a : GReg) (op : GredOp) (rm : Rm) (s : State),
    let quiet := Settled s ∧ ∀ o ∈ s.core.peel, isPut o.instr = true → o.tokPkg ≠ s.pkg.mypkg
    let waits (i : Instr) (k : SyncKind) (d : GReg) (v : Word) : Prop := s.allArrived = false →
      Completes i s (fun t => SameRegs s t ∧ OutsideSame s t ∧ t.hart.pc = s.hart.pc ∧ t.hart.instret = s.hart.instret ∧
        t.hart.run = .barrier ∧ ∃ w, t.hart.arrival = some { kind := k, operand := v, dest := d, word := w })
    let alone := s.liveOthers = [] ∧ s.pkg.arrivals = [] ∧ s.hart.snap = false ∧ s.hart.gidx.toNat < s.hart.gsize.toNat
    (quiet → waits .gbar .gbar 0#5 0) ∧
    waits (.gred d a op rm) (.gred op rm) d (s.g a) ∧
    (quiet → alone → s.pkg.saved.length + s.pkg.otherStamps.length < 2 ^ 16 → Completes .gbar s (fun t => SameRegs s t ∧ Retired s t ∧ t.hart.run = .running ∧
      t.hart.arrival = none ∧ t.hart.syncst = t.pkg.stamp ∧ t.hart.rbCur = 0#2 ∧ (∀ g ∈ s.pkg.saved, g.stamp ≠ t.hart.syncst) ∧
      t.hart.syncst ∉ s.pkg.otherStamps ∧
      (t.hart.ltime = s.hart.ltime ∨ ∃ w, s.hart.maxRead = some w ∧ t.hart.ltime = serMax s.hart.ltime w) ∧
      t.core = s.core ∧ SameBytes s t)) ∧
    (alone → Completes (.gred d a op rm) s (fun t => RegsAfter d (s.g a) s t ∧ Retired s t ∧ t.hart.run = .running ∧
      t.hart.arrival = none ∧ OnlyRegs { s with hart := { s.hart with run := .running, arrival := none, rbCur := 0#2 } } t ∧
      t.core = s.core ∧ SameBytes s t))

/-- The release (12:R265, R275, R276, 09:R205): an arrival of another member is noted once; when the last has come, a gbar
takes the largest LTIME of the arrivals and continues, a gred combines the operands in gang-index order; a barrier
whose members disagree in kind raises 0x01.
At which releases a superstep is captured and which puts count is the model's reading (logs 59, 61). -/
def Sys2Proof.Claims.BarrierReleases : Prop :=
  ∀ (p : Pending) (m : Arrival) (s : State),
    s.hart.trigger = false → s.hart.snap = false →
    (s.hart.run ≠ .idle → s.liveOthers.contains m.gidx.toNat = true → (∀ x ∈ s.pkg.arrivals, x.gidx ≠ m.gidx) →
      Completes (.barrierArrival m) s (fun t => t.hart = s.hart ∧ t.core = s.core ∧
        t.pkg = { s.pkg with arrivals := s.pkg.arrivals ++ [m] })) ∧
    (s.hart.run = .barrier → s.hart.arrival = some p → s.allArrived = false →
      Completes .barrierRelease s (fun t => t = s)) ∧
    (s.hart.run = .barrier → s.hart.arrival = some p → s.allArrived = true → s.kindsAgree = true → p.kind = .gbar →
      s.hart.maint = false → Completes .barrierRelease s (fun t => SameRegs s t ∧ Retired s t ∧ t.hart.run = .running ∧
        t.hart.ltime = s.pkg.arrivals.foldl (fun n a => serMax n a.ltime) s.hart.ltime ∧ t.hart.rbCur = 0#2 ∧
        t.pkg.arrivals = [] ∧ t.core = s.core ∧ SameBytes s t)) ∧
    (s.hart.run = .barrier → s.hart.arrival = some p → s.allArrived = true → s.kindsAgree = true →
      p.kind = .gred .add .rne → Completes .barrierRelease s (fun t => Retired s t ∧ t.hart.run = .running ∧
        RegsAfter p.dest ((s.gredOperands p.operand).foldl (· + ·) 0) s t ∧ t.hart.vfsr = s.hart.vfsr ∧
        t.pkg.arrivals = [] ∧ t.core = s.core ∧ SameBytes s t)) ∧
    (s.hart.run = .barrier → s.hart.arrival = some p → s.allArrived = true → s.kindsAgree = false → HandlerReady s →
      Completes .barrierRelease s (fun t => SameRegs s t ∧ t.hart.trapcause = 0x01#8 ∧
        t.hart.trapval = p.word.zeroExtend 64 ∧ t.hart.trappc = s.hart.pc ∧ t.hart.arrival = none ∧ t.core = s.core))

/-- The gang barrier (12:R265, R275, R276, 09:R205): arrivals, and the release that combines them. -/
def Obligations.GangBarrier : Prop := Claims.BarrierArrivals ∧ Claims.BarrierReleases

/-- tend outside a SNAP gang (12:R272): with its earlier work complete the hart is idle, HYP 0, its ARRAY ways and its BENCH
ways without a rack in CACHE mode; in a SNAP gang it arrives and waits while another live member has not; while
earlier work is unfinished it waits. -/
def Obligations.TaskEnds : Prop :=
  ∀ (s : State),
    let done := s.core.units = [] ∧ s.core.storeQ = [] ∧ s.pkg.peerWritesOut = false ∧ ∀ o ∈ s.core.peel, o.out = true
    (¬done → Machine.exec .tend s = .next s) ∧
    (done → s.hart.snap = false → Completes .tend s (fun t => SameRegs s t ∧ t.hart.run = .idle ∧ t.hart.hyp = 0#12 ∧
      t.hart.hypdepth = 0#4 ∧ t.hart.instret = s.hart.instret + 1#64 ∧ t.hart.pc = s.hart.pc ∧
      (∀ k : Fin 8, s.core.ways[k].mode ≠ .cache → s.core.ways[k].ctx = s.hart.ctxid → s.core.rackWays.getLsbD k.val = false →
        t.core.ways[k].mode = .cache) ∧
      (∀ k : Fin 8, (s.core.ways[k].mode = .cache ∨ s.core.ways[k].ctx ≠ s.hart.ctxid ∨
        s.core.rackWays.getLsbD k.val = true) → t.core.ways[k] = s.core.ways[k]) ∧
      (∀ x, t.peek x 1 = s.peek x 1))) ∧
    (done → s.hart.snap = true → s.allArrived = false → Completes .tend s (fun t => t.hart = { s.hart with run := .ending } ∧
      OutsideSame s t))

/-! ### Ways, cache and bench instructions. -/

/-- wconv (08:R178 to R180): the statuses in their order, each leaving all but g(d) unchanged; status 0 gives the named ways
the new mode, the context and zero contents and writes a dirty line back; a first ARRAY way clears VDIRTY and PDIRTY,
a later one sets them; nothing happens before the hart's array-side and peel work is complete.
The order of the statuses is the model's reading (log 20). -/
def Sys2Proof.Claims.WayConversion : Prop :=
  ∀ (d a : GReg) (l : Line) (s : State),
    let v := s.g a
    let m : BitVec 8 := v.setWidth 8
    let wconv (i : Instr) (array : Bool) : Prop :=
      let one := BadMask v
      let two := SomeWay m (fun k => s.core.ways[k].mode ≠ .cache)
      let three := SomeWay m (fun k => s.hart.lanesWays.getLsbD k.val ≠ array)
      let four := (∃ x ∈ s.core.lines, m.getLsbD x.way.toNat = true ∧ x.lock ≠ []) ∨
        ∃ x ∈ s.pkg.versions, x.lock ≠ [] ∧ ∃ w, x.place = .way w ∧ m.getLsbD w.toNat = true
      let clear := (∀ x ∈ s.core.lines, m.getLsbD x.way.toNat = false)
      let versions := ∀ x ∈ s.pkg.versions, ∀ w, x.place = .way w → m.getLsbD w.toNat = false
      let converted (t : State) : Prop := RegsAfter d 0 s t ∧ Retired s t ∧
        (∀ k : Fin 8, t.core.ways[k] = if m.getLsbD k.val = true then
          { mode := if array = true then .array else .bench, ctx := s.hart.ctxid } else s.core.ways[k]) ∧
        (∀ o, m.getLsbD (o / 2 ^ 20 + 1) = true → o < 7 * 2 ^ 20 → t.core.benchNat o 1 = 0) ∧
        (∀ o, m.getLsbD (o / 2 ^ 20 + 1) = false → t.core.benchNat o 1 = s.core.benchNat o 1) ∧
        (∀ k, m.getLsbD (k / 2 ^ 14 % 8) = true → sparseGet 0#32 t.core.vrows k = 0#32) ∧
        (let before := SomeWay s.hart.lanesWays (fun k => s.core.ways[k].mode = .array);
          (array = true → ¬before → t.hart.vdirty = 0#16 ∧ t.hart.pdirty = 0#32) ∧
          (array = true → before → t.hart.vdirty = 0xFFFF#16 ∧ t.hart.pdirty = 0xFFFFFFFE#32) ∧
          (array = false → t.hart.vdirty = s.hart.vdirty ∧ t.hart.pdirty = s.hart.pdirty))
      (s.core.units ≠ [] ∨ (∃ o ∈ s.core.peel, o.out = false) → Machine.exec i s = .next s) ∧
      (s.core.units = [] → (∀ o ∈ s.core.peel, o.out = true) →
        (one → Gives i d 1 s) ∧
        (¬one → two → Gives i d 2 s) ∧
        (¬one → ¬two → three → Gives i d 3 s) ∧
        (¬one → ¬two → ¬three → four → Gives i d 4 s) ∧
        (¬one → ¬two → ¬three → ¬four → s.spillsFit (s.versionsIn m) = false → Gives i d 5 s) ∧
        (¬one → ¬two → ¬three → versions → BenchWf s → sparseWf 0#32 s.core.vrows = true →
          (clear → Completes i s (fun t => converted t ∧ t.pkg = s.pkg ∧ t.core.lines = s.core.lines)) ∧
          (s.core.lines = [l] → m.getLsbD l.way.toNat = true → l.lock = [] → l.st = .d → l.hyp = 0#12 → s.MemWf →
            Completes i s (fun t => converted t ∧ t.core.lines = [] ∧ t.pkg.lineData l.line = l.data ∧
              (t.pkg.home l.line).owner = none))))
    wconv (.wconvArray d a) true ∧ wconv (.wconvBench d a) false

/-- wrel (08:R166, R179, R181): statuses 1 to 3 in their order; status 0 returns the named ways to CACHE with no write-back,
clearing VDIRTY and PDIRTY where an ARRAY way is among them. -/
def Sys2Proof.Claims.WayRelease : Prop :=
  ∀ (d a : GReg) (s : State),
    let v := s.g a
    let m : BitVec 8 := v.setWidth 8
    let i : Instr := .wrel d a
    let pinned := SomeWay m (fun k => s.core.ways[k].mode ≠ .cache ∧ s.core.ways[k].ctx ≠ s.hart.ctxid)
    let racked := SomeWay m (fun k => s.core.rackWays.getLsbD k.val = true)
    let array := SomeWay m (fun k => s.core.ways[k].mode = .array)
    (s.core.units ≠ [] ∨ (∃ o ∈ s.core.peel, o.out = false) → Machine.exec i s = .next s) ∧
    (s.core.units = [] → (∀ o ∈ s.core.peel, o.out = true) →
      (BadMask v → Gives i d 1 s) ∧
      (¬BadMask v → pinned → Gives i d 2 s) ∧
      (¬BadMask v → ¬pinned → racked → Gives i d 3 s) ∧
      (¬BadMask v → ¬pinned → ¬racked → BenchWf s → Completes i s (fun t => RegsAfter d 0 s t ∧ Retired s t ∧ t.pkg = s.pkg ∧
        t.core.lines = s.core.lines ∧
        (∀ k : Fin 8, t.core.ways[k] = if m.getLsbD k.val = true ∧ s.core.ways[k].mode ≠ .cache then
          { mode := .cache, ctx := 0#8 } else s.core.ways[k]) ∧
        (array → t.hart.vdirty = 0#16 ∧ t.hart.pdirty = 0#32) ∧
        (¬array → t.hart.vdirty = s.hart.vdirty ∧ t.hart.pdirty = s.hart.pdirty) ∧
        (∀ o, o < 7 * 2 ^ 20 → m.getLsbD (o / 2 ^ 20 + 1) = false → t.core.benchNat o 1 = s.core.benchNat o 1))))

/-- wconv and wrel (08:R166, R178 to R181): the statuses in their order, and what status 0 changes. -/
def Obligations.Ways : Prop := Claims.WayConversion ∧ Claims.WayRelease

/-- cflush, cclean and cinv on a line that the core holds dirty (08:R169, R183, R184): cflush writes it back and drops it,
cclean writes it back and keeps it owned and clean, cinv drops it with its data; on a line that the core does not hold
each changes nothing.
The permission that cinv needs is the model's reading (log 36). -/
def Sys2Proof.Claims.CacheInstructions : Prop :=
  ∀ (a : GReg) (dpa : Nat) (l : Line) (acc : FaultAccess) (s : State),
    let gone (t : State) : Prop := ∀ x ∈ t.core.lines, ¬(x.line = dpa / 64 ∧ x.hyp = 0#12)
    (HoldsLine s (s.g a) .read dpa l → l.st = .d → Completes (.cflush a) s (fun t => CacheDone s t ∧ gone t ∧
      t.pkg.lineData (dpa / 64) = l.data ∧ (t.pkg.home (dpa / 64)).owner = none ∧
      ∀ x, (x < dpa / 64 * 64 ∨ dpa / 64 * 64 + 64 ≤ x) → t.pkg.read x 1 = s.pkg.read x 1)) ∧
    (HoldsLine s (s.g a) .read dpa l → l.st = .d → Completes (.cclean a) s (fun t => CacheDone s t ∧
      t.pkg.lineData (dpa / 64) = l.data ∧ (t.pkg.home (dpa / 64)).owner = some s.core.num ∧
      (∃ x, t.core.findLine (dpa / 64) 0#12 = some x ∧ x.st = .o ∧ x.data = l.data) ∧
      ∀ x, (x < dpa / 64 * 64 ∨ dpa / 64 * 64 + 64 ≤ x) → t.pkg.read x 1 = s.pkg.read x 1)) ∧
    (HoldsLine s (s.g a) .write dpa l → l.st = .d → Completes (.cinv a) s (fun t => CacheDone s t ∧ gone t ∧
      (t.pkg.home (dpa / 64)).owner = none ∧ ∀ x, t.pkg.read x 1 = s.pkg.read x 1)) ∧
    (∀ i ∈ [Instr.cflush a, .cclean a, .cinv a], acc = (if i = .cinv a then .write else .read) →
      s.locate (s.g a) 1 acc = .ok (.mem dpa .wb false) s → NoStoreOver s (.mem (dpa / 64 * 64) .wb false) 64 →
      s.memBusy = false → s.core.findLine (dpa / 64) 0#12 = none →
      Completes i s (fun t => SameRegs s t ∧ Retired s t ∧ OnlyRegs s t ∧ OutsideSame s t))

/-- lock and unlock (08:R185): status 1 for a line already locked by the context, 2 when LOCKUSE equals LOCKQ, 3 when every
CACHE way of the set holds a locked line, 0 when a line that the core owns is locked, LOCKUSE rising by one; unlock gives 0 and
takes the lock away, or 1 and changes nothing.
That 3 comes before a line already present is the model's reading (log 20). -/
def Sys2Proof.Claims.LinesAreLocked : Prop :=
  ∀ (d a : GReg) (dpa : Nat) (l : Line) (s : State),
    let use (t : State) : Nat := t.core.lines.countP (fun x => x.lock.contains s.hart.ctxid)
    let mine := l.lock.contains s.hart.ctxid = true
    let single := ∀ x ∈ s.core.lines, x.line = dpa / 64 → x = l
    let once := s.core.lines.countP (fun x => x.line = dpa / 64) = 1
    let full := s.setLocked (dpa / 64) = true
    HoldsLine s (s.g a) .read dpa l → single → once → s.inHostBias dpa = false → s.hart.hyp = 0#12 →
    (∀ v ∈ s.pkg.versions, v.line ≠ dpa / 64) →
    (mine → Gives (.lock d a) d 1 s) ∧
    (¬mine → use s = s.hart.lockq.toNat → Gives (.lock d a) d 2 s) ∧
    (¬mine → use s ≠ s.hart.lockq.toNat → full → Gives (.lock d a) d 3 s) ∧
    (¬mine → use s ≠ s.hart.lockq.toNat → ¬full → l.st ≠ .v → Completes (.lock d a) s (fun t =>
      RegsAfter d 0 s t ∧ Retired s t ∧ t.hart = { s.hart with
        g := t.hart.g, pc := t.hart.pc, instret := t.hart.instret, maxRead := t.hart.maxRead } ∧
      t.pkg = s.pkg ∧ use t = use s + 1 ∧
      ∃ x, t.core.findLine (dpa / 64) 0#12 = some x ∧ x.lock.contains s.hart.ctxid = true ∧ x.data = l.data)) ∧
    (mine → Completes (.unlock d a) s (fun t => RegsAfter d 0 s t ∧ Retired s t ∧ OnlyRegs s t ∧ t.pkg = s.pkg ∧
      use t + 1 = use s)) ∧
    (¬mine → Gives (.unlock d a) d 1 s)

/-- Cache instructions and locks (08:R169, R183 to R185) on a line that the core holds. -/
def Obligations.CacheLines : Prop := Claims.CacheInstructions ∧ Claims.LinesAreLocked

/-- bclr (08:R186): operands that are no multiples of 8, a range outside BENCH ways, and an ENGINE granule trap in that
order before any change; an empty range does nothing; otherwise the range reads zero and is invalid, and no other byte
changes.
What it waits for, and TRAPVAL, are the model's readings (logs 35, 37). -/
def Obligations.BenchRangesAreCleared : Prop :=
  ∀ (a b : GReg) (s : State),
    let va := s.g a
    let n := uv (s.g b)
    let o := uv va - 0xFF00_0000_0000
    let window := 0xFF00_0000_0000 ≤ uv va ∧ uv va < 0xFF01_0000_0000
    let i : Instr := .bclr a b
    (uv va % 8 ≠ 0 → Traps i 0x02#8 va s) ∧
    (uv va % 8 = 0 → n % 8 ≠ 0 → Traps i 0x02#8 (s.g b) s) ∧
    (uv va % 8 = 0 → n = 0 → Completes i s (fun t => SameRegs s t ∧ Retired s t ∧ OnlyRegs s t ∧ OutsideSame s t)) ∧
    (uv va % 8 = 0 → n % 8 = 0 → n ≠ 0 →
      (¬(window ∧ s.core.benchIn s.hart.ctxid o n = true) → Traps i 0x03#8 va s) ∧
      (window → s.core.benchIn s.hart.ctxid o n = true → (granules o n).any s.core.engineOwned = true → Traps i 0x09#8 va s) ∧
      (window → s.core.benchIn s.hart.ctxid o n = true → (granules o n).any s.core.engineOwned = false →
        s.hart.hyp ≠ 0#12 → s.hart.snap = false → Traps i 0x07#8 va s) ∧
      (window → s.core.benchIn s.hart.ctxid o n = true → (granules o n).any s.core.engineOwned = false →
        s.hart.hyp = 0#12 → NoSuperstep s → Settled s → BenchWf s →
        Completes i s (fun t => SameRegs s t ∧ Retired s t ∧ OnlyRegs s t ∧ t.pkg = s.pkg ∧
          (∀ x, o ≤ x → x < o + n → t.core.benchNat x 1 = 0 ∧ natSetHas t.core.benchInvalid (x / 8) = true) ∧
          (∀ x, (x < o ∨ o + n ≤ x) → t.core.benchNat x 1 = s.core.benchNat x 1 ∧
            natSetHas t.core.benchInvalid (x / 8) = natSetHas s.core.benchInvalid (x / 8)))))

/-! ### The peel engine. -/

/-- Issue of pcopy, pcopy.x, bput, vput and rrot (11:R231, R236, R238 to R240, R248, R251, 17:R323): the checks in their
order, a vector operand's first; then the operation is queued and its elements counted at the barrier. Counting at issue,
TRAPVAL of ranges and of puts under a hypothesis, and that vput and pcopy.x wait until the units are empty are the model's
readings (logs 31, 35, 39, 18). -/
def Obligations.PeelIssue : Prop :=
  ∀ (d a b : GReg) (x : VReg) (s : State),
    let z := peelWidth s
    let bytes := peelElems s * z
    let vd := s.g d
    let va := s.g a
    let vb := s.g b
    let off := s.g (d + 1#5)
    let mult (v : Word) (n : Nat) : Prop × BitVec 8 × Word := (uv v % n = 0, 0x02#8, v)
    let tb : Prop × BitVec 8 × Word := (BenchRange s vb 16, 0x03#8, vb)
    let own (v : Word) (n : Nat) : Prop × BitVec 8 × Word := (¬InWindow v ∨ BenchRange s v n, 0x03#8, v)
    let hyp : Prop × BitVec 8 × Word := (s.hart.hyp = 0#12 ∨ s.hart.snap = true ∨ InWindow vd, 0x07#8, vd)
    let inRack : Prop := (∃ r, s.core.rack = some r ∧ r.ctx = s.hart.ctxid) ∧
      s.core.rackWays.getLsbD (offsetOf vb / 2 ^ 20 + 1) = true
    let rack : Prop × BitVec 8 × Word := (inRack, 0x03#8, vb)
    let root : Prop × BitVec 8 × Word := (s.hart.hyp = 0#12, 0x07#8, 0)
    let fd := firstAt s vd
    let fa := firstAt s va
    let ready := s.arrayReady = true ∧ Even (et s).sew [x]
    PeelIssues (.pcopy d a b) [mult vd z, mult va z, mult vb 16, tb, own fd bytes, own fa bytes, hyp] vd 0 va vb false
      (peelElems s) s ∧
    (¬ready → IllegalUnless False (.pcopyX d a b x) s) ∧
    (ready → PeelIssues (.pcopyX d a b x)
      [mult vd z, mult va z, mult vb 16, tb, own fd bytes, own va (if peelElems s = 0 then 0 else z), hyp] vd 0 va vb true
      (peelElems s) s) ∧
    (∀ i ∈ [Instr.bput d a b, .bputF d a b], PeelIssues i
      [mult off z, mult va z, mult vb 16, tb, rack, (BenchRange s fa bytes, 0x03#8, fa), root] vd off va vb false (peelElems s) s) ∧
    (∀ i ∈ [Instr.vput d x b, .vputF d x b],
      (¬ready → IllegalUnless False i s) ∧
      (ready → PeelIssues i [mult off z, mult vb 16, tb, rack, root] vd off 0 vb true (peelElems s) s)) ∧
    PeelIssues (.rrot d a b)
      [mult vd z, mult va z, mult vb 16, tb, (BenchRange s fd bytes, 0x03#8, fd), (BenchRange s fa bytes, 0x03#8, fa),
       (bytes = 0 ∨ uv fd + bytes ≤ uv fa ∨ uv fa + bytes ≤ uv fd, 0x03#8, vd)] vd 0 va vb false (2 * peelElems s) s

/-- The peel engine's steps (11:R231, R236, R240, 23:R387): PEEL_OP_START activates the oldest waiting operation while fewer than
eight are active and no freeze is on; PEEL_ELEMENT of a copy within the bench moves one element of an ENGINE granule to another, lowers EP
by one, and with the last element counts the operation's arrival, which completes the phase. -/
def Obligations.PeelProgress : Prop :=
  ∀ (d a b : GReg) (o : PeelOp) (s : State), s.hart.trigger = false →
    let z := (modeEt o.mode).sew / 8
    let src := offsetOf o.ga + o.vstart * z
    let dst := offsetOf o.gd + o.vstart * z
    let tb := offsetOf o.gb
    let t0 := s.core.tb tb
    (s.pkg.freezing = true → Completes .peelOpStart s (fun t => t = s)) ∧
    (s.pkg.freezing = false → s.core.peel.countP (·.active) < 8 → s.core.peel.find? (fun x => !x.active) = some o → o.vstart < o.vl →
      (isPut o.instr = false ∨ s.putLost o = false) → Completes .peelOpStart s (fun t => t.hart = s.hart ∧ t.pkg = s.pkg ∧
        t.core = { s.core with peel := s.core.peel.map (fun x => if x.id = o.id then { o with active := true } else x) })) ∧
    (s.core.peel = [o] → o.instr = .pcopy d a b → o.active = true → o.parked = none → o.old = [] → o.hyp = 0#12 →
      o.vstart < o.vl → o.sent = [] → o.moved = [] → o.ended = false → s.hart.snap = false → NoSuperstep s → NoInjection s →
      BenchWf s →
      InWindow o.ga → InWindow o.gd → InWindow o.gb → offsetOf o.ga + o.vl * z ≤ 7 * 2 ^ 20 →
      offsetOf o.gd + o.vl * z ≤ 7 * 2 ^ 20 → src % z = 0 → dst % z = 0 → tb % 16 = 0 →
      s.core.benchIn s.hart.ctxid src z = true → s.core.benchIn s.hart.ctxid dst z = true →
      (granules src z).all s.core.engineOwned = true → (granules dst z).all s.core.engineOwned = true →
      CleanBench s src z → (dst + z ≤ tb ∨ tb + 16 ≤ dst) → t0.ef = false → 0 < t0.ep.toNat →
      Completes (.peelElement 0 (.own none none)) s (fun t => t.hart = s.hart ∧ t.pkg = s.pkg ∧
        t.core.benchNat dst z = s.core.benchNat src z ∧
        (∀ x, natSetHas s.core.benchInvalid (x / 8) = false → (x < dst ∨ dst + z ≤ x) → (x < tb ∨ tb + 16 ≤ x) →
          t.core.benchNat x 1 = s.core.benchNat x 1) ∧
        (o.vstart + 1 < o.vl → 1 < t0.ep.toNat → (t.core.tb tb).ep = t0.ep - 1#32 ∧ (t.core.tb tb).ap = t0.ap ∧
          (t.core.tb tb).ph = t0.ph ∧ ∃ o', t.core.peel = [o'] ∧ o'.vstart = o.vstart + 1 ∧ o'.base = o.base + 1) ∧
        (o.vstart + 1 = o.vl → t0.ep = 1#32 → t0.ap = 1#16 → t0.ae ≠ 0#16 → t.core.peel = [] ∧
          t.core.tb tb = { t0 with ph := t0.ph + 1#4, ap := t0.ae, ll := 0#32, ep := 0#32 })))

/-- Owner flips (11:R241): operands that are no multiples of 4096 or lie outside the bench trap in order; own.e, after the
hart's accesses, gives the granules to the engine; own.h waits for operations on them, refuses with 2 a granule of a
pan that is not the hart's yet, and otherwise takes them back with 0.
TRAPVAL of the 0x03 trap, the start of the range, is the model's choice (log 35). -/
def Obligations.OwnerFlips : Prop :=
  ∀ (d a b : GReg) (s : State),
    let va := s.g a
    let n := uv (s.g b)
    let o := offsetOf va
    let cs : List (Prop × BitVec 8 × Word) :=
      [(uv va % 4096 = 0, 0x02#8, va), (n % 4096 = 0, 0x02#8, s.g b), (n = 0 ∨ BenchRange s va n, 0x03#8, va)]
    let owned (t : State) (engine : Bool) : Prop :=
      (∀ g, g ∈ granules o n → natSetHas t.core.benchEngine g = engine) ∧
      (∀ g, g ∉ granules o n → natSetHas t.core.benchEngine g = natSetHas s.core.benchEngine g) ∧
      t.core = { s.core with benchEngine := t.core.benchEngine } ∧ t.pkg = s.pkg
    TrapsInOrder (.ownE a b) s cs ∧ TrapsInOrder (.ownH d a b) s cs ∧
    (AllHold cs → sparseWf false s.core.benchEngine = true → NoSuperstep s →
      (¬Settled s → Machine.exec (.ownE a b) s = .next s) ∧
      (Settled s → Completes (.ownE a b) s (fun t => SameRegs s t ∧ PeelRetired s t ∧
        owned t true)) ∧
      (n = 0 → PeelGives (.ownH d a b) d 0 s) ∧
      (n ≠ 0 → (∃ p ∈ s.core.peel, p.touches o n = true) → Machine.exec (.ownH d a b) s = .next s) ∧
      (n ≠ 0 → (∀ p ∈ s.core.peel, p.touches o n = false) →
        ((∃ g ∈ granules o n, s.panHolds g = true) → PeelGives (.ownH d a b) d 2 s) ∧
        ((∀ g ∈ granules o n, s.panHolds g = false) → Completes (.ownH d a b) s (fun t =>
          RegsAfter d 0 s t ∧ PeelRetired s t ∧ owned t false))))

/-- Transaction barriers (11:R234, R236, R237, R242, R243): tbi, no pan barrier's, sets expected and pending arrivals and
clears the rest once no operation counts on the barrier; tbarr, after the hart's writes, counts an arrival, the last
of a phase with no elements left completing it; tbtest and tbwait give the status word, tbwait once the barrier is in
error, in another phase or has the prefix, and until then the hart waits for TBWAIT_ANSWER. A poisoned barrier raises 0x0A,
which the model reads into 21:R359 (log 96). -/
def Obligations.TransactionBarriers : Prop :=
  ∀ (d a b : GReg) (s : State),
    let va := s.g a
    let o := offsetOf va
    let n : BitVec 16 := (s.g b).setWidth 16
    let t0 := s.core.tb o
    let pan := ∃ r, s.core.rack = some r ∧ r.tbs ≤ o ∧ o < r.tbs + 16 * r.pans.length
    let cs : List (Prop × BitVec 8 × Word) := [(uv va % 16 = 0, 0x02#8, va), (BenchRange s va 16, 0x03#8, va)]
    let phase := (s.g b).extractLsb' 0 4
    let prefix_ := (s.g b).extractLsb' 32 32
    let poisoned (o : Nat) : Prop := s.core.benchPoisoned o 16 = true
    let sound (o : Nat) : Prop := ¬poisoned o ∧
      (natRange (o / 8) ((o + 16 + 7) / 8 - o / 8)).any (natSetHas s.core.softBench) = false
    let answered (t : Tb) (p : BitVec 4) (m : BitVec 32) : Prop :=
      t.ef = true ∨ t.ph ≠ p ∨ (m ≠ 0#32 ∧ m.toNat ≤ t.ll.toNat)
    let only (t : State) : Prop := SameRegs s t ∧ PeelRetired s t ∧ t.pkg = s.pkg ∧ t.core.peel = s.core.peel ∧
      ∀ x, (x < o ∨ o + 16 ≤ x) → t.core.benchNat x 1 = s.core.benchNat x 1
    TrapsInOrder (.tbi a b) s (cs ++ [(¬pan, 0x03#8, va)]) ∧
    TrapsInOrder (.tbarr a) s cs ∧ TrapsInOrder (.tbtest d a) s cs ∧ TrapsInOrder (.tbwait d a b) s cs ∧
    (AllHold cs → NoSuperstep s →
      (¬pan → (∃ p ∈ s.core.peel, p.tbAddr = o) → Machine.exec (.tbi a b) s = .next s) ∧
      (¬pan → (∀ p ∈ s.core.peel, p.tbAddr ≠ o) → BenchWf s → Completes (.tbi a b) s (fun t => only t ∧
        t.core.tb o = { ae := n, ap := n, ef := false, ec := 0, ph := 0, ll := 0, ep := 0 })) ∧
      (Settled s → BenchWf s → Completes (.tbarr a) s (fun t => only t ∧
        (1 < t0.ap.toNat ∨ (t0.ap = 1#16 ∧ (t0.ep ≠ 0#32 ∨ t0.ef = true)) → t.core.tb o = { t0 with ap := t0.ap - 1#16 }) ∧
        (t0.ap = 1#16 → t0.ep = 0#32 → t0.ef = false → t.core.tb o =
          if t0.ae = 0#16 then { t0 with ap := 0#16 } else { t0 with ap := t0.ae, ph := t0.ph + 1#4, ll := 0#32 }) ∧
        (t0.ap = 0#16 → (t.core.tb o).ef = true ∧ (t.core.tb o).ec = if t0.ef = true then t0.ec else 5#4))) ∧
      (poisoned o → HandlerReady s → s.hart.snap = false → ∀ i ∈ [Instr.tbtest d a, .tbwait d a b], Completes i s (fun t =>
        SameRegs s t ∧ t.hart.trapcause = 0x0A#8 ∧ t.hart.trapval = va ∧ t.hart.trappc = s.hart.pc ∧ t.hart.th = true)) ∧
      (sound o → PeelGives (.tbtest d a) d (tbStatus t0) s) ∧
      (sound o → answered t0 phase prefix_ → PeelGives (.tbwait d a b) d (tbStatus t0) s) ∧
      (sound o → ¬answered t0 phase prefix_ → Completes (.tbwait d a b) s (fun t => OutsideSame s t ∧
        t.hart = { s.hart with run := .waitTb d (va.setWidth 48) phase prefix_ }))) ∧
    (∀ (w : Addr) (p : BitVec 4) (m : BitVec 32), s.hart.run = .waitTb d w p m →
      let tb := s.core.tb (w.toNat - 0xFF00_0000_0000)
      sound (w.toNat - 0xFF00_0000_0000) →
      (answered tb p m → Completes .tbwaitAnswer s (fun t => RegsAfter d (tbStatus tb) s t ∧ t.hart.run = .running ∧
        t.hart.pc = s.hart.pc + 4#48 ∧ t.core = s.core ∧ t.pkg = s.pkg)) ∧
      (¬answered tb p m → Completes .tbwaitAnswer s (fun t => t = s)))

/-- rkdef (11:R244): the statuses of a definition in their order; a good one makes a rack of FREE pans in ENGINE granules,
a removal with every pan FREE leaves none and gives the granules back.
The order of the statuses, and what the instruction answers at another context's rack, are the model's readings (logs 19, 30). -/
def Sys2Proof.Claims.RackDefinition : Prop :=
  ∀ (d a b : GReg) (s : State),
    let i : Instr := .rkdef d a b
    let base := s.g a
    let tbs := s.g b
    let shape := s.g (b + 1#5)
    let size := uv shape % 2 ^ 32
    let n := uv shape / 2 ^ 32 % 2 ^ 7
    let high := uv shape / 2 ^ 39 ≠ 0
    let bad := high ∨ 64 < n ∨ size ∉ [4096, 8192, 16384, 32768, 65536, 131072, 262144] ∨ uv base % size ≠ 0 ∨
      uv tbs % 16 ≠ 0 ∨ ¬(uv base + n * size ≤ uv tbs ∨ uv tbs + 16 * n ≤ uv base)
    let inside := BenchRange s base (n * size) ∧ BenchRange s tbs (16 * n)
    (n ≠ 0 →
      (bad → PeelGives i d 1 s) ∧
      (¬bad → ¬inside → PeelGives i d 2 s) ∧
      (¬bad → inside → s.core.rack.isSome = true → PeelGives i d 3 s) ∧
      (¬bad → inside → s.core.rack = none → sparseWf false s.core.benchEngine = true → NoSuperstep s → Completes i s (fun t =>
        RegsAfter d 0 s t ∧ PeelRetired s t ∧ t.pkg = s.pkg ∧
        (∃ r, t.core.rack = some r ∧ r.ctx = s.hart.ctxid ∧ r.base = offsetOf base ∧ r.tbs = offsetOf tbs ∧
          r.panSize = size ∧ r.pans.length = n ∧ ∀ p ∈ r.pans, p.st = .free) ∧
        (∀ g ∈ granules (offsetOf base) (n * size), t.core.engineOwned g = true) ∧
        (∀ g, g ∉ granules (offsetOf base) (n * size) → t.core.engineOwned g = s.core.engineOwned g)))) ∧
    (n = 0 →
      (high → PeelGives i d 1 s) ∧
      (¬high → s.core.rack = none → PeelGives i d 3 s) ∧
      (∀ r, ¬high → s.core.rack = some r →
        ((∃ p ∈ r.pans, p.st ≠ .free) → PeelGives i d 3 s) ∧
        ((∀ p ∈ r.pans, p.st = .free) → r.ctx ≠ s.hart.ctxid → PeelGives i d 4 s) ∧
        ((∀ p ∈ r.pans, p.st = .free) → r.ctx = s.hart.ctxid → sparseWf false s.core.benchEngine = true → NoSuperstep s →
          Completes i s (fun t => RegsAfter d 0 s t ∧ PeelRetired s t ∧ t.pkg = s.pkg ∧ t.core.rack = none ∧
            ∀ g ∈ granules r.base (r.panSize * r.pans.length), t.core.engineOwned g = false))))

/-- prsv, prel and pstat (11:R245 to R247, R250): a reservation of this core's rack answers with the token of the first FREE
pan, or of the one named, now RESV under the next sequence, or refuses; another core or package is asked and the hart
waits for the answer; prel frees a pan; pstat gives the pan's record. prsv waits while the engine's queue is full.
That no route leads to a package whose route entry is not valid, and what the instructions answer at another context's rack,
are the model's readings (logs 95, 30). -/
def Sys2Proof.Claims.PanInstructions : Prop :=
  ∀ (d a b : GReg) (i : Nat) (p : Pan) (r : Rack) (s : State),
    let v := s.g a
    let port := v.extractLsb' 28 3
    let core := v.extractLsb' 12 9
    let good := uv v < 2 ^ 31
    let pkg := v.extractLsb' 0 12
    let room := s.core.peel.countP (fun o => !o.out) < 16 ∧ ∀ o ∈ s.core.peel, o.restored = false
    let route := s.peerRoute pkg
    let waits (t : State) : Prop := SameRegs s t ∧ t.hart.pc = s.hart.pc + 4#48 ∧ t.core = s.core ∧
      t.hart.run = .waitPrsv { d := d, a := a, b := b, mode := s.hart.mode, vl := s.hart.vl, vstart := startIndex s,
                               srseed := s.hart.srseed, srcount := s.hart.srcount, ga := v, gb := s.g b }
    let here := pkg = s.pkg.mypkg ∧ core = s.core.num ∧ s.core.inReset = false
    let named := v.getLsbD 27 = false
    let want := if named then i = (v.extractLsb' 21 6).toNat else
      (∀ j < i, ∀ q, r.pans[j]? = some q → q.st ≠ .free)
    (¬room → Machine.exec (.prsv d a b) s = .next s) ∧
    (room → ¬good → PeelGives (.prsv d a b) d (refused 7) s) ∧
    (room → good → here → s.core.rack = none →
      PeelGives (.prsv d a b) d (refused (if s.core.rackGone = true then 4 else 3)) s) ∧
    (room → good → here → s.core.rack = some r →
      (named → r.pans.length ≤ (v.extractLsb' 21 6).toNat → PeelGives (.prsv d a b) d (refused 3) s) ∧
      (¬named → (∀ q ∈ r.pans, q.st ≠ .free) → PeelGives (.prsv d a b) d (refused 2) s) ∧
      (named → r.pans[(v.extractLsb' 21 6).toNat]? = some p → p.st ≠ .free → PeelGives (.prsv d a b) d (refused 1) s) ∧
      (want → r.pans[i]? = some p → p.st = .free → i < 64 → NoSuperstep s → Completes (.prsv d a b) s (fun t =>
        RegsAfter d (BitVec.ofNat 64 ((p.seq + 1#16).toNat * 2 ^ 32 + port.toNat * 2 ^ 28 + i * 2 ^ 21 + core.toNat * 2 ^ 12 +
          s.pkg.mypkg.toNat)) s t ∧ PeelRetired s t ∧ t.pkg = s.pkg ∧
        ∃ q, panAt t i = some q ∧ q.st = .resv ∧ q.seq = p.seq + 1#16 ∧ q.hcore = s.core.num ∧
          q.hpkg = s.pkg.mypkg ∧ q.htag = (s.g b).setWidth 16))) ∧
    (room → good → pkg = s.pkg.mypkg → core ≠ s.core.num → Completes (.prsv d a b) s (fun t => waits t ∧
      t.pkg = { s.pkg with prsvOut := s.pkg.prsvOut ++ [{ gangid := some s.hart.gangid, port := none, pkg := pkg }] })) ∧
    (room → good → pkg ≠ s.pkg.mypkg → ((s.pkg.port port).st = .lost ∨ route.v = false) →
      PeelGives (.prsv d a b) d (refused 5) s) ∧
    (room → good → pkg ≠ s.pkg.mypkg → PortFree s port → route.v = true → Completes (.prsv d a b) s (fun t => waits t ∧
      t.pkg.prsvOut = s.pkg.prsvOut ++ [{ gangid := some s.hart.gangid, port := some port, pkg := pkg }] ∧
      ∃ f, (t.pkg.port port).buffer = (s.pkg.port port).buffer ++ [f] ∧ f.dpkg = pkg ∧
        f.payload = .reservationRequest (s.reservationOf v (s.g b)))) ∧
    (rackPan s v = none → PeelGives (.prel d a) d 3 s) ∧
    (rackPan s v = some p → Settled s → NoSuperstep s → Completes (.prel d a) s (fun t => RegsAfter d 0 s t ∧
      PeelRetired s t ∧ t.pkg = s.pkg ∧ ∃ q, panAt t (uv v) = some q ∧ q.st = .free ∧ q.seq = p.seq ∧ q.htag = 0#16)) ∧
    Completes (.pstat d a) s (fun t => PeelRetired s t ∧ t.core = s.core ∧ t.pkg = s.pkg ∧ ∀ r, t.g r =
      if r = 0#5 then 0
      else if r = d + 1#5 then
        ((rackPan s v).map (fun p => (0#16 ++ p.htag ++ 0#11 ++ p.hcore ++ p.hpkg : Word))).getD 0
      else if r = d then ((rackPan s v).map (fun p =>
        (0#16 ++ p.seq ++ 0#5 ++ BitVec.ofNat 19 p.landed ++ (match p.st with
          | .free => 0#8 | .resv => 1#8 | .fill => 2#8 | .full => 3#8 | .poison => 4#8) : Word))).getD 0
      else s.g r)

/-- rkdef, prsv, prel and pstat (11:R244 to R247, R250): racks, reservations and pan records. -/
def Obligations.Racks : Prop := Claims.RackDefinition ∧ Claims.PanInstructions

/-- Reservations and puts of other agents (11:R246 to R249, 21:R370, 22:R383): a request gives a FREE pan to its sender; an
answer ends the wait of a prsv; the first flit of a put opens the pan and its bytes land, a continuation's land behind
them, the last of a final put filling the pan; a status ends the put that names its pan in error; the discard of the
sending gang poisons a pan in FILL.
How a status names its put is the model's reading (log 28). -/
def Obligations.PutsLandAtTheirPan : Prop :=
  ∀ (q : Reservation) (w : Word) (k : PrsvOp) (f : PutFlit) (m : PutStatusMsg) (o : PeelOp) (ref : PanRef) (r : Rack)
    (p : Pan) (l : Landing) (s : State), NoSuperstep s →
    let i := f.ref.pan.toNat
    let at_ := panBase r i + f.base + f.start
    let t0 := s.core.tb (panTb r i)
    let bytes (t : State) : Prop :=
      (∀ k (h : k < f.data.length), t.core.benchNat (at_ + k) 1 = (f.data[k]).toNat) ∧
      (∀ x, natSetHas s.core.benchInvalid (x / 8) = false → (x < at_ ∨ at_ + f.data.length ≤ x) →
        (x < panTb r i ∨ panTb r i + 16 ≤ x) → t.core.benchNat x 1 = s.core.benchNat x 1) ∧ t.hart = s.hart
    (q.core = s.core.num → q.port = none → q.pan = none → s.core.inReset = false → s.core.rack = some r →
      r.pans[0]? = some p → p.st = .free → Completes (.reservationRequest q) s (fun t => t.hart = s.hart ∧ t.pkg = s.pkg ∧
        ∃ x, panAt t 0 = some x ∧ x.st = .resv ∧ x.seq = p.seq + 1#16 ∧ x.hcore = q.hcore ∧ x.hpkg = q.hpkg ∧
          x.htag = q.htag)) ∧
    (∀ x rest, s.hart.run = .waitPrsv k → s.pkg.prsvOut = x :: rest → x.port = none → x.pkg = s.pkg.mypkg →
      x.gangid = some s.hart.gangid → Completes (.reservationAnswer w) s (fun t => RegsAfter k.d w s t ∧
        t.hart.run = .running ∧ t.hart.pc = s.hart.pc ∧ t.core = s.core ∧ t.pkg = { s.pkg with prsvOut := rest })) ∧
    (PanTakes s r p f → p.st = .resv → f.start = 0 → f.data.length < f.count → s.core.rackGone = false →
      t0.ep.toNat + f.count < 2 ^ 32 → t0.ef = false → Completes (.putFirstFlit f) s (fun t => bytes t ∧ t.pkg = s.pkg ∧
        (t.core.tb (panTb r i)).ep.toNat = t0.ep.toNat + f.count - f.data.length ∧
        ∃ x, panAt t i = some x ∧ x.st = .fill ∧ x.seq = p.seq ∧ x.landed = p.landed + f.data.length)) ∧
    (PanTakes s r p f → p.st = .fill → s.core.landing = [l] → l.is f = true → l.refused = false → l.gone = false →
      l.final = true → l.count = f.start + f.data.length → l.residue = BitVec.ofNat 16 ((l.sum + residueSum f.data) % 65535) →
      t0.ep.toNat = f.data.length → t0.ap = 1#16 → t0.ae ≠ 0#16 → t0.ef = false → Completes (.putContinuationFlit f) s (fun t =>
        bytes t ∧ t.pkg = s.pkg ∧ t.core.landing = [] ∧
        t.core.tb (panTb r i) = { t0 with ph := t0.ph + 1#4, ap := t0.ae, ll := 0#32, ep := 0#32 } ∧
        ∃ x, panAt t i = some x ∧ x.st = .full ∧ x.landed = p.landed + f.data.length)) ∧
    (s.core.peel = [o] → isPut o.instr = true → o.gone = true → o.ref = m.ref → o.tokPkg = s.pkg.mypkg → o.vl ≤ o.vstart → m.done = 0 → o.ended = false →
      let tb := offsetOf o.gb
      let b0 := s.core.tb tb
      InWindow o.gb → tb % 16 = 0 → BenchWf s → b0.ef = false → o.sent.length ≤ b0.ep.toNat → 1 < b0.ap.toNat →
      Completes (.putStatus m) s (fun t => t.core.peel = [] ∧ t.hart = s.hart ∧ t.pkg = s.pkg ∧
        (t.core.tb tb).ef = true ∧ (t.core.tb tb).ec = m.ec ∧ (t.core.tb tb).ap = b0.ap - 1#16 ∧
        (t.core.tb tb).ep.toNat = b0.ep.toNat - o.sent.length)) ∧
    (ref.core = s.core.num → s.core.rack = some r → r.pans[ref.pan.toNat]? = some p → p.seq = ref.seq → p.st = .fill →
      r.tbs % 16 = 0 → BenchWf s → Completes (.panDiscardNotice ref) s (fun t => t.hart = s.hart ∧ t.pkg = s.pkg ∧
        (t.core.tb (panTb r ref.pan.toNat)).ef = true ∧ (t.core.tb (panTb r ref.pan.toNat)).ep = 0#32 ∧
        ∃ x, panAt t ref.pan.toNat = some x ∧ x.st = .poison))

/-! ### Hypotheses. -/

/-- hopen, henter, hleave and hstat (17:R330, R331, R336), and the trap of all six instructions in a SNAP gang (17:R329).
That an id that has merged stands for the entry it merged into (17:R333) in each of them is the model's reading (log 10). -/
def Obligations.HypothesisInstructions : Prop :=
  ∀ (d a : GReg) (n : BitVec 12) (s : State),
    let e (h : BitVec 12) : HypEntry := s.pkg.hypEntry h
    let p := s.pkg.resolve 16 s.hart.hyp
    let v := s.g a
    let t : BitVec 12 := v.setWidth 12
    let high := v.extractLsb' 12 52 ≠ 0#52
    let enters (i : Instr) (h : BitVec 12) (r : Word) : Prop := Completes i s (fun u =>
      RegsAfter d r s u ∧ Retired s u ∧ OutsideSame s u ∧ u.hart = { s.hart with
        g := u.hart.g, pc := u.hart.pc, instret := u.hart.instret, hyp := h, hypdepth := (e h).depth })
    (s.hart.snap = true → ∀ i ∈ [Instr.hopen d, .henter d a, .hleave d, .hresConfirm d a, .hresRefute d a, .hstat d a],
      Traps i 0x07#8 0 s) ∧
    (s.hart.snap = false →
      ((e p).depth = 15#4 → Gives (.hopen d) d (refused 1) s) ∧
      ((e p).depth ≠ 15#4 → (∀ m, m ≠ 0#12 → (e m).st ≠ .free) → Gives (.hopen d) d (refused 2) s) ∧
      ((e p).depth ≠ 15#4 → n ≠ 0#12 → (e n).st = .free → (∀ m, m ≠ 0#12 → m < n → (e m).st ≠ .free) →
        Completes (.hopen d) s (fun u => RegsAfter d (n.setWidth 64) s u ∧ Retired s u ∧ OnlyRegs s u ∧ u.core = s.core ∧
          u.pkg = { s.pkg with hyps := u.pkg.hyps } ∧ SameBytes s u ∧ ∀ m, u.pkg.hypEntry m =
            if m = n then { parent := p, depth := (e p).depth + 1#4, owner := s.hart.ctxid, st := .open } else e m)) ∧
      (¬high → (t = 0#12 ∨ ((e t).st = .open ∧ (e t).owner = s.hart.ctxid)) → enters (.henter d a) t 0) ∧
      (high ∨ (t ≠ 0#12 ∧ (e t).st ≠ .open) → Gives (.henter d a) d 1 s) ∧
      (¬high → t ≠ 0#12 → (e t).st = .open → (e t).owner ≠ s.hart.ctxid → Gives (.henter d a) d 2 s) ∧
      (let q := s.pkg.resolve 16 (e s.hart.hyp).parent
       enters (.hleave d) q (q.setWidth 64)) ∧
      Gives (.hstat d a) d (if high ∨ (t ≠ 0#12 ∧ (e t).owner ≠ s.hart.ctxid) then 0
        else (0#32 ++ (e t).owner ++ 0#4 ++ (e t).depth ++ (match (e t).st with
          | .free => 0#2 | .open => 1#2 | .merged => 2#2 | .refuted => 3#2) ++ 0#2 ++ (e t).parent)) s)

/-- hres.confirm and hres.refute (17:R332 to R335): the statuses in their order; a confirmation into a parent merges h and
moves the hart with it, one into the root performs the masked bytes of h's version, a refutation ends h's subtree and
drops its versions. ORPHAN_TRAP and HYPOTHESIS_FREE.
Versions are retagged in the step itself (log 10). -/
def Obligations.HypothesesResolve : Prop :=
  ∀ (d a : GReg) (w : Version) (id : BitVec 12) (s : State),
    let e (h : BitVec 12) : HypEntry := s.pkg.hypEntry h
    let v := s.g a
    let h : BitVec 12 := v.setWidth 12
    let p := s.pkg.resolve 16 (e h).parent
    let bad := v.extractLsb' 12 52 ≠ 0#52 ∨ h = 0#12
    let mine := (e h).st = .open ∧ (e h).owner = s.hart.ctxid
    let both (r : Word) : Prop := Gives (.hresConfirm d a) d r s ∧ Gives (.hresRefute d a) d r s
    let moved (q : BitVec 12) (u : State) : Prop :=
      u.hart.hyp = (if s.hart.hyp = h then q else s.hart.hyp) ∧
      u.hart.hypdepth = (if s.hart.hyp = h then (u.pkg.hypEntry q).depth else s.hart.hypdepth) ∧
      u.hart = { s.hart with g := u.hart.g, pc := u.hart.pc, instret := u.hart.instret, hyp := u.hart.hyp,
                             hypdepth := u.hart.hypdepth, ltime := u.hart.ltime, maxRead := u.hart.maxRead, stale := u.hart.stale }
    let plain := s.hart.snap = false ∧ Settled s ∧ ¬bad ∧ mine ∧ s.pkg.areas = [] ∧ s.hart.run = .running
    (s.hart.snap = false → bad → both 1) ∧
    (s.hart.snap = false → Settled s → ¬bad →
      ((e h).st ≠ .open → both 1) ∧
      ((e h).st = .open → (e h).owner ≠ s.hart.ctxid → both 2) ∧
      (mine → s.pkg.openChild h = true → Gives (.hresConfirm d a) d 3 s) ∧
      (mine → s.pkg.isAncestor h s.hart.hyp = true → Gives (.hresRefute d a) d 4 s)) ∧
    (plain → s.pkg.openChild h = false → p ≠ 0#12 → p ≠ h → (∀ x ∈ s.pkg.versions, s.foreign x.line = false ∧ ∀ k, x.place ≠ .other k) →
      Completes (.hresConfirm d a) s (fun u =>
        RegsAfter d 0 s u ∧ Retired s u ∧ moved p u ∧ u.hart.ltime = s.hart.ltime ∧ u.hart.maxRead = s.hart.maxRead ∧ u.pkg.mem = s.pkg.mem ∧
        (∀ m, u.pkg.hypEntry m = if m = h then { e h with st := .merged } else e m) ∧
        (∀ x ∈ u.pkg.versions, x.id ≠ h) ∧ ∀ o, u.core.benchNat o 1 = s.core.benchNat o 1)) ∧
    (plain → s.pkg.openChild h = false → p = 0#12 → s.pkg.versions = [w] → w.id = h → w.place = .home → s.hart.maint = false →
      HomeCounter s (w.line * 64) → Completes (.hresConfirm d a) s (fun u =>
        RegsAfter d 0 s u ∧ Retired s u ∧ moved 0#12 u ∧ u.pkg.versions = [] ∧
        (∀ i < 64, u.pkg.read (w.line * 64 + i) 1 =
          if w.mask.getLsbD i = true then lineNat w.data i 1 else s.pkg.read (w.line * 64 + i) 1) ∧
        (∀ x, (x < w.line * 64 ∨ w.line * 64 + 64 ≤ x) → u.pkg.read x 1 = s.pkg.read x 1) ∧
        u.hart.ltime = serMax s.hart.ltime (serMax s.hart.ltime ((s.pkg.home w.line).rts + 1#16)) ∧
        (u.pkg.hypEntry h).st ≠ .open)) ∧
    (plain → s.pkg.isAncestor h s.hart.hyp = false → Completes (.hresRefute d a) s (fun u =>
      RegsAfter d 0 s u ∧ Retired s u ∧ OnlyRegs s u ∧ SameBytes s u ∧ (∀ x ∈ u.pkg.versions, x.id ≠ h) ∧
      (∀ m, s.pkg.isAncestor h m = false → u.pkg.hypEntry m = e m) ∧
      (∀ m, s.pkg.isAncestor h m = true → ((e m).st = .open ∨ (e m).st = .merged) → (u.pkg.hypEntry m).st = .refuted))) ∧
    (s.hart.orphan = some id → s.hart.run = .running → s.hart.trigger = false → s.core.units = [] →
      (∀ w ∈ s.pkg.peerWaits, w.who ≠ .hart) → HandlerReady s →
      Completes .orphanTrap s (fun u => SameRegs s u ∧ u.core = s.core ∧ u.pkg = s.pkg ∧ u.hart.trapcause = 0x05#8 ∧
        u.hart.trapval = id.setWidth 64 ∧ u.hart.trappc = s.hart.pc ∧ u.hart.pc = s.hart.trapvec &&& 0xFFFF_FFFF_FFFC#48 ∧
        ((e (e id).parent).st = .open → u.hart.hyp = (e id).parent) ∧ u.hart.hypdepth = (e u.hart.hyp).depth ∧
        u.hart.orphan = none)) ∧
    (id ≠ 0#12 → ((e id).st = .merged ∨ (e id).st = .refuted) → s.hypNamed id = false →
      (∀ x ∈ s.pkg.hyps, x.2.parent ≠ id) → sparseWf HypEntry.free s.pkg.hyps = true →
      Completes (.hypothesisFree id) s (fun u => u.hart = { s.hart with stale := u.hart.stale } ∧ u.core = s.core ∧
        (∀ m, u.pkg.hypEntry m = if m = id then HypEntry.free else e m) ∧ u.pkg = { s.pkg with hyps := u.pkg.hyps }))

/-! ### Homes, and the asynchronous steps of the hart. -/

/-- Requests at a home (08:R169, 09:R198, R200, R203, R206, R208, 10:R218, R219, 16:R307, 17:R324, 18:R341, R349, 21:R358), of
this core and of another with its time and lease: a read extends rts, a write takes wts = max(t, rts + 1), ownership and
write-back move the owner and the data, a request enters the race records and the counters; the broadcast, the race sweeps and
the scrub.
That the core itself may make these requests alone is the model's choice (log 77), and that a release without data leaves wts
as a write-back does its reading (log 85); so is that an acquire read of the own core leaves no copy (log 46). -/
def Obligations.HomesServeRequests : Prop :=
  ∀ (line : Nat) (r : CoreRequest) (op : AmoOp) (w4 : Bool) (dpa : Nat) (v cmp : Word) (d : LineImage) (l : Line) (s : State),
    let h := s.pkg.home line
    let n := if w4 = true then 4 else 8
    let other := Requester.other r
    let readBy (x : BitVec 16) (y : BitVec 8) : HomeLine := { h with rts := serMax h.rts (serMax x h.wts + y.setWidth 16) }
    let newWts (x : BitVec 16) : BitVec 16 := serMax x (h.rts + 1#16)
    let same (i : Instr) : Prop := Completes i s (fun u => u = s)
    (CalmLine s line → PlainRequest s r →
      (∀ i ∈ [Instr.homeRead other line, .homeAcquireRead other line], Completes i s (fun u =>
        u.hart = s.hart ∧ u.core = s.core ∧ u.pkg.mem = s.pkg.mem ∧ HomeNow line (readBy r.t r.lease) s u)) ∧
      (Near s (newWts r.t) → Completes (.homeOwnership other line) s (fun u => HartWoken line s u ∧ u.core = s.core ∧
        u.pkg.mem = s.pkg.mem ∧ HomeNow line { wts := newWts r.t, rts := newWts r.t, owner := some r.core } s u))) ∧
    (CalmLine s line → s.hart.maint = false →
      Completes (.homeRead .self line) s (fun u => u.core = s.core ∧ u.pkg.mem = s.pkg.mem ∧
        HomeNow line (readBy s.hart.ltime s.hart.lease) s u ∧ u.hart = { s.hart with
          maxRead := some (match s.hart.maxRead with | none => h.wts | some m => serMax m h.wts) }) ∧
      Completes (.homeAcquireRead .self line) s (fun u => u.core = s.core ∧ u.pkg.mem = s.pkg.mem ∧
        HomeNow line (readBy s.hart.ltime s.hart.lease) s u ∧
        u.hart = { s.hart with
          ltime := serMax s.hart.ltime h.wts
          maxRead := some (match s.hart.maxRead with | none => h.wts | some m => serMax m h.wts) }) ∧
      (Near s (newWts s.hart.ltime) → EmptyCache s → NoInjection s → Completes (.homeOwnership .self line) s (fun u =>
        u.hart = { s.hart with ltime := newWts s.hart.ltime } ∧ u.pkg.mem = s.pkg.mem ∧
        HomeNow line { wts := newWts s.hart.ltime, rts := newWts s.hart.ltime, owner := some s.core.num } s u ∧
        ∃ x, u.core.owned line = some x ∧ x.st = .o ∧ x.data = s.pkg.lineData line ∧ x.wts = newWts s.hart.ltime)) ∧
      (EmptyCache s → NoInjection s → Completes (.lineFill line) s (fun u => u.hart = s.hart ∧
        u.pkg.mem = s.pkg.mem ∧ HomeNow line h s u ∧
        ∃ x, u.core.findLine line 0#12 = some x ∧ x.st = .v ∧ x.data = s.pkg.lineData line ∧ x.wts = h.wts ∧ x.rts = h.rts))) ∧
    (s.hart.maint = true → ∀ i ∈ [Instr.homeRead .self line, .homeAcquireRead .self line, .homeOwnership .self line,
      .lineFill line], same i) ∧
    ((isDevice (line * 64) = false ∨ natSetHas s.pkg.hostBias (line * 64 / 4096) = true) →
      same (.homeOwnership .self line) ∧ same (.homeOwnership other line)) ∧
    (CalmLine s line → r.core ≠ s.core.num → r.hyp = 0#12 → r.count = none → ∀ m, r.race = some m → m.off < 64 →
      let w := line * 8 + m.off / 8
      let rec_ := sparseGet RaceRec.empty s.pkg.races w
      let me : RaceSide := { core := r.core, stamp := m.stamp, mask := BitVec.ofNat 8 ((2 ^ m.n - 1) * 2 ^ (m.off % 8)), hyp := 0#12 }
      let meets (e : RaceSide) : Prop := e.core ≠ r.core ∧ e.stamp = m.stamp ∧ e.mask &&& me.mask ≠ 0#8 ∧
        (s.pkg.stamp - e.stamp).toNat ≤ 2 ^ 19
      let enters (i : Instr) (x : RaceRec) : Prop := Completes i s (fun u =>
        ∀ y, sparseGet RaceRec.empty u.pkg.races y = if y = w then x else sparseGet RaceRec.empty s.pkg.races y)
      ((∃ e, rec_.writer = some e ∧ meets e) → same (.homeRead other line) ∧ same (.homeOwnership other line)) ∧
      ((∃ e, rec_.reader = some e ∧ meets e) → same (.homeOwnership other line)) ∧
      ((∀ e, rec_.writer = some e → ¬meets e) → enters (.homeRead other line) { rec_ with reader := some me } ∧
        ((∀ e, rec_.reader = some e → ¬meets e) → Near s (newWts r.t) →
          enters (.homeOwnership other line) { rec_ with writer := some me }))) ∧
    (CalmLine s line → r.core ≠ s.core.num → r.hyp = 0#12 → r.race = none → regionOf (line * 64) = some .pantry →
      sparseWf Counter.zero s.pkg.counters = true → ∀ m, r.count = some m →
      let c := sparseGet Counter.zero s.pkg.counters (line * 64 / 65536)
      (11 < m.acx.toNat ∨ (c.n + 1#16).toNat < 2 ^ (m.acx.toNat + 4)) → Completes (.homeRead other line) s (fun u =>
        u.hart = s.hart ∧ ∀ y, sparseGet Counter.zero u.pkg.counters y =
          if y = line * 64 / 65536 then { c with n := c.n + 1#16 } else sparseGet Counter.zero s.pkg.counters y)) ∧
    (CalmLine s (dpa / 64) → dpa % n = 0 → s.pkg.linePoison (dpa / 64) = 0#8 → PlainRequest s r → EmptyCache s → NoInjection s →
      (∀ i ∈ [Instr.homeAtomic other dpa op w4 v cmp, .homeAtomic .self dpa op w4 v cmp],
        Near s (serMax (if i = .homeAtomic .self dpa op w4 v cmp then s.hart.ltime else r.t)
          ((s.pkg.home (dpa / 64)).rts + 1#16)) →
        Completes i s (fun u =>
          u.pkg.read dpa n = (amoTable op n (s.pkg.read dpa n) (uv v) (uv cmp)).getD (s.pkg.read dpa n) ∧
          (∀ x, (x < dpa ∨ dpa + n ≤ x) → u.pkg.read x 1 = s.pkg.read x 1) ∧ SameRegs s u ∧
          ∀ o, u.core.benchNat o 1 = s.core.benchNat o 1))) ∧
    (h.owner = some r.core → PlainRequest s r → s.MemWf → Near s (serMax h.wts r.t) →
      let back : HomeLine := { wts := serMax h.wts r.t, rts := serMax h.wts r.t, owner := none }
      Completes (.homeWriteBack other line none) s (fun u => u.hart = s.hart ∧ u.core = s.core ∧ u.pkg.mem = s.pkg.mem ∧
        HomeNow line back s u) ∧
      Completes (.homeWriteBack other line (some d)) s (fun u => SameRegs s u ∧ u.core = s.core ∧
        u.pkg.lineData line = d.data ∧ (∀ x, x / 64 ≠ line → u.pkg.read x 1 = s.pkg.read x 1) ∧
        (sparseWf false s.pkg.memPoison = true → u.pkg.linePoison line = d.poison) ∧ HomeNow line back s u)) ∧
    (s.core.findLine line 0#12 = some l → l.st = .d → l.lock = [] → s.MemWf → s.hart.maint = false →
      Near s (serMax h.wts s.hart.ltime) →
      (∀ i ∈ [Instr.homeWriteBack .self line (some d), .ownerRecall line], Completes i s (fun u => u.hart = s.hart ∧
        u.pkg.lineData line = l.data ∧ (∀ x, x / 64 ≠ line → u.pkg.read x 1 = s.pkg.read x 1) ∧
        HomeNow line { wts := serMax h.wts s.hart.ltime, rts := serMax h.wts s.hart.ltime, owner := none } s u ∧
        u.core.owned line = none ∧
        (i = .ownerRecall line → ∃ x, u.core.findLine line 0#12 = some x ∧ x.st = .v ∧ x.data = l.data)))) ∧
    (s.core.findLine line 0#12 = some l → l.st ≠ .v → l.lock ≠ [] → same (.homeWriteBack .self line (some d))) ∧
    (let p := serMax s.pkg.horizon s.pkg.maxWts
     let low := p - 0x2000#16
     let lags (x : BitVec 16) : Prop := serBehind p x 0x2000 = true
     let kept (y : Line) : Line := if lags y.rts then
         { y with wts := low, rts := if y.st = .v then low - 1#16 else low } else y
     Completes .horizonBroadcast s (fun u => u.pkg.horizon = p ∧ u.pkg.mem = s.pkg.mem ∧
      u.hart = { s.hart with
        ltime := if s.hart.maint = false ∧ lags s.hart.ltime then low else s.hart.ltime
        maxRead := s.hart.maxRead.map (fun x => if lags x then low else x) } ∧
      (∀ x, x ∈ u.core.lines ↔ ∃ y ∈ s.core.lines, ¬(y.st = .v ∧ lags y.rts ∧ y.lock = []) ∧ x = kept y) ∧
      ∀ x, u.pkg.home x = if lags (s.pkg.home x).rts then
        { wts := low, rts := low, owner := (s.pkg.home x).owner } else s.pkg.home x)) ∧
    (sparseWf RaceRec.empty s.pkg.races = true →
      let old (x : RaceSide) : Bool := decide (2 ^ 18 < (s.pkg.stamp - x.stamp).toNat)
      let swept (w : Nat) : RaceRec := { writer := ((sparseGet RaceRec.empty s.pkg.races w).writer).filter (fun x => !old x)
                                         reader := ((sparseGet RaceRec.empty s.pkg.races w).reader).filter (fun x => !old x) }
      let sweeps (i : Instr) (q : Nat → Prop) : Prop := Completes i s (fun u => u.hart = s.hart ∧ u.core = s.core ∧
        u.pkg = { s.pkg with races := u.pkg.races } ∧ ∀ w,
          (q w → sparseGet RaceRec.empty u.pkg.races w = swept w) ∧
          (¬q w → sparseGet RaceRec.empty u.pkg.races w = sparseGet RaceRec.empty s.pkg.races w))
      sweeps (.sliceRaceSweep line) (fun w => w / 8 = line) ∧
      sweeps .coreRaceSweep (fun w => ∃ x ∈ s.core.lines, x.line = w / 8)) ∧
    (regionOf (line * 64) = some .hbm → sparseWf false s.pkg.memPoison = true → Completes (.hbmScrub line) s (fun u =>
      u.hart = s.hart ∧ u.core = s.core ∧ u.pkg.mem = s.pkg.mem ∧
      (∀ e ∈ u.pkg.memSoft ++ u.pkg.memHard, e.1 / 8 ≠ line) ∧
      ∀ w, natSetHas u.pkg.memPoison w = (natSetHas s.pkg.memPoison w || s.pkg.memHard.any (fun e => e.1 = w && e.1 / 8 = line)))) ∧
    (regionOf (line * 64) ≠ some .hbm → same (.hbmScrub line))

/-- Steps of the hart that the outside causes (16:R304, R306, R316, 18:R344, 21:R361, R365 to R370): an idle ends, an array
data error traps, a hart state error discards the gang or rolls it back, a rollback restores what was captured, fault
records and reports reach their rings, and the host answers a fault record.
Where a ring is full is the model's reading (log 70), and so is what a rollback restores beside the listed registers (log 92);
ERRADDR of a hart state error is free (log 33). -/
def Obligations.AsynchronousSteps : Prop :=
  ∀ (w : Option Nat) (hit : Bool) (v : Word) (k : Captured) (x : RingRecord) (rest : List RingRecord) (fid : BitVec 32)
    (s : State),
    let only (h : Hart) (u : State) : Prop := u.hart = h ∧ OutsideSame s u
    let r := x.ring.toNat
    let n := s.ringSize x.ring
    let tail := (sparseGet 0#64 s.pkg.rtail r).toNat % n
    let base := 0x0400_0000_0000 + s.peek (s.pkg.rrtbase.toNat + 16 * r) 8
    let at_ := base + 32 * tail
    let posted (u : State) : Prop :=
      u.peek at_ 8 = uv x.w0 ∧ u.peek (at_ + 8) 8 = uv x.w1 ∧ u.peek (at_ + 16) 8 = uv x.w2 ∧ u.peek (at_ + 24) 8 = uv x.w3 ∧
      (∀ y, (y < at_ ∨ at_ + 32 ≤ y) → u.peek y 1 = s.peek y 1) ∧
      sparseGet 0#64 u.pkg.rtail r = BitVec.ofNat 64 ((tail + 1) % n) ∧ SameRegs s u ∧
      ∀ o, u.core.benchNat o 1 = s.core.benchNat o 1
    let ring := s.ringRoom x.ring = true ∧ base % 64 = 0 ∧ LoneHome s at_ ∧ sparseWf 0#64 s.pkg.rtail = true
    (s.hart.run = .watch w true → Completes .idleWake s (only { s.hart with run := .running })) ∧
    (s.hart.run = .watch w hit → Completes .idleTimeout s (only { s.hart with run := .running })) ∧
    (s.hart.arrayError = some v → s.hart.run = .running → s.hart.trigger = false → s.core.units = [] → s.hart.snap = false →
      (∀ w ∈ s.pkg.peerWaits, w.who ≠ .hart) → HandlerReady s → Completes .arrayDataErrorTrap s (only { s.hart with
        trapcause := 0x0B#8, trapval := v, trappc := s.hart.pc, th := true, pc := s.hart.trapvec &&& 0xFFFF_FFFF_FFFC#48,
        arrival := none, arrayError := none })) ∧
    (s.hart.run ≠ .idle → s.core.ue = false → s.hart.trigger = false →
      (s.hart.snap = true → s.hart.rbCur ≠ 3#2 → Completes .hartStateError s (fun u => SameRegs s u ∧ u.hart.trigger = true ∧
        u.core.units = [] ∧ u.core.ue = true ∧ u.core.uesrc = 12#4 ∧ u.core.uectx = s.hart.ctxid ∧ SameBytes s u)) ∧
      (s.hart.snap = false → s.core.storeQ = [] → s.core.checkedStores = [] → s.core.peel = [] → Completes .hartStateError s (fun u => SameRegs s u ∧
        u.hart.run = .idle ∧ u.core.units = [] ∧ u.core.ue = true ∧ u.core.uesrc = 12#4 ∧ u.core.uectx = s.hart.ctxid ∧
        (∀ a, u.peek a 1 = s.peek a 1) ∧ u.core.reports = s.core.reports ++ [sysReport (s.reportRing s.hart.queue) 2 s.hart.ctxid
          0#12 s.core.num 0x0B#8 0 (s.hart.pc.setWidth 64) s.hart.cookie]))) ∧
    (s.hart.trigger = true → s.shadowLost = none → s.core.captured = some k → s.core.shadows = [] → s.core.peel = [] →
      s.hart.hyp ≠ 0#12 → s.pkg.areas = [] → Completes .rollbackComplete s (fun u =>
        u.hart = { s.hart with
          run := .running, pc := k.pc &&& 0xFFFF_FFFF_FFFC#48, g := k.g, mode := k.mode, vl := k.vl, vlmax := k.vlmax,
          vlceil := k.vlceil, rds := k.rds, srseed := k.srseed, srcount := k.srcount, fcrShape := k.fcrShape,
          fcrFe := k.fcrFe, lease := k.lease, act := k.act, wcount := k.wcount, th := k.th, trapcause := k.trapcause,
          trappc := k.trappc, trapval := k.trapval, trapvec := k.trapvec, fsr := 0, vfsr := 0, vstartArm := false, vstartIdx := 0, vdirty := 0,
          pdirty := 0, arrival := none, trigger := false, arrayError := none, orphan := none, syncst := u.hart.syncst,
          rbCur := s.hart.rbCur + 1#2,
          rbTotal := if s.hart.rbTotal = BitVec.allOnes 32 then s.hart.rbTotal else s.hart.rbTotal + 1#32 } ∧
        u.core.units = [] ∧ u.core.vrows = [] ∧ u.core.prows = [] ∧ u.core.badRows = [] ∧ u.core.cells = [] ∧
        u.core.chans = [] ∧ u.core.badCells = [] ∧ u.core.winPair = .none ∧ (u.pkg.hypEntry s.hart.hyp) = { s.pkg.hypEntry s.hart.hyp with st := .open } ∧
        (∀ y ∈ u.pkg.versions, y.id ≠ s.hart.hyp) ∧ SameBytes s u)) ∧
    (s.core.faultRecs = x :: rest → ring → Completes .faultRecordPost s (fun u => posted u ∧ u.core.faultRecs = rest)) ∧
    (s.core.reports = [] → s.pkg.ring = x :: rest → ring → Completes (.ringRecordWrite r) s (fun u =>
      posted u ∧ u.pkg.ring = rest)) ∧
    (s.core.reports = x :: rest → s.pkg.ring = [] → ring →
      (s.core.storeQ = [] → s.pkg.accessesOut = false → Completes (.ringRecordWrite r) s (fun u =>
        posted u ∧ u.pkg.ring = rest ∧ u.core.reports = [])) ∧
      ((s.core.storeQ ≠ [] ∨ s.pkg.accessesOut = true) → Completes (.ringRecordWrite r) s (fun u => u = s))) ∧
    (s.pkg.saved = [] → Completes (.fansReplay fid) s (fun u =>
      u.hart = { s.hart with run := if s.hart.run = .parked fid then .running else s.hart.run } ∧ u.pkg = s.pkg ∧
      u.core = { s.core with
        units := s.core.units.map (fun o => if (o.parked.map (·.1)) = some fid ∧ o.unresolved = false
          then { o with parked := none } else o)
        peel := s.core.peel.map (fun o => if (o.parked.map (·.1)) = some fid ∧ o.unresolved = false
          then { o with parked := none } else o) } ∧ SameBytes s u)) ∧
    (s.pkg.saved = [] → (s.hart.run = .parked fid → s.hart.orphan = none → HandlerReady s) → Completes (.fansUnresolved fid) s (fun u =>
      u.pkg = { s.pkg with peerWaits := u.pkg.peerWaits } ∧ SameRegs s u ∧ SameBytes s u ∧
      (s.hart.run = .parked fid → s.hart.orphan = none → u.hart.trapcause = 0x0E#8 ∧ u.hart.trapval = s.hart.faultVa.setWidth 64 ∧
        u.hart.trappc = s.hart.pc ∧ u.hart.th = true ∧ u.hart.pc = s.hart.trapvec &&& 0xFFFF_FFFF_FFFC#48) ∧
      ((s.hart.run ≠ .parked fid ∨ s.hart.orphan ≠ none) → u.hart = s.hart ∧ u.pkg = s.pkg) ∧
      u.core.units = s.core.units.map (fun o => if (o.parked.map (·.1)) = some fid then { o with unresolved := true } else o) ∧
      u.core.peel = s.core.peel.map (fun o => if (o.parked.map (·.1)) = some fid then { o with unresolved := true } else o)))

/-! ### The host and peers. -/

/-- What the host does to the package (18:R340 to R350, 23:R387, R395): queue tails, the end of a context, bias flips,
accesses and snoops, the adapter's registers, and a request for attestation.
That a destroyed context stays so, that a flip is made at its completion and that queues wait for QDTBASE are the model's readings (logs 71, 73, 80).
What the evidence record holds is its choice (log 45). -/
def Sys2Proof.Claims.HostActs : Prop :=
  ∀ (q : BitVec 12) (v : Word) (page dpa line off : Nat) (bs : List Byte) (d : BitVec 512) (nonce : BitVec 256) (s : State),
    let desc := s.queueDesc q
    let tail := uv v % 2 ^ 16
    let moves := desc.en = true ∧ desc.host = true ∧ tail < desc.n ∧
      desc.used + (tail + desc.n - desc.tail % desc.n) % desc.n < desc.n
    let same (i : Instr) : Prop := Completes i s (fun u => u = s)
    let sets (i : Instr) (p : Pkg) : Prop := Completes i s (fun u => u = { s with pkg := p })
    let c : BitVec 8 := v.setWidth 8
    let mine := s.hart.run ≠ .idle ∧ s.hart.ctxid = c
    let kept := ∀ l, (s.core.owned l).isSome = true → (s.pkg.home l).owner = some s.core.num
    let waiting := s.foreignIn (s.queueAt q) 32
    (s.pkg.frozen = true → sets (.qtailWrite q v) { s.pkg with heldTails := s.pkg.heldTails ++ [(q, v)] } ∧
      sets (.hostCxlMemRequest dpa (some bs)) { s.pkg with heldReqs := s.pkg.heldReqs ++ [(dpa, some bs)] }) ∧
    (s.pkg.frozen = false → s.pkg.heldTails = [] → waiting = true →
      sets (.qtailWrite q v) { s.pkg with heldTails := [(q, v)] }) ∧
    (s.pkg.frozen = false → s.pkg.heldTails = [] → waiting = false → ¬moves → same (.qtailWrite q v)) ∧
    (s.pkg.frozen = false → s.pkg.heldTails = [] → waiting = false → moves → LoneHome s (s.queueAt q + 14) → Completes (.qtailWrite q v) s (fun u =>
      u.queueDesc q = { desc with tail := tail } ∧ SameRegs s u ∧ u.hart.pc = s.hart.pc ∧
      ∀ x, (x < s.queueAt q + 14 ∨ s.queueAt q + 16 ≤ x) → u.peek x 1 = s.peek x 1)) ∧
    (v.getLsbD 8 = false → same (.ctxkill v)) ∧
    (v.getLsbD 8 = true → Completes (.ctxkill v) s (fun u =>
      (u.context c).valid = false ∧ (mine → u.hart.run = .idle) ∧
      (¬mine → s.pkg.requests = [] → s.pkg.saved = [] → s.core.lines = [] →
        u.hart = { s.hart with stale := u.hart.stale }) ∧
      (∀ k : Fin 8, s.core.ways[k].ctx = c → u.core.ways[k].mode = .cache) ∧
      (∀ l ∈ u.core.lines, c ∉ l.lock) ∧ (∀ r, u.core.rack = some r → r.ctx ≠ c) ∧
      (sparseWf HypEntry.free s.pkg.hyps = true → ∀ h, h ≠ 0#12 → (s.pkg.hypEntry h).owner = c →
        (u.pkg.hypEntry h).st ≠ .open) ∧
      u.pkg.ring.getLast? = some (sysReport s.pkg.sysring 3 c 0 0 0 0 0 0))) ∧
    (s.pkg.biasBusy = true → same (.biasToHost page) ∧ same (.biasToDevice page)) ∧
    (s.pkg.biasBusy = false →
      sets (.biasToHost page) { s.pkg with biasPage := BitVec.ofNat 48 (page * 4096), biasCmd := 1#2, biasBusy := true } ∧
      sets (.biasToDevice page) { s.pkg with biasPage := BitVec.ofNat 48 (page * 4096), biasCmd := 2#2, biasBusy := true }) ∧
    (s.pkg.biasBusy = true → s.pkg.biasCmd = 1#2 → page = s.pkg.biasPage.toNat / 4096 → isDevice (page * 4096) = true →
      s.pageBlocked page = false → kept → s.pkg.heldReqs = [] → s.MemWf → Completes .biasFlipComplete s (fun u =>
        natSetHas u.pkg.hostBias page = true ∧ (∀ l ∈ u.core.lines, l.line / 64 ≠ page) ∧ u.pkg.biasBusy = false ∧
        SameRegs s u ∧ SameBytes s u)) ∧
    (s.pkg.biasBusy = true → s.pkg.biasCmd = 2#2 → page = s.pkg.biasPage.toNat / 4096 → s.pkg.heldReqs = [] →
      sparseWf false s.pkg.hostBias = true → s.pkg.versions = [] → Completes .biasFlipComplete s (fun u => PkgOnly s u ∧
        (∀ p, natSetHas u.pkg.hostBias p = (if p = page then false else natSetHas s.pkg.hostBias p)) ∧
        u.pkg.biasBusy = false)) ∧
    (s.pkg.frozen = false → s.pkg.heldReqs = [] → s.pkg.biasBusy = true →
      sets (.hostCxlMemRequest dpa none) { s.pkg with heldReqs := [(dpa, none)] } ∧
      sets (.hostCxlMemRequest dpa (some bs)) { s.pkg with heldReqs := [(dpa, some bs)] }) ∧
    (s.pkg.frozen = false → s.pkg.heldReqs = [] → s.pkg.biasBusy = false → isDevice dpa = true →
      natSetHas s.pkg.hostBias (dpa / 4096) = false → kept → s.MemWf →
      (s.pageBlocked (dpa / 4096) = true → sets (.hostCxlMemRequest dpa none) { s.pkg with heldReqs := [(dpa, none)] }) ∧
      (s.pageBlocked (dpa / 4096) = false → Completes (.hostCxlMemRequest dpa none) s (fun u =>
        natSetHas u.pkg.hostBias (dpa / 4096) = true ∧ (∀ l ∈ u.core.lines, l.line / 64 ≠ dpa / 4096) ∧
        SameRegs s u ∧ SameBytes s u))) ∧
    (s.pkg.frozen = false → s.pkg.heldReqs = [] → s.pkg.biasBusy = false → isDevice dpa = true →
      natSetHas s.pkg.hostBias (dpa / 4096) = true → Unspoilt s (dpa / 64) →
      same (.hostCxlMemRequest dpa none) ∧
      (s.core.lines = [] → s.MemWf → 0 < bs.length → dpa % 64 + bs.length ≤ 64 →
        Completes (.hostCxlMemRequest dpa (some bs)) s (fun u => BytesAt dpa bs s u ∧ HartWoken (dpa / 64)
          { s with hart := { s.hart with stale := u.hart.stale } } u))) ∧
    (s.pkg.atAdapter line = true → s.core.lines = [] → s.MemWf →
      Completes (.hostSnoop line none) s (fun u => PkgOnly s u ∧ line ∉ u.pkg.hostHeld) ∧
      Completes (.hostSnoop line (some d)) s (fun u => line ∉ u.pkg.hostHeld ∧ u.pkg.lineData line = d ∧
        SameRegs s u ∧ u.core = s.core ∧ ∀ x, x / 64 ≠ line → u.peek x 1 = s.peek x 1)) ∧
    (let base : Addr := v.setWidth 48 &&& 0xFFFF_FFFF_F000#48
     sets (.hostRegisterWrite 0x10018 v) { s.pkg with qdtbase := base, queuesOn := true } ∧
     sets (.hostRegisterWrite 0x10020 v) { s.pkg with cdtbase := base } ∧
     sets (.hostRegisterWrite 0x10028 v) { s.pkg with rrtbase := base } ∧
     sets (.hostRegisterWrite 0x10030 v) { s.pkg with prtbase := base } ∧
     sets (.hostRegisterWrite 0x10038 v) { s.pkg with sysring := v.setWidth 12 } ∧
     sets (.hostRegisterWrite 0x10048 v) { s.pkg with huc := v } ∧
     (off < 4096 → sparseWf 0#64 s.pkg.rhead = true → Completes (.hostRegisterWrite (0x20000 + 8 * off) v) s (fun u =>
       PkgOnly s u ∧ ∀ r, sparseGet 0#64 u.pkg.rhead r = if r = off then v else sparseGet 0#64 s.pkg.rhead r))) ∧
    sets (.attestationRequest nonce) { s.pkg with evidence := some (Evidence.mk nonce s.pkg.stat Config.firmwareDigest Config.fuseState) }

/-- Peer packages (18:R352, 10:R220, 21:R359, 18:R345): a read, a write or an atomic of this package is served when the source's
route has IN; poison goes with the bytes; the answer to a request of this core is kept for it; the notice of a dropped write is
a report of KIND 4.
What a peer access does to timestamps, and a peer atomic as a read that carries its operation, are the model's readings
(logs 76, 16). -/
def Sys2Proof.Claims.PeersAreServed : Prop :=
  ∀ (src : BitVec 12) (dpa size : Nat) (bs : List Byte) (bad w4 : Bool) (op : PeerAtomic) (a : PeerReply) (ask : PeerWait)
    (pre post : List PeerWait) (n : PeerNotice) (s : State),
    let r := s.peerRoute src
    let inside := regionOf dpa = some .hbm ∨ regionOf dpa = some .pantry ∨ regionOf dpa = some .host
    let plain : PeerAsk := { size := size, op := none }
    let k := if w4 = true then 4 else 8
    let data : PeerBytes := { bytes := bs, poison := bad }
    let bytes (m : Nat) : List Byte := (List.range m).map (fun x => BitVec.ofNat 8 (s.pkg.read (dpa + x) 1))
    let fits (w : PeerWait) : Prop := w.answer = none ∧ peerPkg w.dpa = src ∧ w.remote = dpa ∧
      ∀ l, a = .data l → l.length = w.size
    (s.peerHeld src dpa = true → ∀ i ∈ [Instr.peerRead src dpa plain, .peerWrite src dpa data], Completes i s (fun u => u = s)) ∧
    (PortFree s r.port → s.peerHeld src dpa = false →
      (r.into = false → Completes (.peerRead src dpa plain) s (SentOver r.port src (.peerReply dpa .refused) s)) ∧
      (r.into = true → inside → (s.pkg.home (dpa / 64)).owner = none → Unspoilt s (dpa / 64) →
        (s.pkg.poisoned dpa size = true → Completes (.peerRead src dpa plain) s (SentOver r.port src (.peerReply dpa .poison) s)) ∧
        (s.pkg.poisoned dpa size = false → Completes (.peerRead src dpa plain) s
          (SentOver r.port src (.peerReply dpa (.data (bytes size))) s))) ∧
      (r.into = true → inside → LoneHome s dpa → dpa % k = 0 → s.pkg.poisoned dpa k = false →
        Completes (.peerRead src dpa { size := k, op := some op }) s (fun u => SameRegs s u ∧
          u.pkg.read dpa k = (amoTable op.op k (s.pkg.read dpa k) (uv op.v) (uv op.cmp)).getD (s.pkg.read dpa k) ∧
          (∀ x, (x < dpa ∨ dpa + k ≤ x) → u.pkg.read x 1 = s.pkg.read x 1) ∧
          ∃ f, (u.pkg.port r.port).buffer = (s.pkg.port r.port).buffer ++ [f] ∧ f.dpkg = src ∧
            f.payload = .peerReply dpa (.data (bytes k))))) ∧
    (s.peerHeld src dpa = false → r.into = false → Completes (.peerWrite src dpa data) s (fun u => u = s)) ∧
    (s.peerHeld src dpa = false → r.into = true → inside → LoneHome s dpa → dpa % 64 + bs.length ≤ 64 →
      Completes (.peerWrite src dpa data) s (fun u => BytesAt dpa bs s u ∧
        (bad = true → natSetHas u.pkg.memPoison (dpa / 8) = true))) ∧
    (s.pkg.peerWaits = pre ++ ask :: post → fits ask → (∀ w ∈ pre, ¬fits w) →
      Completes (.peerReadReply { src := src, dpa := dpa } a) s (fun u =>
        u = { s with pkg := { s.pkg with peerWaits := pre ++ { ask with answer := some a } :: post } })) ∧
    Completes (.peerWriteRefusal n) s (fun u => u = { s with pkg := { s.pkg with
      ring := s.pkg.ring ++ [sysReport s.pkg.sysring 4 n.ctx 0 0 0 (n.dpa.setWidth 64) 0 n.cookie] } })

/-- What the host and peer packages do to the package (18:R340 to R352, 23:R387, R395). -/
def Obligations.HostAndPeers : Prop := Claims.HostActs ∧ Claims.PeersAreServed


/-! ### Poerius ports. -/

/-- A flit at a port that is up (22:R376 to R379): the next one in sequence is accepted, and performed and acknowledged unless it
must wait for another core's write-back; another is discarded and a replay asked for; ACK frees what was sent, NK and the
time-out send it again, and sixteen sendings of one flit make the port retrain; every flit that leaves carries the ACK that was
due; a package that is to freeze sends nothing (23:R387).
A payload is typed beside the bytes, and of an idle flit and of unspecified payload bytes the model leaves the values free (log 83). -/
def Sys2Proof.Claims.FlitsArriveInOrder : Prop :=
  ∀ (k : Port) (f : Flit) (dpa : Nat) (bs : List Byte) (bad : Bool) (x : SentFlit) (pre post : List SentFlit) (s : State),
    let r := s.pkg.port k
    let up := r.st = .up ∧ s.pkg.freezing = false ∧ flitTyped f = true
    let next := flitCrcOk f = true ∧ flitType f < 9 ∧ flitDpkg f = s.pkg.mypkg ∧ flitSeq f = r.expected
    let again (b : List SentFlit) : List SentFlit := b.map (fun y => { y with times := y.times + 1 })
    let few (b : List SentFlit) : Prop := ∀ y ∈ b, y.times < 15
    let sends := s.pkg.freezing = false ∧ r.st = .up
    let carried (b : List SentFlit) : List WireFlit := r.lanes ++ b.map (s.pkg.wire k false)
    let asked : List WireFlit := r.lanes ++ [s.pkg.wire k true (idleFlit k)]
    (up → flitType f ≠ 0 → ¬next →
      (r.nkOut = true → Completes (.flitReceive k f) s (fun u => u = s)) ∧
      (r.nkOut = false → Completes (.flitReceive k f) s
        (PortNow k { r with nkOut := true, ackDue := false, lanes := asked } s))) ∧
    (up → flitType f ≠ 0 → next → flitAck f = none → flitNk f = none → f.payload = .peerWrite dpa bs bad → r.held = [] →
      (s.peerHeld (flitSpkg f) dpa = true → Completes (.flitReceive k f) s
        (PortNow k { r with expected := r.expected + 1#12, nkOut := false, held := [f] } s)) ∧
      (s.peerHeld (flitSpkg f) dpa = false → (s.peerRoute (flitSpkg f)).into = true → isDevice dpa = true → LoneHome s dpa →
      dpa % 64 + bs.length ≤ 64 → Completes (.flitReceive k f) s (fun u => BytesAt dpa bs s u ∧
        u.pkg.port k = { r with expected := r.expected + 1#12, nkOut := false, acked := some (flitSeq f), ackDue := true }))) ∧
    (up → flitType f = 0 → flitCrcOk f = true → r.waiting = [] → r.held = [] →
      (flitAck f = none → flitNk f = none → Completes (.flitReceive k f) s (fun u => u = s)) ∧
      (flitAck f = some x.seq → flitNk f = none → r.buffer = pre ++ x :: post → (∀ y ∈ pre, y.seq ≠ x.seq) →
        (∀ y ∈ r.buffer, y.lands = none) → r.buffer.length ≤ 1024 →
        Completes (.flitReceive k f) s (PortNow k { r with buffer := post } s)) ∧
      (flitAck f = none → flitNk f = some x.seq → r.buffer = pre ++ x :: post → (r.buffer.map (·.seq)).Nodup →
        few r.buffer → Completes (.flitReceive k f) s (PortNow k { r with
          buffer := pre ++ again (x :: post), ackDue := false, lanes := carried (again (x :: post)) } s))) ∧
    (sends → r.nkOut = true → Completes (.nkResendTimeout k) s (PortNow k { r with ackDue := false, lanes := asked } s)) ∧
    ((r.nkOut = false ∨ ¬sends) → Completes (.nkResendTimeout k) s (fun u => u = s)) ∧
    (sends → r.buffer = x :: post →
      (few r.buffer → Completes (.replayTimeout k) s (PortNow k { r with
        buffer := again r.buffer, ackDue := false, lanes := carried (again r.buffer) } s)) ∧
      (x.times = 15 → Completes (.replayTimeout k) s (PortNow k { r with
        buffer := again r.buffer, ackDue := false, lanes := carried (again r.buffer), st := .down, nkOut := false } s))) ∧
    (¬sends → Completes (.replayTimeout k) s (fun u => u = s)) ∧
    (r.held = [] → sends → r.ackDue = true → Completes (.ackIdleFlit k) s
      (PortNow k { r with ackDue := false, lanes := carried [idleFlit k] } s)) ∧
    (r.held = [] → (r.ackDue = false ∨ ¬sends) → Completes (.ackIdleFlit k) s (fun u => u = s))

/-- Lanes, loss and new sessions (22:R380 to R382, 23:R392): a failed lane narrows the group and the port retrains, then
sends its buffer again; without a group, after too long, or by the debugger the port is lost; a new session begins with
sequence numbers 0, and one that the far end begins while this package stands frozen is noted for the thaw (23:R389).
That sendings count anew after a retrain is the model's choice (log 82). -/
def Sys2Proof.Claims.PortsRetrainAndAreLost : Prop :=
  ∀ (k : Port) (lane : BitVec 4) (g : LaneGroup) (s : State),
    let r := s.pkg.port k
    let lost := PortNow k { r with
      st := .lost, buffer := [], waiting := [], nkOut := false, ackDue := false, held := [], farLost := false } s
    let once (n : Nat) : List SentFlit := r.buffer.map (fun f => { f with times := n })
    (r.st ≠ .lost → inGroup r.group lane.toNat →
      (∀ n, narrower r.group lane.toNat = some n →
        Completes (.laneFail k lane) s (PortNow k { r with st := .down, nkOut := false, group := n } s)) ∧
      (narrower r.group lane.toNat = none → Unused s k → Completes (.laneFail k lane) s lost)) ∧
    (¬inGroup r.group lane.toNat → Completes (.laneFail k lane) s (fun u => u = s)) ∧
    (r.st = .down → r.waiting = [] → r.buffer.length ≤ 1024 → s.pkg.freezing = false → Completes (.retrainSuccess k) s
      (PortNow k { r with
        st := .up, nkOut := false, buffer := once 1, ackDue := r.ackDue && r.buffer.isEmpty
        lanes := r.lanes ++ (once 1).map (s.pkg.wire k false) } s)) ∧
    (r.st = .down → s.pkg.freezing = true → Completes (.retrainSuccess k) s
      (PortNow k { r with st := .up, nkOut := false, buffer := once 0 } s)) ∧
    (r.st = .down → Unused s k → Completes (.linkLost k) s lost) ∧
    (r.st ≠ .lost → Unused s k → Completes (.rstport k) s lost) ∧
    (s.pkg.frozen = false → r.st = .lost → Completes (.newSession k g) s (PortNow k { PortRec.reset with group := g } s)) ∧
    (s.pkg.frozen = true → Completes (.newSession k g) s (PortNow k { r with farLost := r.st != .lost } s))

/-- Poerius ports (22:R376 to R382, 23:R392): flits in sequence, acknowledgement and replay, lanes, loss and new
sessions. -/
def Obligations.Ports : Prop := Claims.FlitsArriveInOrder ∧ Claims.PortsRetrainAndAreLost

/-! ### Mbofeura, resets and limits. -/

/-- The debug port (23:R385 to R391): freezes and the thaw, the chains and STAT, authorisation, halts. Without DBGAUTH,
WRCH, HALT and ARMBRK do what BYPASS does; a write of a chain changes nothing but what stands in that chain, and DBGW.
What stands there after it is a free value (log 44); FROZEN after FRZH is its reading (log 72); that a signature verifies is an argument (log 45). -/
def Obligations.DebugPort : Prop :=
  ∀ (chain : BitVec 16) (image : List Byte) (core : BitVec 9) (arm : Bool) (s : State),
    let same (i : Instr) : Prop := Completes i s (fun u => u = s)
    let sets (i : Instr) (p : Pkg) : Prop := Completes i s (fun u => u = { s with pkg := p })
    let status := (if s.pkg.frozen = true then 1 else 0) + (if s.pkg.hard = true then 2 else 0) +
      (if s.pkg.auth = true then 4 else 0) + (if s.pkg.dbgw = true then 8 else 0)
    let mine := core = s.core.num
    let kind := (s.pkg.chain.extractLsb' 12 4).toNat
    let index := (s.pkg.chain.extractLsb' 0 12).toNat
    sets .frz { s.pkg with freezing := true } ∧
    (s.pkg.freezing = true → s.pkg.saving = false → s.hart.trigger = false → s.core.storeQ = [] → s.core.units = [] →
      s.core.peel = [] → sets .freezeComplete { s.pkg with frozen := true }) ∧
    (s.pkg.freezing = false → same .freezeComplete) ∧
    (s.pkg.freezing = true → s.core.storeQ = [] → s.core.storePending = true → same .freezeComplete) ∧
    (s.pkg.freezing = true → s.core.storeQ = [] → (∃ u ∈ s.core.units, u.busy = true ∧ u.parked = none) →
      (∀ w ∈ s.pkg.peerWaits, w.who ≠ .unit) → same .freezeComplete) ∧
    (s.pkg.frozen = true → sets .adapterHoldTimeout { s.pkg with heldReqs := [] }) ∧
    sets .frzh { s.pkg with frozen := true, hard := true, freezing := true } ∧
    (s.pkg.frozen = true → s.pkg.hard = false → s.pkg.heldTails = [] → s.pkg.heldReqs = [] →
      Completes .thaw s (fun u => u.pkg.frozen = false ∧ u.pkg.freezing = false ∧
        ∀ k, (s.pkg.port k).farLost = true → (u.pkg.port k).st = .lost)) ∧
    (s.pkg.frozen = true → s.pkg.hard = false → s.pkg.heldTails = [] → s.pkg.heldReqs = [] →
      (∀ k, (s.pkg.port k).farLost = false) → Completes .thaw s (fun u => PkgOnly s u ∧ u.pkg.frozen = false ∧ u.pkg.freezing = false ∧
        ∀ k, u.pkg.port k = if (s.pkg.port k).st = .lost then s.pkg.port k
          else { s.pkg.port k with st := .down, nkOut := false })) ∧
    (s.pkg.hard = true → same .thaw) ∧
    sets (.selch chain) { s.pkg with chain := chain } ∧
    same .rdch ∧ same .bypass ∧
    (s.pkg.auth = false → same (.wrch image) ∧ same (.halt core) ∧ same (.armbrk core arm)) ∧
    (s.pkg.auth = true →
      (chainEmpty s.pkg.chain = true → sets (.wrch image) { s.pkg with dbgw := true }) ∧
      (chainEmpty s.pkg.chain = false → Completes (.wrch image) s (fun u => u.pkg.dbgw = true ∧
        (kind = 0 → OutsideRegs s u ∧ (index ≠ s.core.num.toNat → u.hart = s.hart ∧ u.core = s.core)) ∧
        (kind = 1 → u.hart = s.hart ∧ u.pkg.mem = s.pkg.mem) ∧
        (kind = 2 → u.hart = s.hart ∧ u.pkg = { s.pkg with dbgw := true }) ∧
        (kind = 3 → u.hart = s.hart ∧ u.core = s.core) ∧
        (kind = 4 → u.hart = s.hart ∧ u.core = s.core ∧ u.pkg.mem = s.pkg.mem ∧
          ∀ k : Port, k.toNat ≠ index → u.pkg.port k = s.pkg.port k) ∧
        (kind = 5 → u.hart = s.hart ∧ u.core = s.core ∧ u.pkg.mem = s.pkg.mem))) ∧
      (mine → Completes (.halt core) s (fun u => u = { s with hart := { s.hart with halted := true } }) ∧
        Completes (.armbrk core arm) s (fun u => u = { s with hart := { s.hart with brkArmed := arm } }))) ∧
    (mine → Completes (.go core) s (fun u => u = { s with hart := { s.hart with halted := false } })) ∧
    (¬mine → same (.go core) ∧ same (.halt core) ∧ same (.armbrk core arm)) ∧
    sets .stat { s.pkg with statData := BitVec.ofNat 8 status, challenges := s.pkg.challenges + 1 } ∧
    (0 < s.pkg.challenges → sets (.dbgauth true) { s.pkg with auth := true }) ∧
    (s.pkg.challenges = 0 → same (.dbgauth true)) ∧ same (.dbgauth false)

/-- Resets, power and cooling (23:R392 to R396): a package reset keeps memory and nothing else but what the package is
called; a core reset writes back, discards and keeps the error registers; the limits freeze and report, and reset the
package a second later.
CAUSE, VAL and the limits' report are free values (logs 32, 34); that MYPKG survives is the model's reading (log 79). -/
def Obligations.ResetsAndLimits : Prop :=
  ∀ (l : Line) (core : BitVec 9) (s : State),
    let whole (u : State) : Prop := u.hart = Hart.reset ∧ u.core = { Core.reset with num := s.core.num } ∧ u.tick = 0 ∧
      u.pkg = { State.reset.pkg with
        mem := s.pkg.mem, memPoison := s.pkg.memPoison, memSoft := s.pkg.memSoft, memHard := s.pkg.memHard,
        poisonSrc := s.pkg.poisonSrc, mypkg := s.pkg.mypkg }
    let same (i : Instr) : Prop := Completes i s (fun u => u = s)
    let errors (u : State) : Prop := u.core.cecnt = s.core.cecnt ∧ u.core.uesrc = s.core.uesrc ∧ u.core.uectx = s.core.uectx ∧
      u.core.ovf = s.core.ovf ∧ u.core.ue = s.core.ue ∧ u.core.ce = s.core.ce ∧ u.core.erraddr = s.core.erraddr
    let report : RingRecord := RingRecord.mk s.pkg.sysring (Config.thermalReport s.tick 0) (Config.thermalReport s.tick 1)
      (Config.thermalReport s.tick 2) (Config.thermalReport s.tick 3)
    let limited (u : State) : Prop := u.hart = s.hart ∧ u.core = s.core ∧
      u.pkg = { s.pkg with freezing := true, thermal := true, ring := s.pkg.ring ++ [report] }
    let r := s.pkg.sysring.toNat
    let n := s.ringSize s.pkg.sysring
    let tail := (sparseGet 0#64 s.pkg.rtail r).toNat % n
    let base := 0x0400_0000_0000 + s.peek (s.pkg.rrtbase.toNat + 16 * r) 8
    let at_ := base + 32 * tail
    let written (u : State) : Prop := u.pkg.freezing = true ∧ u.pkg.thermal = true ∧ u.pkg.ring = s.pkg.ring ∧
      u.peek at_ 8 = uv report.w0 ∧ u.peek (at_ + 8) 8 = uv report.w1 ∧ u.peek (at_ + 16) 8 = uv report.w2 ∧
      u.peek (at_ + 24) 8 = uv report.w3 ∧ (∀ y, (y < at_ ∨ at_ + 32 ≤ y) → u.peek y 1 = s.peek y 1) ∧
      sparseGet 0#64 u.pkg.rtail r = BitVec.ofNat 64 ((tail + 1) % n) ∧ SameRegs s u
    let clean := s.core.lines = [] ∧ s.pkg.versions = []
    Completes .rstpkg s whole ∧ Completes .packageReset s whole ∧
    (s.pkg.thermal = true → Completes .thermalResetTimer s whole) ∧
    (s.pkg.thermal = false → same .thermalResetTimer) ∧
    (∀ i ∈ [Instr.coreReset s.core.num, .rstcore s.core.num],
      Completes i s (fun u => u.hart = Hart.reset ∧ (∀ k : Fin 8, u.core.ways[k].mode = .cache) ∧ u.core.lines = [] ∧
        u.core.units = [] ∧ u.core.bench = [] ∧ u.core.rack = none ∧ u.core.inReset = true ∧ u.core.num = s.core.num) ∧
      (s.hart.run = .idle → s.core.softLine = [] → s.pkg.versions = [] → Completes i s errors) ∧
      (s.hart.run = .idle → s.core.lines = [l] → l.st = .d → l.hyp = 0#12 → s.pkg.versions = [] → s.MemWf →
        (Config.coreAnswers s.tick = true → Completes i s (fun u => ∀ a, u.peek a 1 = s.peek a 1)) ∧
        (Config.coreAnswers s.tick = false → Completes i s (fun u => u.pkg.mem = s.pkg.mem ∧
          ∀ k < 8, natSetHas u.pkg.memPoison (8 * l.line + k) = true))) ∧
      (s.hart.run ≠ .idle → s.hart.snap = false → s.core.storeQ = [] → s.core.checkedStores = [] → s.core.peel = [] → Completes i s (fun u =>
        u.core.reports.getLast? = some (sysReport (s.reportRing s.hart.queue) 2 s.hart.ctxid 0 s.core.num
          (Config.discardCause s.tick) (Config.discardVal s.tick) (s.hart.pc.setWidth 64) s.hart.cookie)))) ∧
    (core ≠ s.core.num → same (.coreReset core) ∧ same (.rstcore core) ∧ same (.coreResetComplete core) ∧
      same (.corePowerGate core)) ∧
    Completes (.coreResetComplete s.core.num) s (fun u => u = { s with core := { s.core with inReset := false } }) ∧
    (s.hart.run = .idle → clean → s.core.rack = none → (∀ k : Fin 8, s.core.ways[k].mode = .cache) →
      Completes (.corePowerGate s.core.num) s (fun u =>
        u = { s with core := { s.core with gated := true, softLine := [], l1d := [], l1i := [] } })) ∧
    (s.hart.run ≠ .idle ∨ s.core.rack.isSome = true → same (.corePowerGate s.core.num)) ∧
    same .thermalWarning ∧
    (∀ i ∈ [Instr.thermalLimit, .powerLimit],
      (s.ringFree s.pkg.sysring = false → Completes i s limited) ∧
      (s.ringFree s.pkg.sysring = true → base % 64 = 0 → LoneHome s at_ → sparseWf 0#64 s.pkg.rtail = true →
        Completes i s written))

/-! ### Scheduling, pre-emption and resume. -/

/-- From queue to core (12:R262 to R264, 13:R278 to R280, R284): a dispatcher pops at the highest level where it may, a bad
record is discarded with a KIND 1 report, waiting raises a level, and the oldest request of the highest level is
granted: a task starts with the registers that its record and context give.
A bad descriptor discards the record or the gang, and a record's id that has become FREE stands for the root, by the model's
reading (log 98); so are ring, checks at the pop and the horizon at the start (logs 63 to 66). -/
def Sys2Proof.Claims.TasksAreScheduled : Prop :=
  ∀ (disp : Nat) (p : BitVec 3) (q : BitVec 12) (req : GrantReq) (pre post : List GrantReq) (ws : List Word) (gr : GrantChoice)
    (x : SavedGang) (id : BitVec 20) (s : State),
    let k := disp % 4
    let desc := s.queueDesc q
    let head := s.headRecord desc
    let slot := (desc.base + 64 * desc.head) / 64
    let a := if s.pkg.atAdapter slot then s.takeIn slot else s
    let ctx : BitVec 8 := (recWord head.1 3).extractLsb' 0 8
    let pops := s.outstanding k p = false ∧ s.nextQueue k p = some q ∧
      ∀ p', p < p' → s.outstanding k p' = true ∨ s.nextQueue k p' = none
    let good := head.2 = false ∧ (s.context ctx).valid = true ∧ (s.context ctx).bad = false ∧
      (desc.host = true → GoodRecord head.1 ctx (s.context ctx).sys s)
    let r := recWord ws
    let rctx : BitVec 8 := (r 3).extractLsb' 0 8
    let w : BitVec 4 := (r 3).extractLsb' 12 4
    let gang : BitVec 10 := (r 3).extractLsb' 16 10
    let csa : Addr := (r 4).setWidth 48
    let c := s.context rctx
    let idx := choiceIdx gr s.core.num
    let hy := s.pkg.resolve 16 ((r 3).extractLsb' 52 12)
    let e := s.pkg.hypEntry hy
    let live := hy ≠ 0#12 ∧ e.st ≠ .free ∧ e.owner = rctx
    let copied := (s.asSystem rctx c.root).copyRecord csa.toNat ws (List.range gang.toNat)
    let clear := s.foreignIn (s.queueAt q) 32 = false ∧ s.contextForeign rctx = false
    let reported (cause : BitVec 8) (val : Word) (u : State) : Prop := SameRegs s u ∧ (∀ y ∈ u.pkg.requests, y.order ≠ req.order) ∧
      ∃ ring, u.pkg.ring.getLast? = some (sysReport ring 2 rctx 0 s.core.num cause val 0 (r 6))
    (pops → s.popForeign q = true → Completes (.queuePop disp) s (fun u => u = s)) ∧
    (pops → s.popForeign q = false → good → Completes (.queuePop disp) s (fun u => u = { a with pkg := { a.pkg with
      lastPop := sparseSet 1024 s.pkg.lastPop (k * 8 + p.toNat) (q.toNat % 1024)
      requests := s.pkg.requests ++ [GrantReq.mk (.record q head.1) p p s.pkg.nextOrder
        (desc.age && decide ((recWord head.1 3).extractLsb' 8 3 ≠ 7#3)) (BitVec.ofNat 2 k)]
      nextOrder := s.pkg.nextOrder + 1 } })) ∧
    (pops → s.popForeign q = false → s.pkg.atAdapter slot = true → slot ∉ s.pkg.hostHeld →
      Completes (.queuePop disp) s (fun u => slot ∈ u.pkg.hostHeld ∧ u.pkg.maxWts = serMax s.pkg.maxWts (s.pkg.hr + 1#16))) ∧
    (pops → s.popForeign q = false → ¬good → Completes (.queuePop disp) s (fun u => SameRegs s u ∧ u.pkg.requests = s.pkg.requests ∧
      u.pkg.ring = s.pkg.ring ++ [sysReport (BitVec.ofNat 12 (s.peek (s.queueAt q + 16) 8)) 1 ctx q 0 0 0 0
        (recWord head.1 6)])) ∧
    ((s.headLevel q).isSome = true → desc.age = true → Completes (.agingTick q.toNat) s (fun u => PkgOnly s u ∧
      u.pkg.requests = s.pkg.requests ∧ ∀ y, sparseGet 0 u.pkg.waits y =
        if y = q.toNat then sparseGet 0 s.pkg.waits y + 1 else sparseGet 0 s.pkg.waits y)) ∧
    (s.pkg.requests = pre ++ req :: post → Completes (.agingTick (4096 + pre.length)) s (fun u => PkgOnly s u ∧
      u.pkg.requests = pre ++ { req with level :=
        if req.ages = true ∧ req.level.toNat < 6 then req.level + 1#3 else req.level } :: post)) ∧
    (s.pkg.freezing = true → Completes (.laneGrant gr) s (fun u => u = s)) ∧
    (s.pkg.served = some req → s.pkg.freezing = false → req.kind = .record q ws → (r 5).getLsbD 0 = false →
      ((s.choiceOk gr w.toNat gang.toNat = false ∨ ¬clear) → Completes (.laneGrant gr) s (fun u => u = s)) ∧
      (s.choiceOk gr w.toNat gang.toNat = true → clear → c.bad = true →
        Completes (.laneGrant gr) s (reported 0x0A#8 (BitVec.ofNat 64 (s.pkg.cdtbase.toNat + 64 * rctx.toNat)))) ∧
      (∀ va, s.choiceOk gr w.toNat gang.toNat = true → clear → c.bad = false → copied.2 = some (.failed va) →
        Completes (.laneGrant gr) s (reported 0x03#8 (BitVec.ofNat 64 va))) ∧
      (s.choiceOk gr w.toNat gang.toNat = true → clear → c.bad = false → copied.2 = none → s.core.num ∉ gr.cores →
        Completes (.laneGrant gr) s (fun u => SameRegs s u ∧ u.hart.pc = s.hart.pc ∧
          ∀ y ∈ u.pkg.requests, y.order ≠ req.order)) ∧
      (s.choiceOk gr w.toNat gang.toNat = true → clear → c.bad = false → copied.2 = none → s.core.num ∈ gr.cores →
        Completes (.laneGrant gr) s (fun u =>
          u.hart.run = .running ∧ u.hart.pc = (r 0).setWidth 48 &&& 0xFFFF_FFFF_FFFC#48 ∧
          (∀ y, u.g y = if y = 3#5 then r 1 else if y = 4#5 then r 2 else if y = 5#5 then idx.setWidth 64
            else if y = 6#5 then gang.setWidth 64 else 0) ∧
          u.hart.mode = 0 ∧ u.hart.vl = 0 ∧ u.hart.vlmax = BitVec.ofNat 20 (65536 * w.toNat) ∧
          u.hart.vlceil = (r 3).extractLsb' 32 20 ∧ u.hart.lanesW = w ∧ u.hart.lanesWays = gr.ways ∧ u.hart.lease = 16 ∧
          u.hart.ltime = u.pkg.horizon ∧ u.hart.prio = req.level ∧ u.hart.ctxid = rctx ∧ u.hart.gidx = idx ∧
          u.hart.gsize = gang ∧ u.hart.gangid = gr.gangid ∧ u.hart.csaptr = csa + BitVec.ofNat 48 (idx.toNat * 0x1100000) ∧
          u.hart.taskrec = u.hart.csaptr ∧ u.hart.ptroot = c.root ∧ u.hart.sys = c.sys ∧ u.hart.maint = c.maint ∧
          u.hart.lockq = c.lockq ∧ u.hart.snap = false ∧ u.hart.racechk = (r 5).getLsbD 1 ∧ u.hart.th = false ∧
          u.hart.trapvec = 0 ∧ u.hart.instret = 0 ∧ (live → u.hart.hyp = hy) ∧ (¬live → u.hart.hyp = 0#12) ∧
          (live → e.st = .refuted → u.hart.orphan = some hy) ∧ ((¬live ∨ e.st ≠ .refuted) → u.hart.orphan = none) ∧
          u.core.vrows = [] ∧ u.core.prows = [] ∧ u.core.cells = [] ∧ u.core.units = [] ∧ u.core.inj = 0 ∧ u.core.injArm = false ∧
          ∀ y ∈ u.pkg.requests, y.order ≠ req.order))) ∧
    (s.pkg.served = some req → s.pkg.freezing = false → req.kind = .resume id → s.pkg.saved = [x] → x.gangid = id → s.coreFree = true →
      s.waysFree (gr.ways ||| x.bways) = true → (gr.ways &&& x.bways) = 0#8 → popcount8 gr.ways = x.awaysW.toNat →
      Completes (.laneGrant gr) s (fun u => PkgOnly s u ∧ u.pkg.saved = [{ x with granted := true }] ∧
        ∀ y ∈ u.pkg.requests, y.order ≠ req.order))

/-- Pre-emption and resume (13:R280 to R287): a request above the level of the running gang, which is not of level 7, has
the gang saved, once nothing of it is in flight: the hart is idle, its ways are CACHE, its request stands in the list; a granted
gang comes back with the registers that its area holds, or is discarded when the area cannot be read or is poisoned.
What the saved gang keeps beside its area is the model's choice (log 38). -/
def Sys2Proof.Claims.GangsAreSavedAndResumed : Prop :=
  ∀ (req : GrantReq) (g : SavedGang) (ways : BitVec 8) (t t' : State) (h : HeadImage) (b : BodyImage) (va off : Nat) (s : State),
    let area := g.csa + BitVec.ofNat 48 (g.gidx.toNat * 0x1100000)
    let c := s.context g.ctxid
    let resumes := s.pkg.saved = [g] ∧ g.granted = true ∧ s.canResume g ways = true ∧ c.bad = false
    let head := (s.asSystem g.ctxid c.root).readHead area.toNat
    let reported (cause : BitVec 8) (val : Nat) (u : State) : Prop := u.pkg.saved = [] ∧ SameRegs s u ∧
      ∃ ring, u.core.reports.getLast? = some (sysReport ring 2 g.ctxid 0 s.core.num cause (BitVec.ofNat 64 val) 0 g.cookie)
    (s.pkg.served = some req → (s.hart.run = .idle ∨ req.level ≤ s.hart.prio ∨ s.covers req = false ∨ s.pkg.freezing = true) →
      Completes .preemption s (fun u => u = s)) ∧
    (s.pkg.served = some req → s.mayPreempt req = true → s.trapFirst = false → s.inFlight = false → s.core.storeQ = [] →
      (∀ u ∈ s.core.units, isFrame u.instr = false) → s.core.badRows = [] → s.core.badCells = [] → s.core.softBench = [] →
      (s.asOwner.writeImage s.hart.csaptr.toNat s.saveImage).2 = none →
      Completes .preemption s (fun u => SameRegs s u ∧ u.hart.pc = s.hart.pc ∧ u.hart.run = .idle ∧ u.hart.hyp = 0#12 ∧
        u.core.units = [] ∧ u.pkg.saving = true ∧
        (∀ k : Fin 8, s.core.ways[k].mode ≠ .cache → s.core.ways[k].ctx = s.hart.ctxid → s.core.rackWays.getLsbD k.val = false →
          u.core.ways[k].mode = .cache) ∧
        (∃ x, u.pkg.saved = s.pkg.saved ++ [x] ∧ x.gangid = s.hart.gangid ∧ x.gidx = s.hart.gidx ∧ x.ctxid = s.hart.ctxid ∧
          x.level = s.hart.prio ∧ x.stamp = s.hart.syncst ∧ x.hyp = s.hart.hyp ∧ x.csa = s.hart.csa ∧ x.granted = false) ∧
        u.pkg.requests = s.pkg.requests ++
          [GrantReq.mk (.resume s.hart.gangid) s.hart.prio s.hart.prio s.pkg.nextOrder false 0])) ∧
    (s.pkg.served = some req → s.mayPreempt req = true → s.core.storeQ = [] → (s.trapFirst = true ∨ s.inFlight = true) →
      Completes .preemption s (fun u => u = s)) ∧
    Completes .gangSaved s (fun u => u = { s with pkg := { s.pkg with saving := false } }) ∧
    (s.pkg.saved = [g] → g.granted = true → s.canResume g ways = false → Completes (.resume ways) s (fun u => u = s)) ∧
    (resumes → head = .error (.failed va) → Completes (.resume ways) s (reported 0x03#8 va)) ∧
    (resumes → head = .ok (t, h) → h.poisoned = some off → Completes (.resume ways) s (reported 0x0A#8 (area.toNat + off))) ∧
    (resumes → head = .ok (t, h) → h.poisoned = none → t.readBody area.toNat h ways g.bways = .ok (t', b) →
      takeEntries h.kneader 4 = [] → takeEntries h.frame 4 = [] → takeEntries h.peel 16 = [] → h.vv = 0 → h.pv = 0 →
      (∀ w ∈ b.cells ++ b.chans, w.poison = false) → (h.word 0x41).getLsbD 0 = false → g.ending = false →
      g.orphan = none → (t'.pkg.hypEntry (t'.pkg.resolve 16 ((h.word 0x35).setWidth 12))).st ≠ .refuted →
      Completes (.resume ways) s (fun u =>
        u.hart.run = .running ∧ u.hart.pc = (h.word 0x28).setWidth 48 &&& 0xFFFF_FFFF_FFFC#48 ∧
        (∀ y, u.g y = if y = 0#5 then 0 else h.word (8 + y.toNat)) ∧
        u.hart.mode = (h.word 0x29).setWidth 21 ∧ u.hart.vl = (h.word 0x2A).setWidth 20 ∧ u.hart.rds = h.word 0x2C ∧
        u.hart.vfsr = (h.word 0x2D).setWidth 5 ∧ u.hart.srseed = h.word 0x2E ∧ u.hart.srcount = h.word 0x2F ∧
        u.hart.fsr = (h.word 0x31).setWidth 5 ∧ u.hart.lease = (h.word 0x33).setWidth 8 ∧
        u.hart.trapcause = (h.word 0x38).setWidth 8 ∧ u.hart.trappc = (h.word 0x39).setWidth 48 ∧
        u.hart.trapval = h.word 0x3A ∧ u.hart.th = (h.word 0x3C).getLsbD 0 ∧ u.hart.instret = h.word 0x3D ∧
        u.hart.savepc = (h.word 0x28).setWidth 48 ∧ u.hart.lanesW = g.awaysW ∧ u.hart.lanesWays = ways ∧
        u.hart.gangid = g.gangid ∧ u.hart.ctxid = g.ctxid ∧ u.hart.prio = g.level ∧ u.hart.ptroot = c.root ∧
        u.core.units = [] ∧ u.pkg.saved = []))

/-- Scheduling (12:R262 to R264, 13:R278 to R287): pops, aging, grants and the start of a task, pre-emption and
resume. -/
def Obligations.Scheduling : Prop := Claims.TasksAreScheduled ∧ Claims.GangsAreSavedAndResumed

/-! ### The machine. -/

/-- A step runs the decoded instruction (02:R31, R32, R38, R40): when the turn is the hart's and it may execute, the word at PC,
fetched through a translation that grants execute permission, decodes to i, and the step is exec of i after the fetch, with
the turn taken off and the clock one step on; a word that is no instruction raises 0x01 with the word. An event's turn runs the
event, the turns of harts of other cores and of natural errors act as they do, and a frozen package does nothing else
(23:R387; log 2). That a fetch that answers leaves the hart as it was is the model's reading (log 74). -/
def Obligations.StepRunsDecoded : Prop :=
  ∀ (dpa : Nat) (cnt : Bool) (i : Instr) (w : IWord) (rest : List Turn) (a : OtherAct) (x : HwError) (u c s : State),
    let taken : State := { s with turns := s.turns.drop 1 }
    let b : State := { taken with
      tick := s.tick + 1
      pkg := { s.pkg with ports := s.pkg.ports.map (fun r => { r with lanes := [] }) } }
    let hart := s.turns = .hart :: rest ∨ (s.turns = [] ∧ s.auto = .hart)
    (s.pkg.frozen = false →
      (hart → b.hartReady = true → b.fetch = .word w u →
        (decode w = .ok i → step s = Machine.exec i u) ∧
        (∀ e, decode w = .error e → HandlerReady u → ∃ t, step s = .next t ∧
          Trapped 0x01#8 (w.setWidth 64) u.hart.pc u t)) ∧
      (hart → b.hartReady = true → b.fetch = .stop u → step s = .next u) ∧
      (hart → b.hartReady = false → step s = .next b) ∧
      (¬InWindow (b.hart.pc.setWidth 64) → b.translate b.hart.pc .fetch = .ok (dpa, .wb, cnt) c → c.hart.hyp = 0#12 →
        c.hart.stale = [] → EmptyCache c → c.core.l1i = [] → NoInjection c → CalmLine c (dpa / 64) → dpa % 4 = 0 →
        c.pkg.linePoison (dpa / 64) = 0#8 → ∃ v, b.fetch = .word (BitVec.ofNat 32 (c.pkg.read dpa 4)) v ∧ v.hart = c.hart ∧
          v.pkg.mem = c.pkg.mem ∧ v.core.bench = c.core.bench) ∧
      (s.turns = .event i :: rest → isEvent i = true → step s = Machine.exec i b) ∧
      (s.turns = .other a :: rest → step s = .next (b.otherAct a)) ∧
      (s.turns = .error x :: rest → step s = .next (b.hwError x))) ∧
    (s.pkg.frozen = true →
      (s.turns = .event i :: rest → isEvent i = true → actsFrozen i = true → step s = Machine.exec i taken) ∧
      (s.turns = .event i :: rest → actsFrozen i = false → step s = .next taken) ∧
      (s.turns = .other a :: rest ∨ s.turns = .error x :: rest ∨ s.turns = .hart :: rest ∨ s.turns = [] →
        step s = .next taken))

/-- Words written out from the encodings of the spec decode to the instructions they stand for; a word of no opcode, and
one with a field that must be zero, decode to none (02:R34 to R39). -/
def Obligations.DecodedWords : Prop :=
  (∀ p ∈ ([(0x052A5800#32, .add 9 10 11), (0x22112007#32, .srai 16 17 7), (0x32119445#32, .fma .fp32 16 17 18 .rtz),
      (0x3E090008#32, .ldw 16 9 8), (0x64050002#32, .bne 0 5 2), (0x783FFFFC#32, .jal 1 0x1FFFFC#21),
      (0x82098E82#32, .amoadd 16 9 17 .ar .gang false), (0x88071201#32, .mts .lease 7), (0x8A000101#32, .mfs 16 .vl),
      (0x90001001#32, .gmode 0x1001#21), (0x96110010#32, .wconvArray 16 17), (0x98880700#32, .vadd 2 2 (.imm 3)),
      (0xAC042080#32, .vredsum 16 1), (0xB8000802#32, .mmo 0 1 false), (0xBE300001#32, .henter 17 16)] : List (IWord × Instr)),
    decode p.1 = .ok p.2) ∧
  (∀ e ∈ ([0x00000000#32, 0xFFFFFFFF#32, 0x88004001#32] : List IWord), ∃ x, decode e = .error x)

/-- Decode and encode agree, for every instruction with an encoding and every operand that it admits, and for every word
(02:R34 to R39): no bit of an encoding is dropped. -/
def Obligations.EncodedInstructionsDecode : Prop :=
  (∀ i : Instr, i.wellFormed = true → isEvent i = false → (∀ w, i ≠ .illegalInstruction w) →
    ∃ w, encode i = some w ∧ decode w = .ok i) ∧
  (∀ (w : IWord) (i : Instr), decode w = .ok i → encode i = some w ∧ i.wellFormed = true)

/-- Every step keeps memory in its canonical form, bits [1:0] of PC zero (02:R32) and, but for an authenticated scan write,
which may put anything into the registers (23:R385), the lane grant's count equal to the number of its ways (02:R52,
12:R263). Memory's list form is the model's representation (log 84). -/
def Obligations.StepKeepsInvariants : Prop :=
  ∀ s t : State, s.Inv → step s = .next t → t.MemWf ∧ t.PcAligned ∧ (¬s.scans → t.GrantWf)

/-- Every step keeps the other maps of the state in canonical form: bench, its invalid words and owners, the register rows,
the frame, the hypothesis table, race records, rings, bias and held lines.
The lists and their form are the model's representation of the spec's state (log 84). -/
def Obligations.StepKeepsCanonicalForms : Prop :=
  ∀ s t : State, s.Canonical → step s = .next t → t.Canonical

/-- The machine at reset (23:R392): both invariants hold, every way is CACHE, every hypothesis but the root is FREE, no
rack and no lock stands, no queue is enabled, and the registers have their Reset values.
Canonical forms are the model's (log 84). -/
def Obligations.ResetState : Prop :=
  let s := State.reset
  s.Inv ∧ s.Canonical ∧
  (∀ k : Fin 8, s.core.ways[k].mode = .cache) ∧ (∀ h, h ≠ 0#12 → (s.pkg.hypEntry h).st = .free) ∧
  s.core.rack = none ∧ s.core.lines = [] ∧ (∀ q, (s.queueDesc q).en = false) ∧ s.hart.run = .idle ∧
  (∀ p ∈ [(SysReg.mode, 0), (.vl, 0), (.vstart, 0), (.vlmax, 65536), (.vlceil, 65536), (.lanes, 0x102), (.rds, 0), (.vfsr, 0),
      (.vdirty, 0), (.pdirty, 0), (.srseed, 0), (.srcount, 0), (.fcr, 0), (.fsr, 0), (.ltime, 0), (.lease, 16), (.syncst, 0),
      (.hyp, 0), (.hypdepth, 0), (.lockq, 0), (.lockuse, 0), (.benchchk, 0), (.waymode, 0), (.trapcause, 0), (.trappc, 0),
      (.trapval, 0), (.trapvec, 0), (.status, 0), (.ptroot, 0), (.csaptr, 0), (.savepc, 0), (.gsize, 1), (.instret, 0),
      (.cycle, 0), (.erraddr, 0), (.chkctl, 0), (.rbcount, 0)],
    s.sysRead p.1 = p.2)

/-- No step stops the machine: whatever the turn, the word fetched and the operands, step answers a next state; an instruction
that the spec does not let run takes the exception that it names (16:R308). -/
def Obligations.StepsGoOn : Prop := ∀ s : State, ∃ t, step s = .next t
end

