-- ==== Sys2Proof/Laws/Sparse.lean ====
section
/-! SUPPORT. Laws/Sparse.lean: reading a map after writing it, and that every operation keeps the canonical form. -/

namespace Sys2Proof.Machine

/-- A fold of steps that keep a part of what they act on keeps it. -/
theorem foldl_keeps {α β γ : Type} (g : α → γ) (f : α → β → α) (h : ∀ a x, g (f a x) = g a) (l : List β) (a : α) :
    g (l.foldl f a) = g a := by
  induction l generalizing a with
  | nil => rfl
  | cons x l ih => rw [List.foldl_cons, ih, h]


variable {α : Type} [DecidableEq α]

theorem sparseWfFrom_mono (d : α) (m : Sparse α) {a b : Nat} (h : a ≤ b) (w : sparseWfFrom d b m = true) :
    sparseWfFrom d a m = true := by
  cases m with
  | nil => rfl
  | cons e m => simp only [sparseWfFrom, Bool.and_eq_true, decide_eq_true_eq] at w ⊢; exact ⟨⟨by omega, w.1.2⟩, w.2⟩

/-- A key below every listed one reads as the default. -/
theorem sparseGet_below (d : α) (m : Sparse α) {a k : Nat} (w : sparseWfFrom d a m = true) (h : k < a) : sparseGet d m k = d := by
  cases m with
  | nil => rfl
  | cons e m =>
    simp only [sparseWfFrom, Bool.and_eq_true, decide_eq_true_eq] at w
    simp only [sparseGet]; split
    · omega
    · split <;> [omega; rfl]

/-- Writing keeps the canonical form. -/
theorem sparseWfFrom_set (d : α) (m : Sparse α) (a k : Nat) (v : α) (w : sparseWfFrom d a m = true) (h : a ≤ k) :
    sparseWfFrom d a (sparseSet d m k v) = true := by
  induction m generalizing a with
  | nil => simp only [sparseSet]; split <;> simp_all [sparseWfFrom]
  | cons e m ih =>
    simp only [sparseWfFrom, Bool.and_eq_true, decide_eq_true_eq, bne_iff_ne] at w
    simp only [sparseSet]
    split
    · simp only [sparseWfFrom, Bool.and_eq_true, decide_eq_true_eq, bne_iff_ne]
      exact ⟨w.1, ih _ w.2 (by omega)⟩
    · split
      · split
        · exact sparseWfFrom_mono d m (by omega) w.2
        · simp only [sparseWfFrom, Bool.and_eq_true, decide_eq_true_eq, bne_iff_ne]
          exact ⟨⟨by omega, ‹_›⟩, by subst_vars; exact w.2⟩
      · split
        · simp only [sparseWfFrom, Bool.and_eq_true, decide_eq_true_eq, bne_iff_ne]; exact w
        · simp only [sparseWfFrom, Bool.and_eq_true, decide_eq_true_eq, bne_iff_ne]
          exact ⟨⟨by omega, ‹_›⟩, ⟨by omega, w.1.2⟩, w.2⟩

theorem sparseWf_set (d : α) (m : Sparse α) (k : Nat) (v : α) (w : sparseWf d m = true) : sparseWf d (sparseSet d m k v) = true :=
  sparseWfFrom_set d m 0 k v w (Nat.zero_le k)

/-- A read after a write to the same key. -/
theorem sparseGet_set_self (d : α) (m : Sparse α) (k : Nat) (v : α) (w : sparseWf d m = true) :
    sparseGet d (sparseSet d m k v) k = v := by
  unfold sparseWf at w
  generalize 0 = a at w
  induction m generalizing a with
  | nil => simp only [sparseSet]; split <;> simp_all [sparseGet]
  | cons e m ih =>
    simp only [sparseWfFrom, Bool.and_eq_true, decide_eq_true_eq, bne_iff_ne] at w
    simp only [sparseSet]
    split
    · rename_i h; simp only [sparseGet, h, if_true]; exact ih _ w.2
    · split
      · split
        · subst_vars; exact sparseGet_below _ m w.2 (by omega)
        · simp [sparseGet]
      · split
        · subst_vars; simp only [sparseGet]; rw [if_neg ‹_›, if_neg ‹_›]
        · simp [sparseGet]

/-- A write leaves every other key alone. -/
theorem sparseGet_set_of_ne (d : α) (m : Sparse α) (k j : Nat) (v : α) (w : sparseWf d m = true) (h : j ≠ k) :
    sparseGet d (sparseSet d m k v) j = sparseGet d m j := by
  unfold sparseWf at w
  generalize 0 = a at w
  induction m generalizing a with
  | nil =>
    simp only [sparseSet]; split
    · rfl
    · simp only [sparseGet]; split <;> [rfl; (split <;> [omega; rfl])]
  | cons e m ih =>
    simp only [sparseWfFrom, Bool.and_eq_true, decide_eq_true_eq, bne_iff_ne] at w
    simp only [sparseSet]
    split
    · simp only [sparseGet]; split
      · exact ih _ w.2
      · rfl
    · split
      · rename_i hk; subst hk
        split
        · simp only [sparseGet]; split
          · rfl
          · rw [if_neg (by omega)]; exact sparseGet_below _ m w.2 (by omega)
        · simp only [sparseGet]; split <;> [rfl; rw [if_neg (by omega), if_neg (by omega)]]
      · split
        · rfl
        · simp only [sparseGet]
          by_cases h1 : k < j
          · simp [h1]
          · rw [if_neg h1, if_neg (by omega), if_neg (by omega), if_neg (by omega)]

/-- Dropping entries keeps the canonical form. -/
theorem sparseWfFrom_filter (d : α) (m : Sparse α) (a : Nat) (p : Nat × α → Bool) (w : sparseWfFrom d a m = true) :
    sparseWfFrom d a (m.filter p) = true := by
  induction m generalizing a with
  | nil => rfl
  | cons e m ih =>
    simp only [sparseWfFrom, Bool.and_eq_true, decide_eq_true_eq, bne_iff_ne] at w
    by_cases h : p e = true
    · simp only [List.filter_cons, h, if_true, sparseWfFrom, Bool.and_eq_true, decide_eq_true_eq, bne_iff_ne]
      exact ⟨w.1, ih _ w.2⟩
    · simp only [List.filter_cons, h]
      exact sparseWfFrom_mono d _ (by omega) (ih _ w.2)

theorem sparseWf_filter (d : α) (m : Sparse α) (p : Nat × α → Bool) (w : sparseWf d m = true) :
    sparseWf d (m.filter p) = true := sparseWfFrom_filter d m 0 p w

theorem sparseWf_drop (d : α) (m : Sparse α) (p : Nat → Bool) (w : sparseWf d m = true) : sparseWf d (sparseDrop p m) = true :=
  sparseWf_filter d m _ w

/-- A fold of writes keeps the canonical form. -/
theorem sparseWf_foldl {β : Type} (d : α) (f : Sparse α → β → Sparse α) (l : List β) (m : Sparse α)
    (h : ∀ m x, sparseWf d m = true → sparseWf d (f m x) = true) (w : sparseWf d m = true) :
    sparseWf d (l.foldl f m) = true := by
  induction l generalizing m with
  | nil => exact w
  | cons x l ih => exact ih _ (h m x w)

theorem natSetPut_wf (m : NatSet) (k : Nat) (b : Bool) (w : sparseWf false m = true) : sparseWf false (natSetPut m k b) = true :=
  sparseWf_set _ m k b w

theorem natSetHas_put (m : NatSet) (k j : Nat) (b : Bool) (w : sparseWf false m = true) :
    natSetHas (natSetPut m k b) j = if j = k then b else natSetHas m j := by
  split
  · subst_vars; exact sparseGet_set_self _ m _ b w
  · exact sparseGet_set_of_ne _ m k j b w ‹_›

end Sys2Proof.Machine
end

