-- ==== Sys2Proof/Laws/State.lean ====
section
/-! SUPPORT. Laws/State.lean: what each update of the state leaves in each of its parts, so that no proof unfolds a record
update. Hart fields are stated for the named operations of Ops.lean. -/

namespace Sys2Proof.Machine


/-! mapHart. -/
@[simp] theorem State.mapHart_hart (s : State) (f : Hart → Hart) : (s.mapHart f).hart = f s.hart := rfl
@[simp] theorem State.mapHart_core (s : State) (f : Hart → Hart) : (s.mapHart f).core = s.core := rfl
@[simp] theorem State.mapHart_pkg (s : State) (f : Hart → Hart) : (s.mapHart f).pkg = s.pkg := rfl
@[simp] theorem State.mapHart_turns (s : State) (f : Hart → Hart) : (s.mapHart f).turns = s.turns := rfl
@[simp] theorem State.mapHart_tick (s : State) (f : Hart → Hart) : (s.mapHart f).tick = s.tick := rfl

/-! mapCore. -/
@[simp] theorem State.mapCore_hart (s : State) (f : Core → Core) : (s.mapCore f).hart = s.hart := rfl
@[simp] theorem State.mapCore_core (s : State) (f : Core → Core) : (s.mapCore f).core = f s.core := rfl
@[simp] theorem State.mapCore_pkg (s : State) (f : Core → Core) : (s.mapCore f).pkg = s.pkg := rfl
@[simp] theorem State.mapCore_turns (s : State) (f : Core → Core) : (s.mapCore f).turns = s.turns := rfl
@[simp] theorem State.mapCore_tick (s : State) (f : Core → Core) : (s.mapCore f).tick = s.tick := rfl

/-! mapPkg. -/
@[simp] theorem State.mapPkg_hart (s : State) (f : Pkg → Pkg) : (s.mapPkg f).hart = s.hart := rfl
@[simp] theorem State.mapPkg_core (s : State) (f : Pkg → Pkg) : (s.mapPkg f).core = s.core := rfl
@[simp] theorem State.mapPkg_pkg (s : State) (f : Pkg → Pkg) : (s.mapPkg f).pkg = f s.pkg := rfl
@[simp] theorem State.mapPkg_turns (s : State) (f : Pkg → Pkg) : (s.mapPkg f).turns = s.turns := rfl
@[simp] theorem State.mapPkg_tick (s : State) (f : Pkg → Pkg) : (s.mapPkg f).tick = s.tick := rfl

/-! countRetired. -/
@[simp] theorem State.countRetired_hart (s : State) : s.countRetired.hart = { s.hart with instret := s.hart.instret + 1#64 } := rfl
@[simp] theorem State.countRetired_core (s : State) : s.countRetired.core = s.core := rfl
@[simp] theorem State.countRetired_pkg (s : State) : s.countRetired.pkg = s.pkg := rfl
@[simp] theorem State.countRetired_turns (s : State) : s.countRetired.turns = s.turns := rfl
@[simp] theorem State.countRetired_tick (s : State) : s.countRetired.tick = s.tick := rfl

/-! advance. -/
@[simp] theorem State.advance_hart (s : State) : s.advance.hart = { s.hart with pc := s.hart.pc + 4#48 } := rfl
@[simp] theorem State.advance_core (s : State) : s.advance.core = s.core := rfl
@[simp] theorem State.advance_pkg (s : State) : s.advance.pkg = s.pkg := rfl
@[simp] theorem State.advance_turns (s : State) : s.advance.turns = s.turns := rfl
@[simp] theorem State.advance_tick (s : State) : s.advance.tick = s.tick := rfl

/-! retire. -/
@[simp] theorem State.retire_hart (s : State) : s.retire.hart = { s.hart with instret := s.hart.instret + 1#64, pc := s.hart.pc + 4#48 } := rfl
@[simp] theorem State.retire_core (s : State) : s.retire.core = s.core := rfl
@[simp] theorem State.retire_pkg (s : State) : s.retire.pkg = s.pkg := rfl
@[simp] theorem State.retire_turns (s : State) : s.retire.turns = s.turns := rfl
@[simp] theorem State.retire_tick (s : State) : s.retire.tick = s.tick := rfl

/-! jump. -/
@[simp] theorem State.jump_hart (s : State) (pc : Addr) : (s.jump pc).hart = { s.hart with instret := s.hart.instret + 1#64, pc := pc } := rfl
@[simp] theorem State.jump_core (s : State) (pc : Addr) : (s.jump pc).core = s.core := rfl
@[simp] theorem State.jump_pkg (s : State) (pc : Addr) : (s.jump pc).pkg = s.pkg := rfl
@[simp] theorem State.jump_turns (s : State) (pc : Addr) : (s.jump pc).turns = s.turns := rfl
@[simp] theorem State.jump_tick (s : State) (pc : Addr) : (s.jump pc).tick = s.tick := rfl

/-! returnFromTrap. -/
@[simp] theorem State.returnFromTrap_hart (s : State) : s.returnFromTrap.hart = { s.hart with instret := s.hart.instret + 1#64, th := false, pc := s.hart.trappc &&& ~~~3#48 } := rfl
@[simp] theorem State.returnFromTrap_core (s : State) : s.returnFromTrap.core = s.core := rfl
@[simp] theorem State.returnFromTrap_pkg (s : State) : s.returnFromTrap.pkg = s.pkg := rfl
@[simp] theorem State.returnFromTrap_turns (s : State) : s.returnFromTrap.turns = s.turns := rfl
@[simp] theorem State.returnFromTrap_tick (s : State) : s.returnFromTrap.tick = s.tick := rfl

/-! noteRead. -/
@[simp] theorem State.noteRead_core (s : State) (w : BitVec 16) : (s.noteRead w).core = s.core := rfl
@[simp] theorem State.noteRead_pkg (s : State) (w : BitVec 16) : (s.noteRead w).pkg = s.pkg := rfl
@[simp] theorem State.noteRead_turns (s : State) (w : BitVec 16) : (s.noteRead w).turns = s.turns := rfl
@[simp] theorem State.noteRead_tick (s : State) (w : BitVec 16) : (s.noteRead w).tick = s.tick := rfl

/-! acquireRow. -/
@[simp] theorem State.acquireRow_hart (s : State) (w : BitVec 16) : (s.acquireRow w).hart = { s.hart with ltime := serMax s.hart.ltime w } := rfl
@[simp] theorem State.acquireRow_core (s : State) (w : BitVec 16) : (s.acquireRow w).core = s.core := rfl
@[simp] theorem State.acquireRow_pkg (s : State) (w : BitVec 16) : (s.acquireRow w).pkg = s.pkg := rfl
@[simp] theorem State.acquireRow_turns (s : State) (w : BitVec 16) : (s.acquireRow w).turns = s.turns := rfl
@[simp] theorem State.acquireRow_tick (s : State) (w : BitVec 16) : (s.acquireRow w).tick = s.tick := rfl

/-! setHypReg. -/
@[simp] theorem State.setHypReg_hart (s : State) (h : BitVec 12) : (s.setHypReg h).hart = { s.hart with hyp := h, hypdepth := (s.pkg.hypEntry h).depth } := rfl
@[simp] theorem State.setHypReg_core (s : State) (h : BitVec 12) : (s.setHypReg h).core = s.core := rfl
@[simp] theorem State.setHypReg_pkg (s : State) (h : BitVec 12) : (s.setHypReg h).pkg = s.pkg := rfl
@[simp] theorem State.setHypReg_turns (s : State) (h : BitVec 12) : (s.setHypReg h).turns = s.turns := rfl
@[simp] theorem State.setHypReg_tick (s : State) (h : BitVec 12) : (s.setHypReg h).tick = s.tick := rfl

/-! dropUnit. -/
@[simp] theorem State.dropUnit_hart (s : State) (u : UnitOp) : (s.dropUnit u).hart = s.hart := rfl
@[simp] theorem State.dropUnit_core (s : State) (u : UnitOp) : (s.dropUnit u).core = { s.core with units := mapFirst (isFrame u.instr) (fun _ => none) s.core.units } := rfl
@[simp] theorem State.dropUnit_pkg (s : State) (u : UnitOp) : (s.dropUnit u).pkg = s.pkg := rfl
@[simp] theorem State.dropUnit_turns (s : State) (u : UnitOp) : (s.dropUnit u).turns = s.turns := rfl
@[simp] theorem State.dropUnit_tick (s : State) (u : UnitOp) : (s.dropUnit u).tick = s.tick := rfl

/-! setUnit. -/
@[simp] theorem State.setUnit_hart (s : State) (u : UnitOp) : (s.setUnit u).hart = s.hart := rfl
@[simp] theorem State.setUnit_core (s : State) (u : UnitOp) : (s.setUnit u).core = { s.core with units := mapFirst (isFrame u.instr) (fun _ => some u) s.core.units } := rfl
@[simp] theorem State.setUnit_pkg (s : State) (u : UnitOp) : (s.setUnit u).pkg = s.pkg := rfl
@[simp] theorem State.setUnit_turns (s : State) (u : UnitOp) : (s.setUnit u).turns = s.turns := rfl
@[simp] theorem State.setUnit_tick (s : State) (u : UnitOp) : (s.setUnit u).tick = s.tick := rfl

/-! recordUe. -/
@[simp] theorem State.recordUe_hart (s : State) (n : BitVec 4) (w : Word) : (s.recordUe n w).hart = s.hart := rfl
@[simp] theorem State.recordUe_pkg (s : State) (n : BitVec 4) (w : Word) : (s.recordUe n w).pkg = s.pkg := rfl
@[simp] theorem State.recordUe_turns (s : State) (n : BitVec 4) (w : Word) : (s.recordUe n w).turns = s.turns := rfl
@[simp] theorem State.recordUe_tick (s : State) (n : BitVec 4) (w : Word) : (s.recordUe n w).tick = s.tick := rfl

/-! recordCe. -/
@[simp] theorem State.recordCe_hart (s : State) : s.recordCe.hart = s.hart := rfl
@[simp] theorem State.recordCe_core (s : State) : s.recordCe.core = { s.core with ce := true, cecnt := if s.core.cecnt = 0xFFFF#16 then s.core.cecnt else s.core.cecnt + 1#16 } := rfl
@[simp] theorem State.recordCe_pkg (s : State) : s.recordCe.pkg = s.pkg := rfl
@[simp] theorem State.recordCe_turns (s : State) : s.recordCe.turns = s.turns := rfl
@[simp] theorem State.recordCe_tick (s : State) : s.recordCe.tick = s.tick := rfl

/-! acquireAll. -/
@[simp] theorem State.acquireAll_core (s : State) : s.acquireAll.core = s.core := rfl
@[simp] theorem State.acquireAll_pkg (s : State) : s.acquireAll.pkg = s.pkg := rfl
@[simp] theorem State.acquireAll_turns (s : State) : s.acquireAll.turns = s.turns := rfl
@[simp] theorem State.acquireAll_tick (s : State) : s.acquireAll.tick = s.tick := rfl

/-! forgetSource. -/
@[simp] theorem State.forgetSource_hart (s : State) (n : Nat) : (s.forgetSource n).hart = s.hart := rfl
@[simp] theorem State.forgetSource_core (s : State) (n : Nat) : (s.forgetSource n).core = s.core := rfl
@[simp] theorem State.forgetSource_mem (s : State) (n : Nat) : (s.forgetSource n).pkg.mem = s.pkg.mem := rfl
@[simp] theorem State.forgetSource_turns (s : State) (n : Nat) : (s.forgetSource n).turns = s.turns := rfl
@[simp] theorem State.forgetSource_tick (s : State) (n : Nat) : (s.forgetSource n).tick = s.tick := rfl

/-! dropLines. -/
@[simp] theorem State.dropLines_hart (s : State) (q : Line → Bool) : (s.dropLines q).hart = s.hart :=
  foldl_keeps State.hart State.forgetSource State.forgetSource_hart _ _
@[simp] theorem State.dropLines_core (s : State) (q : Line → Bool) : (s.dropLines q).core = s.core.dropLines q :=
  foldl_keeps State.core State.forgetSource State.forgetSource_core _ _
@[simp] theorem State.dropLines_mem (s : State) (q : Line → Bool) : (s.dropLines q).pkg.mem = s.pkg.mem :=
  foldl_keeps (fun s => s.pkg.mem) State.forgetSource State.forgetSource_mem _ _
@[simp] theorem State.dropLines_turns (s : State) (q : Line → Bool) : (s.dropLines q).turns = s.turns :=
  foldl_keeps State.turns State.forgetSource State.forgetSource_turns _ _
@[simp] theorem State.dropLines_tick (s : State) (q : Line → Bool) : (s.dropLines q).tick = s.tick :=
  foldl_keeps State.tick State.forgetSource State.forgetSource_tick _ _

/-! moveCopy. -/
@[simp] theorem State.moveCopy_hart (s : State) (l : Line) (t : BitVec 12) : (s.moveCopy l t).hart = s.hart := by
  unfold State.moveCopy; dsimp only; repeat' split
  all_goals simp
@[simp] theorem State.moveCopy_mem (s : State) (l : Line) (t : BitVec 12) : (s.moveCopy l t).pkg.mem = s.pkg.mem := by
  unfold State.moveCopy; dsimp only; repeat' split
  all_goals simp
@[simp] theorem State.moveCopy_turns (s : State) (l : Line) (t : BitVec 12) : (s.moveCopy l t).turns = s.turns := by
  unfold State.moveCopy; dsimp only; repeat' split
  all_goals simp
@[simp] theorem State.moveCopy_tick (s : State) (l : Line) (t : BitVec 12) : (s.moveCopy l t).tick = s.tick := by
  unfold State.moveCopy; dsimp only; repeat' split
  all_goals simp

/-! refreshCopies. -/
@[simp] theorem State.refreshCopies_hart (s : State) (q : Line → Bool) : (s.refreshCopies q).hart = s.hart := by
  unfold State.refreshCopies
  exact (foldl_keeps State.hart _ (fun _ _ => State.moveCopy_hart _ _ _) _ _).trans (State.dropLines_hart _ _)
@[simp] theorem State.refreshCopies_mem (s : State) (q : Line → Bool) : (s.refreshCopies q).pkg.mem = s.pkg.mem := by
  unfold State.refreshCopies
  exact (foldl_keeps (fun s : State => s.pkg.mem) _ (fun _ _ => State.moveCopy_mem _ _ _) _ _).trans (State.dropLines_mem _ _)
@[simp] theorem State.refreshCopies_turns (s : State) (q : Line → Bool) : (s.refreshCopies q).turns = s.turns := by
  unfold State.refreshCopies
  exact (foldl_keeps State.turns _ (fun _ _ => State.moveCopy_turns _ _ _) _ _).trans (State.dropLines_turns _ _)
@[simp] theorem State.refreshCopies_tick (s : State) (q : Line → Bool) : (s.refreshCopies q).tick = s.tick := by
  unfold State.refreshCopies
  exact (foldl_keeps State.tick _ (fun _ _ => State.moveCopy_tick _ _ _) _ _).trans (State.dropLines_tick _ _)

/-! dropTagged. -/
@[simp] theorem State.dropTagged_hart (s : State) (n : Nat) : (s.dropTagged n).hart = s.hart := State.refreshCopies_hart _ _
@[simp] theorem State.dropTagged_mem (s : State) (n : Nat) : (s.dropTagged n).pkg.mem = s.pkg.mem := State.refreshCopies_mem _ _
@[simp] theorem State.dropTagged_turns (s : State) (n : Nat) : (s.dropTagged n).turns = s.turns := State.refreshCopies_turns _ _
@[simp] theorem State.dropTagged_tick (s : State) (n : Nat) : (s.dropTagged n).tick = s.tick := State.refreshCopies_tick _ _

/-! noteStale. -/
@[simp] theorem State.noteStale_core (s : State) (a n : Nat) : (s.noteStale a n).core = s.core := rfl
@[simp] theorem State.noteStale_pkg (s : State) (a n : Nat) : (s.noteStale a n).pkg = s.pkg := rfl
@[simp] theorem State.noteStale_turns (s : State) (a n : Nat) : (s.noteStale a n).turns = s.turns := rfl
@[simp] theorem State.noteStale_tick (s : State) (a n : Nat) : (s.noteStale a n).tick = s.tick := rfl

/-! beginTurn. -/
@[simp] theorem State.beginTurn_hart (s : State) : s.beginTurn.hart = s.hart := rfl
@[simp] theorem State.beginTurn_core (s : State) : s.beginTurn.core = s.core := rfl
@[simp] theorem State.beginTurn_pkg (s : State) : s.beginTurn.pkg = if s.pkg.frozen then s.pkg else s.pkg.quietLanes := rfl
@[simp] theorem State.beginTurn_mem (s : State) : s.beginTurn.pkg.mem = s.pkg.mem := by
  rw [State.beginTurn_pkg]; split <;> rfl
@[simp] theorem State.beginTurn_turns (s : State) : s.beginTurn.turns = s.turns.drop 1 := rfl
@[simp] theorem State.beginTurn_tick (s : State) : s.beginTurn.tick = if s.pkg.frozen then s.tick else s.tick + 1 := rfl

/-! setG, result and unitResult: a write to g0 is discarded, so these are not equations of one record. -/
@[simp] theorem State.setG_core (s : State) (d : GReg) (v : Word) : (s.setG d v).core = s.core := by unfold State.setG; split <;> rfl
@[simp] theorem State.result_core (s : State) (d : GReg) (v : Word) : (s.result d v).core = s.core := State.setG_core s d v
@[simp] theorem State.setG_pkg (s : State) (d : GReg) (v : Word) : (s.setG d v).pkg = s.pkg := by unfold State.setG; split <;> rfl
@[simp] theorem State.result_pkg (s : State) (d : GReg) (v : Word) : (s.result d v).pkg = s.pkg := State.setG_pkg s d v
@[simp] theorem State.setG_turns (s : State) (d : GReg) (v : Word) : (s.setG d v).turns = s.turns := by unfold State.setG; split <;> rfl
@[simp] theorem State.result_turns (s : State) (d : GReg) (v : Word) : (s.result d v).turns = s.turns := State.setG_turns s d v
@[simp] theorem State.setG_tick (s : State) (d : GReg) (v : Word) : (s.setG d v).tick = s.tick := by unfold State.setG; split <;> rfl
@[simp] theorem State.result_tick (s : State) (d : GReg) (v : Word) : (s.result d v).tick = s.tick := State.setG_tick s d v
@[simp] theorem State.unitResult_pkg (s : State) (u : UnitOp) (d : GReg) (v : Word) : (s.unitResult u d v).pkg = s.pkg := State.setG_pkg s d v
@[simp] theorem State.unitResult_turns (s : State) (u : UnitOp) (d : GReg) (v : Word) : (s.unitResult u d v).turns = s.turns := State.setG_turns s d v
@[simp] theorem State.unitResult_tick (s : State) (u : UnitOp) (d : GReg) (v : Word) : (s.unitResult u d v).tick = s.tick := State.setG_tick s d v
@[simp] theorem State.unitResult_core (s : State) (u : UnitOp) (d : GReg) (v : Word) : (s.unitResult u d v).core = { s.core with units := mapFirst (isFrame u.instr) (fun _ => none) s.core.units } := by unfold State.unitResult State.setG; split <;> rfl

/-! The hart after setG, result and unitResult. -/
@[simp] theorem State.setG_hart_run (s : State) (d : GReg) (v : Word) : (s.setG d v).hart.run = s.hart.run := by unfold State.setG; split <;> rfl
@[simp] theorem State.setG_hart_pc (s : State) (d : GReg) (v : Word) : (s.setG d v).hart.pc = s.hart.pc := by unfold State.setG; split <;> rfl
@[simp] theorem State.setG_hart_mode (s : State) (d : GReg) (v : Word) : (s.setG d v).hart.mode = s.hart.mode := by unfold State.setG; split <;> rfl
@[simp] theorem State.setG_hart_vl (s : State) (d : GReg) (v : Word) : (s.setG d v).hart.vl = s.hart.vl := by unfold State.setG; split <;> rfl
@[simp] theorem State.setG_hart_vstartArm (s : State) (d : GReg) (v : Word) : (s.setG d v).hart.vstartArm = s.hart.vstartArm := by unfold State.setG; split <;> rfl
@[simp] theorem State.setG_hart_vstartIdx (s : State) (d : GReg) (v : Word) : (s.setG d v).hart.vstartIdx = s.hart.vstartIdx := by unfold State.setG; split <;> rfl
@[simp] theorem State.setG_hart_vlmax (s : State) (d : GReg) (v : Word) : (s.setG d v).hart.vlmax = s.hart.vlmax := by unfold State.setG; split <;> rfl
@[simp] theorem State.setG_hart_vlceil (s : State) (d : GReg) (v : Word) : (s.setG d v).hart.vlceil = s.hart.vlceil := by unfold State.setG; split <;> rfl
@[simp] theorem State.setG_hart_lanesW (s : State) (d : GReg) (v : Word) : (s.setG d v).hart.lanesW = s.hart.lanesW := by unfold State.setG; split <;> rfl
@[simp] theorem State.setG_hart_lanesWays (s : State) (d : GReg) (v : Word) : (s.setG d v).hart.lanesWays = s.hart.lanesWays := by unfold State.setG; split <;> rfl
@[simp] theorem State.setG_hart_rds (s : State) (d : GReg) (v : Word) : (s.setG d v).hart.rds = s.hart.rds := by unfold State.setG; split <;> rfl
@[simp] theorem State.setG_hart_vfsr (s : State) (d : GReg) (v : Word) : (s.setG d v).hart.vfsr = s.hart.vfsr := by unfold State.setG; split <;> rfl
@[simp] theorem State.setG_hart_vdirty (s : State) (d : GReg) (v : Word) : (s.setG d v).hart.vdirty = s.hart.vdirty := by unfold State.setG; split <;> rfl
@[simp] theorem State.setG_hart_pdirty (s : State) (d : GReg) (v : Word) : (s.setG d v).hart.pdirty = s.hart.pdirty := by unfold State.setG; split <;> rfl
@[simp] theorem State.setG_hart_srseed (s : State) (d : GReg) (v : Word) : (s.setG d v).hart.srseed = s.hart.srseed := by unfold State.setG; split <;> rfl
@[simp] theorem State.setG_hart_srcount (s : State) (d : GReg) (v : Word) : (s.setG d v).hart.srcount = s.hart.srcount := by unfold State.setG; split <;> rfl
@[simp] theorem State.setG_hart_fcrShape (s : State) (d : GReg) (v : Word) : (s.setG d v).hart.fcrShape = s.hart.fcrShape := by unfold State.setG; split <;> rfl
@[simp] theorem State.setG_hart_fcrFe (s : State) (d : GReg) (v : Word) : (s.setG d v).hart.fcrFe = s.hart.fcrFe := by unfold State.setG; split <;> rfl
@[simp] theorem State.setG_hart_fsr (s : State) (d : GReg) (v : Word) : (s.setG d v).hart.fsr = s.hart.fsr := by unfold State.setG; split <;> rfl
@[simp] theorem State.setG_hart_ltime (s : State) (d : GReg) (v : Word) : (s.setG d v).hart.ltime = s.hart.ltime := by unfold State.setG; split <;> rfl
@[simp] theorem State.setG_hart_lease (s : State) (d : GReg) (v : Word) : (s.setG d v).hart.lease = s.hart.lease := by unfold State.setG; split <;> rfl
@[simp] theorem State.setG_hart_syncst (s : State) (d : GReg) (v : Word) : (s.setG d v).hart.syncst = s.hart.syncst := by unfold State.setG; split <;> rfl
@[simp] theorem State.setG_hart_maxRead (s : State) (d : GReg) (v : Word) : (s.setG d v).hart.maxRead = s.hart.maxRead := by unfold State.setG; split <;> rfl
@[simp] theorem State.setG_hart_hyp (s : State) (d : GReg) (v : Word) : (s.setG d v).hart.hyp = s.hart.hyp := by unfold State.setG; split <;> rfl
@[simp] theorem State.setG_hart_hypdepth (s : State) (d : GReg) (v : Word) : (s.setG d v).hart.hypdepth = s.hart.hypdepth := by unfold State.setG; split <;> rfl
@[simp] theorem State.setG_hart_lockq (s : State) (d : GReg) (v : Word) : (s.setG d v).hart.lockq = s.hart.lockq := by unfold State.setG; split <;> rfl
@[simp] theorem State.setG_hart_wcount (s : State) (d : GReg) (v : Word) : (s.setG d v).hart.wcount = s.hart.wcount := by unfold State.setG; split <;> rfl
@[simp] theorem State.setG_hart_act (s : State) (d : GReg) (v : Word) : (s.setG d v).hart.act = s.hart.act := by unfold State.setG; split <;> rfl
@[simp] theorem State.setG_hart_trapcause (s : State) (d : GReg) (v : Word) : (s.setG d v).hart.trapcause = s.hart.trapcause := by unfold State.setG; split <;> rfl
@[simp] theorem State.setG_hart_trappc (s : State) (d : GReg) (v : Word) : (s.setG d v).hart.trappc = s.hart.trappc := by unfold State.setG; split <;> rfl
@[simp] theorem State.setG_hart_trapval (s : State) (d : GReg) (v : Word) : (s.setG d v).hart.trapval = s.hart.trapval := by unfold State.setG; split <;> rfl
@[simp] theorem State.setG_hart_trapvec (s : State) (d : GReg) (v : Word) : (s.setG d v).hart.trapvec = s.hart.trapvec := by unfold State.setG; split <;> rfl
@[simp] theorem State.setG_hart_th (s : State) (d : GReg) (v : Word) : (s.setG d v).hart.th = s.hart.th := by unfold State.setG; split <;> rfl
@[simp] theorem State.setG_hart_sys (s : State) (d : GReg) (v : Word) : (s.setG d v).hart.sys = s.hart.sys := by unfold State.setG; split <;> rfl
@[simp] theorem State.setG_hart_maint (s : State) (d : GReg) (v : Word) : (s.setG d v).hart.maint = s.hart.maint := by unfold State.setG; split <;> rfl
@[simp] theorem State.setG_hart_snap (s : State) (d : GReg) (v : Word) : (s.setG d v).hart.snap = s.hart.snap := by unfold State.setG; split <;> rfl
@[simp] theorem State.setG_hart_racechk (s : State) (d : GReg) (v : Word) : (s.setG d v).hart.racechk = s.hart.racechk := by unfold State.setG; split <;> rfl
@[simp] theorem State.setG_hart_ptroot (s : State) (d : GReg) (v : Word) : (s.setG d v).hart.ptroot = s.hart.ptroot := by unfold State.setG; split <;> rfl
@[simp] theorem State.setG_hart_csaptr (s : State) (d : GReg) (v : Word) : (s.setG d v).hart.csaptr = s.hart.csaptr := by unfold State.setG; split <;> rfl
@[simp] theorem State.setG_hart_savepc (s : State) (d : GReg) (v : Word) : (s.setG d v).hart.savepc = s.hart.savepc := by unfold State.setG; split <;> rfl
@[simp] theorem State.setG_hart_gangid (s : State) (d : GReg) (v : Word) : (s.setG d v).hart.gangid = s.hart.gangid := by unfold State.setG; split <;> rfl
@[simp] theorem State.setG_hart_gidx (s : State) (d : GReg) (v : Word) : (s.setG d v).hart.gidx = s.hart.gidx := by unfold State.setG; split <;> rfl
@[simp] theorem State.setG_hart_gsize (s : State) (d : GReg) (v : Word) : (s.setG d v).hart.gsize = s.hart.gsize := by unfold State.setG; split <;> rfl
@[simp] theorem State.setG_hart_taskrec (s : State) (d : GReg) (v : Word) : (s.setG d v).hart.taskrec = s.hart.taskrec := by unfold State.setG; split <;> rfl
@[simp] theorem State.setG_hart_prio (s : State) (d : GReg) (v : Word) : (s.setG d v).hart.prio = s.hart.prio := by unfold State.setG; split <;> rfl
@[simp] theorem State.setG_hart_ctxid (s : State) (d : GReg) (v : Word) : (s.setG d v).hart.ctxid = s.hart.ctxid := by unfold State.setG; split <;> rfl
@[simp] theorem State.setG_hart_instret (s : State) (d : GReg) (v : Word) : (s.setG d v).hart.instret = s.hart.instret := by unfold State.setG; split <;> rfl
@[simp] theorem State.setG_hart_rbTotal (s : State) (d : GReg) (v : Word) : (s.setG d v).hart.rbTotal = s.hart.rbTotal := by unfold State.setG; split <;> rfl
@[simp] theorem State.setG_hart_rbCur (s : State) (d : GReg) (v : Word) : (s.setG d v).hart.rbCur = s.hart.rbCur := by unfold State.setG; split <;> rfl
@[simp] theorem State.setG_hart_desc (s : State) (d : GReg) (v : Word) : (s.setG d v).hart.desc = s.hart.desc := by unfold State.setG; split <;> rfl
@[simp] theorem State.setG_hart_cookie (s : State) (d : GReg) (v : Word) : (s.setG d v).hart.cookie = s.hart.cookie := by unfold State.setG; split <;> rfl
@[simp] theorem State.setG_hart_csa (s : State) (d : GReg) (v : Word) : (s.setG d v).hart.csa = s.hart.csa := by unfold State.setG; split <;> rfl
@[simp] theorem State.setG_hart_queue (s : State) (d : GReg) (v : Word) : (s.setG d v).hart.queue = s.hart.queue := by unfold State.setG; split <;> rfl
@[simp] theorem State.setG_hart_arrival (s : State) (d : GReg) (v : Word) : (s.setG d v).hart.arrival = s.hart.arrival := by unfold State.setG; split <;> rfl
@[simp] theorem State.setG_hart_faultVa (s : State) (d : GReg) (v : Word) : (s.setG d v).hart.faultVa = s.hart.faultVa := by unfold State.setG; split <;> rfl
@[simp] theorem State.setG_hart_orphan (s : State) (d : GReg) (v : Word) : (s.setG d v).hart.orphan = s.hart.orphan := by unfold State.setG; split <;> rfl
@[simp] theorem State.setG_hart_arrayError (s : State) (d : GReg) (v : Word) : (s.setG d v).hart.arrayError = s.hart.arrayError := by unfold State.setG; split <;> rfl
@[simp] theorem State.setG_hart_trigger (s : State) (d : GReg) (v : Word) : (s.setG d v).hart.trigger = s.hart.trigger := by unfold State.setG; split <;> rfl
@[simp] theorem State.setG_hart_halted (s : State) (d : GReg) (v : Word) : (s.setG d v).hart.halted = s.hart.halted := by unfold State.setG; split <;> rfl
@[simp] theorem State.setG_hart_brkArmed (s : State) (d : GReg) (v : Word) : (s.setG d v).hart.brkArmed = s.hart.brkArmed := by unfold State.setG; split <;> rfl
@[simp] theorem State.setG_hart_stale (s : State) (d : GReg) (v : Word) : (s.setG d v).hart.stale = s.hart.stale := by unfold State.setG; split <;> rfl
@[simp] theorem State.result_hart_run (s : State) (d : GReg) (v : Word) : (s.result d v).hart.run = s.hart.run := by unfold State.result State.setG; split <;> rfl
@[simp] theorem State.result_hart_pc (s : State) (d : GReg) (v : Word) : (s.result d v).hart.pc = s.hart.pc + 4#48 := by unfold State.result State.setG; split <;> rfl
@[simp] theorem State.result_hart_mode (s : State) (d : GReg) (v : Word) : (s.result d v).hart.mode = s.hart.mode := by unfold State.result State.setG; split <;> rfl
@[simp] theorem State.result_hart_vl (s : State) (d : GReg) (v : Word) : (s.result d v).hart.vl = s.hart.vl := by unfold State.result State.setG; split <;> rfl
@[simp] theorem State.result_hart_vstartArm (s : State) (d : GReg) (v : Word) : (s.result d v).hart.vstartArm = s.hart.vstartArm := by unfold State.result State.setG; split <;> rfl
@[simp] theorem State.result_hart_vstartIdx (s : State) (d : GReg) (v : Word) : (s.result d v).hart.vstartIdx = s.hart.vstartIdx := by unfold State.result State.setG; split <;> rfl
@[simp] theorem State.result_hart_vlmax (s : State) (d : GReg) (v : Word) : (s.result d v).hart.vlmax = s.hart.vlmax := by unfold State.result State.setG; split <;> rfl
@[simp] theorem State.result_hart_vlceil (s : State) (d : GReg) (v : Word) : (s.result d v).hart.vlceil = s.hart.vlceil := by unfold State.result State.setG; split <;> rfl
@[simp] theorem State.result_hart_lanesW (s : State) (d : GReg) (v : Word) : (s.result d v).hart.lanesW = s.hart.lanesW := by unfold State.result State.setG; split <;> rfl
@[simp] theorem State.result_hart_lanesWays (s : State) (d : GReg) (v : Word) : (s.result d v).hart.lanesWays = s.hart.lanesWays := by unfold State.result State.setG; split <;> rfl
@[simp] theorem State.result_hart_rds (s : State) (d : GReg) (v : Word) : (s.result d v).hart.rds = s.hart.rds := by unfold State.result State.setG; split <;> rfl
@[simp] theorem State.result_hart_vfsr (s : State) (d : GReg) (v : Word) : (s.result d v).hart.vfsr = s.hart.vfsr := by unfold State.result State.setG; split <;> rfl
@[simp] theorem State.result_hart_vdirty (s : State) (d : GReg) (v : Word) : (s.result d v).hart.vdirty = s.hart.vdirty := by unfold State.result State.setG; split <;> rfl
@[simp] theorem State.result_hart_pdirty (s : State) (d : GReg) (v : Word) : (s.result d v).hart.pdirty = s.hart.pdirty := by unfold State.result State.setG; split <;> rfl
@[simp] theorem State.result_hart_srseed (s : State) (d : GReg) (v : Word) : (s.result d v).hart.srseed = s.hart.srseed := by unfold State.result State.setG; split <;> rfl
@[simp] theorem State.result_hart_srcount (s : State) (d : GReg) (v : Word) : (s.result d v).hart.srcount = s.hart.srcount := by unfold State.result State.setG; split <;> rfl
@[simp] theorem State.result_hart_fcrShape (s : State) (d : GReg) (v : Word) : (s.result d v).hart.fcrShape = s.hart.fcrShape := by unfold State.result State.setG; split <;> rfl
@[simp] theorem State.result_hart_fcrFe (s : State) (d : GReg) (v : Word) : (s.result d v).hart.fcrFe = s.hart.fcrFe := by unfold State.result State.setG; split <;> rfl
@[simp] theorem State.result_hart_fsr (s : State) (d : GReg) (v : Word) : (s.result d v).hart.fsr = s.hart.fsr := by unfold State.result State.setG; split <;> rfl
@[simp] theorem State.result_hart_ltime (s : State) (d : GReg) (v : Word) : (s.result d v).hart.ltime = s.hart.ltime := by unfold State.result State.setG; split <;> rfl
@[simp] theorem State.result_hart_lease (s : State) (d : GReg) (v : Word) : (s.result d v).hart.lease = s.hart.lease := by unfold State.result State.setG; split <;> rfl
@[simp] theorem State.result_hart_syncst (s : State) (d : GReg) (v : Word) : (s.result d v).hart.syncst = s.hart.syncst := by unfold State.result State.setG; split <;> rfl
@[simp] theorem State.result_hart_maxRead (s : State) (d : GReg) (v : Word) : (s.result d v).hart.maxRead = s.hart.maxRead := by unfold State.result State.setG; split <;> rfl
@[simp] theorem State.result_hart_hyp (s : State) (d : GReg) (v : Word) : (s.result d v).hart.hyp = s.hart.hyp := by unfold State.result State.setG; split <;> rfl
@[simp] theorem State.result_hart_hypdepth (s : State) (d : GReg) (v : Word) : (s.result d v).hart.hypdepth = s.hart.hypdepth := by unfold State.result State.setG; split <;> rfl
@[simp] theorem State.result_hart_lockq (s : State) (d : GReg) (v : Word) : (s.result d v).hart.lockq = s.hart.lockq := by unfold State.result State.setG; split <;> rfl
@[simp] theorem State.result_hart_wcount (s : State) (d : GReg) (v : Word) : (s.result d v).hart.wcount = s.hart.wcount := by unfold State.result State.setG; split <;> rfl
@[simp] theorem State.result_hart_act (s : State) (d : GReg) (v : Word) : (s.result d v).hart.act = s.hart.act := by unfold State.result State.setG; split <;> rfl
@[simp] theorem State.result_hart_trapcause (s : State) (d : GReg) (v : Word) : (s.result d v).hart.trapcause = s.hart.trapcause := by unfold State.result State.setG; split <;> rfl
@[simp] theorem State.result_hart_trappc (s : State) (d : GReg) (v : Word) : (s.result d v).hart.trappc = s.hart.trappc := by unfold State.result State.setG; split <;> rfl
@[simp] theorem State.result_hart_trapval (s : State) (d : GReg) (v : Word) : (s.result d v).hart.trapval = s.hart.trapval := by unfold State.result State.setG; split <;> rfl
@[simp] theorem State.result_hart_trapvec (s : State) (d : GReg) (v : Word) : (s.result d v).hart.trapvec = s.hart.trapvec := by unfold State.result State.setG; split <;> rfl
@[simp] theorem State.result_hart_th (s : State) (d : GReg) (v : Word) : (s.result d v).hart.th = s.hart.th := by unfold State.result State.setG; split <;> rfl
@[simp] theorem State.result_hart_sys (s : State) (d : GReg) (v : Word) : (s.result d v).hart.sys = s.hart.sys := by unfold State.result State.setG; split <;> rfl
@[simp] theorem State.result_hart_maint (s : State) (d : GReg) (v : Word) : (s.result d v).hart.maint = s.hart.maint := by unfold State.result State.setG; split <;> rfl
@[simp] theorem State.result_hart_snap (s : State) (d : GReg) (v : Word) : (s.result d v).hart.snap = s.hart.snap := by unfold State.result State.setG; split <;> rfl
@[simp] theorem State.result_hart_racechk (s : State) (d : GReg) (v : Word) : (s.result d v).hart.racechk = s.hart.racechk := by unfold State.result State.setG; split <;> rfl
@[simp] theorem State.result_hart_ptroot (s : State) (d : GReg) (v : Word) : (s.result d v).hart.ptroot = s.hart.ptroot := by unfold State.result State.setG; split <;> rfl
@[simp] theorem State.result_hart_csaptr (s : State) (d : GReg) (v : Word) : (s.result d v).hart.csaptr = s.hart.csaptr := by unfold State.result State.setG; split <;> rfl
@[simp] theorem State.result_hart_savepc (s : State) (d : GReg) (v : Word) : (s.result d v).hart.savepc = s.hart.savepc := by unfold State.result State.setG; split <;> rfl
@[simp] theorem State.result_hart_gangid (s : State) (d : GReg) (v : Word) : (s.result d v).hart.gangid = s.hart.gangid := by unfold State.result State.setG; split <;> rfl
@[simp] theorem State.result_hart_gidx (s : State) (d : GReg) (v : Word) : (s.result d v).hart.gidx = s.hart.gidx := by unfold State.result State.setG; split <;> rfl
@[simp] theorem State.result_hart_gsize (s : State) (d : GReg) (v : Word) : (s.result d v).hart.gsize = s.hart.gsize := by unfold State.result State.setG; split <;> rfl
@[simp] theorem State.result_hart_taskrec (s : State) (d : GReg) (v : Word) : (s.result d v).hart.taskrec = s.hart.taskrec := by unfold State.result State.setG; split <;> rfl
@[simp] theorem State.result_hart_prio (s : State) (d : GReg) (v : Word) : (s.result d v).hart.prio = s.hart.prio := by unfold State.result State.setG; split <;> rfl
@[simp] theorem State.result_hart_ctxid (s : State) (d : GReg) (v : Word) : (s.result d v).hart.ctxid = s.hart.ctxid := by unfold State.result State.setG; split <;> rfl
@[simp] theorem State.result_hart_instret (s : State) (d : GReg) (v : Word) : (s.result d v).hart.instret = s.hart.instret + 1#64 := by unfold State.result State.setG; split <;> rfl
@[simp] theorem State.result_hart_rbTotal (s : State) (d : GReg) (v : Word) : (s.result d v).hart.rbTotal = s.hart.rbTotal := by unfold State.result State.setG; split <;> rfl
@[simp] theorem State.result_hart_rbCur (s : State) (d : GReg) (v : Word) : (s.result d v).hart.rbCur = s.hart.rbCur := by unfold State.result State.setG; split <;> rfl
@[simp] theorem State.result_hart_desc (s : State) (d : GReg) (v : Word) : (s.result d v).hart.desc = s.hart.desc := by unfold State.result State.setG; split <;> rfl
@[simp] theorem State.result_hart_cookie (s : State) (d : GReg) (v : Word) : (s.result d v).hart.cookie = s.hart.cookie := by unfold State.result State.setG; split <;> rfl
@[simp] theorem State.result_hart_csa (s : State) (d : GReg) (v : Word) : (s.result d v).hart.csa = s.hart.csa := by unfold State.result State.setG; split <;> rfl
@[simp] theorem State.result_hart_queue (s : State) (d : GReg) (v : Word) : (s.result d v).hart.queue = s.hart.queue := by unfold State.result State.setG; split <;> rfl
@[simp] theorem State.result_hart_arrival (s : State) (d : GReg) (v : Word) : (s.result d v).hart.arrival = s.hart.arrival := by unfold State.result State.setG; split <;> rfl
@[simp] theorem State.result_hart_faultVa (s : State) (d : GReg) (v : Word) : (s.result d v).hart.faultVa = s.hart.faultVa := by unfold State.result State.setG; split <;> rfl
@[simp] theorem State.result_hart_orphan (s : State) (d : GReg) (v : Word) : (s.result d v).hart.orphan = s.hart.orphan := by unfold State.result State.setG; split <;> rfl
@[simp] theorem State.result_hart_arrayError (s : State) (d : GReg) (v : Word) : (s.result d v).hart.arrayError = s.hart.arrayError := by unfold State.result State.setG; split <;> rfl
@[simp] theorem State.result_hart_trigger (s : State) (d : GReg) (v : Word) : (s.result d v).hart.trigger = s.hart.trigger := by unfold State.result State.setG; split <;> rfl
@[simp] theorem State.result_hart_halted (s : State) (d : GReg) (v : Word) : (s.result d v).hart.halted = s.hart.halted := by unfold State.result State.setG; split <;> rfl
@[simp] theorem State.result_hart_brkArmed (s : State) (d : GReg) (v : Word) : (s.result d v).hart.brkArmed = s.hart.brkArmed := by unfold State.result State.setG; split <;> rfl
@[simp] theorem State.result_hart_stale (s : State) (d : GReg) (v : Word) : (s.result d v).hart.stale = s.hart.stale := by unfold State.result State.setG; split <;> rfl

end Sys2Proof.Machine
end

