-- ==== Sys2Proof/Laws/Memory.lean ====
section
/-! SUPPORT. Laws/Memory.lean: bytes and numbers, reading memory after writing it, and that every memory operation keeps the
canonical form. -/

namespace Sys2Proof.Machine

/-! ### Bytes. -/

@[simp] theorem leBytes_length (n v : Nat) : (leBytes n v).length = n := by
  induction n generalizing v with
  | zero => rfl
  | succ n ih => simp [leBytes, ih]

theorem ofBytes_leBytes (n v : Nat) : ofBytes (leBytes n v) = v % 2 ^ (8 * n) := by
  induction n generalizing v with
  | zero => simp [leBytes, ofBytes, Nat.mod_one]
  | succ n ih =>
    simp only [leBytes, ofBytes, ih, BitVec.toNat_ofNat]
    have h : (2 : Nat) ^ (8 * (n + 1)) = 256 * 2 ^ (8 * n) := by rw [show 8 * (n + 1) = 8 + 8 * n by ring, pow_add]; norm_num
    rw [h, Nat.mod_mul]

/-! ### Cells. -/

theorem cellSet_wf (m : List Host.Cell) (a : Nat) (b : Byte) (w : Memory.wf m = true) : Memory.wf (cellSet m a b) = true :=
  sparseWf_set _ m a b w

theorem cellsSet_wf (m : List Host.Cell) (a : Nat) (bs : List Byte) (w : Memory.wf m = true) :
    Memory.wf (cellsSet m a bs) = true := by
  induction bs generalizing m a with
  | nil => exact w
  | cons b bs ih => exact ih _ _ (cellSet_wf m a b w)

theorem cellGet_cellSet (m : List Host.Cell) (a x : Nat) (b : Byte) (w : Memory.wf m = true) :
    cellGet (cellSet m a b) x = if x = a then b else cellGet m x := by
  split
  · subst_vars; exact sparseGet_set_self _ m _ b w
  · exact sparseGet_set_of_ne _ m a x b w ‹_›

/-- A byte outside the written ones is as before. -/
theorem cellGet_cellsSet_outside (m : List Host.Cell) (a x : Nat) (bs : List Byte) (w : Memory.wf m = true)
    (h : x < a ∨ a + bs.length ≤ x) : cellGet (cellsSet m a bs) x = cellGet m x := by
  induction bs generalizing m a with
  | nil => rfl
  | cons b bs ih =>
    simp only [List.length_cons] at h
    rw [cellsSet, ih _ _ (cellSet_wf m a b w) (by omega), cellGet_cellSet m a x b w, if_neg (by omega)]

/-- A byte among the written ones is the one written. -/
theorem cellGet_cellsSet_inside (m : List Host.Cell) (a k : Nat) (bs : List Byte) (w : Memory.wf m = true)
    (h : k < bs.length) : cellGet (cellsSet m a bs) (a + k) = bs[k] := by
  induction bs generalizing m a k with
  | nil => simp at h
  | cons b bs ih =>
    cases k with
    | zero =>
      rw [cellsSet, cellGet_cellsSet_outside _ _ _ _ (cellSet_wf m a b w) (by omega), cellGet_cellSet m a _ b w]; simp
    | succ k =>
      rw [cellsSet, show a + (k + 1) = a + 1 + k by omega, ih _ _ _ (cellSet_wf m a b w) (by simpa using h)]; rfl

theorem cellsGet_congr (m m' : List Host.Cell) (a n : Nat) (h : ∀ k < n, cellGet m (a + k) = cellGet m' (a + k)) :
    cellsGet m a n = cellsGet m' a n := by
  induction n generalizing a with
  | zero => rfl
  | succ n ih =>
    simp only [cellsGet]
    rw [show cellGet m a = cellGet m' a from h 0 (by omega), ih (a + 1) (fun k hk => by
      have := h (k + 1) (by omega); rwa [show a + 1 + k = a + (k + 1) by omega])]

/-- The bytes just written read back. -/
theorem cellsGet_cellsSet (m : List Host.Cell) (a : Nat) (bs : List Byte) (w : Memory.wf m = true) :
    cellsGet (cellsSet m a bs) a bs.length = bs := by
  induction bs generalizing m a with
  | nil => rfl
  | cons b bs ih =>
    simp only [cellsSet, List.length_cons, cellsGet]
    rw [ih _ _ (cellSet_wf m a b w), cellGet_cellsSet_outside _ _ _ _ (cellSet_wf m a b w) (by omega),
      cellGet_cellSet m a a b w, if_pos rfl]

/-! ### Package memory. -/

/-- A number just written reads back, in its width. -/
theorem Pkg.read_writeNat_self (p : Pkg) (a n v : Nat) (w : Memory.wf p.mem = true) :
    (p.writeNat a n v).read a n = v % 2 ^ (8 * n) := by
  have := cellsGet_cellsSet p.mem a (leBytes n v) w
  rw [leBytes_length] at this
  simp only [Pkg.writeNat, Pkg.write, Pkg.read, cellsNat, this, ofBytes_leBytes]

/-- Bytes apart from the written ones read as before. -/
theorem Pkg.read_writeNat_apart (p : Pkg) (a n v x k : Nat) (w : Memory.wf p.mem = true) (h : x + k ≤ a ∨ a + n ≤ x) :
    (p.writeNat a n v).read x k = p.read x k := by
  simp only [Pkg.writeNat, Pkg.write, Pkg.read, cellsNat]
  rw [cellsGet_congr]
  intro j hj
  exact cellGet_cellsSet_outside _ _ _ _ w (by rw [leBytes_length]; omega)

theorem Pkg.write_wf (p : Pkg) (a : Nat) (bs : List Byte) (w : Memory.wf p.mem = true) : Memory.wf (p.write a bs).mem = true :=
  cellsSet_wf _ _ _ w

theorem Pkg.writeNat_wf (p : Pkg) (a n v : Nat) (w : Memory.wf p.mem = true) : Memory.wf (p.writeNat a n v).mem = true :=
  cellsSet_wf _ _ _ w

@[simp] theorem Pkg.setPoison_mem (p : Pkg) (a : Nat) (b : Bool) : (p.setPoison a b).mem = p.mem := rfl

/-- A fold of steps that keep memory keeps memory. -/
theorem foldl_mem {β : Type} (f : Pkg → β → Pkg) (l : List β) (p : Pkg) (h : ∀ p x, (f p x).mem = p.mem) :
    (l.foldl f p).mem = p.mem := by
  induction l generalizing p with
  | nil => rfl
  | cons x l ih => rw [List.foldl_cons, ih, h]

theorem foldl_mem_wf {β : Type} (f : Pkg → β → Pkg) (l : List β) (p : Pkg)
    (h : ∀ p x, Memory.wf p.mem = true → Memory.wf (f p x).mem = true) (w : Memory.wf p.mem = true) :
    Memory.wf (l.foldl f p).mem = true := by
  induction l generalizing p with
  | nil => exact w
  | cons x l ih => exact ih _ (h p x w)

theorem Pkg.putLine_wf (p : Pkg) (line : Nat) (d : BitVec 512) (q : BitVec 8) (w : Memory.wf p.mem = true) :
    Memory.wf (p.putLine line d q).mem = true := by
  unfold Pkg.putLine
  exact foldl_mem_wf _ _ _ (fun p x hp => by split <;> simpa using hp) (Pkg.writeNat_wf _ _ _ _ w)

@[simp] theorem Pkg.setHome_mem (p : Pkg) (l : Nat) (h : HomeLine) : (p.setHome l h).mem = p.mem := rfl
@[simp] theorem Pkg.setHyp_mem (p : Pkg) (h : BitVec 12) (e : HypEntry) : (p.setHyp h e).mem = p.mem := by
  unfold Pkg.setHyp; split <;> rfl
@[simp] theorem Pkg.post_mem (p : Pkg) (r : RingRecord) : (p.post r).mem = p.mem := rfl
@[simp] theorem Pkg.putVersion_mem (p : Pkg) (v : Version) : (p.putVersion v).mem = p.mem := rfl
@[simp] theorem Pkg.setPort_mem (p : Pkg) (k : Port) (r : PortRec) : (p.setPort k r).mem = p.mem := rfl
@[simp] theorem Pkg.pump_mem (p : Pkg) (k : Port) : (p.pump k).mem = p.mem := by
  unfold Pkg.pump; dsimp only; split <;> rfl
@[simp] theorem Pkg.send_mem (p : Pkg) (k : Port) (fs : List SentFlit) : (p.send k fs).mem = p.mem := by
  unfold Pkg.send; dsimp only; split
  · rfl
  · rw [Pkg.pump_mem]; rfl

@[simp] theorem State.broadcast_mem (s : State) : s.broadcast.pkg.mem = s.pkg.mem := State.dropLines_mem _ _
@[simp] theorem State.assign_mem (s : State) (w : BitVec 16) : (s.assign w).pkg.mem = s.pkg.mem := by
  unfold State.assign; dsimp only; split
  · rw [State.broadcast_mem]; rfl
  · rfl
@[simp] theorem State.takeIn_mem (s : State) (l : Nat) : (s.takeIn l).pkg.mem = s.pkg.mem := by
  unfold State.takeIn; split
  · split
    · rfl
    · simp [State.mapPkg]
  · rfl
@[simp] theorem Pkg.clearErrors_mem (p : Pkg) (l : Nat) : (p.clearErrors l).mem = p.mem := rfl

/-- A fold of steps that keep the package keeps it. -/
theorem foldl_pkg {β : Type} (f : State → β → State) (l : List β) (s : State) (h : ∀ s x, (f s x).pkg = s.pkg) :
    (l.foldl f s).pkg = s.pkg := by
  induction l generalizing s with
  | nil => rfl
  | cons x l ih => rw [List.foldl_cons, ih, h]

/-- A fold of steps that keep memory canonical keeps it canonical. -/
theorem foldl_wf {β : Type} (f : State → β → State) (l : List β) (s : State) (h : ∀ s x, s.MemWf → (f s x).MemWf) (w : s.MemWf) :
    (l.foldl f s).MemWf := by
  induction l generalizing s with
  | nil => exact w
  | cons x l ih => exact ih _ (h s x w)

@[simp] theorem State.correctLine_pkg (s : State) (l : Nat) : (s.correctLine l).pkg = s.pkg :=
  foldl_pkg _ _ _ (fun _ _ => rfl)

theorem State.meetErrors_wf (s : State) (l : Nat) (own : Bool) (w : s.MemWf) : (s.meetErrors l own).MemWf := by
  unfold State.meetErrors
  dsimp only
  split
  · exact w
  · exact foldl_wf (fun s _ => s.recordCe) _ _ (fun _ _ h => h) w

@[simp] theorem State.throughMesh_mem (s : State) (l : Nat) (q : BitVec 8) : (s.throughMesh l q).1.pkg.mem = s.pkg.mem := by
  unfold State.throughMesh; split <;> rfl

theorem State.writeBack_wf (s : State) (l : Line) (n : Option LineState) (w : s.MemWf) : (s.writeBack l n).MemWf := by
  have w' : Memory.wf s.pkg.mem = true := w
  have k (t : State) (q : BitVec 8) (r : BitVec 16) (h : HomeLine) (c : t.pkg.mem = s.pkg.mem) : ((t.assign r).mapPkg (fun p =>
      (if l.st = .d then p.putLine l.line l.data q else p).setHome l.line h)).MemWf := by
    simp only [State.MemWf, State.mapPkg_pkg, Pkg.setHome_mem]
    have a : Memory.wf (t.assign r).pkg.mem = true := by rw [State.assign_mem, c]; exact w'
    split
    · exact Pkg.putLine_wf _ _ _ _ a
    · exact a
  have c : (if l.st = .d then (s.correctLine l.line).throughMesh l.line l.poison else (s, l.poison)).1.pkg.mem = s.pkg.mem := by
    split
    · rw [State.throughMesh_mem, State.correctLine_pkg]
    · rfl
  unfold State.writeBack
  cases n with
  | none => exact (congrArg (Memory.wf · = true) (State.dropLines_mem _ _)).mpr (k _ _ _ _ c)
  | some st => exact k _ _ _ _ c

theorem State.recall_wf (s t : State) (l : Nat) (own : Bool) (h : s.recall l own = some t) (w : s.MemWf) : t.MemWf := by
  unfold State.recall at h
  repeat' split at h
  all_goals try cases h
  all_goals apply State.meetErrors_wf
  all_goals first | exact w | exact State.writeBack_wf _ _ _ w

/-- The home's state after a recall, or as before when another core owns the line. -/
theorem State.recall_getD_wf (s : State) (l : Nat) (own : Bool) (w : s.MemWf) : ((s.recall l own).getD s).MemWf := by
  cases h : s.recall l own with
  | none => exact w
  | some t => exact State.recall_wf s t l own h w

/-! ### Slots and slices. -/

theorem State.slotStore_wf (s : State) (a n v : Nat) (w : s.MemWf) : (s.slotStore a n v).MemWf :=
  Pkg.writeNat_wf _ _ _ _ (foldl_wf _ _ _ (fun s l h => State.recall_getD_wf s l false h) w)

theorem State.putSlot_wf (s : State) (d : Area) (n : Nat) (v : Version) (w : s.MemWf) : (s.putSlot d n v).MemWf := by
  unfold State.putSlot
  exact foldl_mem_wf _ _ _ (fun p x hp => by split <;> simpa using hp)
    (State.slotStore_wf _ _ _ _ (State.slotStore_wf _ _ _ _ (State.slotStore_wf _ _ _ _ (State.slotStore_wf _ _ _ _ w))))

theorem State.freeSlot_wf (s : State) (d : Area) (n : Nat) (w : s.MemWf) : (s.freeSlot d n).MemWf := State.slotStore_wf _ _ _ _ w

theorem State.spill_wf (s : State) (v : Version) (w : s.MemWf) : (s.spill v).MemWf := by
  unfold State.spill
  split
  · exact State.putSlot_wf _ _ _ _ w
  · exact w

theorem State.evictEntry_wf (s : State) (e : SliceEntry) (w : s.MemWf) : (s.evictEntry e).MemWf := by
  cases e with
  | line l => exact w
  | version v => exact State.spill_wf s v w

theorem State.settleOnce_wf (s : State) (l : Nat) (e : List SliceEntry) (w : s.MemWf) : (s.settleOnce l e).MemWf := by
  unfold State.settleOnce
  dsimp only
  split
  · exact State.evictEntry_wf _ _ w
  · exact w

theorem State.settleFrom_wf (s : State) (l n : Nat) (w : s.MemWf) : (s.settleFrom l n).MemWf := by
  induction n generalizing s with
  | zero => exact w
  | succ n ih =>
    unfold State.settleFrom
    dsimp only
    repeat' split
    all_goals first | exact w | exact ih _ (State.settleOnce_wf _ _ _ w)

theorem State.settle_wf (s : State) (l : Nat) (w : s.MemWf) : (s.settle l).MemWf := by
  unfold State.settle
  split
  · exact w
  · exact State.settleFrom_wf _ _ _ w

theorem State.unversion_wf (s : State) (q : BitVec 12 → Bool) (w : s.MemWf) : (s.unversion q).MemWf :=
  foldl_wf _ _ _ (fun s v h => by split <;> exact h) w

theorem State.dropVersions_wf (s : State) (q : BitVec 12 → Bool) (w : s.MemWf) : (s.dropVersions q).MemWf := by
  unfold State.dropVersions
  refine foldl_wf _ _ _ (fun s a h => foldl_wf _ _ _ (fun s e h => by split <;> [exact State.freeSlot_wf _ _ _ h; exact h]) h) ?_
  refine foldl_wf _ _ _ (fun s l h => h) ?_
  exact (congrArg (Memory.wf · = true) (State.refreshCopies_mem _ _)).mpr (State.unversion_wf s q w)

@[simp] theorem Pkg.grantRts_mem (p : Pkg) (l : Nat) (r : BitVec 16) : (p.grantRts l r).mem = p.mem := by
  unfold Pkg.grantRts; split <;> rfl

theorem State.homeReadTimes_wf (s : State) (l : Nat) (t : BitVec 16) (y : BitVec 8) (w : s.MemWf) :
    (s.homeReadTimes l t y).1.MemWf := by
  apply State.settle_wf
  simp only [State.MemWf, State.mapPkg, Pkg.grantRts_mem, Pkg.setHome_mem, State.takeIn_mem]
  exact w

theorem State.homeWriteTimes_wf (s : State) (l : Nat) (t : BitVec 16) (o : Option (BitVec 9)) (w : s.MemWf) :
    (s.homeWriteTimes l t o).1.MemWf := by
  apply State.settle_wf
  simp only [State.MemWf, State.mapPkg, Pkg.grantRts_mem, Pkg.setHome_mem, State.assign_mem, State.takeIn_mem]
  exact w

theorem State.wakeLine_pkg (s : State) (l : Nat) : (s.wakeLine l).pkg = s.pkg := by
  unfold State.wakeLine; repeat' split
  all_goals rfl

/-- A unit's write of committed bytes keeps the canonical form. -/
theorem State.poke_wf (s : State) (a n v : Nat) (w : s.MemWf) : (s.poke a n v).MemWf := by
  unfold State.poke State.homeStore
  dsimp only
  cases h : s.recall (a / 64) false with
  | none => exact w
  | some t =>
    refine Pkg.writeNat_wf _ _ _ _ (State.homeWriteTimes_wf _ _ _ _ ?_)
    unfold State.MemWf
    rw [State.wakeLine_pkg]
    exact State.recall_wf s t _ _ h w

/-! ### Bench. -/

@[simp] theorem Core.shadow_bench (c : Core) (g : Nat) : (c.shadow g).bench = c.bench := by
  unfold Core.shadow; dsimp only; split <;> rfl
@[simp] theorem Core.shadow_benchInvalid (c : Core) (g : Nat) : (c.shadow g).benchInvalid = c.benchInvalid := by
  unfold Core.shadow; dsimp only; split <;> rfl
@[simp] theorem Core.injectBench_bench (c : Core) (w : Nat) : (c.injectBench w).bench = c.bench := by
  unfold Core.injectBench; repeat' split
  all_goals rfl
@[simp] theorem Core.injectBench_benchInvalid (c : Core) (w : Nat) : (c.injectBench w).benchInvalid = c.benchInvalid := by
  unfold Core.injectBench; repeat' split
  all_goals rfl

/-- Taking shadows leaves the bench as it is. -/
theorem Core.shadows_bench (c : Core) (gs : List Nat) :
    (gs.foldl Core.shadow c).bench = c.bench ∧ (gs.foldl Core.shadow c).benchInvalid = c.benchInvalid := by
  induction gs generalizing c with
  | nil => exact ⟨rfl, rfl⟩
  | cons g gs ih => simpa using ih (c.shadow g)

/-- A bench write keeps the canonical form of the bytes and of the invalid words. -/
theorem Core.benchWrite_wf (c : Core) (o : Nat) (bs : List Byte) (w : Memory.wf c.bench = true)
    (v : sparseWf false c.benchInvalid = true) :
    Memory.wf (c.benchWrite o bs).bench = true ∧ sparseWf false (c.benchWrite o bs).benchInvalid = true := by
  have h := Core.shadows_bench c (granules o bs.length)
  unfold Core.benchWrite
  simp only [Core.injectBench_bench, Core.injectBench_benchInvalid]
  exact ⟨cellsSet_wf _ _ _ (sparseWf_foldl _ _ _ _ (fun _ _ h => cellsSet_wf _ _ _ h) (h.1 ▸ w)),
    sparseWf_foldl _ _ _ _ (fun _ _ h => natSetPut_wf _ _ _ h) (h.2 ▸ v)⟩

/-- Memory at reset lists nothing. -/
theorem reset_memWf : State.reset.MemWf := rfl

end Sys2Proof.Machine
end

