-- ==== Sys2Proof/Laws/Ops.lean ====
section
/-! SUPPORT. Laws/Ops.lean: one lemma for each shared operation that says everything it can do: registers, the ends of
an instruction, traps, accesses, issue, the store queue and the turn of a step. -/

namespace Sys2Proof.Machine

/-! ### General registers (02:R41). -/

@[simp] theorem State.g_zero (s : State) : s.g 0#5 = 0 := by simp [State.g]

/-- g depends on the registers alone. -/
theorem State.g_congr (s t : State) (h : t.hart.g = s.hart.g) (r : GReg) : t.g r = s.g r := by simp [State.g, h]

/-- Reading after writing a register: g0 reads zero and discards writes. -/
theorem State.g_setG (s : State) (d r : GReg) (v : Word) :
    (s.setG d v).g r = if r = 0#5 then 0 else if r = d then v else s.g r := by
  by_cases hr : r = 0#5
  · simp [State.g, hr]
  · by_cases hd : d = 0#5
    · subst hd; simp [State.g, hr, State.setG]
    · by_cases h : r = d
      · subst h; simp [State.g, hr, State.setG, State.mapHart]
      · have : d.toNat ≠ r.toNat := fun h' => h (BitVec.eq_of_toNat_eq h'.symm)
        simp [State.g, hr, hd, h, State.setG, State.mapHart, this]

/-- A result instruction writes its destination and no other register. -/
theorem State.g_result (s : State) (d r : GReg) (v : Word) :
    (s.result d v).g r = if r = 0#5 then 0 else if r = d then v else s.g r := by
  rw [← State.g_setG]; rfl

/-- A result instruction leaves the rest of the machine as it was. -/
theorem State.result_rest (s : State) (d : GReg) (v : Word) :
    (s.result d v).core = s.core ∧ (s.result d v).pkg = s.pkg ∧ (s.result d v).turns = s.turns ∧ (s.result d v).tick = s.tick ∧
      (s.result d v).hart = { s.hart with g := (s.result d v).hart.g, pc := s.hart.pc + 4#48, instret := s.hart.instret + 1#64 } := by
  unfold State.result State.setG; split <;> exact ⟨rfl, rfl, rfl, rfl, rfl⟩

/-! ### Memory as its owner holds it. -/

/-- What a read of committed bytes depends on: the core's and the package's. -/
theorem State.peek_congr (s t : State) (c : t.core = s.core) (p : t.pkg = s.pkg) (a n : Nat) : t.peek a n = s.peek a n := by
  unfold State.peek; rw [c, p]

/-! ### Traps (16:R308 to R310, R315). -/

/-- A trap that may be taken: cause, value and address recorded, TH set, the arrival withdrawn, PC at the handler, and what the
hart asked a peer package forgotten. -/
theorem State.enterTrap_handler (s : State) (c : BitVec 8) (v : Word) (pc : Addr) (th : s.hart.th = false)
    (vec : s.hart.trapvec ≠ 0#48) :
    s.enterTrap c v pc = (s.mapHart (fun h =>
      { h with trapcause := c, trapval := v, trappc := pc, arrival := none, th := true, pc := h.trapvec &&& ~~~3#48,
               run := .running })).mapPkg (·.dropAsks .hart) := by
  simp [State.enterTrap, th, vec, State.mapHart, State.mapPkg]

/-- A fatal trap: recorded, and the gang discarded. -/
theorem State.enterTrap_fatal (s : State) (c : BitVec 8) (v : Word) (pc : Addr)
    (h : s.hart.th = true ∨ s.hart.trapvec = 0#48) :
    s.enterTrap c v pc =
      ((s.mapHart (fun h => { h with trapcause := c, trapval := v, trappc := pc, arrival := none })).mapPkg
        (·.dropAsks .hart)).discardGang c v (pc.setWidth 64) := by
  have h' : (s.hart.th || decide (s.hart.trapvec = 0#48)) = true := by simpa using h
  simp only [State.enterTrap]; rw [if_pos h']

/-- Outside a SNAP gang, and for every cause but the two array errors, a trap is entered. -/
theorem State.trap_enter (s : State) (c : BitVec 8) (v : Word) (h : s.hart.snap = false ∨ (c ≠ 0x0A#8 ∧ c ≠ 0x0B#8)) :
    s.trap c v = s.enterTrap c v s.hart.pc := by
  unfold State.trap State.raise; rw [if_neg]; rcases h with h | ⟨h, k⟩ <;> simp [*]

/-- The two rollback triggers of a SNAP gang (21:R366). -/
theorem State.trap_rollback (s : State) (c : BitVec 8) (v : Word) (h : s.hart.snap = true) (k : c = 0x0A#8 ∨ c = 0x0B#8) :
    s.trap c v = s.triggerRollback c v := by
  unfold State.trap State.raise; rw [if_pos]; rcases k with k | k <;> simp [h, k]

/-- What the handler finds: the whole of a trap that may be taken. -/
theorem State.trap_handler (s : State) (c : BitVec 8) (v : Word) (th : s.hart.th = false) (vec : s.hart.trapvec ≠ 0#48)
    (h : s.hart.snap = false ∨ (c ≠ 0x0A#8 ∧ c ≠ 0x0B#8)) :
    s.trap c v = (s.mapHart (fun h =>
      { h with trapcause := c, trapval := v, trappc := h.pc, arrival := none, th := true, pc := h.trapvec &&& ~~~3#48,
               run := .running })).mapPkg (·.dropAsks .hart) := by
  rw [State.trap_enter s c v h, State.enterTrap_handler s c v _ th vec]; rfl

/-! ### The end of an access. -/

@[simp] theorem Res.andThen_ok {α β : Type} (a : α) (s : State) (k : α → State → Res β) : (Res.ok a s).andThen k = k a s := rfl
@[simp] theorem Res.andThen_trap {α β : Type} (c : BitVec 8) (v : Word) (n : Nat) (s : State) (k : α → State → Res β) :
    (Res.trap c v n s : Res α).andThen k = .trap c v n s := rfl
@[simp] theorem Res.andThen_fault {α β : Type} (f : PageFault) (s : State) (k : α → State → Res β) :
    (Res.fault f s : Res α).andThen k = .fault f s := rfl
@[simp] theorem Res.andThen_wait {α β : Type} (s : State) (k : α → State → Res β) : (Res.wait s : Res α).andThen k = .wait s := rfl

/-- A chain of accesses is done when each was. -/
theorem Res.andThen_eq_ok {α β : Type} {r : Res α} {k : α → State → Res β} {b : β} {t : State} (h : r.andThen k = .ok b t) :
    ∃ a s, r = .ok a s ∧ k a s = .ok b t := by
  cases r with
  | ok a s => exact ⟨a, s, rfl, h⟩
  | trap => cases h
  | fault => cases h
  | wait => cases h

/-- A scalar memory instruction always goes on: completed, trapped, parked, or executed again later. -/
theorem Res.finish_cases {α : Type} (r : Res α) (k : α → State → State) :
    (∃ a s, r = .ok a s ∧ r.finish k = .next (k a s)) ∨ (∃ c v n s, r = .trap c v n s ∧ r.finish k = .next (s.trap c v)) ∨
    (∃ f s, r = .fault f s ∧ r.finish k = .next (s.parkHart f .scalar)) ∨ (∃ s, r = .wait s ∧ r.finish k = .next s) := by
  cases r with
  | ok a s => exact .inl ⟨a, s, rfl, rfl⟩
  | trap c v n s => exact .inr (.inl ⟨c, v, n, s, rfl, rfl⟩)
  | fault f s => exact .inr (.inr (.inl ⟨f, s, rfl, rfl⟩))
  | wait s => exact .inr (.inr (.inr ⟨s, rfl, rfl⟩))

/-! ### The checks of an access (10:R213). -/

/-- An address above 48 bits fails check 1. -/
theorem State.locate_high (s : State) (ea : Word) (n : Nat) (acc : FaultAccess) (h : ea.extractLsb' 48 16 ≠ 0#16) :
    s.locate ea n acc = .trap 0x03#8 ea 1 s := by
  unfold State.locate; rw [if_pos (by simpa using h)]

/-- A misaligned address fails check 2. -/
theorem State.locate_misaligned (s : State) (ea : Word) (n : Nat) (acc : FaultAccess) (h : ea.extractLsb' 48 16 = 0#16)
    (m : ea.toNat % n ≠ 0) : s.locate ea n acc = .trap 0x02#8 ea 2 s := by
  unfold State.locate; rw [if_neg (by simp [h]), if_pos (by simpa using m)]

/-- An aligned bench address goes to the bench checks. -/
theorem State.locate_bench (s : State) (ea : Word) (n : Nat) (acc : FaultAccess) (h : ea.extractLsb' 48 16 = 0#16)
    (m : ea.toNat % n = 0) (b : inBenchWindow ea.toNat = true) :
    s.locate ea n acc = s.benchCheck ea (ea.toNat - 0xFF00_0000_0000) n := by
  unfold State.locate; rw [if_neg (by simp [h]), if_neg (by simp [m]), if_pos b]

/-- An aligned address outside the bench window is translated. -/
theorem State.locate_mem (s : State) (ea : Word) (n : Nat) (acc : FaultAccess) (h : ea.extractLsb' 48 16 = 0#16)
    (m : ea.toNat % n = 0) (b : inBenchWindow ea.toNat = false) :
    s.locate ea n acc = (s.translate (ea.setWidth 48) acc).andThen (fun t s => .ok (.mem t.1 t.2.1 t.2.2) s) := by
  unfold State.locate; rw [if_neg (by simp [h]), if_neg (by simp [m]), if_neg (by simp [b])]

/-- What the bench checks answer. -/
theorem State.benchCheck_cases (s : State) (ea : Word) (o n : Nat) :
    s.benchCheck ea o n =
      if s.core.benchIn s.hart.ctxid o n = false then .trap 0x03#8 ea 3 s
      else if (granules o n).any s.core.engineOwned = true then .trap 0x09#8 ea 4 s else .ok (.bench o) s := by
  unfold State.benchCheck
  cases s.core.benchIn s.hart.ctxid o n <;> simp

/-- A write outside any hypothesis passes checks 6 and 7. -/
@[simp] theorem State.writeCheck_root (s : State) (t : Target) (n : Nat) (a : Bool) : s.writeCheck t n a 0#12 = none := by
  simp [State.writeCheck]

/-- A bench access is never a race (09:R197). -/
@[simp] theorem State.race_bench (s : State) (o n : Nat) (w : Bool) (h : BitVec 12) : s.race (.bench o) n w h = some s := rfl

/-- Without RACECHK no access is a race. -/
theorem State.race_off (s : State) (t : Target) (n : Nat) (w : Bool) (h : BitVec 12) (r : s.hart.racechk = false) :
    s.race t n w h = some s := by
  cases t <;> simp [State.race, State.raceChecked, r]

/-- No queued store and no checked element of a vector store touches the bytes: memory answers (10:R215, R224). -/
theorem State.forward_memory (s : State) (t : Target) (n : Nat) (h : BitVec 12) (k : ∀ q ∈ s.core.storeQ, q.overlaps t n = false)
    (c : ∀ q ∈ s.core.checkedStores, q.overlaps t n = false) : s.forward t n h = .memory := by
  unfold State.forward
  rw [List.find?_eq_none.mpr (by intro q hq; simpa using k q (by simpa using hq))]
  rw [if_neg (by simpa using c)]

/-! ### Hypothesis instructions (17:R329). -/

theorem State.hypInstr_snap (s : State) (k : Result) (h : s.hart.snap = true) : s.hypInstr k = .next (s.trap 0x07#8 0) := by
  simp [State.hypInstr, h]
@[simp] theorem State.hypInstr_other (s : State) (k : Result) (h : s.hart.snap = false) : s.hypInstr k = k := by
  simp [State.hypInstr, h]

/-! ### Issue to the units (05:R97, R101). -/

/-- A stalled instruction changes nothing. -/
theorem State.issue_held (s : State) (i : Instr) (n : Nat) (gd gd1 ga gb : Word) (r : Bool) (vd : BitVec 16) (pd : BitVec 32)
    (h : s.issueHeld i vd = true) : s.issue i n gd gd1 ga gb r vd pd = .next s := by
  simp [State.issue, State.waitHere, h]

/-- An issued instruction joins its queue with what it sampled, and the hart goes on. -/
theorem State.issue_free (s : State) (i : Instr) (n : Nat) (gd gd1 ga gb : Word) (r : Bool) (vd : BitVec 16) (pd : BitVec 32)
    (h : s.issueHeld i vd = false) :
    s.issue i n gd gd1 ga gb r vd pd = .next
      (((((s.joinQueue (s.sample i n gd gd1 ga gb)).markDirty n vd pd).countRounding r).clearVstart).retire) := by
  simp [State.issue, h]

theorem State.issueKeep_held (s : State) (i : Instr) (n : Nat) (gd gd1 ga gb : Word) (r : Bool) (vd : BitVec 16) (pd : BitVec 32)
    (h : s.issueHeld i vd = true) : s.issueKeep i n gd gd1 ga gb r vd pd = .next s := by
  simp [State.issueKeep, State.waitHere, h]

theorem State.issueKeep_free (s : State) (i : Instr) (n : Nat) (gd gd1 ga gb : Word) (r : Bool) (vd : BitVec 16) (pd : BitVec 32)
    (h : s.issueHeld i vd = false) :
    s.issueKeep i n gd gd1 ga gb r vd pd = .next
      ((((s.joinQueue (s.sample i n gd gd1 ga gb)).markDirty n vd pd).countRounding r).retire) := by
  simp [State.issueKeep, h]

/-! ### One step. -/

/-- A state with a turn planned takes that turn, after the turn has been taken off. -/
theorem step_turn (s : State) (t : Turn) (ts : List Turn) (h : s.turns = t :: ts) : step s = runTurn t s.beginTurn := by
  unfold step; rw [h]

/-- Without a planned turn the machine takes the step that its state names, unless it is frozen (23:R387). -/
theorem step_auto (s : State) (h : s.turns = []) (f : s.pkg.frozen = false) : step s = autoStep s.auto s.beginTurn := by
  unfold step; rw [h]; simp [f]

/-- A frozen package does nothing by itself. -/
theorem step_frozen (s : State) (h : s.turns = []) (f : s.pkg.frozen = true) : step s = .next s := by
  unfold step; rw [h]; simp [f]

/-- An event of a turn is performed by its meaning. -/
theorem runTurn_event (s : State) (i : Instr) (e : isEvent i = true) (f : s.pkg.frozen = false ∨ actsFrozen i = true) :
    runTurn (.event i) s = exec i s := by
  have : (!isEvent i || (s.pkg.frozen && !actsFrozen i)) = false := by rcases f with f | f <;> simp [e, f]
  simp [runTurn, this]

/-- A decoded instruction runs by its meaning; a word that decodes to none is the illegal instruction. -/
theorem runWord_ok (w : IWord) (s : State) (i : Instr) (h : decodeWord w = .ok (.instr i)) : runWord w s = exec i s := by
  simp [runWord, h, runOp]

end Sys2Proof.Machine
end

