-- ==== Sys2Proof/Laws/PerInstr.lean ====
section
/-! SUPPORT. Laws/PerInstr.lean: what is said of every instruction, one lemma for each. -/

namespace Sys2Proof.Laws.Encoding
open Machine

/-- The term has a word exactly when it is an instruction of the hart: an event has none, and the row of illegal words
stands for no word of its own. -/
def Statement (i : Instr) : Prop := (encode i).isSome = !isEvent i ∨ ∃ w, i = .illegalInstruction w

theorem add : ∀ x0 x1 x2, Statement (.add x0 x1 x2) := fun _ _ _ => .inl rfl
theorem sub : ∀ x0 x1 x2, Statement (.sub x0 x1 x2) := fun _ _ _ => .inl rfl
theorem addw : ∀ x0 x1 x2, Statement (.addw x0 x1 x2) := fun _ _ _ => .inl rfl
theorem subw : ∀ x0 x1 x2, Statement (.subw x0 x1 x2) := fun _ _ _ => .inl rfl
theorem and_ : ∀ x0 x1 x2, Statement (.and_ x0 x1 x2) := fun _ _ _ => .inl rfl
theorem or_ : ∀ x0 x1 x2, Statement (.or_ x0 x1 x2) := fun _ _ _ => .inl rfl
theorem xor_ : ∀ x0 x1 x2, Statement (.xor_ x0 x1 x2) := fun _ _ _ => .inl rfl
theorem andn : ∀ x0 x1 x2, Statement (.andn x0 x1 x2) := fun _ _ _ => .inl rfl
theorem orn : ∀ x0 x1 x2, Statement (.orn x0 x1 x2) := fun _ _ _ => .inl rfl
theorem sll : ∀ x0 x1 x2, Statement (.sll x0 x1 x2) := fun _ _ _ => .inl rfl
theorem srl : ∀ x0 x1 x2, Statement (.srl x0 x1 x2) := fun _ _ _ => .inl rfl
theorem sra : ∀ x0 x1 x2, Statement (.sra x0 x1 x2) := fun _ _ _ => .inl rfl
theorem rol : ∀ x0 x1 x2, Statement (.rol x0 x1 x2) := fun _ _ _ => .inl rfl
theorem ror : ∀ x0 x1 x2, Statement (.ror x0 x1 x2) := fun _ _ _ => .inl rfl
theorem slt : ∀ x0 x1 x2, Statement (.slt x0 x1 x2) := fun _ _ _ => .inl rfl
theorem sltu : ∀ x0 x1 x2, Statement (.sltu x0 x1 x2) := fun _ _ _ => .inl rfl
theorem min_ : ∀ x0 x1 x2, Statement (.min_ x0 x1 x2) := fun _ _ _ => .inl rfl
theorem max_ : ∀ x0 x1 x2, Statement (.max_ x0 x1 x2) := fun _ _ _ => .inl rfl
theorem minu : ∀ x0 x1 x2, Statement (.minu x0 x1 x2) := fun _ _ _ => .inl rfl
theorem maxu : ∀ x0 x1 x2, Statement (.maxu x0 x1 x2) := fun _ _ _ => .inl rfl
theorem clz : ∀ x0 x1, Statement (.clz x0 x1) := fun _ _ => .inl rfl
theorem ctz : ∀ x0 x1, Statement (.ctz x0 x1) := fun _ _ => .inl rfl
theorem popc : ∀ x0 x1, Statement (.popc x0 x1) := fun _ _ => .inl rfl
theorem sextB : ∀ x0 x1, Statement (.sextB x0 x1) := fun _ _ => .inl rfl
theorem sextH : ∀ x0 x1, Statement (.sextH x0 x1) := fun _ _ => .inl rfl
theorem sextW : ∀ x0 x1, Statement (.sextW x0 x1) := fun _ _ => .inl rfl
theorem zextB : ∀ x0 x1, Statement (.zextB x0 x1) := fun _ _ => .inl rfl
theorem zextH : ∀ x0 x1, Statement (.zextH x0 x1) := fun _ _ => .inl rfl
theorem zextW : ∀ x0 x1, Statement (.zextW x0 x1) := fun _ _ => .inl rfl
theorem addi : ∀ x0 x1 x2, Statement (.addi x0 x1 x2) := fun _ _ _ => .inl rfl
theorem andi : ∀ x0 x1 x2, Statement (.andi x0 x1 x2) := fun _ _ _ => .inl rfl
theorem ori : ∀ x0 x1 x2, Statement (.ori x0 x1 x2) := fun _ _ _ => .inl rfl
theorem xori : ∀ x0 x1 x2, Statement (.xori x0 x1 x2) := fun _ _ _ => .inl rfl
theorem slti : ∀ x0 x1 x2, Statement (.slti x0 x1 x2) := fun _ _ _ => .inl rfl
theorem sltiu : ∀ x0 x1 x2, Statement (.sltiu x0 x1 x2) := fun _ _ _ => .inl rfl
theorem slli : ∀ x0 x1 x2, Statement (.slli x0 x1 x2) := fun _ _ _ => .inl rfl
theorem srli : ∀ x0 x1 x2, Statement (.srli x0 x1 x2) := fun _ _ _ => .inl rfl
theorem srai : ∀ x0 x1 x2, Statement (.srai x0 x1 x2) := fun _ _ _ => .inl rfl
theorem rori : ∀ x0 x1 x2, Statement (.rori x0 x1 x2) := fun _ _ _ => .inl rfl
theorem ldhi : ∀ x0 x1, Statement (.ldhi x0 x1) := fun _ _ => .inl rfl
theorem pcrel : ∀ x0 x1, Statement (.pcrel x0 x1) := fun _ _ => .inl rfl
theorem mul : ∀ x0 x1 x2, Statement (.mul x0 x1 x2) := fun _ _ _ => .inl rfl
theorem mulh : ∀ x0 x1 x2, Statement (.mulh x0 x1 x2) := fun _ _ _ => .inl rfl
theorem mulhu : ∀ x0 x1 x2, Statement (.mulhu x0 x1 x2) := fun _ _ _ => .inl rfl
theorem mulhsu : ∀ x0 x1 x2, Statement (.mulhsu x0 x1 x2) := fun _ _ _ => .inl rfl
theorem mulw : ∀ x0 x1 x2, Statement (.mulw x0 x1 x2) := fun _ _ _ => .inl rfl
theorem div : ∀ x0 x1 x2, Statement (.div x0 x1 x2) := fun _ _ _ => .inl rfl
theorem divu : ∀ x0 x1 x2, Statement (.divu x0 x1 x2) := fun _ _ _ => .inl rfl
theorem rem : ∀ x0 x1 x2, Statement (.rem x0 x1 x2) := fun _ _ _ => .inl rfl
theorem remu : ∀ x0 x1 x2, Statement (.remu x0 x1 x2) := fun _ _ _ => .inl rfl
theorem fadd : ∀ x0 x1 x2 x3 x4, Statement (.fadd x0 x1 x2 x3 x4) := fun _ _ _ _ _ => .inl rfl
theorem fsub : ∀ x0 x1 x2 x3 x4, Statement (.fsub x0 x1 x2 x3 x4) := fun _ _ _ _ _ => .inl rfl
theorem fmul : ∀ x0 x1 x2 x3 x4, Statement (.fmul x0 x1 x2 x3 x4) := fun _ _ _ _ _ => .inl rfl
theorem fdiv : ∀ x0 x1 x2 x3 x4, Statement (.fdiv x0 x1 x2 x3 x4) := fun _ _ _ _ _ => .inl rfl
theorem fsqrt : ∀ x0 x1 x2 x3, Statement (.fsqrt x0 x1 x2 x3) := fun _ _ _ _ => .inl rfl
theorem fma : ∀ x0 x1 x2 x3 x4, Statement (.fma x0 x1 x2 x3 x4) := fun _ _ _ _ _ => .inl rfl
theorem fmin : ∀ x0 x1 x2 x3, Statement (.fmin x0 x1 x2 x3) := fun _ _ _ _ => .inl rfl
theorem fmax : ∀ x0 x1 x2 x3, Statement (.fmax x0 x1 x2 x3) := fun _ _ _ _ => .inl rfl
theorem feq : ∀ x0 x1 x2 x3, Statement (.feq x0 x1 x2 x3) := fun _ _ _ _ => .inl rfl
theorem flt : ∀ x0 x1 x2 x3, Statement (.flt x0 x1 x2 x3) := fun _ _ _ _ => .inl rfl
theorem fle : ∀ x0 x1 x2 x3, Statement (.fle x0 x1 x2 x3) := fun _ _ _ _ => .inl rfl
theorem fclass : ∀ x0 x1 x2, Statement (.fclass x0 x1 x2) := fun _ _ _ => .inl rfl
theorem fcvtIf : ∀ x0 x1 x2 x3 x4, Statement (.fcvtIf x0 x1 x2 x3 x4) := fun _ _ _ _ _ => .inl rfl
theorem fcvtFi : ∀ x0 x1 x2 x3 x4, Statement (.fcvtFi x0 x1 x2 x3 x4) := fun _ _ _ _ _ => .inl rfl
theorem fcvtFf : ∀ x0 x1 x2 x3 x4, Statement (.fcvtFf x0 x1 x2 x3 x4) := fun _ _ _ _ _ => .inl rfl
theorem ldb : ∀ x0 x1 x2, Statement (.ldb x0 x1 x2) := fun _ _ _ => .inl rfl
theorem ldh : ∀ x0 x1 x2, Statement (.ldh x0 x1 x2) := fun _ _ _ => .inl rfl
theorem ldw : ∀ x0 x1 x2, Statement (.ldw x0 x1 x2) := fun _ _ _ => .inl rfl
theorem ldd : ∀ x0 x1 x2, Statement (.ldd x0 x1 x2) := fun _ _ _ => .inl rfl
theorem ldbu : ∀ x0 x1 x2, Statement (.ldbu x0 x1 x2) := fun _ _ _ => .inl rfl
theorem ldhu : ∀ x0 x1 x2, Statement (.ldhu x0 x1 x2) := fun _ _ _ => .inl rfl
theorem ldwu : ∀ x0 x1 x2, Statement (.ldwu x0 x1 x2) := fun _ _ _ => .inl rfl
theorem stb : ∀ x0 x1 x2, Statement (.stb x0 x1 x2) := fun _ _ _ => .inl rfl
theorem sth : ∀ x0 x1 x2, Statement (.sth x0 x1 x2) := fun _ _ _ => .inl rfl
theorem stw : ∀ x0 x1 x2, Statement (.stw x0 x1 x2) := fun _ _ _ => .inl rfl
theorem std : ∀ x0 x1 x2, Statement (.std x0 x1 x2) := fun _ _ _ => .inl rfl
theorem beq : ∀ x0 x1 x2, Statement (.beq x0 x1 x2) := fun _ _ _ => .inl rfl
theorem bne : ∀ x0 x1 x2, Statement (.bne x0 x1 x2) := fun _ _ _ => .inl rfl
theorem blt : ∀ x0 x1 x2, Statement (.blt x0 x1 x2) := fun _ _ _ => .inl rfl
theorem bge : ∀ x0 x1 x2, Statement (.bge x0 x1 x2) := fun _ _ _ => .inl rfl
theorem bltu : ∀ x0 x1 x2, Statement (.bltu x0 x1 x2) := fun _ _ _ => .inl rfl
theorem bgeu : ∀ x0 x1 x2, Statement (.bgeu x0 x1 x2) := fun _ _ _ => .inl rfl
theorem jal : ∀ x0 x1, Statement (.jal x0 x1) := fun _ _ => .inl rfl
theorem jalr : ∀ x0 x1 x2, Statement (.jalr x0 x1 x2) := fun _ _ _ => .inl rfl
theorem ald : ∀ x0 x1 x2 x3 x4, Statement (.ald x0 x1 x2 x3 x4) := fun _ _ _ _ _ => .inl rfl
theorem ast : ∀ x0 x1 x2 x3 x4, Statement (.ast x0 x1 x2 x3 x4) := fun _ _ _ _ _ => .inl rfl
theorem amoadd : ∀ x0 x1 x2 x3 x4 x5, Statement (.amoadd x0 x1 x2 x3 x4 x5) := fun _ _ _ _ _ _ => .inl rfl
theorem amoswap : ∀ x0 x1 x2 x3 x4 x5, Statement (.amoswap x0 x1 x2 x3 x4 x5) := fun _ _ _ _ _ _ => .inl rfl
theorem amoand : ∀ x0 x1 x2 x3 x4 x5, Statement (.amoand x0 x1 x2 x3 x4 x5) := fun _ _ _ _ _ _ => .inl rfl
theorem amoor : ∀ x0 x1 x2 x3 x4 x5, Statement (.amoor x0 x1 x2 x3 x4 x5) := fun _ _ _ _ _ _ => .inl rfl
theorem amoxor : ∀ x0 x1 x2 x3 x4 x5, Statement (.amoxor x0 x1 x2 x3 x4 x5) := fun _ _ _ _ _ _ => .inl rfl
theorem amomin : ∀ x0 x1 x2 x3 x4 x5, Statement (.amomin x0 x1 x2 x3 x4 x5) := fun _ _ _ _ _ _ => .inl rfl
theorem amomax : ∀ x0 x1 x2 x3 x4 x5, Statement (.amomax x0 x1 x2 x3 x4 x5) := fun _ _ _ _ _ _ => .inl rfl
theorem amominu : ∀ x0 x1 x2 x3 x4 x5, Statement (.amominu x0 x1 x2 x3 x4 x5) := fun _ _ _ _ _ _ => .inl rfl
theorem amomaxu : ∀ x0 x1 x2 x3 x4 x5, Statement (.amomaxu x0 x1 x2 x3 x4 x5) := fun _ _ _ _ _ _ => .inl rfl
theorem cas : ∀ x0 x1 x2 x3 x4 x5, Statement (.cas x0 x1 x2 x3 x4 x5) := fun _ _ _ _ _ _ => .inl rfl
theorem fence : ∀ x0 x1, Statement (.fence x0 x1) := fun _ _ => .inl rfl
theorem gbar : Statement .gbar := .inl rfl
theorem gred : ∀ x0 x1 x2 x3, Statement (.gred x0 x1 x2 x3) := fun _ _ _ _ => .inl rfl
theorem mfs : ∀ x0 x1, Statement (.mfs x0 x1) := fun _ _ => .inl rfl
theorem mts : ∀ x0 x1, Statement (.mts x0 x1) := fun _ _ => .inl rfl
theorem mtsMode : ∀ x0, Statement (.mtsMode x0) := fun _ => .inl rfl
theorem mtsVl : ∀ x0, Statement (.mtsVl x0) := fun _ => .inl rfl
theorem mtsVstart : ∀ x0, Statement (.mtsVstart x0) := fun _ => .inl rfl
theorem mtsFcr : ∀ x0, Statement (.mtsFcr x0) := fun _ => .inl rfl
theorem mtsLtime : ∀ x0, Statement (.mtsLtime x0) := fun _ => .inl rfl
theorem mtsBenchchk : ∀ x0, Statement (.mtsBenchchk x0) := fun _ => .inl rfl
theorem mtsChkctl : ∀ x0, Statement (.mtsChkctl x0) := fun _ => .inl rfl
theorem svc : ∀ x0, Statement (.svc x0) := fun _ => .inl rfl
theorem brk : ∀ x0, Statement (.brk x0) := fun _ => .inl rfl
theorem eret : Statement .eret := .inl rfl
theorem idle : ∀ x0, Statement (.idle x0) := fun _ => .inl rfl
theorem ifence : Statement .ifence := .inl rfl
theorem tlbiVa : ∀ x0 x1 x2, Statement (.tlbiVa x0 x1 x2) := fun _ _ _ => .inl rfl
theorem tlbiCtx : ∀ x0 x1, Statement (.tlbiCtx x0 x1) := fun _ _ => .inl rfl
theorem tlbiAll : ∀ x0, Statement (.tlbiAll x0) := fun _ => .inl rfl
theorem tend : Statement .tend := .inl rfl
theorem spawn : ∀ x0 x1, Statement (.spawn x0 x1) := fun _ _ => .inl rfl
theorem qput : ∀ x0 x1, Statement (.qput x0 x1) := fun _ _ => .inl rfl
theorem join : ∀ x0 x1, Statement (.join x0 x1) := fun _ _ => .inl rfl
theorem gmode : ∀ x0, Statement (.gmode x0) := fun _ => .inl rfl
theorem vsetl : ∀ x0 x1, Statement (.vsetl x0 x1) := fun _ _ => .inl rfl
theorem wconvArray : ∀ x0 x1, Statement (.wconvArray x0 x1) := fun _ _ => .inl rfl
theorem wconvBench : ∀ x0 x1, Statement (.wconvBench x0 x1) := fun _ _ => .inl rfl
theorem wrel : ∀ x0 x1, Statement (.wrel x0 x1) := fun _ _ => .inl rfl
theorem vadd : ∀ x0 x1 x2, Statement (.vadd x0 x1 x2) := fun _ _ _ => .inl rfl
theorem vsub : ∀ x0 x1 x2, Statement (.vsub x0 x1 x2) := fun _ _ _ => .inl rfl
theorem vrsub : ∀ x0 x1 x2, Statement (.vrsub x0 x1 x2) := fun _ _ _ => .inl rfl
theorem vmul : ∀ x0 x1 x2, Statement (.vmul x0 x1 x2) := fun _ _ _ => .inl rfl
theorem vmulh : ∀ x0 x1 x2, Statement (.vmulh x0 x1 x2) := fun _ _ _ => .inl rfl
theorem vmacc : ∀ x0 x1 x2, Statement (.vmacc x0 x1 x2) := fun _ _ _ => .inl rfl
theorem vnmsac : ∀ x0 x1 x2, Statement (.vnmsac x0 x1 x2) := fun _ _ _ => .inl rfl
theorem vdiv : ∀ x0 x1 x2, Statement (.vdiv x0 x1 x2) := fun _ _ _ => .inl rfl
theorem vdivu : ∀ x0 x1 x2, Statement (.vdivu x0 x1 x2) := fun _ _ _ => .inl rfl
theorem vrem : ∀ x0 x1 x2, Statement (.vrem x0 x1 x2) := fun _ _ _ => .inl rfl
theorem vmin : ∀ x0 x1 x2, Statement (.vmin x0 x1 x2) := fun _ _ _ => .inl rfl
theorem vmax : ∀ x0 x1 x2, Statement (.vmax x0 x1 x2) := fun _ _ _ => .inl rfl
theorem vminu : ∀ x0 x1 x2, Statement (.vminu x0 x1 x2) := fun _ _ _ => .inl rfl
theorem vmaxu : ∀ x0 x1 x2, Statement (.vmaxu x0 x1 x2) := fun _ _ _ => .inl rfl
theorem vand : ∀ x0 x1 x2, Statement (.vand x0 x1 x2) := fun _ _ _ => .inl rfl
theorem vor : ∀ x0 x1 x2, Statement (.vor x0 x1 x2) := fun _ _ _ => .inl rfl
theorem vxor : ∀ x0 x1 x2, Statement (.vxor x0 x1 x2) := fun _ _ _ => .inl rfl
theorem vandn : ∀ x0 x1 x2, Statement (.vandn x0 x1 x2) := fun _ _ _ => .inl rfl
theorem vsll : ∀ x0 x1 x2, Statement (.vsll x0 x1 x2) := fun _ _ _ => .inl rfl
theorem vsrl : ∀ x0 x1 x2, Statement (.vsrl x0 x1 x2) := fun _ _ _ => .inl rfl
theorem vsra : ∀ x0 x1 x2, Statement (.vsra x0 x1 x2) := fun _ _ _ => .inl rfl
theorem vabs : ∀ x0 x1, Statement (.vabs x0 x1) := fun _ _ => .inl rfl
theorem vabsd : ∀ x0 x1 x2, Statement (.vabsd x0 x1 x2) := fun _ _ _ => .inl rfl
theorem vmerge : ∀ x0 x1 x2, Statement (.vmerge x0 x1 x2) := fun _ _ _ => .inl rfl
theorem vmv : ∀ x0 x1 x2, Statement (.vmv x0 x1 x2) := fun _ _ _ => .inl rfl
theorem vid : ∀ x0, Statement (.vid x0) := fun _ => .inl rfl
theorem vclip : ∀ x0 x1 x2, Statement (.vclip x0 x1 x2) := fun _ _ _ => .inl rfl
theorem vfadd : ∀ x0 x1 x2, Statement (.vfadd x0 x1 x2) := fun _ _ _ => .inl rfl
theorem vfsub : ∀ x0 x1 x2, Statement (.vfsub x0 x1 x2) := fun _ _ _ => .inl rfl
theorem vfmul : ∀ x0 x1 x2, Statement (.vfmul x0 x1 x2) := fun _ _ _ => .inl rfl
theorem vfma : ∀ x0 x1 x2, Statement (.vfma x0 x1 x2) := fun _ _ _ => .inl rfl
theorem vfnma : ∀ x0 x1 x2, Statement (.vfnma x0 x1 x2) := fun _ _ _ => .inl rfl
theorem vfdiv : ∀ x0 x1 x2, Statement (.vfdiv x0 x1 x2) := fun _ _ _ => .inl rfl
theorem vfsqrt : ∀ x0 x1, Statement (.vfsqrt x0 x1) := fun _ _ => .inl rfl
theorem vfmin : ∀ x0 x1 x2, Statement (.vfmin x0 x1 x2) := fun _ _ _ => .inl rfl
theorem vfmax : ∀ x0 x1 x2, Statement (.vfmax x0 x1 x2) := fun _ _ _ => .inl rfl
theorem vfsgn : ∀ x0 x1 x2, Statement (.vfsgn x0 x1 x2) := fun _ _ _ => .inl rfl
theorem vfsgnN : ∀ x0 x1 x2, Statement (.vfsgnN x0 x1 x2) := fun _ _ _ => .inl rfl
theorem vfsgnX : ∀ x0 x1 x2, Statement (.vfsgnX x0 x1 x2) := fun _ _ _ => .inl rfl
theorem vfexp2 : ∀ x0 x1, Statement (.vfexp2 x0 x1) := fun _ _ => .inl rfl
theorem vflog2 : ∀ x0 x1, Statement (.vflog2 x0 x1) := fun _ _ => .inl rfl
theorem vfrecip : ∀ x0 x1, Statement (.vfrecip x0 x1) := fun _ _ => .inl rfl
theorem vfrsqrt : ∀ x0 x1, Statement (.vfrsqrt x0 x1) := fun _ _ => .inl rfl
theorem vcvt : ∀ x0 x1 x2, Statement (.vcvt x0 x1 x2) := fun _ _ _ => .inl rfl
theorem vcmpeq : ∀ x0 x1 x2, Statement (.vcmpeq x0 x1 x2) := fun _ _ _ => .inl rfl
theorem vcmpne : ∀ x0 x1 x2, Statement (.vcmpne x0 x1 x2) := fun _ _ _ => .inl rfl
theorem vcmplt : ∀ x0 x1 x2, Statement (.vcmplt x0 x1 x2) := fun _ _ _ => .inl rfl
theorem vcmple : ∀ x0 x1 x2, Statement (.vcmple x0 x1 x2) := fun _ _ _ => .inl rfl
theorem vcmpltu : ∀ x0 x1 x2, Statement (.vcmpltu x0 x1 x2) := fun _ _ _ => .inl rfl
theorem vcmpleu : ∀ x0 x1 x2, Statement (.vcmpleu x0 x1 x2) := fun _ _ _ => .inl rfl
theorem vfcmpeq : ∀ x0 x1 x2, Statement (.vfcmpeq x0 x1 x2) := fun _ _ _ => .inl rfl
theorem vfcmplt : ∀ x0 x1 x2, Statement (.vfcmplt x0 x1 x2) := fun _ _ _ => .inl rfl
theorem vfcmple : ∀ x0 x1 x2, Statement (.vfcmple x0 x1 x2) := fun _ _ _ => .inl rfl
theorem vfcmpun : ∀ x0 x1 x2, Statement (.vfcmpun x0 x1 x2) := fun _ _ _ => .inl rfl
theorem pand : ∀ x0 x1 x2, Statement (.pand x0 x1 x2) := fun _ _ _ => .inl rfl
theorem por : ∀ x0 x1 x2, Statement (.por x0 x1 x2) := fun _ _ _ => .inl rfl
theorem pxor : ∀ x0 x1 x2, Statement (.pxor x0 x1 x2) := fun _ _ _ => .inl rfl
theorem pandn : ∀ x0 x1 x2, Statement (.pandn x0 x1 x2) := fun _ _ _ => .inl rfl
theorem pmov : ∀ x0 x1, Statement (.pmov x0 x1) := fun _ _ => .inl rfl
theorem psbf : ∀ x0 x1 x2, Statement (.psbf x0 x1 x2) := fun _ _ _ => .inl rfl
theorem psif : ∀ x0 x1 x2, Statement (.psif x0 x1 x2) := fun _ _ _ => .inl rfl
theorem pfirst : ∀ x0 x1 x2, Statement (.pfirst x0 x1 x2) := fun _ _ _ => .inl rfl
theorem pcount : ∀ x0 x1, Statement (.pcount x0 x1) := fun _ _ => .inl rfl
theorem pset : ∀ x0 x1, Statement (.pset x0 x1) := fun _ _ => .inl rfl
theorem vloop : ∀ x0 x1 x2, Statement (.vloop x0 x1 x2) := fun _ _ _ => .inl rfl
theorem vredsum : ∀ x0 x1, Statement (.vredsum x0 x1) := fun _ _ => .inl rfl
theorem vredosum : ∀ x0 x1, Statement (.vredosum x0 x1) := fun _ _ => .inl rfl
theorem vredmin : ∀ x0 x1, Statement (.vredmin x0 x1) := fun _ _ => .inl rfl
theorem vredmax : ∀ x0 x1, Statement (.vredmax x0 x1) := fun _ _ => .inl rfl
theorem vredbitAnd : ∀ x0 x1, Statement (.vredbitAnd x0 x1) := fun _ _ => .inl rfl
theorem vredbitOr : ∀ x0 x1, Statement (.vredbitOr x0 x1) := fun _ _ => .inl rfl
theorem vredbitXor : ∀ x0 x1, Statement (.vredbitXor x0 x1) := fun _ _ => .inl rfl
theorem vscan : ∀ x0 x1, Statement (.vscan x0 x1) := fun _ _ => .inl rfl
theorem vslideup : ∀ x0 x1 x2, Statement (.vslideup x0 x1 x2) := fun _ _ _ => .inl rfl
theorem vslidedn : ∀ x0 x1 x2, Statement (.vslidedn x0 x1 x2) := fun _ _ _ => .inl rfl
theorem vslide1up : ∀ x0 x1 x2, Statement (.vslide1up x0 x1 x2) := fun _ _ _ => .inl rfl
theorem vslide1dn : ∀ x0 x1 x2, Statement (.vslide1dn x0 x1 x2) := fun _ _ _ => .inl rfl
theorem vpick : ∀ x0 x1 x2, Statement (.vpick x0 x1 x2) := fun _ _ _ => .inl rfl
theorem vsqueeze : ∀ x0 x1 x2, Statement (.vsqueeze x0 x1 x2) := fun _ _ _ => .inl rfl
theorem vbcast : ∀ x0 x1 x2, Statement (.vbcast x0 x1 x2) := fun _ _ _ => .inl rfl
theorem vextr : ∀ x0 x1, Statement (.vextr x0 x1) := fun _ _ => .inl rfl
theorem vinsr : ∀ x0 x1, Statement (.vinsr x0 x1) := fun _ _ => .inl rfl
theorem vld : ∀ x0 x1, Statement (.vld x0 x1) := fun _ _ => .inl rfl
theorem vlds : ∀ x0 x1 x2, Statement (.vlds x0 x1 x2) := fun _ _ _ => .inl rfl
theorem vldx : ∀ x0 x1 x2, Statement (.vldx x0 x1 x2) := fun _ _ _ => .inl rfl
theorem vldff : ∀ x0 x1 x2, Statement (.vldff x0 x1 x2) := fun _ _ _ => .inl rfl
theorem vst : ∀ x0 x1, Statement (.vst x0 x1) := fun _ _ => .inl rfl
theorem vsts : ∀ x0 x1 x2, Statement (.vsts x0 x1 x2) := fun _ _ _ => .inl rfl
theorem vstx : ∀ x0 x1 x2, Statement (.vstx x0 x1 x2) := fun _ _ _ => .inl rfl
theorem pcopy : ∀ x0 x1 x2, Statement (.pcopy x0 x1 x2) := fun _ _ _ => .inl rfl
theorem pcopyX : ∀ x0 x1 x2 x3, Statement (.pcopyX x0 x1 x2 x3) := fun _ _ _ _ => .inl rfl
theorem ownE : ∀ x0 x1, Statement (.ownE x0 x1) := fun _ _ => .inl rfl
theorem ownH : ∀ x0 x1 x2, Statement (.ownH x0 x1 x2) := fun _ _ _ => .inl rfl
theorem tbi : ∀ x0 x1, Statement (.tbi x0 x1) := fun _ _ => .inl rfl
theorem tbarr : ∀ x0, Statement (.tbarr x0) := fun _ => .inl rfl
theorem tbwait : ∀ x0 x1 x2, Statement (.tbwait x0 x1 x2) := fun _ _ _ => .inl rfl
theorem tbtest : ∀ x0 x1, Statement (.tbtest x0 x1) := fun _ _ => .inl rfl
theorem rkdef : ∀ x0 x1 x2, Statement (.rkdef x0 x1 x2) := fun _ _ _ => .inl rfl
theorem prsv : ∀ x0 x1 x2, Statement (.prsv x0 x1 x2) := fun _ _ _ => .inl rfl
theorem prel : ∀ x0 x1, Statement (.prel x0 x1) := fun _ _ => .inl rfl
theorem pstat : ∀ x0 x1, Statement (.pstat x0 x1) := fun _ _ => .inl rfl
theorem bput : ∀ x0 x1 x2, Statement (.bput x0 x1 x2) := fun _ _ _ => .inl rfl
theorem bputF : ∀ x0 x1 x2, Statement (.bputF x0 x1 x2) := fun _ _ _ => .inl rfl
theorem vput : ∀ x0 x1 x2, Statement (.vput x0 x1 x2) := fun _ _ _ => .inl rfl
theorem vputF : ∀ x0 x1 x2, Statement (.vputF x0 x1 x2) := fun _ _ _ => .inl rfl
theorem rrot : ∀ x0 x1 x2, Statement (.rrot x0 x1 x2) := fun _ _ _ => .inl rfl
theorem fcfg : ∀ x0, Statement (.fcfg x0) := fun _ => .inl rfl
theorem fzero : Statement .fzero := .inl rfl
theorem fzeroC : Statement .fzeroC := .inl rfl
theorem mmo : ∀ x0 x1 x2, Statement (.mmo x0 x1 x2) := fun _ _ _ => .inl rfl
theorem mmoSp : ∀ x0 x1 x2 x3, Statement (.mmoSp x0 x1 x2 x3) := fun _ _ _ _ => .inl rfl
theorem mmoSt : ∀ x0 x1 x2 x3 x4 x5, Statement (.mmoSt x0 x1 x2 x3 x4 x5) := fun _ _ _ _ _ _ => .inl rfl
theorem frc : Statement .frc := .inl rfl
theorem fdrain : ∀ x0 x1, Statement (.fdrain x0 x1) := fun _ _ => .inl rfl
theorem fdrainNcs : ∀ x0, Statement (.fdrainNcs x0) := fun _ => .inl rfl
theorem fdrainZ : ∀ x0 x1, Statement (.fdrainZ x0 x1) := fun _ _ => .inl rfl
theorem fdrainZNcs : ∀ x0, Statement (.fdrainZNcs x0) := fun _ => .inl rfl
theorem frowadd : ∀ x0, Statement (.frowadd x0) := fun _ => .inl rfl
theorem frowaddC : ∀ x0, Statement (.frowaddC x0) := fun _ => .inl rfl
theorem fsave : ∀ x0, Statement (.fsave x0) := fun _ => .inl rfl
theorem fload : ∀ x0, Statement (.fload x0) := fun _ => .inl rfl
theorem hopen : ∀ x0, Statement (.hopen x0) := fun _ => .inl rfl
theorem henter : ∀ x0 x1, Statement (.henter x0 x1) := fun _ _ => .inl rfl
theorem hleave : ∀ x0, Statement (.hleave x0) := fun _ => .inl rfl
theorem hresConfirm : ∀ x0 x1, Statement (.hresConfirm x0 x1) := fun _ _ => .inl rfl
theorem hresRefute : ∀ x0 x1, Statement (.hresRefute x0 x1) := fun _ _ => .inl rfl
theorem hstat : ∀ x0 x1, Statement (.hstat x0 x1) := fun _ _ => .inl rfl
theorem cflush : ∀ x0, Statement (.cflush x0) := fun _ => .inl rfl
theorem cclean : ∀ x0, Statement (.cclean x0) := fun _ => .inl rfl
theorem cinv : ∀ x0, Statement (.cinv x0) := fun _ => .inl rfl
theorem lock : ∀ x0 x1, Statement (.lock x0 x1) := fun _ _ => .inl rfl
theorem unlock : ∀ x0 x1, Statement (.unlock x0 x1) := fun _ _ => .inl rfl
theorem bclr : ∀ x0 x1, Statement (.bclr x0 x1) := fun _ _ => .inl rfl
theorem hint : ∀ x0, Statement (.hint x0) := fun _ => .inl rfl
theorem illegalInstruction : ∀ x0, Statement (.illegalInstruction x0) := fun _ => .inr ⟨_, rfl⟩
theorem faultRecordPost : Statement .faultRecordPost := .inl rfl
theorem storeDepart : Statement .storeDepart := .inl rfl
theorem lineFill : ∀ x0, Statement (.lineFill x0) := fun _ => .inl rfl
theorem ownerRecall : ∀ x0, Statement (.ownerRecall x0) := fun _ => .inl rfl
theorem homeRead : ∀ x0 x1, Statement (.homeRead x0 x1) := fun _ _ => .inl rfl
theorem homeAcquireRead : ∀ x0 x1, Statement (.homeAcquireRead x0 x1) := fun _ _ => .inl rfl
theorem homeOwnership : ∀ x0 x1, Statement (.homeOwnership x0 x1) := fun _ _ => .inl rfl
theorem homeAtomic : ∀ x0 x1 x2 x3 x4 x5, Statement (.homeAtomic x0 x1 x2 x3 x4 x5) := fun _ _ _ _ _ _ => .inl rfl
theorem homeWriteBack : ∀ x0 x1 x2, Statement (.homeWriteBack x0 x1 x2) := fun _ _ _ => .inl rfl
theorem horizonBroadcast : Statement .horizonBroadcast := .inl rfl
theorem sliceRaceSweep : ∀ x0, Statement (.sliceRaceSweep x0) := fun _ => .inl rfl
theorem coreRaceSweep : Statement .coreRaceSweep := .inl rfl
theorem hbmScrub : ∀ x0, Statement (.hbmScrub x0) := fun _ => .inl rfl
theorem idleWake : Statement .idleWake := .inl rfl
theorem idleTimeout : Statement .idleTimeout := .inl rfl
theorem kneaderSlot : Statement .kneaderSlot := .inl rfl
theorem arrayDataErrorTrap : Statement .arrayDataErrorTrap := .inl rfl
theorem frameKstep : Statement .frameKstep := .inl rfl
theorem peelOpStart : Statement .peelOpStart := .inl rfl
theorem peelElement : ∀ x0 x1, Statement (.peelElement x0 x1) := fun _ _ => .inl rfl
theorem tbwaitAnswer : Statement .tbwaitAnswer := .inl rfl
theorem reservationRequest : ∀ x0, Statement (.reservationRequest x0) := fun _ => .inl rfl
theorem reservationAnswer : ∀ x0, Statement (.reservationAnswer x0) := fun _ => .inl rfl
theorem putFirstFlit : ∀ x0, Statement (.putFirstFlit x0) := fun _ => .inl rfl
theorem putContinuationFlit : ∀ x0, Statement (.putContinuationFlit x0) := fun _ => .inl rfl
theorem putStatus : ∀ x0, Statement (.putStatus x0) := fun _ => .inl rfl
theorem barrierArrival : ∀ x0, Statement (.barrierArrival x0) := fun _ => .inl rfl
theorem barrierRelease : Statement .barrierRelease := .inl rfl
theorem queuePop : ∀ x0, Statement (.queuePop x0) := fun _ => .inl rfl
theorem agingTick : ∀ x0, Statement (.agingTick x0) := fun _ => .inl rfl
theorem laneGrant : ∀ x0, Statement (.laneGrant x0) := fun _ => .inl rfl
theorem preemption : Statement .preemption := .inl rfl
theorem gangSaved : Statement .gangSaved := .inl rfl
theorem resume : ∀ x0, Statement (.resume x0) := fun _ => .inl rfl
theorem orphanTrap : Statement .orphanTrap := .inl rfl
theorem hypothesisFree : ∀ x0, Statement (.hypothesisFree x0) := fun _ => .inl rfl
theorem hartStateError : Statement .hartStateError := .inl rfl
theorem rollbackComplete : Statement .rollbackComplete := .inl rfl
theorem ringRecordWrite : ∀ x0, Statement (.ringRecordWrite x0) := fun _ => .inl rfl
theorem qtailWrite : ∀ x0 x1, Statement (.qtailWrite x0 x1) := fun _ _ => .inl rfl
theorem fansReplay : ∀ x0, Statement (.fansReplay x0) := fun _ => .inl rfl
theorem fansUnresolved : ∀ x0, Statement (.fansUnresolved x0) := fun _ => .inl rfl
theorem ctxkill : ∀ x0, Statement (.ctxkill x0) := fun _ => .inl rfl
theorem biasToHost : ∀ x0, Statement (.biasToHost x0) := fun _ => .inl rfl
theorem biasToDevice : ∀ x0, Statement (.biasToDevice x0) := fun _ => .inl rfl
theorem biasFlipComplete : Statement .biasFlipComplete := .inl rfl
theorem hostCxlMemRequest : ∀ x0 x1, Statement (.hostCxlMemRequest x0 x1) := fun _ _ => .inl rfl
theorem hostSnoop : ∀ x0 x1, Statement (.hostSnoop x0 x1) := fun _ _ => .inl rfl
theorem hostRegisterWrite : ∀ x0 x1, Statement (.hostRegisterWrite x0 x1) := fun _ _ => .inl rfl
theorem attestationRequest : ∀ x0, Statement (.attestationRequest x0) := fun _ => .inl rfl
theorem peerRead : ∀ x0 x1 x2, Statement (.peerRead x0 x1 x2) := fun _ _ _ => .inl rfl
theorem peerWrite : ∀ x0 x1 x2, Statement (.peerWrite x0 x1 x2) := fun _ _ _ => .inl rfl
theorem peerReadReply : ∀ x0 x1, Statement (.peerReadReply x0 x1) := fun _ _ => .inl rfl
theorem flitReceive : ∀ x0 x1, Statement (.flitReceive x0 x1) := fun _ _ => .inl rfl
theorem nkResendTimeout : ∀ x0, Statement (.nkResendTimeout x0) := fun _ => .inl rfl
theorem replayTimeout : ∀ x0, Statement (.replayTimeout x0) := fun _ => .inl rfl
theorem ackIdleFlit : ∀ x0, Statement (.ackIdleFlit x0) := fun _ => .inl rfl
theorem laneFail : ∀ x0 x1, Statement (.laneFail x0 x1) := fun _ _ => .inl rfl
theorem retrainSuccess : ∀ x0, Statement (.retrainSuccess x0) := fun _ => .inl rfl
theorem linkLost : ∀ x0, Statement (.linkLost x0) := fun _ => .inl rfl
theorem newSession : ∀ x0 x1, Statement (.newSession x0 x1) := fun _ _ => .inl rfl
theorem frz : Statement .frz := .inl rfl
theorem freezeComplete : Statement .freezeComplete := .inl rfl
theorem adapterHoldTimeout : Statement .adapterHoldTimeout := .inl rfl
theorem frzh : Statement .frzh := .inl rfl
theorem thaw : Statement .thaw := .inl rfl
theorem selch : ∀ x0, Statement (.selch x0) := fun _ => .inl rfl
theorem rdch : Statement .rdch := .inl rfl
theorem wrch : ∀ x0, Statement (.wrch x0) := fun _ => .inl rfl
theorem halt : ∀ x0, Statement (.halt x0) := fun _ => .inl rfl
theorem go : ∀ x0, Statement (.go x0) := fun _ => .inl rfl
theorem armbrk : ∀ x0 x1, Statement (.armbrk x0 x1) := fun _ _ => .inl rfl
theorem rstcore : ∀ x0, Statement (.rstcore x0) := fun _ => .inl rfl
theorem rstport : ∀ x0, Statement (.rstport x0) := fun _ => .inl rfl
theorem rstpkg : Statement .rstpkg := .inl rfl
theorem dbgauth : ∀ x0, Statement (.dbgauth x0) := fun _ => .inl rfl
theorem stat : Statement .stat := .inl rfl
theorem bypass : Statement .bypass := .inl rfl
theorem packageReset : Statement .packageReset := .inl rfl
theorem coreReset : ∀ x0, Statement (.coreReset x0) := fun _ => .inl rfl
theorem coreResetComplete : ∀ x0, Statement (.coreResetComplete x0) := fun _ => .inl rfl
theorem corePowerGate : ∀ x0, Statement (.corePowerGate x0) := fun _ => .inl rfl
theorem thermalWarning : Statement .thermalWarning := .inl rfl
theorem thermalLimit : Statement .thermalLimit := .inl rfl
theorem powerLimit : Statement .powerLimit := .inl rfl
theorem thermalResetTimer : Statement .thermalResetTimer := .inl rfl
theorem rodTreeComplete : Statement .rodTreeComplete := .inl rfl
theorem panDiscardNotice : ∀ x0, Statement (.panDiscardNotice x0) := fun _ => .inl rfl
theorem peerWriteRefusal : ∀ x0, Statement (.peerWriteRefusal x0) := fun _ => .inl rfl

end Sys2Proof.Laws.Encoding
end

