-- ==== Sys2Proof/Tests/Slice0.lean ====
section
/-! SUPPORT. Tests/Slice0.lean: the check of well-formedness on ill-formed terms, words of the spec's encodings, worked
values of the spec, and for every statement with hypotheses a state and operands that meet them. -/

namespace Sys2Proof.Tests
open Machine Claims
set_option Elab.async false

/-! ### Small states. -/

/-- A running hart of context 0 with a handler: W = 1, way 1 ARRAY, way 2 BENCH, VL = 4. -/
def m0 : State :=
  let ways : Vector Way 8 := Vector.ofFn (fun i : Fin 8 =>
    { mode := if i.val = 1 then .array else if i.val = 2 then .bench else .cache, ctx := 0#8 })
  { State.reset with
    hart := { Hart.reset with run := .running, pc := 0x1000#48, trapvec := 0x8000#48, vl := 4#20, vlmax := 65536#20 }
    core := { Core.reset with ways := ways } }

/-- The bytes of way 2 begin here. -/
def bench2 : Word := 0xFF00_0010_0000#64

/-- g1 = a, g2 = b, g4 = c. -/
def args (s : State) (a b c : Word) : State := ((s.setG 1#5 a).setG 2#5 b).setG 4#5 c

/-- Page 16 of context 0 is translated to itself, WB-device memory with every permission. -/
def tlb0 : TlbEntry :=
  { ctx := 0#8, va := 16, bits := 12, pa := 16, mt := 0#2, r := true, w := true, x := true, sysp := false, cnt := false,
    leaf := 0x20000, dirty := true }

/-- m0 with that translation. -/
def m1 : State := m0.mapCore (fun c => { c with tlb := [tlb0], tlb1 := [tlb0] })

/-- A dirty line at DPA 0x10000, in way 0. -/
def dirty0 : Line :=
  { way := 0#3, line := 0x400, hyp := 0#12, st := .d, wts := 3#16, rts := 3#16, data := 0x0123456789ABCDEF#512,
    poison := 0#8, lock := [], use := 1 }

/-- m1 holding that line. -/
def m2 : State :=
  (m1.mapCore (fun c => { c with lines := [dirty0] })).mapPkg (fun p =>
    { p with homes := [(0x400, some { wts := 3#16, rts := 3#16, owner := some 0#9 })] })

/-! ### Words of the spec's encodings, bit by bit (02:R34 to R39). -/

theorem test_decode_add : decode (0b000001_01001_01010_01011_00000000000#32) = .ok (.add 9 10 11) := rfl
theorem test_decode_srai : decode (0b001000_10000_10001_0010_000000_000111#32) = .ok (.srai 16 17 7) := rfl
theorem test_decode_fma : decode (0b001100_10000_10001_10010_10_001_000101#32) = .ok (.fma .fp32 16 17 18 .rtz) := rfl
theorem test_decode_fcvt_fi : decode (0x30E8164D#32) = .ok (.fcvtFi .fp64 7 8 .i32 .rtz) := rfl
theorem test_decode_ldw : decode (0b001111_10000_01001_0000000000001000#32) = .ok (.ldw 16 9 8) := rfl
theorem test_decode_bne : decode (0b011001_00000_00101_0000000000000010#32) = .ok (.bne 0 5 2) := rfl
theorem test_decode_jal : decode (0b011110_00001_111111111111111111100#32) = .ok (.jal 1 0x1FFFFC) := rfl
theorem test_decode_amoadd : decode (0b100000_10000_01001_10001_11_01_0_0_00010#32) = .ok (.amoadd 16 9 17 .ar .gang false) := rfl
theorem test_decode_gbar : decode (0x84000100#32) = .ok .gbar := rfl
theorem test_decode_gred : decode (0x86510208#32) = .ok (.gred 18 17 .faddD .rne) := rfl
theorem test_decode_mfs : decode (0b100010_10000_00000_0000_000100000001#32) = .ok (.mfs 16 .vl) := rfl
theorem test_decode_mts : decode (0b100010_00000_00111_0001_001000000001#32) = .ok (.mts .lease 7) := rfl
theorem test_decode_svc : decode (0x88002005#32) = .ok (.svc 5) := rfl
theorem test_decode_eret : decode (0x88004000#32) = .ok .eret := rfl
theorem test_decode_tlbi : decode (0x8A007005#32) = .ok (.tlbiCtx 16 true) := rfl
theorem test_decode_tend : decode (0x8C000000#32) = .ok .tend := rfl
theorem test_decode_spawn : decode (0b100011_10000_01001_0000000000000001#32) = .ok (.spawn 16 9) := rfl
theorem test_decode_join : decode (0x8E640003#32) = .ok (.join 19 4) := rfl
theorem test_decode_gmode : decode (0b100100_00000_000000001000000000001#32) = .ok (.gmode 0x1001) := rfl
theorem test_decode_vsetl : decode (0x95070000#32) = .ok (.vsetl 8 7) := rfl
theorem test_decode_wconv : decode (0b100101_10000_10001_00000_00000010000#32) = .ok (.wconvArray 16 17) := rfl
theorem test_decode_vadd : decode (0b100110_0010_0010_0000_00011_10_0000000#32) = .ok (.vadd 2 2 (.imm 3)) := rfl
theorem test_decode_vmacc : decode (0x98804005#32) = .ok (.vmacc 2 0 (.vec 1)) := rfl
theorem test_decode_vcmpne : decode (0xA4420081#32) = .ok (.vcmpne 2 1 (.imm 0)) := rfl
theorem test_decode_vloop : decode (0xA842010A#32) = .ok (.vloop 2 1 1) := rfl
theorem test_decode_vredsum : decode (0b101011_0000_0001_0000_10000_01_0000000#32) = .ok (.vredsum 16 1) := rfl
theorem test_decode_vslidedn : decode (0xAC8C0311#32) = .ok (.vslidedn 2 3 (.imm 1)) := rfl
theorem test_decode_pcopy : decode (0b101101_01001_01010_01011_0000_0000000#32) = .ok (.pcopy 9 10 11) := rfl
theorem test_decode_tbwait : decode (0xB634A812#32) = .ok (.tbwait 17 20 21) := rfl
theorem test_decode_bput : decode (0xB612A021#32) = .ok (.bputF 16 18 20 ) := rfl
theorem test_decode_mmo : decode (0b101110_00000_00000_00001_00000000010#32) = .ok (.mmo 0 1 false) := rfl
theorem test_decode_fdrain : decode (0xB8400026#32) = .ok (.fdrainNcs 2) := rfl
theorem test_decode_fzero : decode (0xB8000011#32) = .ok .fzeroC := rfl
theorem test_decode_henter : decode (0b101111_10001_10000_0000000000000001#32) = .ok (.henter 17 16) := rfl
theorem test_decode_hres : decode (0xBF100003#32) = .ok (.hresConfirm 24 16) := rfl
theorem test_decode_unlock : decode (0xC2530004#32) = .ok (.unlock 18 19) := rfl
theorem test_decode_bclr : decode (0xC014B005#32) = .ok (.bclr 20 22) := rfl
theorem test_decode_zero : decode 0x00000000#32 = .error .illegalOpcode := rfl
theorem test_decode_ones : decode 0xFFFFFFFF#32 = .error .illegalOpcode := rfl
/-- eret with a bit that must be zero. -/
theorem test_decode_field : (decode 0x88004001#32).isOk = false := rfl
/-- The table's numbering is that of the word. -/
theorem test_decode_table : decodeTableWord 32 0x052A5800 = some (.add 9 10 11) := rfl

/-! ### Ill-formed terms are refused, one for each check. -/

theorem test_wf_ald : (Instr.ald 1 2 .rel .pkg false).wellFormed = false := rfl
theorem test_wf_ast : (Instr.ast 1 2 .acq .pkg false).wellFormed = false := rfl
theorem test_wf_fence : (Instr.fence .pkg .rlx).wellFormed = false := rfl
theorem test_wf_gred_int : (Instr.gred 1 2 .add .rtz).wellFormed = false := rfl
theorem test_wf_gred_float : (Instr.gred 1 2 .faddD .rsr).wellFormed = false := rfl
theorem test_wf_mts : (Instr.mts .mode 1).wellFormed = false := rfl
theorem test_wf_vmv_vector : (Instr.vmv 1 2 (.vec 3)).wellFormed = false := rfl
theorem test_wf_vmv_scalar : (Instr.vmv 1 2 (.scal 3)).wellFormed = false := rfl
theorem test_wf_vclip : (Instr.vclip 1 2 (.vec 3)).wellFormed = false := rfl
theorem test_wf_vfadd : (Instr.vfadd 1 2 (.imm 3)).wellFormed = false := rfl
theorem test_wf_vfcmp : (Instr.vfcmpeq 1 2 (.imm 3)).wellFormed = false := rfl
theorem test_wf_vloop_p0 : (Instr.vloop 0 1 1).wellFormed = false := rfl
theorem test_wf_vloop_off : (Instr.vloop 1 1 0).wellFormed = false := rfl
theorem test_wf_slide : (Instr.vslideup 1 2 (.vec 3)).wellFormed = false := rfl
theorem test_wf_bcast : (Instr.vbcast 1 2 (.vec 3)).wellFormed = false := rfl
theorem test_wf_vinsr : (Instr.vinsr 1 3).wellFormed = false := rfl
theorem test_wf_rkdef : (Instr.rkdef 1 2 3).wellFormed = false := rfl
theorem test_wf_pstat : (Instr.pstat 3 2).wellFormed = false := rfl
theorem test_wf_bput : (Instr.bput 0 2 3).wellFormed = false := rfl
theorem test_wf_vput : (Instr.vput 3 2 3).wellFormed = false := rfl
theorem test_wf_mmo_st : (Instr.mmoSt 1 2 3 4 false false).wellFormed = false := rfl

/-! ### Worked values of the spec. -/

/-- CRC-32C of the nine bytes "123456789" (22:R376). -/
theorem test_crc : crc32c [0x31#8, 0x32#8, 0x33#8, 0x34#8, 0x35#8, 0x36#8, 0x37#8, 0x38#8, 0x39#8] = 0xE3069283#32 := by
  decide +kernel


/-! ### A word of every instruction, its fields laid as the encoding tables give them (02:R34 to R39), by opcode. -/

theorem test_words_01 : ∀ p ∈ ([(0x064CB000#32, .add 18 12 22), (0x064CB001#32, .sub 18 12 22), (0x064CB002#32, .addw 18 12 22),
    (0x064CB003#32, .subw 18 12 22), (0x064CB004#32, .and_ 18 12 22), (0x064CB005#32, .or_ 18 12 22),
    (0x064CB006#32, .xor_ 18 12 22), (0x064CB007#32, .andn 18 12 22), (0x064CB008#32, .orn 18 12 22),
    (0x064CB009#32, .sll 18 12 22), (0x064CB00A#32, .srl 18 12 22), (0x064CB00B#32, .sra 18 12 22),
    (0x064CB00C#32, .rol 18 12 22), (0x064CB00D#32, .ror 18 12 22), (0x064CB00E#32, .slt 18 12 22),
    (0x064CB00F#32, .sltu 18 12 22), (0x064CB010#32, .min_ 18 12 22), (0x064CB011#32, .max_ 18 12 22),
    (0x064CB012#32, .minu 18 12 22), (0x064CB013#32, .maxu 18 12 22), (0x064C0020#32, .clz 18 12),
    (0x064C0021#32, .ctz 18 12), (0x064C0022#32, .popc 18 12), (0x064C0023#32, .sextB 18 12)] : List (IWord × Instr)), decode p.1 = .ok p.2 := by
  simp only [List.forall_mem_cons, List.not_mem_nil, false_imp_iff, implies_true, and_true]
  and_intros <;> rfl

theorem test_words_01a : ∀ p ∈ ([(0x064C0024#32, .sextH 18 12), (0x064C0025#32, .sextW 18 12), (0x064C0026#32, .zextB 18 12),
    (0x064C0027#32, .zextH 18 12), (0x064C0028#32, .zextW 18 12)] : List (IWord × Instr)), decode p.1 = .ok p.2 := by
  simp only [List.forall_mem_cons, List.not_mem_nil, false_imp_iff, implies_true, and_true]
  and_intros <;> rfl

theorem test_words_02 : decode 0x0A4C8003#32 = .ok (.addi 18 12 32771) := rfl

theorem test_words_03 : decode 0x0E4C8003#32 = .ok (.andi 18 12 32771) := rfl

theorem test_words_04 : decode 0x124C8003#32 = .ok (.ori 18 12 32771) := rfl

theorem test_words_05 : decode 0x164C8003#32 = .ok (.xori 18 12 32771) := rfl

theorem test_words_06 : decode 0x1A4C8003#32 = .ok (.slti 18 12 32771) := rfl

theorem test_words_07 : decode 0x1E4C8003#32 = .ok (.sltiu 18 12 32771) := rfl

theorem test_words_08 : ∀ p ∈ ([(0x224C0025#32, .slli 18 12 37), (0x224C1025#32, .srli 18 12 37), (0x224C2025#32, .srai 18 12 37),
    (0x224C3025#32, .rori 18 12 37)] : List (IWord × Instr)), decode p.1 = .ok p.2 := by
  simp only [List.forall_mem_cons, List.not_mem_nil, false_imp_iff, implies_true, and_true]
  and_intros <;> rfl

theorem test_words_09 : decode 0x265F0005#32 = .ok (.ldhi 18 2031621) := rfl

theorem test_words_0a : decode 0x2A5F0005#32 = .ok (.pcrel 18 2031621) := rfl

theorem test_words_0b : ∀ p ∈ ([(0x2E4CB000#32, .mul 18 12 22), (0x2E4CB001#32, .mulh 18 12 22), (0x2E4CB002#32, .mulhu 18 12 22),
    (0x2E4CB003#32, .mulhsu 18 12 22), (0x2E4CB004#32, .mulw 18 12 22), (0x2E4CB008#32, .div 18 12 22),
    (0x2E4CB009#32, .divu 18 12 22), (0x2E4CB00A#32, .rem 18 12 22), (0x2E4CB00B#32, .remu 18 12 22)] : List (IWord × Instr)), decode p.1 = .ok p.2 := by
  simp only [List.forall_mem_cons, List.not_mem_nil, false_imp_iff, implies_true, and_true]
  and_intros <;> rfl

theorem test_words_0c : ∀ p ∈ ([(0x324CB6C0#32, .fadd .fp64 18 12 22 .rup), (0x324CB101#32, .fsub .bf16 18 12 22 .rna), (0x324CB342#32, .fmul .fp16 18 12 22 .rsr),
    (0x324CB403#32, .fdiv .fp32 18 12 22 .rne), (0x324C0644#32, .fsqrt .fp64 18 12 .rtz), (0x324CB085#32, .fma .bf16 18 12 22 .rdn),
    (0x324CB206#32, .fmin .fp16 18 12 22), (0x324CB407#32, .fmax .fp32 18 12 22), (0x324CB608#32, .feq .fp64 18 12 22),
    (0x324CB009#32, .flt .bf16 18 12 22), (0x324CB20A#32, .fle .fp16 18 12 22), (0x324C040B#32, .fclass .fp32 18 12),
    (0x324C1ECC#32, .fcvtIf .fp64 18 12 .u32 .rup), (0x324C010D#32, .fcvtFi .bf16 18 12 .i64 .rna), (0x324C134E#32, .fcvtFf .fp16 18 12 .fp32 .rsr)] : List (IWord × Instr)), decode p.1 = .ok p.2 := by
  simp only [List.forall_mem_cons, List.not_mem_nil, false_imp_iff, implies_true, and_true]
  and_intros <;> rfl

theorem test_words_0d : decode 0x364C8003#32 = .ok (.ldb 18 12 32771) := rfl

theorem test_words_0e : decode 0x3A4C8003#32 = .ok (.ldh 18 12 32771) := rfl

theorem test_words_0f : decode 0x3E4C8003#32 = .ok (.ldw 18 12 32771) := rfl

theorem test_words_10 : decode 0x424C8003#32 = .ok (.ldd 18 12 32771) := rfl

theorem test_words_11 : decode 0x464C8003#32 = .ok (.ldbu 18 12 32771) := rfl

theorem test_words_12 : decode 0x4A4C8003#32 = .ok (.ldhu 18 12 32771) := rfl

theorem test_words_13 : decode 0x4E4C8003#32 = .ok (.ldwu 18 12 32771) := rfl

theorem test_words_14 : decode 0x532C8003#32 = .ok (.stb 25 12 32771) := rfl

theorem test_words_15 : decode 0x572C8003#32 = .ok (.sth 25 12 32771) := rfl

theorem test_words_16 : decode 0x5B2C8003#32 = .ok (.stw 25 12 32771) := rfl

theorem test_words_17 : decode 0x5F2C8003#32 = .ok (.std 25 12 32771) := rfl

theorem test_words_18 : decode 0x632C8003#32 = .ok (.beq 25 12 32771) := rfl

theorem test_words_19 : decode 0x672C8003#32 = .ok (.bne 25 12 32771) := rfl

theorem test_words_1a : decode 0x6B2C8003#32 = .ok (.blt 25 12 32771) := rfl

theorem test_words_1b : decode 0x6F2C8003#32 = .ok (.bge 25 12 32771) := rfl

theorem test_words_1c : decode 0x732C8003#32 = .ok (.bltu 25 12 32771) := rfl

theorem test_words_1d : decode 0x772C8003#32 = .ok (.bgeu 25 12 32771) := rfl

theorem test_words_1e : decode 0x7A5F0005#32 = .ok (.jal 18 2031621) := rfl

theorem test_words_1f : decode 0x7E4C8003#32 = .ok (.jalr 18 12 32771) := rfl

theorem test_words_20 : ∀ p ∈ ([(0x824C02A0#32, .ald 18 12 .acq .gang true), (0x800CB501#32, .ast 12 22 .rel .pkg false), (0x824CB7A2#32, .amoadd 18 12 22 .ar .sys true),
    (0x824CB003#32, .amoswap 18 12 22 .rlx .core false), (0x824CB2A4#32, .amoand 18 12 22 .acq .gang true), (0x824CB505#32, .amoor 18 12 22 .rel .pkg false),
    (0x824CB7A6#32, .amoxor 18 12 22 .ar .sys true), (0x824CB007#32, .amomin 18 12 22 .rlx .core false), (0x824CB2A8#32, .amomax 18 12 22 .acq .gang true),
    (0x824CB509#32, .amominu 18 12 22 .rel .pkg false), (0x824CB7AA#32, .amomaxu 18 12 22 .ar .sys true), (0x824CB00B#32, .cas 18 12 22 .rlx .core false)] : List (IWord × Instr)), decode p.1 = .ok p.2 := by
  simp only [List.forall_mem_cons, List.not_mem_nil, false_imp_iff, implies_true, and_true]
  and_intros <;> rfl

theorem test_words_21 : ∀ p ∈ ([(0x84000007#32, .fence .gang .ar), (0x84000100#32, .gbar), (0x864C0203#32, .gred 18 12 .xor .rne)] : List (IWord × Instr)), decode p.1 = .ok p.2 := by
  simp only [List.forall_mem_cons, List.not_mem_nil, false_imp_iff, implies_true, and_true]
  and_intros <;> rfl

theorem test_words_22 : ∀ p ∈ ([(0x8A400307#32, .mfs 18 .savepc), (0x880C1208#32, .mts .waymode 12), (0x880C1100#32, .mtsMode 12),
    (0x880C1101#32, .mtsVl 12), (0x880C1102#32, .mtsVstart 12), (0x880C1120#32, .mtsFcr 12),
    (0x880C1200#32, .mtsLtime 12), (0x880C1207#32, .mtsBenchchk 12), (0x880C1402#32, .mtsChkctl 12),
    (0x88002ABC#32, .svc 2748), (0x88003ABC#32, .brk 2748), (0x88004000#32, .eret),
    (0x880C5000#32, .idle 12), (0x88006000#32, .ifence), (0x8A4C7000#32, .tlbiVa 18 12 false),
    (0x8A407005#32, .tlbiCtx 18 true), (0x88007002#32, .tlbiAll false)] : List (IWord × Instr)), decode p.1 = .ok p.2 := by
  simp only [List.forall_mem_cons, List.not_mem_nil, false_imp_iff, implies_true, and_true]
  and_intros <;> rfl

theorem test_words_23 : ∀ p ∈ ([(0x8C000000#32, .tend), (0x8E4C0001#32, .spawn 18 12), (0x8E4C0002#32, .qput 18 12),
    (0x8E4C0003#32, .join 18 12)] : List (IWord × Instr)), decode p.1 = .ok p.2 := by
  simp only [List.forall_mem_cons, List.not_mem_nil, false_imp_iff, implies_true, and_true]
  and_intros <;> rfl

theorem test_words_24 : decode 0x9012345F#32 = .ok (.gmode 1193055) := rfl

theorem test_words_25 : ∀ p ∈ ([(0x964C0000#32, .vsetl 18 12), (0x964C0010#32, .wconvArray 18 12), (0x964C0011#32, .wconvBench 18 12),
    (0x964C0012#32, .wrel 18 12)] : List (IWord × Instr)), decode p.1 = .ok p.2 := by
  simp only [List.forall_mem_cons, List.not_mem_nil, false_imp_iff, implies_true, and_true]
  and_intros <;> rfl

theorem test_words_26 : ∀ p ∈ ([(0x9A9B0000#32, .vadd 10 6 (.vec 12)), (0x9A982A81#32, .vsub 10 6 (.scal 21)), (0x9A982B02#32, .vrsub 10 6 (.imm 21)),
    (0x9A9B0003#32, .vmul 10 6 (.vec 12)), (0x9A982A84#32, .vmulh 10 6 (.scal 21)), (0x9A982B05#32, .vmacc 10 6 (.imm 21)),
    (0x9A9B0006#32, .vnmsac 10 6 (.vec 12)), (0x9A982A87#32, .vdiv 10 6 (.scal 21)), (0x9A982B08#32, .vdivu 10 6 (.imm 21)),
    (0x9A9B0009#32, .vrem 10 6 (.vec 12)), (0x9A982A8A#32, .vmin 10 6 (.scal 21)), (0x9A982B0B#32, .vmax 10 6 (.imm 21)),
    (0x9A9B000C#32, .vminu 10 6 (.vec 12)), (0x9A982A8D#32, .vmaxu 10 6 (.scal 21)), (0x9A982B10#32, .vand 10 6 (.imm 21)),
    (0x9A9B0011#32, .vor 10 6 (.vec 12)), (0x9A982A92#32, .vxor 10 6 (.scal 21)), (0x9A982B13#32, .vandn 10 6 (.imm 21)),
    (0x9A9B0014#32, .vsll 10 6 (.vec 12)), (0x9A982A95#32, .vsrl 10 6 (.scal 21)), (0x9A982B16#32, .vsra 10 6 (.imm 21)),
    (0x9A980018#32, .vabs 10 6), (0x9A982A99#32, .vabsd 10 6 (.scal 21)), (0x9A982B1A#32, .vmerge 10 6 (.imm 21))] : List (IWord × Instr)), decode p.1 = .ok p.2 := by
  simp only [List.forall_mem_cons, List.not_mem_nil, false_imp_iff, implies_true, and_true]
  and_intros <;> rfl

theorem test_words_26a : ∀ p ∈ ([(0x9A98001B#32, .vmv 10 6 (.vec 0)), (0x9A80001C#32, .vid 10), (0x9A982A9D#32, .vclip 10 6 (.scal 21))] : List (IWord × Instr)), decode p.1 = .ok p.2 := by
  simp only [List.forall_mem_cons, List.not_mem_nil, false_imp_iff, implies_true, and_true]
  and_intros <;> rfl

theorem test_words_27 : ∀ p ∈ ([(0x9E982A80#32, .vfadd 10 6 (.scal 21)), (0x9E9B0001#32, .vfsub 10 6 (.vec 12)), (0x9E982A82#32, .vfmul 10 6 (.scal 21)),
    (0x9E9B0003#32, .vfma 10 6 (.vec 12)), (0x9E982A84#32, .vfnma 10 6 (.scal 21)), (0x9E9B0005#32, .vfdiv 10 6 (.vec 12)),
    (0x9E980006#32, .vfsqrt 10 6), (0x9E9B0007#32, .vfmin 10 6 (.vec 12)), (0x9E982A88#32, .vfmax 10 6 (.scal 21)),
    (0x9E9B0009#32, .vfsgn 10 6 12), (0x9E9B0209#32, .vfsgnN 10 6 12), (0x9E9B0409#32, .vfsgnX 10 6 12),
    (0x9E980010#32, .vfexp2 10 6), (0x9E980011#32, .vflog2 10 6), (0x9E980012#32, .vfrecip 10 6),
    (0x9E980013#32, .vfrsqrt 10 6)] : List (IWord × Instr)), decode p.1 = .ok p.2 := by
  simp only [List.forall_mem_cons, List.not_mem_nil, false_imp_iff, implies_true, and_true]
  and_intros <;> rfl

theorem test_words_28 : decode 0xA2981200#32 = .ok (.vcvt 10 6 .e5m2) := rfl

theorem test_words_29 : ∀ p ∈ ([(0xA66C1580#32, .vcmpeq 19 6 (.imm 21)), (0xA66D8001#32, .vcmpne 19 6 (.vec 12)), (0xA66C1542#32, .vcmplt 19 6 (.scal 21)),
    (0xA66C1583#32, .vcmple 19 6 (.imm 21)), (0xA66D8004#32, .vcmpltu 19 6 (.vec 12)), (0xA66C1545#32, .vcmpleu 19 6 (.scal 21)),
    (0xA66D8008#32, .vfcmpeq 19 6 (.vec 12)), (0xA66C1549#32, .vfcmplt 19 6 (.scal 21)), (0xA66D800A#32, .vfcmple 19 6 (.vec 12)),
    (0xA66C154B#32, .vfcmpun 19 6 (.scal 21))] : List (IWord × Instr)), decode p.1 = .ok p.2 := by
  simp only [List.forall_mem_cons, List.not_mem_nil, false_imp_iff, implies_true, and_true]
  and_intros <;> rfl

theorem test_words_2a : ∀ p ∈ ([(0xAA4C1600#32, .pand 18 12 22), (0xAA4C1601#32, .por 18 12 22), (0xAA4C1602#32, .pxor 18 12 22),
    (0xAA4C1603#32, .pandn 18 12 22), (0xAA4C0004#32, .pmov 18 12), (0xAA4C1605#32, .psbf 18 12 22),
    (0xAA4C1606#32, .psif 18 12 22), (0xAA4C1607#32, .pfirst 18 12 22), (0xAA4C0008#32, .pcount 18 12),
    (0xAA4C0009#32, .pset 18 12), (0xAA4D550A#32, .vloop 18 6 341)] : List (IWord × Instr)), decode p.1 = .ok p.2 := by
  simp only [List.forall_mem_cons, List.not_mem_nil, false_imp_iff, implies_true, and_true]
  and_intros <;> rfl

theorem test_words_2b : ∀ p ∈ ([(0xAC182A80#32, .vredsum 21 6), (0xAC182A81#32, .vredosum 21 6), (0xAC182A82#32, .vredmin 21 6),
    (0xAC182A83#32, .vredmax 21 6), (0xAC182A84#32, .vredbitAnd 21 6), (0xAC182A85#32, .vredbitOr 21 6),
    (0xAC182A86#32, .vredbitXor 21 6), (0xAE980008#32, .vscan 10 6), (0xAE982B10#32, .vslideup 10 6 (.imm 21)),
    (0xAE982A91#32, .vslidedn 10 6 (.scal 21)), (0xAE982A92#32, .vslide1up 10 6 21), (0xAE982A93#32, .vslide1dn 10 6 21),
    (0xAE9B0014#32, .vpick 10 6 12), (0xAE982A95#32, .vsqueeze 10 6 21), (0xAE982B16#32, .vbcast 10 6 (.imm 21)),
    (0xAC182A98#32, .vextr 21 6), (0xAE802899#32, .vinsr 10 20)] : List (IWord × Instr)), decode p.1 = .ok p.2 := by
  simp only [List.forall_mem_cons, List.not_mem_nil, false_imp_iff, implies_true, and_true]
  and_intros <;> rfl

theorem test_words_2c : ∀ p ∈ ([(0xB00C0380#32, .vld 7 12), (0xB00CB381#32, .vlds 7 12 22), (0xB00C6382#32, .vldx 7 12 12),
    (0xB24C0383#32, .vldff 18 7 12), (0xB00C0388#32, .vst 7 12), (0xB00CB389#32, .vsts 7 12 22),
    (0xB00C638A#32, .vstx 7 12 12)] : List (IWord × Instr)), decode p.1 = .ok p.2 := by
  simp only [List.forall_mem_cons, List.not_mem_nil, false_imp_iff, implies_true, and_true]
  and_intros <;> rfl

theorem test_words_2d : ∀ p ∈ ([(0xB64CB000#32, .pcopy 18 12 22), (0xB64CB381#32, .pcopyX 18 12 22 7), (0xB40CB008#32, .ownE 12 22),
    (0xB64CB009#32, .ownH 18 12 22), (0xB40CB010#32, .tbi 12 22), (0xB40C0011#32, .tbarr 12),
    (0xB64CB012#32, .tbwait 18 12 22), (0xB64C0013#32, .tbtest 18 12), (0xB64CB018#32, .rkdef 18 12 22),
    (0xB64CB019#32, .prsv 18 12 22), (0xB64C001A#32, .prel 18 12), (0xB64C001B#32, .pstat 18 12),
    (0xB64CB020#32, .bput 18 12 22), (0xB64CB021#32, .bputF 18 12 22), (0xB640B3A2#32, .vput 18 7 22),
    (0xB640B3A3#32, .vputF 18 7 22), (0xB64CB028#32, .rrot 18 12 22)] : List (IWord × Instr)), decode p.1 = .ok p.2 := by
  simp only [List.forall_mem_cons, List.not_mem_nil, false_imp_iff, implies_true, and_true]
  and_intros <;> rfl

theorem test_words_2e : ∀ p ∈ ([(0xB80C0000#32, .fcfg 12), (0xB8000001#32, .fzero), (0xB8000011#32, .fzeroC),
    (0xB8066012#32, .mmo 6 12 true), (0xB8066483#32, .mmoSp 6 12 9 false), (0xB94CB4B4#32, .mmoSt 10 12 22 9 true true),
    (0xB8000005#32, .frc), (0xB9440006#32, .fdrain 10 4), (0xB9400026#32, .fdrainNcs 10),
    (0xB9440016#32, .fdrainZ 10 4), (0xB9400036#32, .fdrainZNcs 10), (0xB8060007#32, .frowadd 6),
    (0xB8060017#32, .frowaddC 6), (0xB80C0008#32, .fsave 12), (0xB80C0009#32, .fload 12)] : List (IWord × Instr)), decode p.1 = .ok p.2 := by
  simp only [List.forall_mem_cons, List.not_mem_nil, false_imp_iff, implies_true, and_true]
  and_intros <;> rfl

theorem test_words_2f : ∀ p ∈ ([(0xBE400000#32, .hopen 18), (0xBE4C0001#32, .henter 18 12), (0xBE400002#32, .hleave 18),
    (0xBE4C0003#32, .hresConfirm 18 12), (0xBE4C0004#32, .hresRefute 18 12), (0xBE4C0005#32, .hstat 18 12)] : List (IWord × Instr)), decode p.1 = .ok p.2 := by
  simp only [List.forall_mem_cons, List.not_mem_nil, false_imp_iff, implies_true, and_true]
  and_intros <;> rfl

theorem test_words_30 : ∀ p ∈ ([(0xC00C0000#32, .cflush 12), (0xC00C0001#32, .cclean 12), (0xC00C0002#32, .cinv 12),
    (0xC24C0003#32, .lock 18 12), (0xC24C0004#32, .unlock 18 12), (0xC00CB005#32, .bclr 12 22)] : List (IWord × Instr)), decode p.1 = .ok p.2 := by
  simp only [List.forall_mem_cons, List.not_mem_nil, false_imp_iff, implies_true, and_true]
  and_intros <;> rfl

theorem test_words_3e : decode 0xF8012345#32 = .ok (.hint 74565) := rfl
/-! ### Witnesses: scalar instructions and memory. -/

/-- jalr to an address within and beyond 48 bits. -/
theorem witness_jalr_in : let s := args m0 0xFFFFFFFFFFFB#64 0 0; uv (s.g 1#5 + (4#16).signExtend 64) < 2 ^ 48 := by decide +kernel
theorem witness_jalr_beyond : let s := args m0 0xFFFFFFFFFFFC#64 0 0;
    2 ^ 48 ≤ uv (s.g 1#5 + (4#16).signExtend 64) ∧ s.hart.th = false ∧ s.hart.trapvec ≠ 0#48 := by decide +kernel

/-- A finite pattern of a format: the largest of e4m3. -/
theorem witness_finite : 0x7E < 2 ^ Fmt.e4m3.width ∧ Fmt.e4m3.decode 0x7E = .fin false 14 5 := by decide +kernel

/-- The hart may access the last word of way 2. -/
theorem access_m0 (n : Nat) (h : n = 1 ∨ n = 2 ∨ n = 4 ∨ n = 8) :
    BenchAccess m0 (bench2 + 0xFFFF8#64) 0x1FFFF8 n := by
  rcases h with rfl | rfl | rfl | rfl <;>
    exact ⟨by decide +kernel, by decide +kernel, by decide +kernel, by decide +kernel, by decide +kernel⟩

theorem clean_m0 (n : Nat) (h : n = 1 ∨ n = 2 ∨ n = 4 ∨ n = 8) : CleanBench m0 0x1FFFF8 n := by
  rcases h with rfl | rfl | rfl | rfl <;> exact ⟨by decide +kernel, by decide +kernel, by decide +kernel⟩

/-- No store is queued or checked. -/
theorem no_stores (s : State) (t : Target) (n : Nat) (h : s.core.storeQ = []) (c : s.core.checkedStores = []) : NoStoreOver s t n := by
  refine ⟨?_, ?_⟩ <;> simp [h, c]
/-- Loads of every size from bench. -/
theorem witness_bench_load (n : Nat) (h : n = 1 ∨ n = 2 ∨ n = 4 ∨ n = 8) : BenchLoad m0 (bench2 + 0xFFFF8#64) 0x1FFFF8 n :=
  ⟨access_m0 n h, ⟨by decide +kernel, no_stores _ _ _ rfl rfl⟩, clean_m0 n h⟩

/-- A load from the dirty line that the core holds. -/
theorem witness_load_line : let s := args m2 0x10000#64 0 0
    s.memBusy = false ∧ s.locate (s.g 1#5 + (0#16).signExtend 64) 8 .read = .ok (.mem 0x10000 .wb false) s ∧ NoStoreOver s (.mem 0x10000 .wb false) 8 ∧
    s.hart.racechk = false ∧ s.hart.maint = false ∧ s.inHostBias 0x10000 = false ∧
    s.core.findLine (0x10000 / 64) s.hart.hyp = some dirty0 ∧ (dirty0.st ≠ .v ∨ serLe s.hart.ltime dirty0.rts = true) ∧
    dirty0.poison = 0#8 ∧ natSetHas s.core.softLine (0x10000 / 8) = false ∧
    (∀ v ∈ s.pkg.versions, v.line = 0x10000 / 64 → v.id = s.hart.hyp → ∀ w, v.place ≠ .way w) :=
  ⟨rfl, rfl, no_stores _ _ _ rfl rfl, rfl, rfl, rfl, rfl, .inl (by decide +kernel), rfl, rfl, fun _ hv => nomatch hv⟩

/-- Stores and ast of every size. -/
theorem witness_bench_store (n : Nat) (h : n = 1 ∨ n = 2 ∨ n = 4 ∨ n = 8) : BenchStore m0 (bench2 + 0xFFFF8#64) 0x1FFFF8 n :=
  ⟨access_m0 n h, by decide +kernel, by decide +kernel, by decide +kernel, rfl⟩

/-- A queued store to bench, and one to the owned line. -/
def qBench : QStore := benchStoreOf m0 0x1FFFF8 8 0x55#64 none
def qLine : QStore := { target := .mem 0x1003F .wb false, size := 1, value := 7, hyp := 0, atomic := none, pc := 0 }

theorem witness_store_departs : let s := m0.mapCore (fun c => { c with storeQ := [qBench] })
    s.core.storeQ = [qBench] ∧ qBench.target = .bench 0x1FFFF8 ∧ qBench.size = 8 ∧ 0x1FFFF8 % 8 = 0 ∧ qBench.hyp = 0#12 ∧
    qBench.atomic = none ∧ s.core.storePending = false ∧ NoSuperstep s ∧ BenchWf s ∧ NoInjection s :=
  ⟨rfl, rfl, rfl, rfl, rfl, rfl, rfl, ⟨rfl, rfl⟩, ⟨rfl, rfl⟩, rfl⟩

theorem witness_store_enters_line : let s := m2.mapCore (fun c => { c with storeQ := [qLine] })
    s.core.storeQ = [qLine] ∧ qLine.target = .mem 0x1003F .wb false ∧ qLine.size = 1 ∧ qLine.hyp = 0#12 ∧ qLine.atomic = none ∧
    s.hart.maint = false ∧ s.inHostBias 0x1003F = false ∧ s.core.owned (0x1003F / 64) = some dirty0 ∧
    s.core.storePending = false ∧ NoInjection s :=
  ⟨rfl, rfl, rfl, rfl, rfl, rfl, rfl, rfl, rfl, rfl⟩

/-- Atomics of both sizes on bench, and one at its home. -/
theorem witness_bench_amo (w4 : Bool) : BenchAmo (args m0 (bench2 + 0xFFFF8#64) 0 0) ((args m0 (bench2 + 0xFFFF8#64) 0 0).g 1#5)
    0x1FFFF8 (if w4 then 4 else 8) := by
  cases w4 <;> exact ⟨⟨⟨by decide +kernel, by decide +kernel, by decide +kernel, by decide +kernel, by decide +kernel⟩,
    ⟨by decide +kernel, no_stores _ _ _ rfl rfl⟩, ⟨by decide +kernel, by decide +kernel, by decide +kernel⟩⟩,
    by decide +kernel, ⟨rfl, rfl⟩, by decide +kernel, by decide +kernel, ⟨by decide +kernel, by decide +kernel⟩, rfl⟩

theorem witness_home_amo : let s := args m1 0x10FFC#64 0 0
    s.memBusy = false ∧ s.locate (s.g 1#5) 4 .atomic = .ok (.mem 0x10FFC .wb false) s ∧ s.quiet = true ∧
    NoStoreOver s (.mem 0x10FFC .wb false) 4 ∧ s.pkg.peerWritesOut = false ∧ s.hart.hyp = 0#12 ∧ s.hart.maint = false ∧ 0x10FFC % 4 = 0 ∧
    s.pkg.atAdapter (0x10FFC / 64) = false ∧ (s.pkg.home (0x10FFC / 64)).owner = none ∧ Unspoilt s (0x10FFC / 64) ∧
    RoomInSlice s (0x10FFC / 64) ∧ s.pkg.linePoison (0x10FFC / 64) = 0#8 ∧ s.MemWf :=
  ⟨rfl, rfl, rfl, no_stores _ _ _ rfl rfl, by decide +kernel, rfl, rfl, by decide +kernel, by decide +kernel, by decide +kernel,
    ⟨(fun _ h => nomatch h), (fun _ h => nomatch h), rfl⟩, by unfold RoomInSlice; decide +kernel, by decide +kernel, rfl⟩

theorem witness_fence : m0.quiet = true ∧ m0.pkg.peerWritesOut = false := ⟨rfl, by decide +kernel⟩

/-- The four address checks at their limits: beyond 48 bits, misaligned, outside the BENCH ways, in an ENGINE granule. -/
theorem witness_address_checks :
    2 ^ 48 ≤ uv 0x1000000000000#64 ∧ (uv 0xFFFFFFFFFFFF#64 < 2 ^ 48 ∧ uv 0xFFFFFFFFFFFF#64 % 8 ≠ 0) ∧
    (uv (bench2 - 8#64) = 0xFF00_0000_0000 + 0xFFFF8 ∧ m0.core.benchIn m0.hart.ctxid 0xFFFF8 8 = false) ∧
    (let s := m0.mapCore (fun c => { c with benchEngine := [(0x1FF, true)] })
     uv (bench2 + 0xFFFF8#64) = 0xFF00_0000_0000 + 0x1FFFF8 ∧ s.core.benchIn s.hart.ctxid 0x1FFFF8 8 = true ∧
      s.core.engineOwned (0x1FFFF8 / 4096) = true) := by decide +kernel

/-- An invalid bench word under each ACT. -/
def invalid0 (act : BitVec 2) : State :=
  (m0.mapCore (fun c => { c with benchInvalid := [(0x1FFFF8 / 8, true)] })).mapHart (fun h => { h with act := act })

theorem witness_invalid (act : BitVec 2) : BenchAccess (invalid0 act) (bench2 + 0xFFFF8#64) 0x1FFFF8 8 ∧
    NoWait (invalid0 act) (.bench 0x1FFFF8) 8 ∧ natSetHas (invalid0 act).core.benchInvalid (0x1FFFF8 / 8) = true ∧
    (invalid0 act).core.benchPoisoned 0x1FFFF8 8 = false ∧ natSetHas (invalid0 act).core.softBench (0x1FFFF8 / 8) = false ∧
    (invalid0 act).hart.act = act ∧ (invalid0 act).hart.wcount.toNat + 1 < 2 ^ 32 :=
  ⟨⟨by decide +kernel, by decide +kernel, by decide +kernel, rfl, rfl⟩, ⟨rfl, no_stores _ _ _ rfl rfl⟩, rfl, rfl, rfl, rfl,
    by change (0#32).toNat + 1 < 2 ^ 32; decide +kernel⟩

/-! ### Witnesses: system instructions. -/

theorem witness_mfs : m0.core.units = [] ∧ m0.hart.sys = false := ⟨rfl, rfl⟩
theorem witness_fcr : (0x2FFFF#64).extractLsb' 16 2 ≠ 3#2 ∧ (0x30000#64).extractLsb' 16 2 = 3#2 := by decide +kernel
theorem witness_benchchk : (2#64).extractLsb' 0 2 ≠ 3#2 ∧ (3#64).extractLsb' 0 2 = 3#2 := by decide +kernel
/-- CHKCTL is written with SYS and MAINT, ignored without. -/
def sysMaint : State := m0.mapHart (fun h => { h with sys := true, maint := true })
theorem witness_chkctl : (sysMaint.hart.sys = true ∧ sysMaint.hart.maint = true ∧ ((0x51#64).extractLsb' 4 4).toNat < 6) ∧
    ¬(m0.hart.sys = true ∧ m0.hart.maint = true) := by decide +kernel
/-- MODE words at the limits: RM 5 and 6, scale register 14 and 15 with block scales. -/
theorem witness_gmode :
    (((0x0E4A00#21).extractLsb' 9 3).toNat < 6 ∧ ((0x0E4A00#21).extractLsb' 14 2 = 0#2 ∨ (0x0E4A00#21).extractLsb' 16 4 ≠ 15#4)) ∧
    ¬((0x000C00#21).extractLsb' 9 3).toNat < 6 ∧
    ¬((0x0F4000#21).extractLsb' 14 2 = 0#2 ∨ (0x0F4000#21).extractLsb' 16 4 ≠ 15#4) := by decide +kernel
theorem witness_handler : HandlerReady m0 ∧ m0.hart.brkArmed = false := ⟨⟨rfl, by decide +kernel⟩, rfl⟩
theorem witness_brk_armed : (m0.mapHart (fun h => { h with brkArmed := true })).hart.brkArmed = true := rfl
/-- A trap in the handler is fatal. -/
theorem witness_fatal : let s := m0.mapHart (fun h => { h with th := true })
    ¬HandlerReady s ∧ s.hart.snap = false ∧ s.core.storeQ = [] ∧ s.core.checkedStores = [] ∧ s.core.peel = [] :=
  ⟨fun h => Bool.noConfusion h.th, rfl, rfl, rfl, rfl⟩
/-- idle needs the access of a 1-byte load; ifence and tlbi the hart's writes performed. -/
theorem witness_idle : (BenchAccess m0 (bench2 + 0xFFFF8#64) 0x1FFFF8 1 ∧ CleanBench m0 0x1FFFF8 1) ∧
    BenchAccess (invalid0 2#2) (bench2 + 0xFFFF8#64) 0x1FFFF8 1 ∧ (invalid0 2#2).hart.act = 2#2 ∧
    natSetHas (invalid0 2#2).core.benchInvalid (0x1FFFF8 / 8) = true :=
  ⟨⟨access_m0 1 (.inl rfl), clean_m0 1 (.inl rfl)⟩,
    ⟨by decide +kernel, by decide +kernel, by decide +kernel, rfl, rfl⟩, rfl, rfl⟩
theorem witness_tlbi : m0.hart.sys = false ∧ sysMaint.hart.sys = true ∧ sysMaint.quiet = true :=
  ⟨rfl, rfl, rfl⟩

/-! ### Witnesses: issue of array, rod-tree, vector memory and frame instructions. -/

/-- m0 with a MODE. -/
def inMode (m : BitVec 21) : State := m0.mapHart (fun h => { h with mode := m })
/-- MODE words: ET i8, i64, fp32, bf16, e2m1; i8 and bf16 with WD. -/
def mI8 : BitVec 21 := 0#21
def mI64 : BitVec 21 := 0xC0#21
def mFp32 : BitVec 21 := 0x1A0#21
def mBf16 : BitVec 21 := 0x160#21
def mE2m1 : BitVec 21 := 0x140#21
def mWide : BitVec 21 := 0x2000#21
/-- An entry of instruction i with all of m0's state. -/
def entry (m : BitVec 21) (i : Instr) : UnitOp := (inMode m).sample i 0 0 0 0 0
/-- The machine with that entry as the oldest. -/
def running (m : BitVec 21) (i : Instr) : State := (inMode m).mapCore (fun c => { c with units := [entry m i] })

/-- An instruction issues: the array is ready, no queue holds an entry, no peel operation has a register to read; with four
entries of its unit it waits; without the array it is illegal, and a handler stands ready. -/
theorem witness_issue (m : BitVec 21) (i : Instr) (vd : BitVec 16) :
    (inMode m).arrayReady = true ∧ queued i (inMode m) < 4 ∧ ¬refilled i (inMode m) ∧ (inMode m).peelReads &&& vd = 0#16 ∧ startIndex (inMode m) = 0 ∧
      HandlerReady (inMode m) :=
  ⟨(by decide +kernel : m0.arrayReady = true), by change 0 < 4; omega, (fun ⟨_, h, _⟩ => nomatch h), by change 0#16 &&& vd = 0#16; simp, rfl, ⟨rfl, by change (0x8000#48) ≠ 0#48; decide⟩⟩
theorem witness_issue_full : let s := m0.mapCore (fun c => { c with units := List.replicate 4 (entry mI8 (.vid 0)) })
    4 ≤ queued (.vadd 0 0 (.vec 0)) s ∧ s.arrayReady = true := by decide +kernel
theorem witness_issue_full_frame : let s := m0.mapCore (fun c => { c with units := List.replicate 4 (entry mI8 .fzero) })
    4 ≤ queued .frc s := by decide +kernel
theorem witness_issue_refilled : let s := m0.mapCore (fun c => { c with units := [{ entry mI8 (.vid 0) with restored := true }] })
    refilled (.vadd 0 0 (.vec 0)) s ∧ s.arrayReady = true := ⟨⟨_, List.mem_singleton.mpr rfl, by decide +kernel, rfl⟩, by decide +kernel⟩
theorem witness_issue_illegal : let s := m0.mapCore (fun c => { c with ways := Vector.replicate 8 { mode := .cache, ctx := 0 } })
    s.arrayReady = false ∧ s.hart.th = false ∧ s.hart.trapvec ≠ 0#48 := by decide +kernel

/-- Every list of types has a member and, but for the full list, a type outside; even pairs at width 64. -/
theorem witness_types : et (inMode mI8) = .i8 ∧ .i8 ∈ intTypes ∧ .i8 ∈ narrowInts ∧ et (inMode mI64) = .i64 ∧ .i64 ∈ intTypes ∧
    .i64 ∉ narrowInts ∧ et (inMode mFp32) = .fp32 ∧ .fp32 ∉ intTypes ∧ .fp32 ∈ floats14 ∧ .fp32 ∈ floats13 ∧ .fp32 ∉ floats12 ∧
    et (inMode mBf16) = .bf16 ∧ .bf16 ∈ floats12 ∧ .fp32 ∈ floatsAll ∧ et (inMode mE2m1) = .e2m1 ∧ .e2m1 ∉ floatsAll ∧
    .e2m1 ∈ allTypes := by decide +kernel
theorem witness_even : Even 64 [14#4, 2#4] ∧ ¬Even 64 [15#4] := ⟨fun _ => by decide, fun h => absurd (h rfl) (by simp)⟩
/-- The widening forms: modes with and without WD, with a type that widens and one that does not. -/
theorem witness_wide : modeWd (inMode mI8).hart.mode = false ∧ modeWd (inMode mWide).hart.mode = true ∧
    et (inMode mWide) ∈ narrowInts ∧ (et (inMode mWide)).wide = some .i16 ∧ Apart 4#4 16 [1#4, 2#4] 8 ∧
    (inMode mWide).hart.vl.toNat ≤ vlmaxFor (inMode mWide) 16 ∧
    modeWd (inMode (mWide ||| mI64)).hart.mode = true ∧ et (inMode (mWide ||| mI64)) ∉ narrowInts ∧
    et (inMode (mWide ||| mBf16)) ∈ floats12 ∧ (et (inMode (mWide ||| mBf16))).wide = some .fp32 := by
  refine ⟨by decide +kernel, by decide +kernel, by decide +kernel, by decide +kernel, ?_, by decide +kernel, by decide +kernel,
    by decide +kernel, by decide +kernel, by decide +kernel⟩
  intro k hk r hr; revert k; revert r; decide
theorem witness_vclip : et (inMode mI8) ∈ narrowInts ∧ (inMode mI8).hart.vl.toNat ≤ vlmaxFor (inMode mI8) 16 := by decide +kernel
/-- vcvt into and out of packed e2m1, and between equal widths. -/
theorem witness_vcvt : (let s := inMode mE2m1; 2 * s.hart.vl.toNat ≤ vlmaxFor s 32) ∧
    (let s := inMode mFp32; (s.hart.vl.toNat + 1) / 2 ≤ vlmaxFor s 8) ∧ (let s := inMode mFp32; s.hart.vl.toNat ≤ vlmaxFor s 32) := by
  decide +kernel

/-- A base or stride that is misaligned for the element, and both aligned. -/
theorem witness_vmem : let s := inMode mFp32; let w := (et s).sew
    (uv 0x10001#64 % (w / 8) ≠ 0) ∧ (uv 0x10004#64 % (w / 8) = 0 ∧ uv 0x2#64 % (w / 8) ≠ 0) ∧ uv 0x4#64 % (w / 8) = 0 := by
  decide +kernel

/-- A matrix instruction with 8-bit elements, with block scales at the last admitted depth, and one at a wrong index. -/
theorem witness_matrix : (let s := inMode mI8;
      et s = .i8 ∧ modeSb s.hart.mode = 0#2 ∧ startIndex s % 64 = 0) ∧
    (let s := inMode 0x4100#21;
      et s = .e4m3 ∧ modeSb s.hart.mode ≠ 0#2 ∧ ((s.hart.vl.toNat + 63) / 64 - 1) / 16 + 1 ≤ vlmaxFor s 8 / 64) ∧
    (let s := m0.mapHart (fun h => { h with vstartArm := true, vstartIdx := 63 });
      startIndex s % 64 ≠ 0) := by decide +kernel
theorem witness_mmo_st : let s := inMode mBf16
    uv 0x10000#64 % ((et s).sew / 8) = 0 ∧ uv 0x10001#64 % ((et s).sew / 8) ≠ 0 := by decide +kernel
theorem witness_fdrain : et m0 ∈ [ElemType.i8, .u8, .i16, .i32, .e4m3, .e5m2, .bf16, .fp16, .fp32] ∧ m0.hart.vl.toNat ≤ 4096 := by
  decide +kernel
theorem witness_fsave : uv 0x10040#64 % 64 = 0 ∧ uv 0x10020#64 % 64 ≠ 0 := by decide +kernel

/-! ### Witnesses: slots and events of the units. -/

/-- The lane grant and the rows stand, and the entry is the oldest, with elements that fit. -/
theorem witness_slot (m : BitVec 21) (i : Instr) : LanesWf (running m i) ∧ UnitReady (entry m i) [] (running m i) ∧
    (entry m i).instr = i ∧ (entry m i).vstart < (entry m i).vl ∧ (entry m i).parked = none ∧ (running m i).hart.snap = false :=
  ⟨⟨(by decide +kernel : m0.hart.grantWays.length = m0.hart.lanesW.toNat), (by decide : 0 < (1#4).toNat), rfl, rfl⟩,
    ⟨rfl, rfl, rfl, rfl, rfl, rfl, rfl⟩, rfl, by change 0 < (4#20).toNat; decide, rfl, rfl⟩
theorem witness_fits (m : BitVec 21) (i : Instr) (w : Nat) (h : w = 8 ∨ w = 16 ∨ w = 32 ∨ w = 64) :
    SlotFits (entry m i) w (running m i) ∧ (entry m i).vl ≤ vlmaxFor (running m i) w := by
  have e : (entry m i).vl = 4 := rfl
  have l : (running m i).hart.lanesW = 1#4 := rfl
  have f : (entry m i).vl ≤ vlmaxFor (running m i) w := by
    rcases h with rfl | rfl | rfl | rfl <;> simp [vlmaxFor, e, l]
  exact ⟨⟨by rw [e]; change 0 < 4; omega, f⟩, f⟩
/-- Formats of the entry's type and of its wide type. -/
theorem witness_formats : (modeEt mFp32).fmt = some .fp32 ∧ (modeEt mBf16).fmt = some .bf16 ∧
    ((modeEt (mWide ||| mBf16)).wide.getD .i8).fmt = some .fp32 ∧ modeEt mFp32 ∈ floatsAll := by decide +kernel
theorem witness_slot_types : modeEt mI8 ∈ intTypes ∧ modeEt mI8 ∈ narrowInts ∧
    ((modeEt mFp32 = .fp32 ∨ modeEt mFp32 = .fp64) ∧ (modeEt mBf16 = .bf16 ∨ modeEt mBf16 = .fp16)) := by decide +kernel
theorem witness_vloop : (1#5 : PReg) ≠ 0#5 := by decide
theorem witness_vmv : (∀ b, VSrc.imm 3#5 ≠ .vec b) ∧ ∃ b, VSrc.vec 2#4 = .vec b := ⟨nofun, 2#4, rfl⟩
/-- The guard leaves every element active, and with NG none. -/
theorem witness_active (e : Nat) : m0.active mI8 e = true ∧ m0.active 0x100000#21 e = false := by
  constructor <;> simp [State.active, modeGp, modeNg, State.pGet, mI8]

/-- Vector memory slots on bench: base at the last 16 bytes of way 2, stride 2, indices 0. -/
def vmem (i : Instr) : UnitOp := { entry mI8 i with ga := bench2 + 0xFFFF0#64, gb := 2#64 }
def vmemS (i : Instr) : State := m0.mapCore (fun c => { c with units := [vmem i] })
theorem bench_byte (k : Nat) (hk : k < 8) :
    BenchAccess m0 (bench2 + 0xFFFF0#64 + BitVec.ofNat 64 k) (0x1FFFF0 + k) 1 ∧ CleanBench m0 (0x1FFFF0 + k) 1 := by
  have h : ∀ k, k < 8 → uv (bench2 + 0xFFFF0#64 + BitVec.ofNat 64 k) = 0xFF00_0000_0000 + (0x1FFFF0 + k) ∧ 0x1FFFF0 + k < 2 ^ 32 ∧
      uv (bench2 + 0xFFFF0#64 + BitVec.ofNat 64 k) % 1 = 0 ∧ m0.core.benchIn m0.hart.ctxid (0x1FFFF0 + k) 1 = true ∧
      (granules (0x1FFFF0 + k) 1).any m0.core.engineOwned = false ∧ m0.core.invalidWords (0x1FFFF0 + k) 1 = [] ∧
      m0.core.benchPoisoned (0x1FFFF0 + k) 1 = false ∧ (natRange ((0x1FFFF0 + k) / 8) (((0x1FFFF0 + k) + 1 + 7) / 8 -
        (0x1FFFF0 + k) / 8)).any (natSetHas m0.core.softBench) = false := by decide +kernel
  obtain ⟨h1, h2, h3, h4, h5, h6, h7, h8⟩ := h k hk
  exact ⟨⟨h1, h2, h3, h4, h5⟩, ⟨h6, h7, h8⟩⟩
theorem bench_reads (i : Instr) (addr : Nat → Word) (o : Nat → Nat)
    (h : ∀ e, e < 4 → ∃ k < 8, addr e = bench2 + 0xFFFF0#64 + BitVec.ofNat 64 k ∧ o e = 0x1FFFF0 + k) :
    SlotReads (vmem i) addr o 1 (vmemS i) := by
  have lt : ∀ e, InSlot (vmemS i) (vmem i) e → e < 4 := fun e he => lt_of_lt_of_le he.2 (min_le_left _ _)
  refine ⟨fun e he _ => ?_, fun e he _ => ?_, rfl, rfl⟩ <;> obtain ⟨k, hk, ha, ho⟩ := h e (lt e he) <;> rw [ho]
  · have := (bench_byte k hk).1; rw [ha]; exact ⟨this.address, this.window, this.aligned, this.ways, this.owner⟩
  · have := (bench_byte k hk).2; exact ⟨this.valid, this.poison, this.soft⟩
theorem bench_writes (i : Instr) (addr : Nat → Word) (o : Nat → Nat)
    (h : ∀ e, e < 4 → ∃ k < 8, addr e = bench2 + 0xFFFF0#64 + BitVec.ofNat 64 k ∧ o e = 0x1FFFF0 + k) :
    SlotWrites (vmem i) addr o 1 (vmemS i) := by
  refine ⟨fun e _ he _ => ?_, rfl, rfl, rfl, ⟨rfl, rfl⟩, ⟨rfl, rfl⟩⟩
  obtain ⟨k, hk, ha, ho⟩ := h e he
  have := (bench_byte k hk).1
  rw [ha, ho]; exact ⟨this.address, this.window, this.aligned, this.ways, this.owner⟩
theorem witness_vst (x : VReg) (a : GReg) : let u := vmem (.vst x a)
    SlotWrites u (fun e => u.ga + BitVec.ofNat 64 (e * 1)) (fun e => 0x1FFFF0 + e) 1 (vmemS (.vst x a)) :=
  bench_writes _ _ _ (fun e he => ⟨e, by omega, by simp [vmem], rfl⟩)
theorem witness_vsts (x : VReg) (a c : GReg) : let u := vmem (.vsts x a c)
    SlotWrites u (fun e => u.ga + BitVec.ofNat 64 e * u.gb) (fun e => 0x1FFFF0 + 2 * e) 1 (vmemS (.vsts x a c)) :=
  bench_writes _ _ _ (fun e he => ⟨2 * e, by omega, by
    simp only [vmem]; interval_cases e <;> decide, rfl⟩)
/-- Every index is 0: the four elements of the store meet. -/
theorem witness_vstx : let u := vmem (.vstx 1 3 2); let s := vmemS (.vstx 1 3 2)
    SlotWrites u (fun e => u.ga + BitVec.ofNat 64 (s.vGet 2 8 e * 1)) (fun _ => 0x1FFFF0) 1 s :=
  bench_writes _ _ _ (fun e he => ⟨0, by omega, by
    have z : ∀ e < 4, (vmemS (.vstx 1 3 2)).vGet 2 8 e = 0 := by decide +kernel
    rw [z e he]; rfl, rfl⟩)
/-- Element 2 of a vldff fails a check after two that pass: the end of way 2, an ENGINE granule, an invalid word under ACT 2, a poisoned
word. -/
def stopsAt (base : Word) (f : State → State) : State :=
  f (m0.mapCore (fun c => { c with units := [{ entry mI8 (.vldff 3 1 2) with ga := base }] }))
def passes (s : State) (base : Word) (z : Nat) : Bool :=
  (List.range 2).all (fun e => uv (base + BitVec.ofNat 64 (e * 1)) = 0xFF00_0000_0000 + (z - 2 + e) && s.core.benchIn s.hart.ctxid (z - 2 + e) 1 &&
    !(granules (z - 2 + e) 1).any s.core.engineOwned && s.core.invalidWords (z - 2 + e) 1 = [] && !s.core.benchPoisoned (z - 2 + e) 1 &&
    s.core.softBench = [] && s.active mI8 e)
def third (s : State) (base : Word) (z : Nat) : Bool :=
  uv (base + BitVec.ofNat 64 (2 * 1)) = 0xFF00_0000_0000 + z && z < 2 ^ 32 && s.active mI8 2 && s.core.storeQ = [] && s.core.checkedStores = []
theorem witness_vldff_stops :
    (let s := stopsAt (bench2 + 0xFFFFE#64) id
     passes s (bench2 + 0xFFFFE#64) 0x200000 = true ∧ third s (bench2 + 0xFFFFE#64) 0x200000 = true ∧ s.core.benchIn s.hart.ctxid 0x200000 1 = false) ∧
    (let s := stopsAt (bench2 + 0xFEFFE#64) (fun s => s.mapCore (fun c => { c with benchEngine := [(0x1FF, true)] }))
     passes s (bench2 + 0xFEFFE#64) 0x1FF000 = true ∧ third s (bench2 + 0xFEFFE#64) 0x1FF000 = true ∧
     s.core.benchIn s.hart.ctxid 0x1FF000 1 = true ∧ (granules 0x1FF000 1).any s.core.engineOwned = true) ∧
    (let s := stopsAt (bench2 + 0xFFFF6#64) (fun s => (s.mapCore (fun c => { c with benchInvalid := [(0x1FFFF8 / 8, true)] })).mapHart (fun h => { h with act := 2 }))
     passes s (bench2 + 0xFFFF6#64) 0x1FFFF8 = true ∧ third s (bench2 + 0xFFFF6#64) 0x1FFFF8 = true ∧ s.core.benchIn s.hart.ctxid 0x1FFFF8 1 = true ∧
     (granules 0x1FFFF8 1).any s.core.engineOwned = false ∧ s.hart.act = 2#2 ∧ s.core.invalidWords 0x1FFFF8 1 ≠ []) ∧
    (let s := stopsAt (bench2 + 0xFFFF6#64) (fun s => s.mapCore (fun c => { c with benchPoison := [(0x1FFFF8 / 8, true)] }))
     passes s (bench2 + 0xFFFF6#64) 0x1FFFF8 = true ∧ third s (bench2 + 0xFFFF6#64) 0x1FFFF8 = true ∧ s.core.benchIn s.hart.ctxid 0x1FFFF8 1 = true ∧
     (granules 0x1FFFF8 1).any s.core.engineOwned = false ∧ s.core.invalidWords 0x1FFFF8 1 = [] ∧ s.core.benchPoisoned 0x1FFFF8 1 = true) := by
  decide +kernel
/-- The last element, the only one left, in the line that the core owns dirty. -/
def lineOp (i : Instr) : UnitOp := { entry mI8 i with ga := 0x1003C#64, gb := 1#64, vstart := 3 }
def lineS (i : Instr) : State := m2.mapCore (fun c => { c with units := [lineOp i] })
theorem witness_vector_line (i : Instr) (acc : FaultAccess) (h : acc = .read ∨ acc = .write) : let u := lineOp i; let s := lineS i
    LanesWf s ∧ UnitReady u [] s ∧ u.parked = none ∧ u.checked = none ∧ u.vstart < u.vl ∧ u.vl ≤ vlmaxFor s 8 ∧
    s.hart.racechk = false ∧ s.hart.maint = false ∧ s.inHostBias 0x1003F = false ∧ OnlyElem u (slotTop s u) 3 s ∧ OnlyElem u u.vl 3 s ∧
    3 < (u.vstart / lanesOf s + 1) * lanesOf s ∧ u.hyp = 0#12 ∧
    u.ga + BitVec.ofNat 64 (3 * 1) = 0x1003F#64 ∧ u.ga + BitVec.ofNat 64 3 * u.gb = 0x1003F#64 ∧
    s.locate 0x1003F#64 1 acc true = .ok (.mem 0x1003F .wb false) s ∧ NoStoreOver s (.mem 0x1003F .wb false) 1 ∧ s.core.storeQ = [] ∧
    s.core.findLine (0x1003F / 64) u.hyp = some dirty0 ∧ dirty0.st ≠ .v ∧ dirty0.poison = 0#8 ∧ natSetHas s.core.softLine (0x1003F / 8) = false ∧
    (∀ y ∈ s.pkg.versions, y.line = 0x1003F / 64 → y.id = u.hyp → ∀ z, y.place ≠ .way z) ∧ s.core.owned (0x1003F / 64) = some dirty0 ∧
    NoInjection s := by
  have l : lanesOf (lineS i) = 16384 := rfl
  have top : slotTop (lineS i) (lineOp i) = 4 := by change min (4#20).toNat ((3 / lanesOf (lineS i) + 1) * lanesOf (lineS i)) = 4; rw [l]; decide
  have one : ∀ e, 3 ≤ e → e < 4 → ((lineS i).active mI8 e = true ↔ e = 3) := fun e a b => by
    obtain rfl : e = 3 := by omega
    simp [State.active, modeGp, modeNg, State.pGet, mI8]
  have o : OnlyElem (lineOp i) 4 3 (lineS i) := ⟨Nat.le_refl 3, by decide, one⟩
  refine ⟨⟨(by decide +kernel : m0.hart.grantWays.length = m0.hart.lanesW.toNat), (by decide : 0 < (1#4).toNat), rfl, rfl⟩,
    ⟨rfl, rfl, rfl, rfl, rfl, rfl, rfl⟩, rfl, rfl, by change 3 < (4#20).toNat; decide, by change (4#20).toNat ≤ vlmaxFor m0 8; decide, rfl, rfl, rfl,
    top ▸ o, o, ?_, rfl, rfl, rfl, ?_, no_stores _ _ _ rfl rfl, rfl, rfl, by decide +kernel, rfl, rfl, (fun _ hv => nomatch hv), rfl, rfl⟩
  · change 3 < (3 / lanesOf (lineS i) + 1) * lanesOf (lineS i); rw [l]; decide
  · rcases h with rfl | rfl <;> rfl

theorem witness_vld (x : VReg) (a : GReg) : let u := vmem (.vld x a)
    SlotReads u (fun e => u.ga + BitVec.ofNat 64 (e * 1)) (fun e => 0x1FFFF0 + e) 1 (vmemS (.vld x a)) ∧ u.hyp = 0#12 ∧
    NoSuperstep (vmemS (.vld x a)) ∧ BenchWf (vmemS (.vld x a)) ∧
    u.vl ≤ (u.vstart / lanesOf (vmemS (.vld x a)) + 1) * lanesOf (vmemS (.vld x a)) :=
  ⟨bench_reads _ _ _ (fun e he => ⟨e, by omega, by simp [vmem], rfl⟩), rfl, ⟨rfl, rfl⟩, ⟨rfl, rfl⟩, by change 4 ≤ (0 / 16384 + 1) * 16384; decide⟩
theorem witness_vlds (x : VReg) (a c : GReg) : let u := vmem (.vlds x a c)
    SlotReads u (fun e => u.ga + BitVec.ofNat 64 e * u.gb) (fun e => 0x1FFFF0 + 2 * e) 1 (vmemS (.vlds x a c)) :=
  bench_reads _ _ _ (fun e he => ⟨2 * e, by omega, by
    simp only [vmem]; interval_cases e <;> decide, rfl⟩)
theorem witness_vldx : let u := vmem (.vldx 1 3 2); let s := vmemS (.vldx 1 3 2)
    SlotReads u (fun e => u.ga + BitVec.ofNat 64 (s.vGet 2 8 e * 1)) (fun _ => 0x1FFFF0) 1 s ∧ (1#4 : VReg) ≠ 2#4 :=
  ⟨bench_reads _ _ _ (fun e he => ⟨0, by omega, by
    have z : ∀ e < 4, (vmemS (.vldx 1 3 2)).vGet 2 8 e = 0 := by decide +kernel
    rw [z e he]; rfl, rfl⟩), by decide⟩

/-- Windows of the frame: open with its count below the limit, closed, and none. -/
theorem witness_frame (u : UnitOp) : let s := m0.mapCore (fun c => { c with units := [u], winPair := .ss, winCount := 509 })
    UnitReady u [] s ∧ s.hart.snap = false ∧ s.core.winPair ≠ .none ∧ s.core.winCount + 1 < 511 :=
  ⟨⟨rfl, rfl, rfl, rfl, rfl, rfl, rfl⟩, rfl, by change WinPair.ss ≠ .none; decide, by change 509 + 1 < 511; decide⟩
theorem witness_frame_closed (i : Instr) : (running mI8 i).core.winPair = .none ∧ (running mI8 i).core.winCount = 0 ∧
    sparseWf 0#64 (running mI8 i).core.cells = true := ⟨rfl, rfl, rfl⟩
theorem witness_mmo : (let u := entry mI8 (.mmo 0 1 false); let s := running mI8 (.mmo 0 1 false)
      modeSb u.mode = 0#2 ∧ u.vstart % frameP u = 0 ∧ u.vstart < u.vl ∧ s.active u.mode (u.vstart / frameP u) = true ∧
      modeEt u.mode = .i8) ∧
    modeEt mBf16 = .bf16 ∧ modeSb mBf16 = 0#2 := by decide +kernel

/-- Floats: types whose format has a wider total, of fdrain and of frowadd; fdrain of a register that holds its own scales. -/
theorem witness_drain_types : modeEt mFp32 ∈ [ElemType.i8, .u8, .i16, .i32, .e4m3, .e5m2, .bf16, .fp16, .fp32] ∧ (modeEt mFp32).sew = 32 ∧
    modeEt mBf16 ∈ [ElemType.e4m3, .e5m2, .bf16, .fp16, .fp32] ∧ (entry mFp32 (.fdrain 2 2)).vl ≤ 4096 ∧ (3#4 : VReg) ≠ 2#4 := by
  decide +kernel
/-- The first k-step of a matrix of two rows of e4m3 with scales and B of e5m2, and of i8 by u8; B of mmo.st in bench. -/
def mE4m3 : BitVec 21 := 0x4100#21
def matOp (m : BitVec 21) (i : Instr) : UnitOp := { entry m i with ga := bench2 + 0xFFFF0#64 }
def matS (m : BitVec 21) (i : Instr) : State := (inMode m).mapCore (fun c => { c with units := [matOp m i] })
theorem witness_matrix_step (m : BitVec 21) (h : m = mI8 ∨ m = mE4m3) (i : Instr) : let u := matOp m i; let s := matS m i
    LanesWf s ∧ UnitReady u [] s ∧ u.parked = none ∧ s.hart.snap = false ∧ u.vstart % frameP u = 0 ∧ u.vstart / frameP u = 0 ∧
    (u.vl + frameP u - 1) / frameP u = 1 ∧ s.active u.mode 0 = true ∧ u.got = [] ∧ s.core.storeQ = [] ∧ s.core.checkedStores = [] ∧
    s.core.winPair = .none ∧ s.core.winCount = 0 ∧ (∀ c, (chanOf s c).a.toNat < 255 ∧ (chanOf s c).c.toNat < 257) ∧
    (∀ j, j < u.vl → BenchAccess s (u.ga + BitVec.ofNat 64 0 * u.gb + BitVec.ofNat 64 (j * 1)) (0x1FFFF0 + j) 1 ∧
      CleanBench s (0x1FFFF0 + j) 1) := by
  have c : ∀ c, chanOf (matS m i) c = Chan.zero := fun _ => rfl
  have p : frameP (matOp m i) = 64 := by rcases h with rfl | rfl <;> rfl
  have z : (matOp m i).vstart = 0 := rfl
  have v : (matOp m i).vl = 4 := rfl
  refine ⟨⟨(by decide +kernel : m0.hart.grantWays.length = m0.hart.lanesW.toNat), (by decide : 0 < (1#4).toNat), rfl, rfl⟩,
    ⟨rfl, rfl, rfl, rfl, rfl, rfl, rfl⟩, rfl, rfl, ?_, ?_, ?_, ?_, rfl, rfl, rfl, rfl, rfl, fun n => by rw [c]; decide +kernel, fun j hj => ?_⟩
  · rw [p, z]
  · rw [p, z]
  · rw [p, v]
  · have e : (matOp m i).mode = m := rfl
    rw [e]; rcases h with rfl | rfl <;> simp [State.active, modeGp, modeNg, State.pGet, mI8, mE4m3]
  · obtain ⟨x, y⟩ := bench_byte j (lt_of_lt_of_le hj (by change (4#20).toNat ≤ 8; decide))
    have e : (matOp m i).ga + BitVec.ofNat 64 0 * (matOp m i).gb + BitVec.ofNat 64 (j * 1) = bench2 + 0xFFFF0#64 + BitVec.ofNat 64 j := by
      simp [matOp]
    rw [e]; exact ⟨⟨x.address, x.window, x.aligned, x.ways, x.owner⟩, ⟨y.valid, y.poison, y.soft⟩⟩
theorem witness_matrix_types : modeEt mE4m3 = .e4m3 ∧ modeSb mE4m3 ≠ 0#2 ∧ (ElemType.e4m3, ElemType.e5m2) ∈ [(.e4m3, .e5m2), (ElemType.e5m2, ElemType.e4m3)] ∧
    (modeEt mI8 = .i8 ∨ modeEt mI8 = .u8) ∧ ((!(modeEt mI8).signed) = false) := by decide +kernel
/-- A group keeps at most two products of a row, so the count rises by at most 2. -/
theorem witness_matrix_rise (n : Nat) (f : Nat → Nat) (h : ∀ i, f i ≤ 2) : 0 + (List.range n).foldl (fun x i => max x (f i)) 0 < 257 := by
  have : ∀ (l : List Nat) (a : Nat), a ≤ 2 → l.foldl (fun x i => max x (f i)) a ≤ 2 := by
    intro l
    induction l with
    | nil => exact fun _ h => h
    | cons i l ih => intro a ha; exact ih _ (max_le ha (h i))
  have := this (List.range n) 0 (by omega); omega
/-- The last block of fsave and fload at the end of way 2; a word of it poisoned. -/
def blockOp (i : Instr) : UnitOp := { entry mI8 i with ga := bench2 + 0xFFFC0#64 - 0x7FC0#64, vstart := 4088 }
def blockS (i : Instr) (bad : Bool) : State := m0.mapCore (fun c =>
  { c with units := [blockOp i], benchPoison := if bad then [(0x1FFFF8 / 8, true)] else [] })
theorem witness_frame_block (i : Instr) (bad : Bool) : let u := blockOp i; let s := blockS i bad
    UnitReady u [] s ∧ u.parked = none ∧ s.hart.snap = false ∧ u.vstart < 4096 ∧ s.core.storeQ = [] ∧ s.core.checkedStores = [] ∧
    sparseWf 0#64 s.core.cells = true ∧ u.hyp = 0#12 ∧ NoSuperstep s ∧ BenchWf s ∧ s.core.winPair = .none ∧ s.core.winCount = 0 ∧
    u.vstart / 8 * 8 + 8 = 4096 ∧
    (∀ n, 4088 ≤ n → n < 4096 → BenchAccess s (u.ga + BitVec.ofNat 64 (8 * n)) (0x1FFFC0 + 8 * (n - 4088)) 8 ∧
      s.core.invalidWords (0x1FFFC0 + 8 * (n - 4088)) 8 = [] ∧ natSetHas s.core.softBench ((0x1FFFC0 + 8 * (n - 4088)) / 8) = false) ∧
    s.core.benchPoisoned 0x1FFFF8 8 = bad := by
  refine ⟨⟨rfl, rfl, rfl, rfl, rfl, rfl, rfl⟩, rfl, rfl, by change 4088 < 4096; decide, rfl, rfl, rfl, rfl, ⟨rfl, rfl⟩, ⟨rfl, rfl⟩, rfl, rfl, by change 4088 / 8 * 8 + 8 = 4096; decide, ?_, ?_⟩
  · have h : ∀ k, k < 8 → uv (bench2 + 0xFFFC0#64 - 0x7FC0#64 + BitVec.ofNat 64 (8 * (4088 + k))) = 0xFF00_0000_0000 + (0x1FFFC0 + 8 * k) ∧
        0x1FFFC0 + 8 * k < 2 ^ 32 ∧ uv (bench2 + 0xFFFC0#64 - 0x7FC0#64 + BitVec.ofNat 64 (8 * (4088 + k))) % 8 = 0 ∧
        m0.core.benchIn m0.hart.ctxid (0x1FFFC0 + 8 * k) 8 = true ∧ (granules (0x1FFFC0 + 8 * k) 8).any m0.core.engineOwned = false ∧
        m0.core.invalidWords (0x1FFFC0 + 8 * k) 8 = [] ∧ natSetHas m0.core.softBench ((0x1FFFC0 + 8 * k) / 8) = false := by decide +kernel
    intro n a b
    obtain ⟨k, rfl⟩ : ∃ k, n = 4088 + k := ⟨n - 4088, by omega⟩
    have e : 4088 + k - 4088 = k := by omega
    obtain ⟨h1, h2, h3, h4, h5, h6, h7⟩ := h k (by omega)
    rw [e]; exact ⟨⟨h1, h2, h3, h4, h5⟩, h6, h7⟩
  · have e : ∀ b, (m0.mapCore (fun c => { c with benchPoison := if b then [(0x1FFFF8 / 8, true)] else [] })).core.benchPoisoned 0x1FFFF8 8 = b := by
      decide +kernel
    exact e bad
/-- A sum that has its last element: what is left is its result. -/
theorem witness_sum_ends (g : GReg) (a : VReg) : let u := { entry mBf16 (.vredosum g a) with vstart := 4 }
    UnitReady u [] ((inMode mBf16).mapCore (fun c => { c with units := [u] })) ∧ u.instr = .vredosum g a ∧ u.vl ≤ u.vstart :=
  ⟨⟨rfl, rfl, rfl, rfl, rfl, rfl, rfl⟩, rfl, by change (4#20).toNat ≤ 4; decide⟩

/-! ### Witnesses: tasks, joins and the gang barrier. -/

/-- The access answers a and s. -/
def answers {α : Type} [DecidableEq α] (r : Res α) (a : α) (s : State) : Bool :=
  match r with
  | .ok b t => b = a && t = s
  | _ => false
theorem of_answers {α : Type} [DecidableEq α] {r : Res α} {a : α} {s : State} (h : answers r a s = true) : r = .ok a s := by
  cases r <;> simp_all [answers]

/-- The bytes of a task record at the start of way 2: entry 0x1000, W = 1, GANG = 1, VLCEIL = 1, CSA = 0x40000. -/
def recBytes : List Host.Cell :=
  [(0x100001, 0x10#8), (0x100019, 0x10#8), (0x10001A, 0x01#8), (0x10001C, 0x01#8), (0x100022, 0x04#8)]
def recWords : List Word := [0x1000#64, 0, 0, 0x0000000100011000#64, 0x40000#64, 0, 0, 0]
/-- Queue 0 at 0x3000: slots at 0x5000, EN and ALL set, N = 2. -/
def queueBytes : List Host.Cell := [(0x3001, 0x50#8), (0x300A, 0x90#8)]
/-- A hart that may enqueue the record. -/
def enq : State := ((args m0 bench2 0 0).mapCore (fun c => { c with bench := recBytes })).mapPkg (fun p =>
  { p with qdtbase := 0x3000, queuesOn := true, mem := queueBytes })

theorem settled_of (s : State) (h : s.quiet = true) : Settled s := h
theorem enq_record : enq.readRecord (enq.g 1#5) = .ok recWords enq := of_answers (by decide +kernel)
theorem enq_admits : Admits enq.hart.queue enq := by unfold Admits; decide +kernel
theorem enq_good : GoodRecord recWords enq.hart.ctxid enq.hart.sys enq :=
  ⟨by decide +kernel, by decide +kernel, by decide +kernel, by decide +kernel, by decide +kernel, fun h => absurd h (by decide +kernel),
    by decide +kernel, .inl (by decide +kernel)⟩
/-- Status 0, outside a superstep and in one; and another core owning the line of the descriptor. -/
theorem witness_enqueue : let desc := enq.queueDesc enq.hart.queue
    let slot := desc.base + 64 * desc.tail
    let at_ := enq.pkg.qdtbase.toNat + 32 * enq.hart.queue.toNat
    uv (enq.g 1#5) % 64 = 0 ∧ enq.hart.hyp = 0#12 ∧ enq.hart.snap = false ∧ Settled enq ∧
    enq.queueForeign enq.hart.queue = false ∧ enq.readRecord (enq.g 1#5) = .ok recWords enq ∧
    GoodRecord recWords enq.hart.ctxid enq.hart.sys enq ∧ Admits enq.hart.queue enq ∧ ¬FullQueue enq.hart.queue enq ∧
    enq.core.owned (slot / 64) = none ∧ enq.core.owned (at_ / 64) = none ∧ enq.pkg.versions = [] ∧ desc.base % 64 = 0 ∧
    enq.pkg.qdtbase.toNat % 64 = 0 ∧ enq.MemWf ∧ (slot + 64 ≤ at_ ∨ at_ + 32 ≤ slot) ∧ (enq.g 2#5).extractLsb' 12 52 = 0#52 :=
  ⟨by decide +kernel, rfl, rfl, settled_of _ (by decide +kernel), by decide +kernel, enq_record, enq_good, enq_admits,
    by unfold FullQueue; decide +kernel, by decide +kernel, by decide +kernel, rfl, by decide +kernel, by decide +kernel,
    by unfold State.MemWf; decide +kernel, by decide +kernel, by decide +kernel⟩
theorem witness_enqueue_foreign : let s := enq.mapPkg (fun p =>
      { p with homes := [(0x3000 / 64, some { wts := 0, rts := 0, owner := some 1#9 })] })
    s.queueForeign s.hart.queue = true := by decide +kernel
theorem witness_enqueue_snap : let s := enq.mapHart (fun h => { h with snap := true })
    Settled s ∧ s.queueForeign s.hart.queue = false ∧ s.readRecord (s.g 1#5) = .ok recWords s ∧
    GoodRecord recWords s.hart.ctxid s.hart.sys s ∧ Admits s.hart.queue s ∧ ¬FullQueue s.hart.queue s :=
  ⟨settled_of _ (by decide +kernel), by decide +kernel, of_answers (by decide +kernel),
    ⟨by decide +kernel, by decide +kernel, by decide +kernel, by decide +kernel, by decide +kernel,
      fun h => absurd h (by decide +kernel), by decide +kernel, .inl (by decide +kernel)⟩,
    by unfold Admits; decide +kernel, by unfold FullQueue; decide +kernel⟩
/-- The other statuses and the traps: a queue without EN, W = 0, N - 1 slots filled, a misaligned address, a hypothesis. -/
theorem witness_enqueue_refused :
    (let s := enq.mapPkg (fun p => { p with queuesOn := false }); ¬Admits s.hart.queue s) ∧
    (let s := enq.mapPkg (fun p => { p with mem := queueBytes ++ [(0x300E, 1#8)] }); FullQueue s.hart.queue s) ∧
    uv 0xFF0000100020#64 % 64 ≠ 0 ∧
    (let s := enq.mapHart (fun h => { h with hyp := 1 }); s.hart.hyp ≠ 0#12 ∧ s.hart.snap = false) := by
  simp only [Admits, FullQueue]; decide +kernel
theorem witness_enqueue_bad : ¬GoodRecord (List.replicate 8 0) enq.hart.ctxid enq.hart.sys enq :=
  fun h => absurd h.w.1 (by decide +kernel)

/-- A join on a counter of memory, 0, 1 or 2, whose record behind it is a line that the core owns. -/
def join0 (n : BitVec 8) : State :=
  ((args m1 0x10000#64 0 0).mapPkg (fun p => { p with mem := if n = 0#8 then [] else [(0x10000, n)] })).mapCore (fun c =>
    { c with lines := [{ dirty0 with line := 0x401, st := .o, data := 0 }] })
/-- The state after the checks of the record. -/
def join1 (n : BitVec 8) : State :=
  match (join0 n).checkRecord ((join0 n).g 1#5 + 64#64) with
  | .ok _ t => t
  | _ => join0 n
theorem witness_join (n : BitVec 8) (h : n = 0#8 ∨ n = 1#8 ∨ n = 2#8) : let s := join0 n
    uv (s.g 1#5) % 64 = 0 ∧ ¬InWindow (s.g 1#5) ∧ s.locate (s.g 1#5) 4 .atomic = .ok (.mem 0x10000 .wb false) s ∧ s.hart.hyp = 0#12 ∧
    s.checkRecord (s.g 1#5 + 64#64) = .ok (List.replicate 8 0, false) (join1 n) ∧ (join1 n).hart.hyp = 0#12 ∧
    (join1 n).hart.maint = false ∧ Settled (join1 n) ∧ (join1 n).pkg.read 0x10000 4 = n.toNat ∧ HomeCounter (join1 n) 0x10000 ∧
    (join1 n).queueForeign (BitVec.ofNat 12 ((join1 n).peek (0x10000 + 8) 8)) = false ∧
    (join1 n).hart.snap = false := by
  rcases h with rfl | rfl | rfl <;>
    exact ⟨by decide +kernel, by unfold InWindow; decide +kernel, of_answers (by decide +kernel), rfl,
      of_answers (by decide +kernel), by decide +kernel, by decide +kernel, settled_of _ (by decide +kernel), by decide +kernel,
      ⟨by decide, by decide +kernel, by decide +kernel, by decide +kernel, by unfold Unspoilt; decide +kernel,
        by unfold RoomInSlice; decide +kernel, by unfold State.MemWf; decide +kernel⟩, by decide +kernel, by decide +kernel⟩
theorem witness_join_traps : uv 0x10020#64 % 64 ≠ 0 ∧ (uv bench2 % 64 = 0 ∧ InWindow bench2) ∧
    (let s := (join0 0).mapHart (fun h => { h with hyp := 1 })
     s.locate (s.g 1#5) 4 .atomic = .ok (.mem 0x10000 .wb false) s ∧ s.hart.hyp ≠ 0#12 ∧ s.hart.snap = false ∧ HandlerReady s) ∧
    (let s := (join0 0).mapCore (fun c => { c with tlb := [{ tlb0 with mt := 2#2, pa := 0x40000000 }], tlb1 := [{ tlb0 with mt := 2#2, pa := 0x40000000 }] })
     s.locate (s.g 1#5) 4 .atomic = .ok (.mem 0x040000000000 .host false) s) :=
  ⟨by decide, by unfold InWindow; decide +kernel, ⟨of_answers (by decide +kernel), by decide +kernel, rfl, ⟨rfl, by decide +kernel⟩⟩,
    of_answers (by decide +kernel)⟩

/-- A gang of two whose other member has not arrived, and a gang of one. -/
def two : State := m0.mapHart (fun h => { h with gsize := 2 })
theorem witness_barrier_waits : two.allArrived = false ∧ Settled two ∧ (∀ o ∈ two.core.peel, isPut o.instr = true → o.tokPkg ≠ two.pkg.mypkg) :=
  ⟨by decide +kernel, settled_of _ (by decide +kernel), by decide +kernel⟩
theorem witness_barrier_alone : m0.liveOthers = [] ∧ m0.pkg.arrivals = [] ∧ m0.hart.snap = false ∧
    m0.hart.gidx.toNat < m0.hart.gsize.toNat ∧ m0.pkg.saved.length + m0.pkg.otherStamps.length < 2 ^ 16 ∧ Settled m0 :=
  ⟨by decide +kernel, rfl, rfl, by decide +kernel, by decide +kernel, settled_of _ (by decide +kernel)⟩
/-- Waiting at the barrier with kind k, the other member arrived with x. -/
def waiting (k : SyncKind) (x : List SyncKind) : State :=
  (two.mapHart (fun h => { h with run := .barrier, arrival := some { kind := k, operand := 5, dest := 1, word := 0x84000100#32 } })).mapPkg
    (fun p => { p with arrivals := x.map (fun y => { gidx := 1, kind := some y, operand := 7, ltime := 9 }) })
theorem witness_arrival : two.hart.run ≠ .idle ∧ two.liveOthers.contains 1 = true ∧ two.pkg.arrivals = [] := by decide +kernel
theorem witness_release_early : (waiting .gbar []).allArrived = false := by decide +kernel
theorem witness_release : (∀ k ∈ [SyncKind.gbar, .gred .add .rne], (waiting k [k]).allArrived = true ∧ (waiting k [k]).kindsAgree = true ∧
    (waiting k [k]).hart.run = .barrier) ∧ (waiting .gbar [.gbar]).hart.maint = false := by decide +kernel
theorem witness_release_kinds : let s := waiting .gbar [.gred .add .rne]
    s.allArrived = true ∧ s.kindsAgree = false ∧ s.hart.th = false ∧ s.hart.trapvec ≠ 0#48 ∧ s.hart.trigger = false ∧
    s.hart.snap = false := by decide +kernel

/-- tend with its work complete, and with an entry outstanding. -/
theorem witness_tend : (m0.core.units = [] ∧ m0.core.storeQ = [] ∧ m0.pkg.peerWritesOut = false ∧ ∀ o ∈ m0.core.peel, o.out = true) ∧
    m0.hart.snap = false ∧ (running mI8 .fzero).core.units ≠ [] := ⟨⟨rfl, rfl, by decide +kernel, by decide +kernel⟩, rfl, by decide +kernel⟩
theorem witness_tend_snap : let s := two.mapHart (fun h => { h with snap := true })
    s.core.units = [] ∧ s.core.storeQ = [] ∧ s.pkg.peerWritesOut = false ∧ (∀ o ∈ s.core.peel, o.out = true) ∧ s.hart.snap = true ∧
    s.allArrived = false := ⟨rfl, rfl, by decide +kernel, by decide +kernel, rfl, by decide +kernel⟩

/-! ### Witnesses: ways, lines and bench ranges. -/

/-- Masks at the limits: bits above 7, way 0, empty, and the two uppermost ways. -/
theorem witness_masks : BadMask 0x100#64 ∧ BadMask 1#64 ∧ BadMask 0#64 ∧ ¬BadMask 0xC0#64 :=
  ⟨.inl (by decide), .inr (.inl rfl), .inr (.inr rfl), fun h => by
    rcases h with h | h | h
    · exact absurd h (by decide)
    · cases h
    · exact absurd h (by decide)⟩
/-- wconv: a mask over ARRAY and BENCH ways (2), over ways outside the grant and within it (3), a locked line there (4). -/
theorem witness_wconv_two : SomeWay 6#8 (fun k => m0.core.ways[k].mode ≠ .cache) := ⟨1, rfl, by decide +kernel⟩
theorem witness_wconv_three : SomeWay 8#8 (fun k => m0.hart.lanesWays.getLsbD k.val ≠ true) ∧
    (∀ k : Fin 8, (8#8).getLsbD k.val = true → m0.core.ways[k].mode = .cache) := ⟨⟨3, rfl, by decide +kernel⟩, by decide +kernel⟩
/-- A grant of ways 1 and 2, both CACHE; then way 1 ARRAY; lines in way 3. -/
def granted : State := { m0 with
  hart := { m0.hart with lanesW := 2, lanesWays := 6 }, core := { m0.core with ways := Vector.replicate 8 { mode := .cache, ctx := 0 } } }
theorem witness_wconv_array : granted.core.units = [] ∧ granted.core.peel = [] ∧ granted.core.lines = [] ∧ granted.pkg.versions = [] ∧
    (∀ k : Fin 8, (6#8).getLsbD k.val = true → granted.core.ways[k].mode = .cache ∧ granted.hart.lanesWays.getLsbD k.val = true) ∧
    BenchWf granted ∧ sparseWf 0#32 granted.core.vrows = true :=
  ⟨rfl, rfl, rfl, rfl, by decide +kernel, ⟨rfl, rfl⟩, rfl⟩
def wayLine (locks : List (BitVec 8)) : State := granted.mapCore (fun c => { c with lines := [{ dirty0 with way := 3, lock := locks }] })
theorem witness_wconv_bench : let s := wayLine []
    s.core.lines = [{ dirty0 with way := 3, lock := [] }] ∧ (8#8).getLsbD 3 = true ∧ s.MemWf ∧
    (∀ k : Fin 8, (8#8).getLsbD k.val = true → s.core.ways[k].mode = .cache ∧ s.hart.lanesWays.getLsbD k.val = false) :=
  ⟨rfl, rfl, rfl, by decide +kernel⟩
theorem witness_wconv_four : ∃ x ∈ (wayLine [0#8]).core.lines, (8#8).getLsbD x.way.toNat = true ∧ x.lock ≠ [] :=
  ⟨_, List.mem_singleton.mpr rfl, by decide +kernel, by decide +kernel⟩
theorem witness_wconv_five : (let v : Version := { line := 0x500, id := 1, data := 0, mask := 1, place := .way 3, poison := 0, lock := [], use := 1 }
     let s := granted.mapPkg (fun p => { p with versions := [v] })
     s.spillsFit (s.versionsIn 8#8) = false) := by decide +kernel
theorem witness_wconv_waits : (running mI8 .fzero).core.units ≠ [] := by decide +kernel
/-- wrel: a way of another context (2), a way of the rack (3), an own ARRAY way (0). -/
def rack0 (st : PanState) : Rack :=
  { ctx := 0, base := 0x100000, tbs := 0x102000, panSize := 4096
    pans := List.replicate 2 { st := st, seq := 5, landed := 0, htag := 0, hcore := 0, hpkg := 0, port := none, finalPut := false } }
/-- m0 with a rack of two pans in way 2, their granules owned by the engine. -/
def racked (st : PanState) : State :=
  m0.mapCore (fun c => { c with rack := some (rack0 st), benchEngine := [(0x100, true), (0x101, true)] })
theorem witness_wrel : SomeWay 2#8 (fun k => (m0.mapHart (fun h => { h with ctxid := 1 })).core.ways[k].mode ≠ .cache ∧
      (m0.mapHart (fun h => { h with ctxid := 1 })).core.ways[k].ctx ≠ 1#8) ∧
    SomeWay 4#8 (fun k => (racked .free).core.rackWays.getLsbD k.val = true) ∧ SomeWay 2#8 (fun k => m0.core.ways[k].mode = .array) ∧
    (∀ k : Fin 8, m0.core.ways[k].ctx = m0.hart.ctxid) ∧ (∀ k : Fin 8, m0.core.rackWays.getLsbD k.val = false) :=
  ⟨⟨1, rfl, by decide +kernel⟩, ⟨2, rfl, by decide +kernel⟩, ⟨1, rfl, by decide +kernel⟩, by decide +kernel, by decide +kernel⟩

/-- A dirty line that the hart's address names, for reads and for writes, and a line that the core does not hold. -/
def held : State := args m2 0x1003F#64 0 0
theorem witness_holds_line (acc : FaultAccess) (h : acc = .read ∨ acc = .write) : HoldsLine held (held.g 1#5) acc 0x1003F dirty0 := by
  rcases h with rfl | rfl <;> exact ⟨rfl, no_stores _ _ _ rfl rfl, rfl, rfl, rfl, by decide +kernel, rfl⟩
theorem witness_absent_line : let s := args m1 0x1003F#64 0 0
    s.locate (s.g 1#5) 1 .read = .ok (.mem 0x1003F .wb false) s ∧ s.locate (s.g 1#5) 1 .write = .ok (.mem 0x1003F .wb false) s ∧
    s.core.findLine (0x1003F / 64) 0#12 = none := ⟨rfl, rfl, rfl⟩
/-- lock: LOCKQ 0 and 1 over an unlocked line, the line in a set whose one CACHE way is locked for another context, and a line
locked already. -/
theorem witness_lock : (held.core.lines.countP (fun x => x.lock.contains held.hart.ctxid) = held.hart.lockq.toNat) ∧
    (let s := held.mapHart (fun h => { h with lockq := 1 })
     s.core.lines.countP (fun x => x.lock.contains s.hart.ctxid) ≠ s.hart.lockq.toNat ∧ s.setLocked (0x1003F / 64) = false) ∧
    dirty0.st ≠ .v ∧ (∀ x ∈ held.core.lines, x.line = 0x1003F / 64 → x = dirty0) ∧
    held.core.lines.countP (fun x => x.line = 0x1003F / 64) = 1 ∧ held.inHostBias 0x1003F = false ∧ held.hart.hyp = 0#12 ∧
    (∀ v ∈ held.pkg.versions, v.line ≠ 0x1003F / 64) := by decide +kernel
theorem witness_lock_full : let l := { dirty0 with lock := [1#8] }
    let s := (held.mapHart (fun h => { h with lockq := 1 })).mapCore (fun c => { c with
      lines := [l], ways := Vector.ofFn (fun i : Fin 8 => { mode := if i.val = 0 then .cache else .bench, ctx := 0#8 }) })
    HoldsLine s (s.g 1#5) .read 0x1003F l ∧ l.lock.contains s.hart.ctxid = false ∧ s.setLocked (0x1003F / 64) = true ∧
    s.core.lines.countP (fun x => x.lock.contains s.hart.ctxid) ≠ s.hart.lockq.toNat :=
  ⟨⟨rfl, no_stores _ _ _ rfl rfl, rfl, rfl, rfl, by decide +kernel, rfl⟩, by decide +kernel, by decide +kernel, by decide +kernel⟩
theorem witness_locked : let l := { dirty0 with lock := [0#8] }; let s := held.mapCore (fun c => { c with lines := [l] })
    HoldsLine s (s.g 1#5) .read 0x1003F l ∧ l.lock.contains s.hart.ctxid = true :=
  ⟨⟨rfl, no_stores _ _ _ rfl rfl, rfl, rfl, rfl, by decide +kernel, rfl⟩, rfl⟩
/-- bclr: misaligned operands, an empty range, one past the way, one with an ENGINE granule, and all of way 2. -/
theorem witness_bclr : uv (bench2 + 4#64) % 8 ≠ 0 ∧ uv 4#64 % 8 ≠ 0 ∧ uv 0#64 % 8 = 0 ∧
    m0.core.benchIn m0.hart.ctxid 0x100000 0x100008 = false ∧
    (let s := racked .free; s.core.benchIn s.hart.ctxid 0x100000 0x100000 = true ∧
      (granules 0x100000 0x100000).any s.core.engineOwned = true) ∧
    m0.core.benchIn m0.hart.ctxid 0x100000 0x100000 = true ∧ (granules 0x100000 0x100000).any m0.core.engineOwned = false := by
  decide +kernel
theorem witness_bclr_state : m0.hart.hyp = 0#12 ∧ NoSuperstep m0 ∧ Settled m0 ∧ BenchWf m0 :=
  ⟨rfl, ⟨rfl, rfl⟩, settled_of _ (by decide +kernel), ⟨rfl, rfl⟩⟩

/-! ### Witnesses: the peel engine. -/

/-- A barrier of way 2 at its first 16 bytes: AE = 3, AP = n, EP = e. -/
def tbBytes (n e : BitVec 8) : List Host.Cell :=
  (if n = 0#8 then [] else [(0x100002, n)]) ++ [(0x100004, 3#8)] ++ (if e = 0#8 then [] else [(0x100008, e)])
/-- g1 = source, g2 = destination, g4 = the barrier, all in way 2. -/
def peelS : State := (args m0 (bench2 + 0x1000#64) (bench2 + 0x2000#64) bench2).mapCore (fun c => { c with bench := tbBytes 2#8 1#8 })

/-- A copy of four bytes may issue: every check holds. -/
theorem witness_pcopy : let s := peelS
    uv (s.g 2#5) % 1 = 0 ∧ uv (s.g 1#5) % 1 = 0 ∧ uv (s.g 4#5) % 16 = 0 ∧ BenchRange s (s.g 4#5) 16 ∧
    BenchRange s (firstAt s (s.g 2#5)) (peelElems s * peelWidth s) ∧ BenchRange s (firstAt s (s.g 1#5)) (peelElems s * peelWidth s) ∧
    s.hart.hyp = 0#12 ∧ s.core.peel = [] ∧ BenchWf s ∧ s.core.captured = none ∧ s.core.shadows = [] ∧ 0 < peelElems s ∧ (s.core.tb (offsetOf (s.g 4#5))).ep.toNat + peelElems s < 2 ^ 32 ∧
    s.arrayReady = true ∧ s.core.units = [] := by
  simp only [BenchRange, InWindow, BenchWf, and_assoc]; decide +kernel
/-- Each check fails somewhere: misaligned operands at width 32, a barrier outside the window, a range past the way, a
destination outside bench under a hypothesis, and overlapping ranges of a rotation. -/
theorem witness_peel_checks : (let s := inMode mFp32; uv 2#64 % peelWidth s ≠ 0) ∧ uv 8#64 % 16 ≠ 0 ∧ ¬BenchRange m0 0x10000#64 16 ∧
    ¬(¬InWindow (bench2 + 0xFFFF0#64) ∨ BenchRange m0 (bench2 + 0xFFFF0#64) 17) ∧
    (let s := m0.mapHart (fun h => { h with hyp := 1 }); ¬(s.hart.hyp = 0#12 ∨ s.hart.snap = true ∨ InWindow 0x10000#64)) ∧
    ¬(uv 0x10000#64 + 4 ≤ uv 0x10003#64 ∨ uv 0x10003#64 + 4 ≤ uv 0x10000#64) := by
  simp only [BenchRange, InWindow]; decide +kernel
/-- A put and a rack: the barrier at g4 lies in a way of the rack. -/
theorem witness_bput : let s := args (racked .free) (bench2 + 0x3000#64) 0 bench2
    (∃ r, s.core.rack = some r ∧ r.ctx = s.hart.ctxid) ∧ s.core.rackWays.getLsbD (offsetOf (s.g 4#5) / 2 ^ 20 + 1) = true ∧
    uv (s.g (2#5 + 1#5)) % 1 = 0 := ⟨⟨_, rfl, rfl⟩, by decide +kernel, by decide +kernel⟩
/-- A rotation between ranges that lie apart. -/
theorem witness_rrot : let s := peelS
    uv (firstAt s (s.g 1#5)) + peelElems s * peelWidth s ≤ uv (firstAt s (s.g 2#5)) := by decide +kernel
/-- An operation waiting, active with two elements left, with one left. -/
def copyOp (active : Bool) (start : Nat) : PeelOp :=
  { id := 0, instr := .pcopy 2 1 4, pc := 0x1000, mode := 0, vl := 4, vstart := start, srseed := 0, srcount := 0, gd := bench2 + 0x2000#64, gd1 := 0,
    ga := bench2 + 0x1000#64, gb := bench2, hyp := 0, base := start, count := 4, old := [], active := active, sent := [], moved := [],
    restored := false, incoming := 0, arrived := [], gone := false, parked := none, unresolved := false, ended := false, out := false }
def peeling (o : PeelOp) (n e : BitVec 8) : State := m0.mapCore (fun c =>
  { c with peel := [o], bench := tbBytes n e, benchEngine := [(0x101, true), (0x102, true)] })
theorem witness_peel_full : let s := m0.mapCore (fun c => { c with peel := List.replicate 16 (copyOp false 0) })
    16 ≤ s.core.peel.countP (fun o => !o.out) := by decide +kernel
theorem witness_peel_back : let s := m0.mapCore (fun c => { c with peel := [{ copyOp false 0 with restored := true }] })
    (∃ o ∈ s.core.peel, o.restored = true) ∧ ¬(16 ≤ s.core.peel.countP (fun o => !o.out)) := by decide +kernel
theorem witness_peel_start : let s := peeling (copyOp false 0) 2#8 4#8
    s.pkg.freezing = false ∧ s.core.peel.countP (·.active) < 8 ∧ s.core.peel.find? (fun x => !x.active) = some (copyOp false 0) ∧
    (copyOp false 0).vstart < (copyOp false 0).vl ∧ isPut (copyOp false 0).instr = false := by decide +kernel
/-- The last element but one, with EP 2, and the last, with EP and AP 1. -/
theorem witness_peel_element : ∀ p ∈ [(2, 2#8, 2#8), (3, 1#8, 1#8)],
    let o := copyOp true p.1; let s := peeling o p.2.1 p.2.2
    let z := (modeEt o.mode).sew / 8; let src := offsetOf o.ga + o.vstart * z; let dst := offsetOf o.gd + o.vstart * z
    s.core.peel = [o] ∧ o.vstart < o.vl ∧ s.hart.snap = false ∧ s.core.captured = none ∧ s.core.shadows = [] ∧ sparseWf (0 : Byte) s.core.bench = true ∧
    sparseWf false s.core.benchInvalid = true ∧ s.core.injArm = false ∧
    (0xFF00_0000_0000 ≤ uv o.ga ∧ uv o.ga < 0xFF01_0000_0000) ∧ (0xFF00_0000_0000 ≤ uv o.gd ∧ uv o.gd < 0xFF01_0000_0000) ∧
    (0xFF00_0000_0000 ≤ uv o.gb ∧ uv o.gb < 0xFF01_0000_0000) ∧
    offsetOf o.ga + o.vl * z ≤ 7 * 2 ^ 20 ∧ offsetOf o.gd + o.vl * z ≤ 7 * 2 ^ 20 ∧ src % z = 0 ∧ dst % z = 0 ∧
    offsetOf o.gb % 16 = 0 ∧ s.core.benchIn s.hart.ctxid src z = true ∧ s.core.benchIn s.hart.ctxid dst z = true ∧
    (granules src z).all s.core.engineOwned = true ∧ (granules dst z).all s.core.engineOwned = true ∧
    s.core.invalidWords src z = [] ∧ s.core.benchPoisoned src z = false ∧ s.core.softBench = [] ∧
    offsetOf o.gb + 16 ≤ dst ∧ (s.core.tb (offsetOf o.gb)).ef = false ∧
    (s.core.tb (offsetOf o.gb)).ep.toNat = p.2.2.toNat ∧ (s.core.tb (offsetOf o.gb)).ap.toNat = p.2.1.toNat ∧
    (s.core.tb (offsetOf o.gb)).ae ≠ 0#16 := by decide +kernel

/-- Owner flips of the last granule of way 2: aligned, misaligned, past the way; pending stores, an operation on it, a pan
that is reserved. -/
theorem witness_owner : uv (bench2 + 0xFF000#64) % 4096 = 0 ∧ 4096 % 4096 = 0 ∧ BenchRange m0 (bench2 + 0xFF000#64) 4096 ∧
    ¬BenchRange m0 (bench2 + 0xFF000#64) 8192 ∧ uv (bench2 + 0x800#64) % 4096 ≠ 0 ∧ m0.core.storeQ = [] ∧ m0.memBusy = false ∧
    sparseWf false m0.core.benchEngine = true ∧ m0.core.captured = none ∧ m0.core.shadows = [] := by simp only [BenchRange, InWindow]; decide +kernel
theorem witness_owner_waits : (∃ p ∈ (peeling (copyOp true 0) 1 4).core.peel, p.touches 0x101000 4096 = true) ∧
    (∀ p ∈ (peeling (copyOp true 0) 1 4).core.peel, p.touches 0x1FF000 4096 = false) ∧
    (m0.mapCore (fun c => { c with storeQ := [qBench] })).core.storeQ ≠ [] := by decide +kernel
theorem witness_owner_pan : (∃ g ∈ granules 0x100000 4096, (racked .resv).panHolds g = true) ∧
    (∀ g ∈ granules 0x1FF000 4096, (racked .resv).panHolds g = false) := by decide +kernel

/-- Barriers: apart from a pan's, with no operation on it, and with one; misaligned; the two phases that an arrival meets. -/
theorem witness_barrier_checks : uv bench2 % 16 = 0 ∧ BenchRange m0 bench2 16 ∧ uv (bench2 + 8#64) % 16 ≠ 0 ∧
    ¬BenchRange m0 (bench2 + 0x100000#64) 16 := by simp only [BenchRange, InWindow]; decide +kernel
theorem witness_tbi : (∃ r, (racked .free).core.rack = some r ∧ r.tbs ≤ 0x102010 ∧ 0x102010 < r.tbs + 16 * r.pans.length) ∧
    m0.core.rack = none ∧ (∃ p ∈ (peeling (copyOp true 0) 1 4).core.peel, p.tbAddr = 0x100000) ∧ (∀ p ∈ m0.core.peel, p.tbAddr ≠ 0x100000) :=
  ⟨⟨_, rfl, by decide +kernel, by decide +kernel⟩, rfl, by decide +kernel, by decide +kernel⟩
theorem witness_tbarr : (let t := (peeling (copyOp true 0) 2 4).core.tb 0x100000; 1 < t.ap.toNat) ∧
    (let t := (peeling (copyOp true 0) 1 4).core.tb 0x100000; t.ap = 1#16 ∧ t.ep ≠ 0#32) ∧
    (let t := (peeling (copyOp true 0) 1 0).core.tb 0x100000; t.ap = 1#16 ∧ t.ep = 0#32 ∧ t.ef = false) ∧
    (let t := (peeling (copyOp true 0) 0 0).core.tb 0x100000; t.ap = 0#16) := by decide +kernel
/-- A poisoned barrier. -/
theorem witness_barrier_poison : (m0.mapCore (fun c => { c with benchPoison := [(0x100000 / 8, true)] })).core.benchPoisoned 0x100000 16 = true ∧
    m0.core.benchPoisoned 0x100000 16 = false ∧ m0.core.softBench = [] ∧ HandlerReady m0 ∧ m0.hart.snap = false :=
  ⟨by decide +kernel, by decide +kernel, rfl, ⟨rfl, by decide +kernel⟩, rfl⟩
/-- A phase passed, and one still waited for, by tbwait and by a hart that waits. -/
theorem witness_tbwait : let t := (peeling (copyOp true 0) 1 4).core.tb 0x100000
    t.ph ≠ 1#4 ∧ ¬(t.ef = true ∨ t.ph ≠ 0#4 ∨ (0#32 ≠ 0#32 ∧ (0#32).toNat ≤ t.ll.toNat)) ∧
    (m0.mapHart (fun h => { h with run := .waitTb 1 0xFF0000100000#48 0#4 0#32 })).hart.run = .waitTb 1 0xFF0000100000#48 0#4 0#32 := by
  decide +kernel

/-- rkdef of 64 pans, the most; of 65; outside the ways; where a rack stands; of none. -/
def rkdefS (s : State) (shape : Word) : State := (args s bench2 (bench2 + 0x40000#64) 0).setG 3#5 shape
theorem witness_rkdef : let s := rkdefS m0 0x4000001000#64
    let n := uv (s.g 3#5) / 2 ^ 32 % 2 ^ 7; let size := uv (s.g 3#5) % 2 ^ 32
    n = 64 ∧ uv (s.g 3#5) / 2 ^ 39 = 0 ∧ size ∈ [4096, 8192, 16384, 32768, 65536, 131072, 262144] ∧ uv (s.g 1#5) % size = 0 ∧
    uv (s.g 2#5) % 16 = 0 ∧ uv (s.g 1#5) + n * size ≤ uv (s.g 2#5) ∧ BenchRange s (s.g 1#5) (n * size) ∧
    BenchRange s (s.g 2#5) (16 * n) ∧ s.core.rack = none ∧ sparseWf false s.core.benchEngine = true ∧
    64 < uv 0x4100001000#64 / 2 ^ 32 % 2 ^ 7 ∧ uv 0x8000000000#64 / 2 ^ 39 ≠ 0 := by
  simp only [BenchRange, InWindow]; decide +kernel
theorem witness_rkdef_outside : let s := (args m0 (bench2 + 0xC1000#64) bench2 0).setG 3#5 0x4000001000#64
    ¬BenchRange s (s.g 1#5) (64 * 4096) := by simp only [BenchRange, InWindow]; decide +kernel
theorem witness_rkdef_none : (racked .free).core.rack = some (rack0 .free) ∧ (∀ p ∈ (rack0 .free).pans, p.st = .free) ∧
    (∃ p ∈ (rack0 .resv).pans, p.st ≠ .free) ∧ (rack0 .free).ctx = (racked .free).hart.ctxid ∧
    (rack0 .free).ctx ≠ ((racked .free).mapHart (fun h => { h with ctxid := 1 })).hart.ctxid := by decide +kernel

/-- prsv of this core's rack: the second pan by name, the first that is FREE, none left, a pan taken; another core; another
package over a lost port; a bad descriptor. -/
theorem witness_prsv : let v := 0x200000#64
    uv v < 2 ^ 31 ∧ v.extractLsb' 0 12 = m0.pkg.mypkg ∧ v.extractLsb' 12 9 = m0.core.num ∧ m0.core.inReset = false ∧
    v.getLsbD 27 = false ∧ (v.extractLsb' 21 6).toNat = 1 ∧ (rack0 .free).pans[1]?.map (·.st) = some .free ∧
    (0x8000000#64).getLsbD 27 = true ∧ (∀ q ∈ (rack0 .full).pans, q.st ≠ .free) ∧ m0.core.rack = none ∧
    (0x1000#64).extractLsb' 12 9 ≠ m0.core.num ∧ (1#64).extractLsb' 0 12 ≠ m0.pkg.mypkg ∧ ¬uv 0x80000000#64 < 2 ^ 31 := by
  decide +kernel
theorem witness_prsv_room : (m0.core.peel.countP (fun o => !o.out) < 16 ∧ ∀ o ∈ m0.core.peel, o.restored = false) ∧
    (let s := m0.mapCore (fun c => { c with peel := [{ copyOp false 0 with restored := true }] })
     ¬(s.core.peel.countP (fun o => !o.out) < 16 ∧ ∀ o ∈ s.core.peel, o.restored = false)) := by decide +kernel
/-- Package 1 over port 0: the port lost, no route, and a valid route with the port free. -/
theorem witness_prsv_port : let route : List Host.Cell := [(m0.pkg.prtbase.toNat + 15, 0x80#8)]
    let s := m0.mapPkg (fun p => { p with mem := route })
    ((m0.mapPkg (fun p => p.setPort 0 { PortRec.reset with st := .lost })).pkg.port 0).st = .lost ∧ (m0.peerRoute 1#12).v = false ∧
    (s.peerRoute 1#12).v = true ∧ (s.pkg.port 0).st = .up ∧ (s.pkg.port 0).waiting = [] ∧ (s.pkg.port 0).buffer.length < 1024 := by
  decide +kernel
theorem witness_prel : rackPan (racked .full) 1#64 ≠ none ∧ rackPan m0 1#64 = none ∧ rackPan (racked .full) 2#64 = none := by decide +kernel

/-! ### Witnesses: reservations and puts of other agents. -/

/-- A put of four bytes to pan 1, its first two, and the last two behind a landing. -/
def put1 (start : Nat) (bs : List Byte) : PutFlit :=
  { ref := { core := (0#9), pan := 1, seq := 5 }, spkg := 0, port := none, base := 4092, count := 4, final := true,
    residue := 0x604, start := start, data := bs, poison := [] }
def landing1 : Landing :=
  { spkg := 0, port := none, ref := { core := (0#9), pan := 1, seq := 5 }, base := 4092, count := 4, final := true,
    residue := 0x604, done := 2, sum := 0x201, refused := false, gone := false }
/-- A hart that waits for the answer to its request to another core. -/
theorem witness_answer : let k : PrsvOp := { d := 1, a := 2, b := 3, mode := 0, vl := 4, vstart := 0, srseed := 0, srcount := 0, ga := 0x1000, gb := 0 }
    let x : PrsvOut := { gangid := some m0.hart.gangid, port := none, pkg := m0.pkg.mypkg }
    let s := (m0.mapHart (fun h => { h with run := .waitPrsv k })).mapPkg (fun p => { p with prsvOut := [x] })
    s.hart.run = .waitPrsv k ∧ s.pkg.prsvOut = [x] ∧ x.port = none ∧ x.pkg = s.pkg.mypkg ∧ x.gangid = some s.hart.gangid ∧
    NoSuperstep s := ⟨rfl, rfl, rfl, rfl, rfl, rfl, rfl⟩
theorem witness_reservation : (racked .free).core.rack = some (rack0 .free) ∧ (rack0 .free).pans[0]?.map (·.st) = some .free ∧
    (racked .free).core.inReset = false := by decide +kernel
theorem takes (st : PanState) (start : Nat) (bs : List Byte) (s : State) (p : Pan) (h : s.core.rack = some (rack0 st))
    (e : s.core.benchEngine = [(0x100, true), (0x101, true)]) (i : s.core.inReset = false) (c : s.core.num = 0#9) (w : BenchWf s)
    (hp : (rack0 st).pans[1]? = some p) (hs : p.seq = 5) (b : bs ≠ []) (n : start + bs.length ≤ 4) :
    PanTakes s (rack0 st) p (put1 start bs) := by
  refine ⟨⟨c.symm, h, hp⟩, hs, (by decide : 4092 + 4 ≤ 4096), ?_, ⟨rfl, i⟩, ⟨b, n⟩,
    .inl (by simp [panBase, rack0, put1]), (by decide : 4096 % 4096 = 0 ∧ 0x100000 % 4096 = 0 ∧ 0x102000 % 16 = 0), w⟩
  have ee : s.core.engineOwned = fun g => natSetHas [(0x100, true), (0x101, true)] g := by funext g; unfold Core.engineOwned; rw [e]
  have key : (granules (0x101000 + 4092) 4).all (fun g => natSetHas [(0x100, true), (0x101, true)] g) = true := by decide +kernel
  have base : panBase (rack0 st) (put1 start bs).ref.pan.toNat + (put1 start bs).base = 0x101000 + 4092 := by
    simp [panBase, rack0, put1]
  rw [ee, base]; exact key
theorem witness_put_first : ∃ p, (racked .resv).core.rack = some (rack0 .resv) ∧ PanTakes (racked .resv) (rack0 .resv) p (put1 0 [1, 2]) ∧
    p.st = .resv ∧ [1#8, 2#8].length < 4 ∧ (racked .resv).core.rackGone = false ∧
    ((racked .resv).core.tb (panTb (rack0 .resv) 1)).ep.toNat + 4 < 2 ^ 32 ∧ ((racked .resv).core.tb (panTb (rack0 .resv) 1)).ef = false :=
  ⟨_, rfl, takes .resv 0 [1, 2] _ _ rfl rfl rfl rfl ⟨rfl, rfl⟩ rfl rfl (by simp) (by simp), rfl, by simp, rfl, by decide +kernel,
    by decide +kernel⟩
/-- The pan's barrier with AP 1 and EP 2. -/
def landed : State := (racked .fill).mapCore (fun c =>
  { c with landing := [landing1], bench := [(0x102012, 1#8), (0x102014, 1#8), (0x102018, 2#8)] })
theorem witness_put_last : ∃ p, PanTakes landed (rack0 .fill) p (put1 2 [3, 4]) ∧ p.st = .fill ∧ landed.core.landing = [landing1] ∧
    landing1.is (put1 2 [3, 4]) = true ∧ landing1.count = 2 + 2 ∧
    landing1.residue = BitVec.ofNat 16 ((landing1.sum + residueSum [3, 4]) % 65535) ∧
    (landed.core.tb (panTb (rack0 .fill) 1)).ep.toNat = 2 ∧ (landed.core.tb (panTb (rack0 .fill) 1)).ap = 1#16 ∧
    (landed.core.tb (panTb (rack0 .fill) 1)).ef = false :=
  ⟨_, takes .fill 2 [3, 4] _ _ rfl rfl rfl rfl ⟨by decide +kernel, rfl⟩ rfl rfl (by simp) (by simp), rfl, rfl, by decide +kernel,
    rfl, by decide +kernel, by decide +kernel, by decide +kernel, by decide +kernel⟩
/-- A put of this core whose elements have all gone out, on the barrier of way 2. -/
def putOp : PeelOp := { copyOp true 4 with instr := .bput 6 1 4, gd := 0x500200000#64, sent := [0, 1], gone := true }
theorem witness_put_status : let s := peeling putOp 2 2; let m : PutStatusMsg := { ref := { core := 0, pan := 1, seq := 5 }, ec := 3, done := 0 }
    s.core.peel = [putOp] ∧ isPut putOp.instr = true ∧ putOp.gone = true ∧ putOp.ref = m.ref ∧ putOp.tokPkg = s.pkg.mypkg ∧ putOp.vl ≤ putOp.vstart ∧ putOp.ended = false ∧
    (s.core.tb 0x100000).ef = false ∧ putOp.sent.length ≤ (s.core.tb 0x100000).ep.toNat ∧ 1 < (s.core.tb 0x100000).ap.toNat := by
  decide +kernel
theorem witness_discard : ∃ p, (rack0 .fill).pans[1]? = some p ∧ p.seq = 5#16 ∧ p.st = .fill ∧ (rack0 .fill).tbs % 16 = 0 ∧ BenchWf (racked .fill) :=
  ⟨_, rfl, rfl, rfl, by decide, ⟨rfl, rfl⟩⟩

/-! ### Witnesses: hypotheses. -/

/-- An entry of the hypothesis table. -/
def hyp0 (p : BitVec 12) (d : BitVec 4) (o : BitVec 8) (st : HypState) : HypEntry := { parent := p, depth := d, owner := o, st := st }
/-- m0 under hypothesis h with a table, operand a. -/
def under (h : BitVec 12) (a : Word) (t : Sparse HypEntry) : State :=
  ((args m0 a 0 0).mapHart (fun x => { x with hyp := h })).mapPkg (fun p => { p with hyps := t })
/-- 1 and below it 2, both OPEN; 3 MERGED; 4 of context 5. -/
def table : Sparse HypEntry := [(1, hyp0 0 1 0 .open), (2, hyp0 1 2 0 .open), (3, hyp0 0 1 0 .merged), (4, hyp0 0 1 5 .open)]
theorem get_full (e : HypEntry) (a n k : Nat) (h : a ≤ k) (h' : k < a + n) :
    sparseGet HypEntry.free ((List.range' a n).map (fun x => (x, e))) k = e := by
  induction n generalizing a with
  | zero => omega
  | succ n ih =>
    simp only [List.range'_succ, List.map_cons, sparseGet]
    split
    · exact ih _ (by omega) (by omega)
    · split <;> [rfl; omega]
/-- Depth 15; no FREE id; the lowest FREE id is 5. -/
theorem witness_hopen : (let s := under 1 0 [(1, hyp0 0 15 0 .open)]; s.hart.snap = false ∧ (s.pkg.hypEntry (s.pkg.resolve 16 s.hart.hyp)).depth = 15#4) ∧
    (let s := under 1 0 table
     (s.pkg.hypEntry (s.pkg.resolve 16 s.hart.hyp)).depth ≠ 15#4 ∧ (s.pkg.hypEntry 5).st = .free ∧
     (∀ m : BitVec 12, m ≠ 0#12 → m < 5#12 → (s.pkg.hypEntry m).st ≠ .free)) := by decide +kernel
theorem witness_hopen_full : let s := under 0 0 ((List.range' 1 4095).map (fun x => (x, hyp0 0 1 0 .open)))
    s.hart.hyp = 0#12 ∧ ∀ m : BitVec 12, m ≠ 0#12 → (s.pkg.hypEntry m).st ≠ .free := by
  refine ⟨rfl, fun m h => ?_⟩
  have hm : 1 ≤ m.toNat ∧ m.toNat < 1 + 4095 := by
    refine ⟨Nat.one_le_iff_ne_zero.mpr fun c => h (BitVec.eq_of_toNat_eq c), ?_⟩
    have := m.isLt; omega
  have e : Pkg.hypEntry (under 0 0 ((List.range' 1 4095).map (fun x => (x, hyp0 0 1 0 .open)))).pkg m = hyp0 0 1 0 .open := by
    simp only [Pkg.hypEntry, h, if_false]
    exact get_full _ 1 4095 _ hm.1 hm.2
  intro c
  have f := (congrArg HypEntry.st e).symm.trans c
  cases f
/-- henter of an own OPEN id, of the root, of a word with high bits, of a MERGED id, of another context's. -/
theorem witness_henter : (let s := under 0 2 table; (s.pkg.hypEntry 2).st = .open ∧ (s.pkg.hypEntry 2).owner = s.hart.ctxid) ∧
    (0x1000#64).extractLsb' 12 52 ≠ 0#52 ∧ (0xFFF#64).extractLsb' 12 52 = 0#52 ∧
    (let s := under 0 3 table; (s.pkg.hypEntry 3).st ≠ .open) ∧
    (let s := under 0 4 table; (s.pkg.hypEntry 4).st = .open ∧ (s.pkg.hypEntry 4).owner ≠ s.hart.ctxid) ∧
    (m0.mapHart (fun h => { h with snap := true })).hart.snap = true := by decide +kernel
/-- hres: a bad operand, an id that is not OPEN, another context's, one with an open child, an ancestor of HYP. -/
theorem witness_hres_status : (let s := under 2 0 table; s.hart.snap = false ∧ (s.g 1#5).setWidth 12 = 0#12) ∧
    (let s := under 2 3 table; Settled s ∧ (s.pkg.hypEntry 3).st ≠ .open) ∧
    (let s := under 2 4 table; (s.pkg.hypEntry 4).st = .open ∧ (s.pkg.hypEntry 4).owner ≠ s.hart.ctxid) ∧
    (let s := under 2 1 table; (s.pkg.hypEntry 1).st = .open ∧ (s.pkg.hypEntry 1).owner = s.hart.ctxid ∧ s.pkg.openChild 1 = true ∧
      s.pkg.isAncestor 1 s.hart.hyp = true) :=
  ⟨by decide +kernel, ⟨settled_of _ (by decide +kernel), by decide +kernel⟩, by decide +kernel, by decide +kernel⟩
/-- A version of line 0x400 at its home, with byte 63 written. -/
def version (h : BitVec 12) : Version :=
  { line := 0x400, id := h, mask := 1#64 <<< 63, data := 0xAB#512 <<< 504, poison := 0, place := .home, lock := [], use := 1 }
def tentative (h : BitVec 12) (a : Word) : State := (under h a table).mapPkg (fun p => { p with versions := [version (a.setWidth 12)] })
theorem witness_confirm_parent : let s := tentative 2 2
    s.hart.snap = false ∧ Settled s ∧ (s.pkg.hypEntry 2).st = .open ∧ (s.pkg.hypEntry 2).owner = s.hart.ctxid ∧
    s.pkg.areas = [] ∧ s.hart.run = .running ∧ s.pkg.openChild 2 = false ∧ s.pkg.resolve 16 (s.pkg.hypEntry 2).parent = 1#12 ∧
    (∀ x ∈ s.pkg.versions, s.foreign x.line = false ∧ ∀ k, x.place ≠ .other k) :=
  ⟨rfl, settled_of _ (by decide +kernel), by decide +kernel, by decide +kernel, rfl, rfl, by decide +kernel, by decide +kernel,
    fun x h => by cases List.mem_singleton.mp h; exact ⟨by decide +kernel, fun k c => by cases c⟩⟩
/-- The same of id 1 alone, whose parent is the root. -/
def rooted : State := (under 1 1 [(1, hyp0 0 1 0 .open)]).mapPkg (fun p => { p with versions := [version 1] })
theorem witness_confirm_root : rooted.hart.snap = false ∧ Settled rooted ∧ (rooted.pkg.hypEntry 1).st = .open ∧
    (rooted.pkg.hypEntry 1).owner = rooted.hart.ctxid ∧ rooted.pkg.areas = [] ∧ rooted.hart.run = .running ∧
    rooted.pkg.openChild 1 = false ∧ rooted.pkg.resolve 16 (rooted.pkg.hypEntry 1).parent = 0#12 ∧
    rooted.pkg.versions = [version 1] ∧ (version 1).id = 1#12 ∧ (version 1).place = .home ∧ rooted.hart.maint = false ∧
    HomeCounter rooted ((version 1).line * 64) :=
  ⟨rfl, settled_of _ (by decide +kernel), by decide +kernel, by decide +kernel, rfl, rfl, by decide +kernel, by decide +kernel,
    by decide +kernel, by decide +kernel, by decide +kernel, by decide +kernel, ⟨by decide +kernel, by decide +kernel, by decide +kernel,
      by decide +kernel, by unfold Unspoilt; decide +kernel, by unfold RoomInSlice; decide +kernel, by unfold State.MemWf; decide +kernel⟩⟩
theorem witness_refute : let s := tentative 0 1
    s.hart.snap = false ∧ Settled s ∧ (s.pkg.hypEntry 1).st = .open ∧ (s.pkg.hypEntry 1).owner = s.hart.ctxid ∧
    s.pkg.areas = [] ∧ s.hart.run = .running ∧ s.pkg.isAncestor 1 s.hart.hyp = false ∧ s.pkg.isAncestor 1 2 = true ∧ s.pkg.isAncestor 1 4 = false :=
  ⟨rfl, settled_of _ (by decide +kernel), by decide +kernel, by decide +kernel, rfl, rfl, by decide +kernel, by decide +kernel,
    by decide +kernel⟩
theorem witness_orphan : let s := (under 2 0 table).mapHart (fun h => { h with orphan := some 2 })
    s.hart.orphan = some 2#12 ∧ s.hart.run = .running ∧ s.hart.trigger = false ∧ s.core.units = [] ∧
    (∀ w ∈ s.pkg.peerWaits, w.who ≠ .hart) ∧ HandlerReady s :=
  ⟨rfl, rfl, rfl, rfl, by decide +kernel, ⟨rfl, by decide +kernel⟩⟩
theorem witness_hyp_free : let s := under 2 0 table
    (s.pkg.hypEntry 3).st = .merged ∧ s.hypNamed 3 = false ∧ (∀ x ∈ s.pkg.hyps, x.2.parent ≠ 3#12) ∧
    sparseWf HypEntry.free s.pkg.hyps = true := by decide +kernel

/-! ### Witnesses: homes and the asynchronous steps of the hart. -/

/-- A request of core 3 for the line 0x400, which nobody owns; of one with LTIME 0xEFFE. -/
def asks : CoreRequest := { core := 3, t := 0xEFFE, lease := 16, hyp := 0, race := none, count := none }
theorem witness_home : CalmLine m1 0x400 ∧ PlainRequest m1 asks ∧
    (∀ t : BitVec 16, t = 0 ∨ t = 0xEFFE → Near m1 (serMax t ((m1.pkg.home 0x400).rts + 1#16))) ∧
    EmptyCache m1 ∧ NoInjection m1 ∧ m1.hart.maint = false ∧ 0x10000 / 64 = 0x400 ∧ 0x10000 % 8 = 0 ∧ m1.pkg.linePoison 0x400 = 0#8 ∧
    m1.hart.ltime = 0#16 := by
  refine ⟨⟨⟨by decide +kernel, by decide +kernel, by decide +kernel, by unfold State.MemWf; decide +kernel⟩,
    by unfold Unspoilt; decide +kernel, by unfold RoomInSlice; decide +kernel⟩, ⟨by decide +kernel, rfl, rfl, rfl⟩, ?_, ⟨rfl, rfl, rfl⟩,
    rfl, rfl, rfl, rfl, by decide +kernel, rfl⟩
  intro t h; rcases h with rfl | rfl <;> unfold Near <;> decide +kernel
/-- A line of the host window, and one of a page in host bias. -/
theorem witness_home_never_owned : isDevice (0x10_0000_0000 * 64) = false ∧
    natSetHas (m1.mapPkg (fun p => { p with hostBias := [(16, true)] })).pkg.hostBias (0x400 * 64 / 4096) = true := by decide +kernel
/-- A line that core 3 owns; and the line of m2, dirty here, and locked. -/
theorem witness_home_owned : (let s := m1.mapPkg (fun p => p.setHome 0x400 { wts := 5, rts := 5, owner := some 3 })
      (s.pkg.home 0x400).owner = some asks.core ∧ Near s (serMax 5 7) ∧ s.MemWf ∧ sparseWf false s.pkg.memPoison = true) ∧
    m2.core.findLine 0x400 0#12 = some dirty0 ∧ dirty0.st = .d ∧ dirty0.lock = [] ∧ m2.MemWf ∧ m2.hart.maint = false ∧
    Near m2 (serMax (m2.pkg.home 0x400).wts m2.hart.ltime) ∧
    (let l := { dirty0 with lock := [0#8] }; (m2.mapCore (fun c => { c with lines := [l] })).core.findLine 0x400 0#12 = some l) := by
  unfold Near State.MemWf; decide +kernel
/-- A record of a write of core 5 under stamp 7 meets a request of core 3 for the byte under that stamp, and under no other;
a counter one access below its threshold and at it, and a line of pantry. -/
theorem witness_home_marks : (let e : RaceSide := { core := 5, stamp := 7, mask := 8, hyp := 0 }
     let s := m1.mapPkg (fun p => { p with stamp := 9, races := [(0x2007, { writer := some e, reader := some e })] })
     let m : RaceMark := { stamp := 7, off := 0x3B, n := 1 }
     (sparseGet RaceRec.empty s.pkg.races (0x400 * 8 + m.off / 8)).writer = some e ∧ e.core ≠ asks.core ∧ e.stamp = m.stamp ∧
     e.mask &&& BitVec.ofNat 8 ((2 ^ m.n - 1) * 2 ^ (m.off % 8)) ≠ 0#8 ∧ (s.pkg.stamp - e.stamp).toNat ≤ 2 ^ 19 ∧ m.off < 64 ∧
     e.stamp ≠ 8#20) ∧
    regionOf (0x8_0000_0000 * 64) = some .pantry ∧ regionOf (0x8_0000_0000 * 64) ≠ some .hbm ∧ regionOf (0x400 * 64) = some .hbm ∧
    CalmLine m1 0x8_0000_0000 ∧ sparseWf Counter.zero m1.pkg.counters = true ∧
    ((sparseGet Counter.zero m1.pkg.counters (0x8_0000_0000 * 64 / 65536)).n + 1#16).toNat < 2 ^ ((0#4).toNat + 4) := by
  refine ⟨by decide +kernel, by decide +kernel, by decide +kernel, by decide +kernel, ⟨⟨by decide +kernel, by decide +kernel, by decide +kernel,
    by unfold State.MemWf; decide +kernel⟩, by unfold Unspoilt; decide +kernel, by unfold RoomInSlice; decide +kernel⟩,
    by decide +kernel, by decide +kernel⟩
/-- A race record older than 2^18 and one younger; the line of m2 is held. -/
theorem witness_races : let t : Sparse RaceRec :=
      [(0x2000, { writer := some { core := 0, stamp := 1, mask := 1, hyp := 0 }, reader := some { core := 1, stamp := 0x40000, mask := 1, hyp := 0 } })]
    let s := m2.mapPkg (fun p => { p with races := t, stamp := 0x40002 })
    sparseWf RaceRec.empty s.pkg.races = true ∧ 2 ^ 18 < (s.pkg.stamp - 1#20).toNat ∧ ¬2 ^ 18 < (s.pkg.stamp - 0x40000#20).toNat ∧
    (∃ x ∈ s.core.lines, x.line = 0x2000 / 8) :=
  ⟨by decide +kernel, by decide +kernel, by decide +kernel, ⟨_, List.mem_singleton.mpr rfl, rfl⟩⟩
/-- An idle that watches a line, hit. -/
theorem witness_watch : let s := m0.mapHart (fun h => { h with run := .watch (some 0x400) true }); s.hart.run = .watch (some 0x400) true := rfl
theorem witness_array_error : let s := m0.mapHart (fun h => { h with arrayError := some 0x1004#64 })
    s.hart.arrayError = some 0x1004#64 ∧ s.hart.run = .running ∧ s.hart.trigger = false ∧ s.core.units = [] ∧ s.hart.snap = false ∧
    (∀ w ∈ s.pkg.peerWaits, w.who ≠ .hart) ∧ HandlerReady s := ⟨rfl, rfl, rfl, rfl, rfl, by decide +kernel, ⟨rfl, by decide +kernel⟩⟩
/-- A hart state error in a SNAP gang that has rolled back twice in this superstep, and in another gang. -/
theorem witness_hart_state_error : (let s := m0.mapHart (fun h => { h with snap := true, rbCur := 2 })
      s.hart.run ≠ .idle ∧ s.core.ue = false ∧ s.hart.trigger = false ∧ s.hart.snap = true ∧ s.hart.rbCur ≠ 3#2) ∧
    m0.hart.run ≠ .idle ∧ m0.core.ue = false ∧ m0.hart.trigger = false ∧ m0.hart.snap = false ∧ m0.core.storeQ = [] ∧ m0.core.checkedStores = [] ∧ m0.core.peel = [] := by
  decide +kernel
/-- A rollback of hypothesis 1, the count of rollbacks at its end. -/
def back : Captured :=
  { g := Vector.replicate 32 7, pc := 0x1003#48, mode := mFp32, vl := 4, vlmax := 16384, vlceil := 65536, rds := 0, srseed := 0, srcount := 0,
    fcrShape := 0, fcrFe := 0, lease := 16, act := 0, wcount := 0, th := false, trapcause := 0, trappc := 0, trapval := 0,
    trapvec := 0x8000#48, peelMark := 0, tbs := [], spoilt := false }
theorem witness_rollback : let s := (((under 1 0 table).mapHart (fun h => { h with snap := true, trigger := true, rbTotal := BitVec.allOnes 32 })).mapCore
      (fun c => { c with captured := some back }))
    s.hart.trigger = true ∧ s.shadowLost = none ∧ s.core.captured = some back ∧ s.core.shadows = [] ∧ s.core.peel = [] ∧ s.hart.hyp ≠ 0#12 ∧
    s.pkg.areas = [] := by decide +kernel
/-- A fault record and a report for ring 4095, which has room. -/
def report0 : RingRecord := RingRecord.mk 4095 1 2 3 4
theorem lone (s : State) (a : Nat) (h : s.core.lines = [] ∧ s.pkg.versions = [] ∧ (s.pkg.home (a / 64)).owner = none ∧
    s.pkg.memSoft = [] ∧ s.pkg.memHard = [] ∧ s.core.meshFault = false ∧ s.MemWf) : LoneHome s a :=
  ⟨h.1, h.2.1, h.2.2.1, ⟨(by simp [h.2.2.2.1]), (by simp [h.2.2.2.2.1]), h.2.2.2.2.2.1⟩,
    h.2.2.2.2.2.2⟩
theorem witness_rings : let s := (m0.mapCore (fun c => { c with faultRecs := [report0] })).mapPkg (fun p => { p with ring := [report0] })
    let r := m0.mapCore (fun c => { c with reports := [report0] })
    let base := 0x0400_0000_0000 + s.peek (s.pkg.rrtbase.toNat + 16 * 4095) 8
    s.core.faultRecs = [report0] ∧ s.pkg.ring = [report0] ∧ s.core.reports = [] ∧ s.ringRoom 4095 = true ∧ base % 64 = 0 ∧
    LoneHome s (base + 32 * ((sparseGet 0#64 s.pkg.rtail 4095).toNat % s.ringSize 4095)) ∧ sparseWf 0#64 s.pkg.rtail = true ∧
    r.core.reports = [report0] ∧ r.pkg.ring = [] ∧ r.core.storeQ = [] ∧ r.pkg.accessesOut = false ∧
    (r.mapCore (fun c => { c with storeQ := [qBench] })).core.storeQ ≠ [] :=
  ⟨rfl, rfl, rfl, by decide +kernel, by decide +kernel, lone _ _ (by unfold State.MemWf; decide +kernel), rfl, rfl, rfl, rfl,
    by decide +kernel, by decide +kernel⟩
/-- A hart parked on record 9, and a unit entry parked on it. -/
theorem witness_parked : let s := (running mI8 (.vid 0)).mapHart (fun h => { h with run := .parked 9 })
    s.pkg.saved = [] ∧ s.hart.run = .parked 9#32 ∧ s.hart.orphan = none ∧ HandlerReady s := ⟨rfl, rfl, rfl, ⟨rfl, by decide +kernel⟩⟩

/-! ### Witnesses: the host, peers, ports, the debugger, resets. -/

/-- A queue that the host fills: one slot of two is free and TAIL moves to 1; queue 0 of no table admits nothing. -/
def hosted : State := m0.mapPkg (fun p => { p with qdtbase := 0x3000, queuesOn := true, mem := [(0x3001, 0x50#8), (0x300A, 0xB0#8)] })
theorem witness_qtail : (let d := hosted.queueDesc 0; d.en = true ∧ d.host = true ∧ 1 < d.n ∧ d.used + (1 + d.n - d.tail % d.n) % d.n < d.n) ∧
    hosted.pkg.frozen = false ∧ hosted.pkg.heldTails = [] ∧ hosted.foreignIn (hosted.queueAt 0) 32 = false ∧
    LoneHome hosted (hosted.queueAt 0 + 14) ∧ (m0.queueDesc 0).en = false ∧ ¬2 < (hosted.queueDesc 0).n ∧
    (m0.mapPkg (fun p => { p with frozen := true })).pkg.frozen = true ∧
    (let s := hosted.mapPkg (fun p => p.setHome (0x3000 / 64) { wts := 0, rts := 0, owner := some 1#9 })
     s.foreignIn (s.queueAt 0) 32 = true) :=
  ⟨by decide +kernel, rfl, rfl, by decide +kernel, lone _ _ (by unfold State.MemWf; decide +kernel), by decide +kernel, by decide +kernel,
    rfl, by decide +kernel⟩
/-- CTXKILL of the hart's context, of another, and without bit 8. -/
theorem witness_ctxkill : (0x100#64).getLsbD 8 = true ∧ (0xFF#64).getLsbD 8 = false ∧ m0.hart.run ≠ .idle ∧ m0.hart.ctxid = (0x100#64).setWidth 8 ∧
    m0.hart.ctxid ≠ (0x1FF#64).setWidth 8 ∧ m0.pkg.requests = [] ∧ m0.pkg.saved = [] ∧ m0.core.lines = [] ∧
    (let s := under 0 0 table; sparseWf HypEntry.free s.pkg.hyps = true ∧ (s.pkg.hypEntry 4).owner = (0x105#64).setWidth 8) := by decide +kernel
/-- A flip of page 16, whose line 0x400 is dirty here, to the host, and back. -/
def flipping (c : BitVec 2) : State := m2.mapPkg (fun p => { p with biasBusy := true, biasCmd := c, biasPage := 0x10000 })
theorem witness_flip : (flipping 1).pkg.biasBusy = true ∧ (flipping 1).pkg.biasCmd = 1#2 ∧ (flipping 2).pkg.biasCmd = 2#2 ∧
    16 = (flipping 1).pkg.biasPage.toNat / 4096 ∧ isDevice (16 * 4096) = true ∧ (flipping 1).pageBlocked 16 = false ∧
    (∀ l, ((flipping 1).core.owned l).isSome = true → ((flipping 1).pkg.home l).owner = some (flipping 1).core.num) ∧ (flipping 1).MemWf ∧ (flipping 1).pkg.heldReqs = [] ∧
    sparseWf false (flipping 2).pkg.hostBias = true ∧ (flipping 2).pkg.versions = [] ∧ m2.pkg.biasBusy = false := by
  refine ⟨rfl, rfl, rfl, by decide +kernel, by decide +kernel, by decide +kernel, ?_, by unfold State.MemWf; decide +kernel, rfl, rfl, rfl, rfl⟩
  intro l h
  have e : (flipping 1).core.lines = [dirty0] := rfl
  by_cases x : l = 0x400
  · subst x; decide +kernel
  · exfalso
    simp only [Core.owned, List.find?_isSome] at h
    obtain ⟨y, hy, p⟩ := h
    have z : y = dirty0 := List.mem_singleton.mp hy
    subst z
    simp [dirty0, Ne.symm x] at p
/-- A host access to the last byte of a line of page 16 in host bias, and a host line at the adapter. -/
theorem witness_host_access : let s := m0.mapPkg (fun p => { p with hostBias := [(16, true)] })
    s.pkg.frozen = false ∧ s.pkg.biasBusy = false ∧ s.pkg.heldReqs = [] ∧ isDevice 0x1003F = true ∧
    natSetHas s.pkg.hostBias (0x1003F / 4096) = true ∧ Unspoilt s (0x1003F / 64) ∧ s.core.lines = [] ∧ s.MemWf ∧
    0x1003F % 64 + [1#8].length ≤ 64 ∧ natSetHas m2.pkg.hostBias (0x1003F / 4096) = false ∧ m2.pageBlocked (0x1003F / 4096) = false ∧
    (m2.mapPkg (fun p => p.setHome 0x401 { wts := 0, rts := 0, owner := some 3 })).pageBlocked (0x1003F / 4096) = true := by
  unfold State.MemWf Unspoilt; decide +kernel
theorem witness_snoop : m0.pkg.atAdapter (0x0400_0000_0000 / 64) = true ∧ sparseWf false m0.pkg.hostHeld = true ∧ m0.core.lines = [] ∧ m0.MemWf ∧
    sparseWf 0#64 m0.pkg.rhead = true := by unfold State.MemWf; decide +kernel

/-- The route of package 1 has V and IN, that of package 0 neither; a poisoned word; a line that core 3 owns. -/
def routed : State := m0.mapPkg (fun p => { p with prtbase := 0x6000, mem := [(0x600F, 0xC0#8)], memPoison := [(0x2001, true)] })
def awaited : PeerWait := { dpa := 0x8008_0001_0000, remote := 0x10000, size := 8, who := .hart, op := none, port := 0, answer := none }
theorem witness_peers : (routed.peerRoute 0).into = false ∧ (routed.peerRoute 1).into = true ∧ (routed.peerRoute 1).port = 0#3 ∧
    PortFree routed 0 ∧ routed.peerHeld 1 0x10000 = false ∧ routed.peerHeld 0 0x10000 = false ∧ routed.peerHeld 1 0x1003F = false ∧
    regionOf 0x10000 = some .hbm ∧ Unspoilt routed (0x10000 / 64) ∧ LoneHome routed 0x10000 ∧ LoneHome routed 0x1003F ∧
    routed.pkg.poisoned 0x10008 8 = true ∧ routed.pkg.poisoned 0x10000 8 = false ∧ 0x10000 % 8 = 0 ∧ 0x1003F % 64 + [1#8].length ≤ 64 ∧
    (routed.mapPkg (fun p => p.setHome 0x400 { wts := 0, rts := 0, owner := some 3 })).peerHeld 1 0x10000 = true ∧
    peerPkg awaited.dpa = 1#12 ∧ awaited.remote = 0x10000 ∧ awaited.answer = none ∧
    (routed.mapPkg (fun p => { p with peerWaits := [awaited] })).pkg.peerWaits = [] ++ awaited :: [] := by
  have l : ∀ a, (routed.pkg.home (a / 64)).owner = none → LoneHome routed a :=
    fun a h => lone routed a ⟨rfl, rfl, h, rfl, rfl, rfl, by unfold State.MemWf; decide +kernel⟩
  refine ⟨by decide +kernel, by decide +kernel, by decide +kernel, by unfold PortFree; decide +kernel, by decide +kernel, by decide +kernel,
    by decide +kernel, by decide +kernel, (l 0x10000 (by decide +kernel)).unspoilt, l _ (by decide +kernel), l _ (by decide +kernel),
    by decide +kernel, by decide +kernel, by decide +kernel, by decide +kernel, by decide +kernel, by decide +kernel, rfl, rfl, rfl⟩

/-- A flit with this header, its CRC in place. -/
def flitOf (w0 : Word) (low : BitVec 32) (m : Payload) : Flit :=
  let body := List.replicate 240 0#8
  { w0 := w0, w1 := crc32c (leBytes 8 w0.toNat ++ leBytes 4 low.toNat ++ body) ++ low, body := body, payload := m, refused := [] }
theorem low_bytes (c low : BitVec 32) : leBytes 4 (c ++ low).toNat = leBytes 4 low.toNat := by
  have h : (c ++ low).toNat = c.toNat * 2 ^ 32 + low.toNat := by
    rw [BitVec.toNat_append, Nat.shiftLeft_eq, Nat.mul_comm, ← Nat.two_pow_add_eq_or_of_lt low.isLt]
  rw [h]
  simp only [leBytes, List.cons.injEq, and_true]
  refine ⟨?_, ?_, ?_, ?_⟩ <;> (apply BitVec.eq_of_toNat_eq; simp only [BitVec.toNat_ofNat]; omega)
theorem high_bits (c low : BitVec 32) : (c ++ low).extractLsb' 32 32 = c := by
  have h : (c ++ low).toNat = c.toNat * 2 ^ 32 + low.toNat := by
    rw [BitVec.toNat_append, Nat.shiftLeft_eq, Nat.mul_comm, ← Nat.two_pow_add_eq_or_of_lt low.isLt]
  apply BitVec.eq_of_toNat_eq
  rw [BitVec.extractLsb'_toNat, h, Nat.shiftRight_eq_div_pow]
  have := c.isLt; have := low.isLt
  omega
theorem flitOf_crc (w0 : Word) (low : BitVec 32) (m : Payload) : flitCrcOk (flitOf w0 low m) = true := by
  unfold flitCrcOk flitOf
  simp only [low_bytes, high_bits, List.length_replicate, decide_true, Bool.and_self]
theorem low_field (c low : BitVec 32) : (c ++ low).extractLsb' 20 12 = low.extractLsb' 20 12 := by
  have h : (c ++ low).toNat = c.toNat * 2 ^ 32 + low.toNat := by
    rw [BitVec.toNat_append, Nat.shiftLeft_eq, Nat.mul_comm, ← Nat.two_pow_add_eq_or_of_lt low.isLt]
  apply BitVec.eq_of_toNat_eq
  rw [BitVec.extractLsb'_toNat, BitVec.extractLsb'_toNat, h, Nat.shiftRight_eq_div_pow, Nat.shiftRight_eq_div_pow]
  omega
theorem flitOf_nk (w0 : Word) (low : BitVec 32) (m : Payload) (h : w0.getLsbD 34 = true) :
    flitNk (flitOf w0 low m) = some (low.extractLsb' 20 12) := by
  unfold flitNk flitOf
  simp only [h, if_true, low_field]
theorem flitOf_typed (w0 : Word) (low : BitVec 32) (m : Payload) (h : payloadType m = min (w0.extractLsb' 60 4).toNat 9)
    (g : flitSays (flitOf w0 low m) = true) : flitTyped (flitOf w0 low m) = true := by
  simp only [flitTyped, flitOf_crc, g, Bool.and_true, Bool.not_true, Bool.false_or, decide_eq_true_eq]
  exact h
/-- A peer write of package 1 to the last byte of a line, SEQ 0; the same with SEQ 1; one cut short; TYPE 15. -/
theorem witness_flits : let f := flitOf 0x8000000000000001#64 0 (.peerWrite 0x1003F [1#8] false); let r := routed.pkg.port 0
    r.st = .up ∧ routed.pkg.freezing = false ∧ r.held = [] ∧ r.nkOut = false ∧ flitTyped f = true ∧ flitType f = 8 ∧ flitCrcOk f = true ∧ flitDpkg f = routed.pkg.mypkg ∧
    flitSeq f = r.expected ∧ flitAck f = none ∧ flitNk f = none ∧ (routed.peerRoute (flitSpkg f)).into = true ∧ routed.peerHeld (flitSpkg f) 0x1003F = false ∧
    isDevice 0x1003F = true ∧ LoneHome routed 0x1003F ∧
    (let x := flitOf 0x8001000000000001#64 0 (.peerWrite 0x1003F [1#8] false); flitTyped x = true ∧ flitSeq x ≠ r.expected) ∧
    flitCrcOk { f with body := [] } = false ∧ (let x := flitOf 0xF000000000000001#64 0 .reserved; flitTyped x = true ∧ ¬flitType x < 9) :=
  ⟨rfl, rfl, rfl, rfl, flitOf_typed _ _ _ (by decide) rfl, by decide +kernel, flitOf_crc _ _ _, by decide +kernel, by decide +kernel, by decide +kernel, by decide +kernel,
    by decide +kernel, by decide +kernel, by decide +kernel, lone _ _ (by unfold State.MemWf; decide +kernel),
    ⟨flitOf_typed _ _ _ (by decide) rfl, by decide +kernel⟩, rfl, flitOf_typed _ _ _ (by decide) rfl, by decide +kernel⟩
/-- Three buffered flits of which the second is acknowledged, or named by an NK; one sent fifteen times. -/
def sent (n : BitVec 12) (k : Nat) : SentFlit := { seq := n, dpkg := 1, payload := .peerRead 0 8 none, times := k, lands := none, ctx := 0, cookie := 0 }
def sending (k : Nat) : State := m0.mapPkg (fun p => p.setPort 0 { PortRec.reset with buffer := [sent 0 1, sent 1 k, sent 2 1] })
theorem witness_acks : let s := sending 14; let r := s.pkg.port 0
    s.pkg.freezing = false ∧ r.st = .up ∧ r.held = [] ∧ r.waiting = [] ∧ r.buffer = [sent 0 1] ++ sent 1 14 :: [sent 2 1] ∧ r.buffer.length ≤ 1024 ∧ (r.buffer.map (·.seq)).Nodup ∧
    (∀ y ∈ r.buffer, y.times < 15) ∧ (∀ y ∈ r.buffer, y.lands = none) := by decide +kernel
theorem witness_idle_flits : let i := flitOf 0#64 0 .idle; let a := flitOf 0x0000001800000000#64 0 .idle
    let n := flitOf 0x0000000400000000#64 0x00100000#32 .idle
    (flitType i = 0 ∧ flitTyped i = true ∧ flitCrcOk i = true ∧ flitAck i = none ∧ flitNk i = none) ∧
    (flitType a = 0 ∧ flitTyped a = true ∧ flitCrcOk a = true ∧ flitAck a = some 1#12 ∧ flitNk a = none) ∧
    (flitType n = 0 ∧ flitTyped n = true ∧ flitCrcOk n = true ∧ flitAck n = none ∧ flitNk n = some 1#12) :=
  ⟨⟨rfl, flitOf_typed _ _ _ (by decide) rfl, flitOf_crc _ _ _, by decide +kernel, by decide +kernel⟩,
    ⟨rfl, flitOf_typed _ _ _ (by decide) rfl, flitOf_crc _ _ _, by decide +kernel, by decide +kernel⟩,
    ⟨rfl, flitOf_typed _ _ _ (by decide) rfl, flitOf_crc _ _ _, by decide +kernel, flitOf_nk _ _ _ (by decide +kernel)⟩⟩
theorem witness_resend : let s := m0.mapPkg (fun p => p.setPort 7 { PortRec.reset with buffer := [sent 0 15, sent 1 1] })
    s.pkg.freezing = false ∧ (s.pkg.port 7).st = .up ∧ (s.pkg.port 7).buffer = sent 0 15 :: [sent 1 1] ∧ (sent 0 15).times = 15 := by decide +kernel
/-- Lanes 7 and 8 of all sixteen, lane 3 of the lower eight, lane 12 of the last quarter; lane 8 is not of the lower eight. -/
theorem witness_lanes : inGroup .all 7 ∧ narrower .all 7 = some .high8 ∧ narrower .all 8 = some .low8 ∧ inGroup .low8 3 ∧
    narrower .low8 3 = some (.quarter 1) ∧ inGroup (.quarter 3) 12 ∧ narrower (.quarter 3) 12 = none ∧ ¬inGroup .low8 8 ∧
    (m0.pkg.port 0).st ≠ .lost ∧ (m0.pkg.port 0).group = .all ∧ Unused m0 0 :=
  ⟨trivial, rfl, rfl, (by decide : 3 < 8), rfl, (by decide : 12 / 4 = 3), rfl, (by decide : ¬8 < 8), by decide +kernel, rfl, ⟨rfl, rfl, rfl, rfl, rfl, rfl, rfl, rfl⟩⟩
def port0 (r : PortRec) : State := m0.mapPkg (fun p => p.setPort 0 r)
theorem witness_port_states : (let s := port0 { PortRec.reset with st := .down }
      (s.pkg.port 0).st = .down ∧ (s.pkg.port 0).waiting = [] ∧ (s.pkg.port 0).buffer.length ≤ 1024 ∧ Unused s 0) ∧
    (let s := port0 { PortRec.reset with group := .quarter 3 }; (s.pkg.port 0).st ≠ .lost ∧ (s.pkg.port 0).group = .quarter 3 ∧ Unused s 0) ∧
    ((port0 { PortRec.reset with st := .lost }).pkg.port 0).st = .lost ∧ (port0 PortRec.reset).pkg.freezing = false ∧
    (port0 PortRec.reset).pkg.frozen = false ∧
    (let s := port0 { PortRec.reset with nkOut := true, ackDue := true }
     s.pkg.freezing = false ∧ (s.pkg.port 0).st = .up ∧ (s.pkg.port 0).nkOut = true ∧ (s.pkg.port 0).ackDue = true ∧ (s.pkg.port 0).held = []) ∧
    (let s := (port0 { PortRec.reset with st := .down }).mapPkg (fun p => { p with freezing := true, frozen := true })
     (s.pkg.port 0).st = .down ∧ s.pkg.freezing = true ∧ s.pkg.frozen = true) :=
  ⟨⟨rfl, rfl, by decide +kernel, ⟨rfl, rfl, rfl, rfl, rfl, rfl, rfl, rfl⟩⟩, ⟨by decide +kernel, rfl, ⟨rfl, rfl, rfl, rfl, rfl, rfl, rfl, rfl⟩⟩, rfl,
    rfl, rfl, ⟨rfl, rfl, rfl, rfl, rfl⟩, ⟨rfl, rfl, rfl⟩⟩

/-- A freeze under way and complete, soft and hard; with and without authorisation; a chain with bits and one without. -/
theorem witness_debug : let z := m0.mapPkg (fun p => { p with freezing := true }); let f := m0.mapPkg (fun p => { p with frozen := true })
    let h := m0.mapPkg (fun p => { p with hard := true }); let a := m0.mapPkg (fun p => { p with auth := true, challenges := 1 })
    z.pkg.freezing = true ∧ z.pkg.saving = false ∧ z.hart.trigger = false ∧ z.core.storeQ = [] ∧ z.core.units = [] ∧ z.core.peel = [] ∧ m0.pkg.freezing = false ∧
    (let b := z.mapCore (fun c => { c with units := [{ entry mI8 (.vid 0) with busy := true }] })
     (∃ u ∈ b.core.units, u.busy = true ∧ u.parked = none) ∧ ∀ w ∈ b.pkg.peerWaits, w.who ≠ .unit) ∧
    (let b := z.mapCore (fun c => { c with units := [{ entry mI8 (.vst 0 1) with checked := some [] }] }); b.core.storeQ = [] ∧ b.core.storePending = true) ∧
    (∀ k, (f.pkg.port k).farLost = false) ∧
    (let b := f.mapPkg (fun p => p.setPort 3 { PortRec.reset with st := .down, farLost := true }); (b.pkg.port 3).farLost = true) ∧
    f.pkg.frozen = true ∧ f.pkg.hard = false ∧ f.pkg.heldTails = [] ∧ f.pkg.heldReqs = [] ∧ h.pkg.hard = true ∧ a.pkg.auth = true ∧
    0 < a.pkg.challenges ∧ m0.pkg.auth = false ∧ m0.pkg.challenges = 0 ∧ chainEmpty 0x01FF#16 = false ∧ chainEmpty 0x0200#16 = true ∧
    (∀ k ∈ [0, 1, 2, 3, 4, 5], chainEmpty (BitVec.ofNat 16 (k * 4096)) = false) ∧ m0.core.num ≠ 511#9 := by decide +kernel

/-- Resets of an idle core that holds a dirty line, of a running hart, and of the package in a thermal freeze; an idle core may be gated,
one with a rack not. -/
def resetLine : State := State.reset.mapCore (fun c => { c with lines := [dirty0] })
theorem witness_resets : resetLine.hart.run = .idle ∧ resetLine.core.lines = [dirty0] ∧ dirty0.st = .d ∧ dirty0.hyp = 0#12 ∧
    resetLine.pkg.versions = [] ∧ resetLine.core.softLine = [] ∧ resetLine.MemWf ∧ m0.hart.run ≠ .idle ∧ m0.hart.snap = false ∧ m0.core.storeQ = [] ∧ m0.core.checkedStores = [] ∧ m0.core.peel = [] ∧
    (m0.mapPkg (fun p => { p with thermal := true })).pkg.thermal = true ∧ m0.pkg.thermal = false := by unfold State.MemWf; decide +kernel
/-- The system ring has room, and has none. -/
theorem witness_limits : let at_ := 0x0400_0000_0000 + m0.peek (m0.pkg.rrtbase.toNat + 16 * m0.pkg.sysring.toNat) 8 +
      32 * ((sparseGet 0#64 m0.pkg.rtail m0.pkg.sysring.toNat).toNat % m0.ringSize m0.pkg.sysring)
    m0.ringFree m0.pkg.sysring = true ∧ (0x0400_0000_0000 + m0.peek (m0.pkg.rrtbase.toNat + 16 * m0.pkg.sysring.toNat) 8) % 64 = 0 ∧
    LoneHome m0 at_ ∧ sparseWf 0#64 m0.pkg.rtail = true ∧
    (m0.mapPkg (fun p => { p with rhead := [(p.sysring.toNat, 1)] })).ringFree m0.pkg.sysring = false :=
  ⟨by decide +kernel, by decide +kernel, lone _ _ (by unfold State.MemWf; decide +kernel), rfl, by decide +kernel⟩
theorem witness_gate : let s := State.reset
    s.hart.run = .idle ∧ s.core.lines = [] ∧ s.pkg.versions = [] ∧ s.core.rack = none ∧ (∀ k : Fin 8, s.core.ways[k].mode = .cache) ∧
    (racked .free).core.rack.isSome = true := by decide +kernel
/-! ### Witnesses: scheduling, pre-emption and resume. -/

/-- Memory for a host queue 1 with AGE and ALL, whose head is a record of level 7, and for a valid context 0 with SYS. -/
def queueMem (valid : BitVec 8) : List Host.Cell :=
  [(0x3021, 0x50#8), (0x302A, 0xF0#8), (0x302E, 1#8)] ++ (if valid = 0#8 then [] else [(0x4000, valid)]) ++
  [(0x400A, 1#8), (0x5001, 0x10#8), (0x5019, 0x17#8), (0x501A, 1#8), (0x501C, 1#8), (0x5022, 4#8)]
def popping (valid : BitVec 8) : State := State.reset.mapPkg (fun p =>
  { p with qdtbase := 0x3000, cdtbase := 0x4000, queuesOn := true, mem := queueMem valid })
theorem witness_pop : let s := popping 1; let d := s.queueDesc 1; let head := s.headRecord d
    s.outstanding 0 7#3 = false ∧ s.nextQueue 0 7#3 = some 1#12 ∧ (∀ p' : BitVec 3, ¬7#3 < p') ∧ s.popForeign 1 = false ∧ head.2 = false ∧
    (s.context ((recWord head.1 3).extractLsb' 0 8)).valid = true ∧ (s.context ((recWord head.1 3).extractLsb' 0 8)).bad = false ∧
    d.host = true ∧ (s.headLevel 1).isSome = true ∧ d.age = true :=
  ⟨by decide +kernel, by decide +kernel, by decide, by decide +kernel, by decide +kernel, by decide +kernel, by decide +kernel,
    by decide +kernel, by decide +kernel, by decide +kernel⟩
theorem witness_pop_waits : let s := (popping 1).mapPkg (fun p => p.setHome (0x3020 / 64) { wts := 0, rts := 0, owner := some 3 })
    s.outstanding 0 7#3 = false ∧ s.nextQueue 0 7#3 = some 1#12 ∧ s.popForeign 1 = true := by decide +kernel
/-- The slots of a queue in host memory, of which the adapter has nothing. -/
theorem witness_pop_host : let s := (popping 1).mapPkg (fun p => { p with mem := [(0x3025, 4#8), (0x302A, 0xF0#8), (0x302E, 1#8)] })
    let slot := ((s.queueDesc 1).base + 64 * (s.queueDesc 1).head) / 64
    s.pkg.atAdapter slot = true ∧ slot ∉ s.pkg.hostHeld ∧ s.popForeign 1 = false ∧ (s.queueDesc 1).used = 1 := by decide +kernel
theorem witness_pop_good : GoodRecord ((popping 1).headRecord ((popping 1).queueDesc 1)).1 0 ((popping 1).context 0).sys (popping 1) :=
  ⟨by decide +kernel, by decide +kernel, by decide +kernel, by decide +kernel, by decide +kernel, fun _ => by decide +kernel,
    by decide +kernel, .inl (by decide +kernel)⟩
theorem witness_pop_bad : let s := popping 0; s.popForeign 1 = false ∧ s.outstanding 0 7#3 = false ∧ s.nextQueue 0 7#3 = some 1#12 ∧
    (s.context ((recWord (s.headRecord (s.queueDesc 1)).1 3).extractLsb' 0 8)).valid = false := by decide +kernel

/-- One request, for the record of enqueue's witness; a translation of the lowest gigabyte with every permission. -/
def request (k : GrantKind) (level : BitVec 3) : GrantReq := { kind := k, popped := level, level := level, order := 0, ages := true, disp := 0 }
def gigabyte : TlbEntry := { tlb0 with va := 0, bits := 30, pa := 0 }
def granting : State := (State.reset.mapCore (fun c => { c with tlb := [gigabyte], tlb1 := [gigabyte] })).mapPkg (fun p =>
  { p with requests := [request (.record 0 recWords) 5], nextOrder := 1 })
def gave (s : State) : Option AreaStop :=
  ((s.asSystem 0 (s.context 0).root).copyRecord 0x40000 recWords (List.range 1)).2
/-- The choice of way 7 here, of way 0, which no task gets, and of core 3; a descriptor's line that another core owns, a poisoned
descriptor, and an area that is not translated. -/
theorem witness_grant : let gr : GrantChoice := { cores := [0], ways := 0x80, gangid := 1 }
    granting.pkg.served = some (request (.record 0 recWords) 5) ∧ (recWord recWords 5).getLsbD 0 = false ∧
    granting.choiceOk gr 1 1 = true ∧ granting.choiceOk { gr with ways := 1 } 1 1 = false ∧
    granting.foreignIn (granting.queueAt 0) 32 = false ∧ granting.contextForeign 0 = false ∧ (granting.context 0).bad = false ∧
    gave granting = none ∧ granting.core.num ∈ gr.cores ∧
    (granting.choiceOk { gr with cores := [3] } 1 1 = true ∧ granting.core.num ∉ [3#9]) ∧
    (granting.mapPkg (fun p => p.setHome (p.cdtbase.toNat / 64) { wts := 0, rts := 0, owner := some 3 })).contextForeign 0 = true ∧
    ((granting.mapPkg (fun p => { p with memPoison := [(p.cdtbase.toNat / 8, true)] })).context 0).bad = true ∧
    (let s := granting.mapCore (fun c => { c with tlb := [], tlb1 := [] })
     s.choiceOk gr 1 1 = true ∧ (s.context 0).bad = false ∧ gave s = some (.failed 0x40000)) ∧
    granting.pkg.requests = [] ++ request (.record 0 recWords) 5 :: [] := by decide +kernel
/-- A record's hypothesis is live, REFUTED, and not live. -/
theorem witness_grant_hyp : let s := granting.mapPkg (fun p => { p with hyps := [(1, hyp0 0 1 0 .open), (2, hyp0 0 1 0 .refuted)] })
    (s.pkg.resolve 16 1 ≠ 0#12 ∧ (s.pkg.hypEntry 1).st ≠ .free ∧ (s.pkg.hypEntry 1).owner = 0#8) ∧ (s.pkg.hypEntry 2).st = .refuted ∧
    (s.pkg.hypEntry 3).st = .free := by decide +kernel
/-- A saved gang of one ARRAY way. -/
def saved0 (granted : Bool) : SavedGang :=
  { gangid := 9, gsize := 1, gidx := 0, ctxid := 0, level := 4, csa := 0x400000, queue := 0, stamp := 1, hyp := 0, snap := false,
    racechk := false, cookie := 0, rbTotal := 0, rbCur := 0, awaysW := 1, bways := 0, halted := false, captured := none, shadows := [],
    maxRead := none, arrival := none, arrivals := [], ended := [], ending := false, order := [], headStarted := false, peel := [],
    fids := [], prsv := none, orphan := none, tbs := [], counted := [], granted := granted }
theorem witness_resume_grant : let s := State.reset.mapPkg (fun p => { p with saved := [saved0 false], requests := [request (.resume 9) 4] })
    s.pkg.served = some (request (.resume 9) 4) ∧ s.coreFree = true ∧ s.waysFree (0x80#8 ||| 0#8) = true ∧ popcount8 0x80#8 = 1 ∧
    (0x80#8 &&& 0#8) = 0#8 := by decide +kernel

/-- The lowest gigabyte is pantry memory. -/
def pantry1 : TlbEntry := { tlb0 with va := 0, bits := 30, pa := 2048 }
/-- The core holds no line and translates the lowest gigabyte to pantry memory, of which no core owns a line and no word is in
error. -/
structure Flat (s : State) : Prop where
  tlb : s.core.tlb1 = [pantry1]
  ctx : s.hart.ctxid = 0#8
  free : ∀ e ∈ s.pkg.homes, ∀ h, e.2 = some h → h.owner = none
  soft : s.pkg.memSoft = []
  hard : s.pkg.memHard = []
  bias : s.pkg.hostBias = []
theorem mem_sparseSet {α : Type} [DecidableEq α] (d : α) (m : Sparse α) (k : Nat) (v : α) :
    ∀ e ∈ sparseSet d m k v, e ∈ m ∨ e = (k, v) := by
  induction m with
  | nil => intro e h; simp only [sparseSet] at h; split at h <;> simp_all
  | cons x m ih =>
    intro e h
    simp only [sparseSet] at h
    split at h
    · rcases List.mem_cons.mp h with rfl | h
      · simp
      · rcases ih e h with h | h <;> simp [h]
    · split at h
      · split at h
        · simp [h]
        · rcases List.mem_cons.mp h with rfl | h <;> simp_all
      · split at h
        · exact .inl h
        · rcases List.mem_cons.mp h with rfl | h <;> simp_all
theorem get_sparse {α : Type} (d : α) (m : Sparse α) (k : Nat) : sparseGet d m k = d ∨ ∃ e ∈ m, sparseGet d m k = e.2 := by
  induction m with
  | nil => exact .inl rfl
  | cons x m ih =>
    simp only [sparseGet]
    split
    · rcases ih with h | ⟨e, he, h⟩
      · exact .inl h
      · exact .inr ⟨e, by simp [he], h⟩
    · split
      · exact .inr ⟨x, by simp, rfl⟩
      · exact .inl rfl
theorem flat_home (s : State) (h : Flat s) (l : Nat) : (s.pkg.home l).owner = none := by
  rcases get_sparse none s.pkg.homes l with e | ⟨x, hx, e⟩
  · simp [Pkg.home, e]
  · cases y : x.2 with
    | none => simp [Pkg.home, e, y]
    | some z => simp [Pkg.home, e, y]; exact h.free x hx z y
theorem flat_setHome (s : State) (l : Nat) (x : HomeLine) (o : x.owner = none) (h : Flat s) : Flat (s.mapPkg (fun p => p.setHome l x)) :=
  ⟨h.tlb, h.ctx, fun e he y hy => by
    rcases mem_sparseSet none _ _ _ e he with he | rfl
    · exact h.free e he y hy
    · cases hy; exact o, h.soft, h.hard, h.bias⟩
theorem flat_drop (s : State) (q : Line → Bool) (h : Flat s) : Flat (s.dropLines q) := by
  have k : ∀ (ls : List Nat) (t : State), Flat t → Flat (ls.foldl State.forgetSource t) := by
    intro ls
    induction ls with
    | nil => exact fun t f => f
    | cons l ls ih => exact fun t f => ih _ ⟨f.tlb, f.ctx, f.free, f.soft, f.hard, f.bias⟩
  exact k _ _ ⟨h.tlb, h.ctx, h.free, h.soft, h.hard, h.bias⟩
theorem flat_broadcast (s : State) (h : Flat s) : Flat s.broadcast := by
  simp only [State.broadcast]
  generalize e : s.dropLines _ = d
  have f : Flat d := e ▸ flat_drop _ _ h
  refine ⟨f.tlb, ?_, fun e he y hy => ?_, f.soft, f.hard, f.bias⟩
  · simp only; exact f.ctx
  · obtain ⟨x, hx, rfl⟩ := List.mem_map.mp he
    cases z : x.2 with
    | none => simp [z] at hy
    | some w =>
      have o := f.free x hx w z
      simp only [z, Option.map_some, Option.some.injEq] at hy
      rw [← hy]; split <;> simp [o]
theorem flat_assign (s : State) (w : BitVec 16) (h : Flat s) : Flat (s.assign w) := by
  have f : Flat (s.mapPkg (fun p => { p with maxWts := serMax p.maxWts w })) := ⟨h.tlb, h.ctx, h.free, h.soft, h.hard, h.bias⟩
  simp only [State.assign]; split
  · exact flat_broadcast _ f
  · exact f
theorem region_pantry (a : Nat) (h : 2 ^ 41 ≤ a ∧ a < 2 ^ 41 + 2 ^ 30) : regionOf a = some .pantry := by
  unfold regionOf
  rw [if_neg (by omega), if_pos (by simp; omega)]
theorem not_adapter (s : State) (l : Nat) (h : Flat s) (b : 2 ^ 41 ≤ l * 64 ∧ l * 64 < 2 ^ 41 + 2 ^ 30) : s.pkg.atAdapter l = false := by
  simp [Pkg.atAdapter, region_pantry _ b, h.bias, natSetHas, sparseGet]
theorem flat_recall (s : State) (l : Nat) (own : Bool) (h : Flat s) : s.recall l own = some s := by
  simp [State.recall, flat_home s h l, State.meetErrors, h.soft, h.hard]
theorem flat_wake (s : State) (l : Nat) (h : Flat s) : Flat (s.wakeLine l) := by
  simp only [State.wakeLine]; split
  · split
    · exact ⟨h.tlb, h.ctx, h.free, h.soft, h.hard, h.bias⟩
    · exact h
  · exact h
theorem flat_times (s : State) (l : Nat) (w : BitVec 16) (h : Flat s) (b : 2 ^ 41 ≤ l * 64 ∧ l * 64 < 2 ^ 41 + 2 ^ 30) :
    Flat (s.homeWriteTimes l w none).1 := by
  have t : Flat (s.takeIn l) := by
    simp only [State.takeIn, not_adapter _ _ h b, Bool.false_eq_true, if_false]
    exact flat_setHome _ _ _ (flat_home _ h _) h
  have k (x : State) : x.settle l = x := by simp [State.settle, region_pantry _ b]
  simp only [State.homeWriteTimes, k]
  generalize serMax w (((s.takeIn l).pkg.home l).rts + 1#16) = x
  have f := flat_setHome _ l { wts := x, rts := x, owner := none } rfl (flat_assign _ x t)
  simp only [State.mapPkg, Pkg.grantRts]; split
  · exact ⟨f.tlb, f.ctx, f.free, f.soft, f.hard, f.bias⟩
  · exact f
theorem flat_write (x : State) (f : Flat x) (y : Nat) (bs : List Byte) : Flat (x.mapPkg (fun p => p.write y bs)) :=
  ⟨f.tlb, f.ctx, f.free, by simp [State.mapPkg, Pkg.write, f.soft, sparseDrop], by simp [State.mapPkg, Pkg.write, f.hard, sparseDrop], f.bias⟩
theorem flat_poke (s : State) (a n v : Nat) (h : Flat s) (b : 2 ^ 41 ≤ a / 64 * 64 ∧ a / 64 * 64 < 2 ^ 41 + 2 ^ 30) : Flat (s.poke a n v) := by
  simp only [State.poke, State.homeStore, flat_recall s _ _ h, Option.map_some, Option.getD_some]
  exact flat_write _ (flat_times _ _ _ (flat_wake s _ h) b) _ _
theorem flat_at (s : State) (va : Nat) (acc : FaultAccess) (h : Flat s) (b : va < 2 ^ 30) : s.areaAt va acc = .ok (s, 2 ^ 41 + va) := by
  have n : (BitVec.ofNat 48 va).toNat = va := by simp only [BitVec.toNat_ofNat]; omega
  have f : s.tlbFind va = some pantry1 := by
    simp only [State.tlbFind, State.entryIn, h.tlb, h.ctx, List.cons_append, List.find?_cons]
    have : va / 2 ^ pantry1.bits = pantry1.va := by change va / 2 ^ 30 = 0; omega
    rw [this]; rfl
  have t : pantry1.target va = 2 ^ 41 + va := by change 2048 * 2 ^ 30 + va % 2 ^ 30 = 2 ^ 41 + va; omega
  have m : s.memType pantry1.mt (2 ^ 41 + va) = some .wb := by
    simp only [State.memType, region_pantry (2 ^ 41 + va) (by omega)]; rfl
  have g : pantry1.grants acc s.hart.sys = true := by cases acc <;> rfl
  have k : s.markLeaf pantry1 acc false = some s := by
    have d : pantry1.dirty = true := rfl
    simp [State.markLeaf, d, State.tlbTouch, h.tlb]
  have x : (inBenchWindow va || decide (2 ^ 48 ≤ va)) = false := by
    simp [inBenchWindow]; omega
  have z : s.foreign ((2 ^ 41 + va) / 64) = false := by simp [State.foreign, flat_home s h]
  simp only [State.areaAt, x, Bool.false_eq_true, if_false, State.translate, n, f, g, if_true, t, m, k, z]; rfl
theorem flat_writeImage (area : Nat) (ws : List AreaWord) (s : State) (h : Flat s) (b : ∀ w ∈ ws, area + w.off < 2 ^ 30) :
    (s.writeImage area ws).2 = none := by
  induction ws generalizing s with
  | nil => rfl
  | cons w ws ih =>
    have c := b w (by simp)
    have f := flat_poke s (2 ^ 41 + (area + w.off)) 8 w.val.toNat h (by omega)
    simp only [State.writeImage, State.areaWrite, flat_at s _ .write h c]
    refine ih _ ?_ (fun x hx => b x (by simp [hx]))
    split
    · exact ⟨f.tlb, f.ctx, f.free, f.soft, f.hard, f.bias⟩
    · exact f
theorem areaWords_bound (off : Nat) (ws : List Word) : ∀ w ∈ areaWords off ws, w.off < off + 8 * ws.length := by
  intro w h
  obtain ⟨i, hi, rfl⟩ := List.mem_mapIdx.mp h
  simp only; omega
theorem areaImage_bound (off n : Nat) (f : Nat → Nat) : ∀ w ∈ areaImage off n f, w.off < off + 8 * n := by
  intro w h
  obtain ⟨i, hi, rfl⟩ := List.mem_map.mp h
  have := List.mem_range.mp hi
  simp only; omega
theorem saveImage_bound (s : State) (u : s.core.units = []) (p : s.savedPeel = []) (q : s.prsvEntry = []) (r : s.saveRegisters = [])
    (b : maskWays (s.benchWays false) = []) : ∀ w ∈ s.saveImage, w.off < 2 ^ 20 := by
  intro w h
  simp only [State.saveImage, State.saveHeader, areaQueue, u, p, q, r, b, List.filter_nil, List.map_nil, List.mapIdx_nil, List.append_nil,
    List.mem_append, List.flatten_nil, List.nil_append] at h
  rcases h with ((((h | h) | h) | h) | h) | h
  · have := areaWords_bound 0x40 _ w h
    simp only [List.length_append, List.length_map, List.length_range, List.length_cons, List.length_nil] at this; omega
  · have := areaWords_bound 0x1000 _ w h
    simp only [List.length_nil, Nat.zero_lt_succ, if_true, List.length_replicate] at this; omega
  · have := areaWords_bound 0x1200 _ w h
    simp only [List.length_nil, Nat.zero_lt_succ, if_true, List.length_replicate] at this; omega
  · have := areaWords_bound 0x1400 _ w h
    simp only [List.length_nil, Nat.zero_lt_succ, if_true, List.length_replicate] at this; omega
  · have := areaWords_bound 0x2000 _ w h
    simp only [List.length_map, List.length_range] at this; omega
  · have := areaImage_bound 0xA000 2048 _ w h
    omega
/-- A running gang of level 3 with a request of level 4 above it, and one that is not above it; with an orphan trap due. -/
def evicted : State :=
  (m0.mapCore (fun c => { c with tlb := [pantry1], tlb1 := [pantry1], ways := Vector.replicate 8 { mode := .cache, ctx := 0 } })).mapPkg
    (fun p => { p with requests := [request (.record 0 recWords) 4] })
def evictedAt (prio : BitVec 3) : State := evicted.mapHart (fun h => { h with prio := prio, csaptr := 0x400000 })
theorem witness_preemption : let s := evictedAt 3; let req := request (.record 0 recWords) 4
    s.pkg.served = some req ∧ s.mayPreempt req = true ∧ s.trapFirst = false ∧ s.inFlight = false ∧ s.core.storeQ = [] ∧
    (∀ u ∈ s.core.units, isFrame u.instr = false) ∧ s.core.badRows = [] ∧ s.core.badCells = [] ∧ s.core.softBench = [] ∧
    (s.asOwner.writeImage s.hart.csaptr.toNat s.saveImage).2 = none ∧ req.level ≤ (evictedAt 4).hart.prio ∧
    (s.mapHart (fun h => { h with orphan := some 1 })).trapFirst = true := by
  refine ⟨by decide +kernel, by decide +kernel, by decide +kernel, by decide +kernel, rfl, by decide +kernel, rfl, rfl, rfl, ?_,
    by decide +kernel, rfl⟩
  refine flat_writeImage _ _ _ ⟨rfl, rfl, fun _ c => (nomatch c), rfl, rfl, rfl⟩ fun w h => ?_
  have b := saveImage_bound (evictedAt 3) rfl rfl rfl (by decide +kernel) (by decide +kernel) w h
  have : (evictedAt 3).hart.csaptr.toNat = 0x400000 := rfl
  omega

/-- An area of zeros reads as zeros. -/
def zeroAt (o : Nat) : AreaWord := { off := o, val := 0, poison := false }
theorem flat_readImage (area : Nat) (os : List Nat) (s : State) (h : Flat s) (m : s.pkg.mem = []) (p : s.pkg.memPoison = [])
    (b : ∀ o ∈ os, area + o < 2 ^ 30) : State.readImage area os s = .ok (s, os.map zeroAt) := by
  induction os with
  | nil => rfl
  | cons x os ih =>
    have q : s.pkg.poisoned (2 ^ 41 + (area + x)) 8 = false := by simp [Pkg.poisoned, p]
    have v : s.pkg.readWord (2 ^ 41 + (area + x)) = 0#64 := by unfold Pkg.readWord Pkg.read; rw [m]; rfl
    have r : s.areaRead (area + x) = .ok (s, 0#64, false) := by
      simp only [State.areaRead, flat_at s _ .read h (b x (by simp)), flat_recall s _ _ h, Option.getD_some, q, v]; rfl
    simp only [State.readImage, r, bind, Except.bind, ih (fun y hy => b y (by simp [hy])), List.map_cons]; rfl
theorem dwords_bound (area off n : Nat) (h : area + off + 8 * n < 2 ^ 30) : ∀ o ∈ dwords off n, area + o < 2 ^ 30 := by
  intro o ho
  obtain ⟨i, hi, rfl⟩ := List.mem_map.mp ho
  have := List.mem_range.mp hi
  omega
theorem flat_readQueue (area off n : Nat) (s : State) (h : Flat s) (m : s.pkg.mem = []) (p : s.pkg.memPoison = [])
    (b : area + off < 2 ^ 30) : State.readQueue area off (n + 1) s = .ok (s, [zeroAt off]) := by
  have r := flat_readImage area [off] s h m p (by simpa using b)
  simp only [State.readQueue, r, bind, Except.bind]
  have : entryValid ([off].map zeroAt) = false := by simp [entryValid, zeroAt]
  simp only [this, Bool.false_eq_true, if_false]; rfl
/-- A granted gang whose area holds zeros. -/
def resuming : State := (State.reset.mapCore (fun c => { c with tlb := [pantry1], tlb1 := [pantry1] })).mapPkg (fun p =>
  { p with saved := [saved0 true] })
def headOf : HeadImage := { head := (dwords 0 67).map zeroAt, kneader := [zeroAt 0x1000], frame := [zeroAt 0x1200], peel := [zeroAt 0x1400] }
def bodyOf : BodyImage := { cells := (dwords 0x2000 4096).map zeroAt, chans := (dwords 0xA000 2048).map zeroAt, regs := [], benches := [] }
theorem flat_head (area : Nat) (s : State) (h : Flat s) (m : s.pkg.mem = []) (p : s.pkg.memPoison = []) (b : area + 0x2000 < 2 ^ 30) :
    s.readHead area = .ok (s, headOf) := by
  simp only [State.readHead, flat_readImage area (dwords 0 67) s h m p (dwords_bound _ _ _ (by omega)),
    flat_readQueue area 0x1000 3 s h m p (by omega), flat_readQueue area 0x1200 3 s h m p (by omega),
    flat_readQueue area 0x1400 15 s h m p (by omega), bind, Except.bind]; rfl
theorem flat_body (area : Nat) (s : State) (h : Flat s) (m : s.pkg.mem = []) (p : s.pkg.memPoison = []) (b : area + 0x10000 < 2 ^ 30) :
    s.readBody area headOf 0x80 0 = .ok (s, bodyOf) := by
  simp only [State.readBody, flat_readImage area (dwords 0x2000 4096) s h m p (dwords_bound _ _ _ (by omega)),
    flat_readImage area (dwords 0xA000 2048) s h m p (dwords_bound _ _ _ (by omega)), bind, Except.bind]; rfl
theorem witness_resume : let g := saved0 true; let c := resuming.context g.ctxid; let t := resuming.asSystem g.ctxid c.root
    let area := g.csa + BitVec.ofNat 48 (g.gidx.toNat * 0x1100000)
    resuming.pkg.saved = [g] ∧ g.granted = true ∧ resuming.canResume g 0x80 = true ∧ resuming.canResume g 1 = false ∧ c.bad = false ∧
    t.readHead area.toNat = .ok (t, headOf) ∧ headOf.poisoned = none ∧ t.readBody area.toNat headOf 0x80 g.bways = .ok (t, bodyOf) ∧
    takeEntries headOf.kneader 4 = [] ∧ takeEntries headOf.frame 4 = [] ∧ takeEntries headOf.peel 16 = [] ∧ headOf.vv = 0 ∧ headOf.pv = 0 ∧
    (∀ w ∈ bodyOf.cells ++ bodyOf.chans, w.poison = false) ∧ (headOf.word 0x41).getLsbD 0 = false ∧ g.ending = false ∧ g.orphan = none ∧
    (t.pkg.hypEntry (t.pkg.resolve 16 ((headOf.word 0x35).setWidth 12))).st ≠ .refuted := by
  have f : Flat (resuming.asSystem (saved0 true).ctxid (resuming.context (saved0 true).ctxid).root) :=
    ⟨rfl, rfl, fun _ c => (nomatch c), rfl, rfl, rfl⟩
  refine ⟨rfl, rfl, by decide +kernel, by decide +kernel, by decide +kernel, flat_head _ _ f rfl rfl (by decide +kernel), by decide +kernel,
    flat_body _ _ f rfl rfl (by decide +kernel), by decide +kernel, by decide +kernel, by decide +kernel, by decide +kernel,
    by decide +kernel, ?_, by decide +kernel, rfl, rfl, by decide +kernel⟩
  intro w h
  simp only [bodyOf, List.mem_append, List.mem_map] at h
  rcases h with ⟨_, _, rfl⟩ | ⟨_, _, rfl⟩ <;> rfl
/-- An area that is not translated, and one whose first word is poisoned. -/
theorem witness_resume_fails : let g := saved0 true; let c := resuming.context g.ctxid
    (let s := resuming.mapCore (fun c => { c with tlb := [], tlb1 := [] })
     (s.asSystem g.ctxid c.root).readHead 0x400000 matches .error (.failed 0x400000)) ∧
    ({ headOf with head := [{ zeroAt 0 with poison := true }] }).poisoned = some 0 := by decide +kernel

/-! ### Witnesses: a step. -/

/-- A hart's turn with add g9, g10, g11 at PC; the same turn taken without a schedule; an event's turn; a word of no opcode. -/
def turning (ts : List Turn) (bytes : List Host.Cell) : State :=
  { ((m0.mapCore (fun c => { c with tlb := [gigabyte], tlb1 := [gigabyte] })).mapPkg (fun p => { p with mem := bytes })) with turns := ts }
def addBytes : List Host.Cell := [(0x1001, 0x58#8), (0x1002, 0x2A#8), (0x1003, 0x05#8)]
/-- The word that the fetch gives. -/
def fetched (b : State) : Option IWord :=
  match b.fetch with
  | .word w _ => some w
  | .stop _ => none
def readies (b : State) : Bool :=
  match b.fetch with
  | .word _ u => !u.hart.th && u.hart.trapvec != 0#48
  | .stop _ => false
def onceMore (s : State) : State := { s with
  turns := s.turns.drop 1, tick := s.tick + 1, pkg := { s.pkg with ports := s.pkg.ports.map (fun r => { r with lanes := [] }) } }
theorem witness_step : let s := turning [.hart] addBytes; let n := turning [] addBytes; let b := onceMore s
    s.pkg.frozen = false ∧ s.turns = .hart :: [] ∧ n.turns = [] ∧ n.auto = .hart ∧ b.hartReady = true ∧
    (∃ u, b.fetch = .word 0x052A5800#32 u) ∧ decode 0x052A5800#32 = .ok (.add 9 10 11) ∧
    (let z := onceMore (turning [.hart] []); ∃ u, z.fetch = .word 0#32 u ∧ HandlerReady u) ∧ (∃ e, decode 0#32 = .error e) ∧
    (onceMore (s.mapHart (fun h => { h with halted := true }))).hartReady = false ∧
    (let z := onceMore (s.mapCore (fun c => { c with tlb := [], tlb1 := [] })); ∃ u, z.fetch = .stop u) ∧
    (turning [.event .gangSaved] []).turns = .event .gangSaved :: [] ∧ isEvent .gangSaved = true ∧ actsFrozen .thaw = true ∧
    actsFrozen .gangSaved = false := by
  have word : ∀ b : State, ∀ w, fetched b = some w → ∃ u, b.fetch = .word w u := by
    intro b w h; unfold fetched at h; split at h
    · next e => cases h; exact ⟨_, e⟩
    · cases h
  have stop : ∀ b : State, fetched b = none → ∃ u, b.fetch = .stop u := by
    intro b h; unfold fetched at h; split at h
    · cases h
    · next e => exact ⟨_, e⟩
  refine ⟨rfl, rfl, rfl, by decide +kernel, by decide +kernel, word _ _ (by decide +kernel), rfl, ?_, ⟨_, rfl⟩, by decide +kernel,
    stop _ (by decide +kernel), rfl, rfl, rfl, rfl⟩
  obtain ⟨u, h⟩ := word (onceMore (turning [.hart] [])) 0#32 (by decide +kernel)
  have r : readies (onceMore (turning [.hart] [])) = true := by decide +kernel
  simp only [readies, h, Bool.and_eq_true, Bool.not_eq_true', bne_iff_ne] at r
  exact ⟨u, h, ⟨r.1, r.2⟩⟩
theorem witness_step_word : let b := onceMore (turning [.hart] addBytes)
    ¬InWindow (b.hart.pc.setWidth 64) ∧ b.translate b.hart.pc .fetch = .ok (0x1000, .wb, false) b ∧ b.hart.hyp = 0#12 ∧ b.hart.stale = [] ∧
    EmptyCache b ∧ b.core.l1i = [] ∧ NoInjection b ∧ CalmLine b (0x1000 / 64) ∧ 0x1000 % 4 = 0 ∧ b.pkg.linePoison (0x1000 / 64) = 0#8 :=
  ⟨by unfold InWindow; decide +kernel, of_answers (by decide +kernel), rfl, rfl, ⟨rfl, rfl, by decide +kernel⟩, rfl, rfl,
    ⟨⟨by decide +kernel, by decide +kernel, by decide +kernel, by unfold State.MemWf; decide +kernel⟩, by unfold Unspoilt; decide +kernel,
      by unfold RoomInSlice; decide +kernel⟩, rfl, by decide +kernel⟩
/-- A step that keeps the invariants, not one of a scan. -/
theorem witness_invariants : State.reset.Inv ∧ State.reset.Canonical ∧ ¬State.reset.scans :=
  ⟨⟨rfl, rfl, ⟨by decide +kernel, rfl⟩⟩, ⟨rfl, rfl, rfl, rfl, rfl, rfl, rfl, rfl, rfl, rfl, rfl, rfl, rfl, rfl, rfl, rfl⟩,
    fun ⟨_, _, h, _⟩ => nomatch h⟩
/-! ### Steps that check a reading of the spec. -/

/-- What a step gives. -/
def nextOf (r : Host.Outcome State Fault Refusal) : Option State :=
  match r with
  | .next t => some t
  | _ => none
/-- Whether it gives a next state with p. -/
def reaches (r : Host.Outcome State Fault Refusal) (p : State → Bool) : Bool := (nextOf r).elim false p

/-- The first instruction after a load: add g9, g10, g11. -/
theorem test_first_step : reaches (step (State.reset.withFetchWord 32 0x052A5800)) (fun t =>
    t.hart.instret = 1#64 && t.hart.run = .running) = true := by decide +kernel

/-- A load of the bench word at offset 0x100000 of m0, after an error there: one flipped bit is corrected and counted, the data
as stored (21:R358); two poison the word, and the load traps with 0x0A and the
address, UESRC 2 and ERRADDR of TYPE 3 (21:R359, R372, R373). -/
def spoilt (double : Bool) : State :=
  ((args m0 bench2 0 0).mapCore (fun c => { c with bench := [(0x100000, 0x5A#8)] })).hwError (.bench (0x100000 / 8) double)
theorem test_bench_corrected : reaches (exec (.ldd 2 1 0) (spoilt false)) (fun t =>
    t.g 2 = 0x5A#64 && t.core.cecnt = 1#16 && t.hart.pc = 0x1004#48) = true := by decide +kernel
theorem test_bench_poisoned : reaches (exec (.ldd 2 1 0) (spoilt true)) (fun t =>
    t.hart.trapcause = 0x0A#8 && t.hart.trapval = bench2 && t.hart.pc = 0x8000#48 && t.core.uesrc = 2#4 && t.core.erraddr = 0xC000000000100000#64) = true := by decide +kernel

/-- hres.refute of 1 by another hart takes 1 and its child 2, under which this hart runs: an orphan trap for 1 is due (17:R335). -/
theorem test_other_refutes : reaches (step { under 2 0 table with turns := [.other (.refute 0 0 1)] }) (fun t =>
    t.hart.orphan = some 1#12 && (t.pkg.hypEntry 1).st = .refuted && (t.pkg.hypEntry 2).st = .refuted) = true := by decide +kernel
/-- A stamp that another gang draws is one above the last (09:R199). -/
theorem test_other_stamp : reaches (step { m0 with turns := [.other (.drawStamp none)] }) (fun t =>
    t.pkg.stamp = m0.pkg.stamp + 1#20 && t.pkg.otherStamps = [t.pkg.stamp]) = true := by decide +kernel

/-- An authorised scan write of the package's chain sets DBGW and goes on; without authorisation it is BYPASS (23:R385, R386). -/
theorem test_scan_write : let s := m0.mapPkg (fun p => { p with auth := true, chain := 0x5000#16 })
    reaches (exec (.wrch [1#8]) s) (fun t => t.pkg.dbgw) = true ∧
    reaches (exec (.wrch [1#8]) (m0.mapPkg (fun p => { p with chain := 0x5000#16 }))) (fun t => !t.pkg.dbgw) = true := by decide +kernel
/-- Words of the fetch that a store has changed are stale until ifence (02:R33): ifence empties them. -/
theorem test_ifence : reaches (exec .ifence (m0.mapHart (fun h => { h with stale := [] }))) (fun t => t.hart.pc = 0x1004#48) = true := by
  decide +kernel
end Sys2Proof.Tests
end

/-! Rounding into a format: the width of a result (04:R89), and the round trip of decoding and rounding on the finite patterns
(03:R64, R69). Every lemma holds for any exponent width, fraction width and bias, not only for the seven formats of the table. -/

section
namespace Sys2Proof.Machine

/-! ### Patterns lie in the width. -/

theorem Fmt.signBit_eq (f : Fmt) : f.signBit = 2 ^ f.eb * 2 ^ f.fb := pow_add ..

theorem Fmt.signBit_pos (f : Fmt) : 0 < f.signBit := Nat.two_pow_pos _

theorem Fmt.two_pow_width (f : Fmt) : 2 ^ f.width = 2 * f.signBit := by
  rw [Fmt.width, Fmt.signBit, Nat.add_assoc, Nat.pow_add, pow_one]

theorem Fmt.infBits_add (f : Fmt) : f.infBits + 2 ^ f.fb = f.signBit := by
  rw [Fmt.infBits, f.signBit_eq, ← Nat.succ_mul, Nat.succ_eq_add_one, Nat.sub_add_cancel Nat.one_le_two_pow]

theorem Fmt.infBits_lt_signBit (f : Fmt) : f.infBits < f.signBit := by
  have := f.infBits_add
  have := Nat.two_pow_pos f.fb
  omega

theorem Fmt.maxFinite_lt_signBit (f : Fmt) : f.maxFinite < f.signBit := by
  have hs := f.signBit_pos
  unfold Fmt.maxFinite
  split
  case h_1 => exact (Nat.sub_le _ 1).trans_lt f.infBits_lt_signBit
  case h_2 => exact Nat.sub_lt hs two_pos
  case h_3 => exact Nat.sub_lt hs one_pos

theorem Fmt.nanBits_lt_width (f : Fmt) : f.nanBits < 2 ^ f.width := by
  have hs := f.signBit_pos
  rw [f.two_pow_width]
  unfold Fmt.nanBits
  split
  case h_1 =>
    have hi : (2 ^ f.eb - 1) * 2 ^ f.fb + 2 ^ f.fb = f.signBit := f.infBits_add
    have hq : 2 ^ (f.fb - 1) ≤ 2 ^ f.fb := Nat.pow_le_pow_right two_pos (Nat.sub_le _ _)
    omega
  case h_2 =>
    have : 2 ^ (f.eb + f.fb) = f.signBit := rfl
    omega
  case h_3 => omega

theorem Fmt.signed_lt_width (f : Fmt) (neg : Bool) {mag : Nat} (h : mag < f.signBit) : f.signed neg mag < 2 ^ f.width := by
  rw [f.two_pow_width]
  unfold Fmt.signed
  split <;> omega

/-! ### Results lie in the width. -/

theorem Fmt.overflow_lt_width (f : Fmt) (neg : Bool) (rm : Rm) (sat : Bool) : f.overflow neg rm sat < 2 ^ f.width := by
  have hmax := f.signed_lt_width neg f.maxFinite_lt_signBit
  unfold Fmt.overflow
  dsimp only
  split
  · exact hmax
  · split
    case h_1 => exact f.signed_lt_width neg f.infBits_lt_signBit
    case h_2 => exact f.nanBits_lt_width
    case h_3 => exact hmax

theorem Fmt.roundMag_bits_lt_width (f : Fmt) (r : Rnd) (idx : Nat) (neg : Bool) (x : Mag) :
    (f.roundMag r idx neg x).bits < 2 ^ f.width := by
  unfold Fmt.roundMag
  extract_lets q g unbounded mag
  split
  · exact f.overflow_lt_width ..
  · next h => exact f.signed_lt_width neg ((Nat.le_of_not_lt h).trans_lt f.maxFinite_lt_signBit)

theorem Fmt.round_bits_lt_width (f : Fmt) (r : Rnd) (idx : Nat) (x : XRes) : (f.round r idx x).bits < 2 ^ f.width := by
  obtain ⟨v, fl⟩ := x
  cases v with
  | nan => exact f.nanBits_lt_width
  | inf neg =>
    have hmax := f.signed_lt_width neg f.maxFinite_lt_signBit
    unfold Fmt.round
    dsimp only
    split
    case h_1 => exact f.signed_lt_width neg f.infBits_lt_signBit
    case h_2 =>
      dsimp only
      split
      · exact hmax
      · exact f.nanBits_lt_width
    case h_3 => exact hmax
  | zero neg => exact f.signed_lt_width neg f.signBit_pos
  | num neg m => exact f.roundMag_bits_lt_width r idx neg m

/-! ### Exact values on the grid. -/

theorem ratFloor_natCast (m k : Nat) : ratFloor m 1 k = (m * 2 ^ k, false) := by simp [ratFloor, Nat.mod_one]

theorem ratFloor_neg_log2 {m : Nat} (hm : m ≠ 0) : (ratFloor m 1 (-(m.log2 : Int))).1 ≠ 0 := by
  have : 0 < m / 2 ^ m.log2 := Nat.div_pos (Nat.log2_self_le hm) (Nat.two_pow_pos _)
  simpa [ratFloor] using this.ne'

theorem exponent_rat_one {m : Nat} (hm : m ≠ 0) (e : Int) : (Mag.rat m 1 e).exponent = m.log2 + e := by
  have h1 : Nat.log2 1 = 0 := rfl
  simp [Mag.exponent, ratExp, h1, ratFloor_neg_log2 hm]

/-- A multiple of the grid's own quantum leaves no discarded fraction, so no mode moves it (03:R69, item 1). -/
theorem roundGrid_exact (rm : Rm) (neg : Bool) (m : Nat) (e : Int) (draw : Nat) :
    roundGrid rm neg (.rat m 1 e) e draw = (m, false) := by
  have hf : (Mag.rat m 1 e).floorAt (e - 32) = (m * 2 ^ 32, false) := by
    rw [Mag.floorAt, sub_sub_cancel]
    exact ratFloor_natCast m 32
  simp [roundGrid, hf]

/-! ### Finite patterns. -/

/-- The magnitude bits that a multiple m of the quantum 2^e takes. -/
def Fmt.magBits (f : Fmt) (m : Nat) (e : Int) : Nat := (e - (f.emin - f.fb)).toNat * 2 ^ f.fb + m

/-- A value given at the quantum its own exponent names, within range, takes its own bits without a flag. -/
theorem Fmt.roundMag_exact (f : Fmt) (r : Rnd) (idx : Nat) (neg : Bool) {m : Nat} {e : Int} (hm : m ≠ 0)
    (hq : max (m.log2 + e) f.emin - f.fb = e) (hle : f.magBits m e ≤ f.maxFinite) :
    f.roundMag r idx neg (.rat m 1 e) = { bits := f.signed neg (f.magBits m e), fl := 0#5 } := by
  have hn : ¬f.maxFinite < (e - (f.emin - f.fb)).toNat * 2 ^ f.fb + m := Nat.not_lt.mpr hle
  simp [Fmt.roundMag, exponent_rat_one hm, hq, roundGrid_exact, hm, hn, Flags.when, Fmt.magBits]

/-- Magnitude bits that encode neither an infinity or NaN of IEEE nor the NaN of e4m3 are a finite value's (03:R65, R66). -/
theorem Fmt.le_maxFinite {f : Fmt} {mag : Nat} (hlt : mag < f.signBit) (hinf : f.sp = .ieee → mag / 2 ^ f.fb ≠ 2 ^ f.eb - 1)
    (hnan : f.sp = .nanOnly → mag ≠ f.signBit - 1) : mag ≤ f.maxFinite := by
  have hs : f.signBit = 2 ^ (f.eb + f.fb) := rfl
  unfold Fmt.maxFinite
  split
  case h_1 hsp =>
    have hex : mag / 2 ^ f.fb < 2 ^ f.eb := Nat.div_lt_of_lt_mul (by rwa [Nat.mul_comm, ← f.signBit_eq])
    have hlow : mag / 2 ^ f.fb < 2 ^ f.eb - 1 := by have := hinf hsp; omega
    exact Nat.le_sub_one_of_lt ((Nat.div_lt_iff_lt_mul (Nat.two_pow_pos _)).mp hlow)
  case h_2 hsp => have := hnan hsp; omega
  case h_3 => omega

/-- What a finite pattern is: its sign, its magnitude not beyond the largest finite one (03:R65), and a subnormal or a normal
value (03:R64). -/
theorem Fmt.decode_eq_fin {f : Fmt} {b : Nat} {n : Bool} {m : Nat} {e : Int} (h : f.decode b = .fin n m e) :
    n = decide (b / f.signBit % 2 = 1) ∧ b % f.signBit ≤ f.maxFinite ∧
    ((b % f.signBit / 2 ^ f.fb = 0 ∧ m = b % f.signBit % 2 ^ f.fb ∧ e = f.emin - f.fb) ∨
     (b % f.signBit / 2 ^ f.fb ≠ 0 ∧ m = b % f.signBit % 2 ^ f.fb + 2 ^ f.fb ∧
      e = (b % f.signBit / 2 ^ f.fb : Nat) - f.bias - f.fb)) := by
  have hlt : b % f.signBit < f.signBit := Nat.mod_lt _ f.signBit_pos
  unfold Fmt.decode at h
  dsimp only at h
  split at h
  · split at h <;> cases h
  next htop =>
    split at h
    · cases h
    next hnan =>
      have hle : b % f.signBit ≤ f.maxFinite := Fmt.le_maxFinite hlt (by simpa using htop) (by simpa using hnan)
      split at h
      next hex =>
        obtain ⟨hn, hm, he⟩ := FVal.fin.inj h
        exact ⟨hn.symm, hle, .inl ⟨hex, hm.symm, he.symm⟩⟩
      next hex =>
        obtain ⟨hn, hm, he⟩ := FVal.fin.inj h
        exact ⟨hn.symm, hle, .inr ⟨hex, hm.symm, he.symm⟩⟩

/-- A finite pattern's magnitude bits are those of its value: the exponent field counts the quanta above the least. -/
theorem Fmt.magBits_of_decode {f : Fmt} {b : Nat} {n : Bool} {m : Nat} {e : Int} (h : f.decode b = .fin n m e) :
    f.magBits m e = b % f.signBit := by
  have hmag := Nat.div_add_mod' (b % f.signBit) (2 ^ f.fb)
  obtain ⟨-, -, ⟨hex, rfl, rfl⟩ | ⟨hex, rfl, rfl⟩⟩ := Fmt.decode_eq_fin h
  · rw [hex] at hmag
    simpa [Fmt.magBits] using hmag
  · obtain ⟨k, hk⟩ := Nat.exists_eq_succ_of_ne_zero hex
    rw [hk, Nat.succ_mul] at hmag
    have hq : (((k + 1 : Nat) : Int) - f.bias - f.fb - (f.emin - f.fb)).toNat = k := by unfold Fmt.emin; omega
    rw [Fmt.magBits, hk, Nat.succ_eq_add_one, hq]
    omega

/-- A finite value stands at the quantum that its own exponent names, the least one for a subnormal (03:R64). -/
theorem Fmt.quantum_of_decode {f : Fmt} {b : Nat} {n : Bool} {m : Nat} {e : Int} (h : f.decode b = .fin n m e) (hm : m ≠ 0) :
    max (m.log2 + e) f.emin - f.fb = e := by
  have hfr : b % f.signBit % 2 ^ f.fb < 2 ^ f.fb := Nat.mod_lt _ (Nat.two_pow_pos _)
  obtain ⟨-, -, ⟨-, rfl, rfl⟩ | ⟨hex, rfl, rfl⟩⟩ := Fmt.decode_eq_fin h
  · have hlog := (Nat.log2_lt hm).mpr hfr
    omega
  · have hlog : (b % f.signBit % 2 ^ f.fb + 2 ^ f.fb).log2 = f.fb :=
      (Nat.log2_eq_iff hm).mpr ⟨by omega, by omega⟩
    obtain ⟨k, hk⟩ := Nat.exists_eq_succ_of_ne_zero hex
    rw [hlog, hk, Fmt.emin]
    omega

/-- Only a zero has the significand 0: a normal value has its leading bit. -/
theorem Fmt.magBits_zero_of_decode {f : Fmt} {b : Nat} {n : Bool} {e : Int} (h : f.decode b = .fin n 0 e) :
    b % f.signBit = 0 := by
  obtain ⟨-, -, ⟨hex, hfr, -⟩ | ⟨-, hfr, -⟩⟩ := Fmt.decode_eq_fin h
  · rw [← Nat.div_add_mod' (b % f.signBit) (2 ^ f.fb), hex, ← hfr, Nat.zero_mul]
  · have := Nat.two_pow_pos f.fb
    omega

/-! ### The round trip. -/

theorem Fmt.signed_of_pattern (f : Fmt) {b : Nat} (hb : b < 2 ^ f.width) :
    f.signed (decide (b / f.signBit % 2 = 1)) (b % f.signBit) = b := by
  have hdiv := Nat.div_add_mod b f.signBit
  have hlt : b / f.signBit < 2 := Nat.div_lt_of_lt_mul (by rwa [Nat.mul_comm, ← f.two_pow_width])
  unfold Fmt.signed
  obtain hpos | hneg := Nat.le_one_iff_eq_zero_or_eq_one.mp (Nat.le_of_lt_succ hlt)
  · rw [hpos] at hdiv ⊢
    simpa using hdiv
  · rw [hneg] at hdiv ⊢
    simpa using hdiv

theorem Fmt.round_decode {f : Fmt} {b : Nat} {n : Bool} {m : Nat} {e : Int} (r : Rnd) (idx : Nat) (hb : b < 2 ^ f.width)
    (h : f.decode b = .fin n m e) : f.round r idx (f.decode b).exact = { bits := b, fl := 0#5 } := by
  obtain ⟨rfl, hle, -⟩ := Fmt.decode_eq_fin h
  have hmag := Fmt.magBits_of_decode h
  have hsigned := f.signed_of_pattern hb
  rw [h]
  by_cases hm : m = 0
  · subst hm
    rw [Fmt.magBits_zero_of_decode h] at hsigned
    simp [Fmt.round, FVal.exact, xfin, hsigned]
  · have hround := f.roundMag_exact r idx (decide (b / f.signBit % 2 = 1)) hm (Fmt.quantum_of_decode h hm) (hmag ▸ hle)
    simp [Fmt.round, FVal.exact, xfin, hm, hround, hmag, hsigned]

end Sys2Proof.Machine

namespace Sys2Proof
open Machine

/-- Settles O5: a finite pattern stands at the quantum of its own exponent, where the grid moves nothing, and every branch of
the rounding writes a sign over magnitude bits below the sign bit, or the NaN. -/
theorem roundingIsRight : Obligations.RoundingIsRight := by
  unfold Obligations.RoundingIsRight
  constructor
  · intro f _ b idx r n m e hb h
    exact Fmt.round_decode r idx hb h
  · intro f _ r idx x
    exact f.round_bits_lt_width r idx x

end Sys2Proof
end

/-! The scalar instructions (04:R82 to R92): the functions of the model read as the numbers of the spec's tables, then how a
result or a float instruction completes, then the four statements. -/

section
namespace Sys2Proof.Machine
open Claims

/-! ### Shifts and rotations (04:R82, R84). -/

theorem ushiftRight_eq_ofNat_div (x : Word) (n : Nat) : x >>> n = BitVec.ofNat 64 (uv x / 2 ^ n) := by
  apply BitVec.eq_of_toNat_eq
  have : x.toNat / 2 ^ n < 2 ^ 64 := (Nat.div_le_self ..).trans_lt x.isLt
  rw [BitVec.toNat_ushiftRight, Nat.shiftRight_eq_div_pow, BitVec.toNat_ofNat, uv, Nat.mod_eq_of_lt this]

theorem sshiftRight_eq_ofInt_div (x : Word) (n : Nat) : x.sshiftRight n = BitVec.ofInt 64 (sv x / 2 ^ n) := by
  rw [BitVec.sshiftRight, Int.shiftRight_eq_div_pow, sv]
  norm_cast

/-- A rotation by 0 shifts nothing out, and by n below 64 the rest of the word. -/
theorem rolWord_eq_rotateLeft (x : Word) {n : Nat} (h : n < 64) : rolWord x n = x.rotateLeft n := by
  rw [BitVec.rotateLeft_def, rolWord, Nat.mod_eq_of_lt h]
  obtain rfl | hn := Nat.eq_zero_or_pos n
  · simp [BitVec.ushiftRight_eq_zero]
  · rw [Nat.mod_eq_of_lt (show 64 - n < 64 by omega)]

theorem rorWord_eq_rotateRight (x : Word) {n : Nat} (h : n < 64) : rorWord x n = x.rotateRight n := by
  rw [BitVec.rotateRight_def, rorWord, Nat.mod_eq_of_lt h]
  obtain rfl | hn := Nat.eq_zero_or_pos n
  · simp
  · rw [Nat.mod_eq_of_lt (show 64 - n < 64 by omega)]

/-! ### Compares, minima and maxima (04:R82, R83). -/

theorem ofBool_decide (p : Prop) [Decidable p] : Word.ofBool (decide p) = bit p := by
  by_cases h : p <;> simp [Word.ofBool, bit, h]

theorem ofBool_slt (x y : Word) : Word.ofBool (x.slt y) = bit (sv x < sv y) := ofBool_decide _

theorem ofBool_ult (x y : Word) : Word.ofBool (x.ult y) = bit (uv x < uv y) := ofBool_decide _

/-- slti compares with the immediate itself: its extension has the same value. -/
theorem slti_value (x : Word) (imm : BitVec 16) : Word.ofBool (x.slt (simm imm)) = bit (sv x < imm.toInt) := by
  rw [ofBool_slt, sv, sv, simm, BitVec.toInt_signExtend_of_le (by decide)]

theorem slt_iff (x y : Word) : x.slt y = true ↔ sv x < sv y := BitVec.slt_iff_toInt_lt

theorem ult_iff (x y : Word) : x.ult y = true ↔ uv x < uv y := BitVec.ult_iff_lt

@[simp] theorem ofInt_sv (x : Word) : BitVec.ofInt 64 (sv x) = x := BitVec.ofInt_toInt

@[simp] theorem ofNat_uv (x : Word) : BitVec.ofNat 64 (uv x) = x := by simp [uv]

theorem ite_slt_eq_min (x y : Word) : (if x.slt y then x else y) = BitVec.ofInt 64 (min (sv x) (sv y)) := by
  simp only [slt_iff, min_def_lt, apply_ite (BitVec.ofInt 64), ofInt_sv]

theorem ite_slt_eq_max (x y : Word) : (if x.slt y then y else x) = BitVec.ofInt 64 (max (sv x) (sv y)) := by
  simp only [slt_iff, max_def_lt, apply_ite (BitVec.ofInt 64), ofInt_sv]

theorem ite_ult_eq_min (x y : Word) : (if x.ult y then x else y) = BitVec.ofNat 64 (min (uv x) (uv y)) := by
  simp only [ult_iff, min_def_lt, apply_ite (BitVec.ofNat 64), ofNat_uv]

theorem ite_ult_eq_max (x y : Word) : (if x.ult y then y else x) = BitVec.ofNat 64 (max (uv x) (uv y)) := by
  simp only [ult_iff, max_def_lt, apply_ite (BitVec.ofNat 64), ofNat_uv]

/-! ### Counts of bits and low parts (04:R82). -/

/-- The first one bit from the top is bit log2 x. -/
theorem clzWord_eq_leadingZeros (x : Word) : clzWord x = leadingZeros x := by
  by_cases hx : x = 0
  · subst hx
    rfl
  · have hn : x.toNat ≠ 0 := fun h => hx (BitVec.eq_of_toNat_eq h)
    have hlog : x.toNat.log2 < 64 := (Nat.log2_lt hn).mpr x.isLt
    have hfind : (List.range 64).find? (fun i => x.getLsbD (63 - i)) = some (63 - x.toNat.log2) := by
      rw [List.find?_range_eq_some]
      refine ⟨?_, List.mem_range.mpr (by omega), ?_⟩
      · rw [Nat.sub_sub_self (by omega)]
        exact Nat.testBit_log2 hn
      · intro j hj
        have : x.toNat < 2 ^ (63 - j) := (Nat.log2_lt hn).mp (by omega)
        simp [BitVec.getLsbD, Nat.testBit_lt_two_pow this]
    rw [clzWord, if_neg hx, leadingZeros, hfind, Option.getD_some]

theorem popcWord_eq_oneBits (x : Word) : popcWord x = oneBits x := List.countP_eq_length_filter

/-- Zero extension of the low k bits is a mask. -/
theorem setWidth_setWidth_eq_and (x : Word) (k : Nat) : (x.setWidth k).setWidth 64 = x &&& BitVec.ofNat 64 (2 ^ k - 1) := by
  apply BitVec.eq_of_getLsbD_eq
  intro i hi
  rw [BitVec.getLsbD_setWidth, BitVec.getLsbD_setWidth, BitVec.getLsbD_and, BitVec.getLsbD_ofNat, Nat.testBit_two_pow_sub_one]
  simp [hi, Bool.and_comm]

/-! ### Addresses (04:R85). -/

/-- The shifted immediate of ldhi and pcrel is a multiple of the signed immediate. -/
theorem signExtend_shiftLeft (u : BitVec 21) (k : Nat) : u.signExtend 64 <<< k = BitVec.ofInt 64 (u.toInt * 2 ^ k) := by
  have hpow : BitVec.twoPow 64 k = BitVec.ofInt 64 (2 ^ k) := by
    apply BitVec.eq_of_toNat_eq
    simp only [BitVec.toNat_twoPow, BitVec.toNat_ofInt]
    norm_cast
  rw [BitVec.shiftLeft_eq_mul_twoPow, BitVec.ofInt_mul, hpow, BitVec.signExtend]

/-- pcrel counts from its own address. -/
theorem pcrel_value (pc : Addr) (u : BitVec 21) :
    pc.setWidth 64 + (u.signExtend 64 <<< 12) = BitVec.ofInt 64 (pc.toNat + u.toInt * 2 ^ 12) := by
  rw [signExtend_shiftLeft, BitVec.ofInt_add, BitVec.ofInt_natCast, BitVec.ofNat_toNat]

/-! ### Products (04:R86). -/

/-- The high half of a product is bits [127:64] of its 128-bit word. -/
theorem highHalf_eq_extractLsb' (z : Int) : highHalf z = (BitVec.ofInt 128 z).extractLsb' 64 64 := by
  apply BitVec.eq_of_toNat_eq
  simp only [highHalf, BitVec.toNat_ofInt, BitVec.extractLsb'_toNat, Nat.shiftRight_eq_div_pow]
  omega

theorem mul_eq_ofNat (x y : Word) : x * y = BitVec.ofNat 64 (uv x * uv y) := by
  simp [uv, BitVec.ofNat_mul]

/-! ### Division (04:R87). -/

theorem eq_intMin_iff (x : Word) : x = BitVec.intMin 64 ↔ sv x = -2 ^ 63 := by
  rw [sv, ← BitVec.toInt_inj]; rfl

theorem eq_allOnes_iff (x : Word) : x = BitVec.allOnes 64 ↔ sv x = -1 := by
  rw [sv, ← BitVec.toInt_inj]; rfl

theorem eq_zero_iff_sv (x : Word) : x = 0 ↔ sv x = 0 := by
  rw [sv, ← BitVec.toInt_inj]; rfl

theorem eq_zero_iff_uv (x : Word) : x = 0 ↔ uv x = 0 := by
  rw [uv, ← BitVec.toNat_inj]; rfl

theorem msb_iff (x : Word) : x.msb = true ↔ sv x < 0 := by simp [BitVec.msb_eq_toInt, sv]

/-- The fixed quotients of 04:R87: for a zero divisor by the sign of the dividend, and 2^63 - 1 for -2^63 / -1. -/
theorem divSigned_eq (x y : Word) : divSigned x y = BitVec.ofInt 64 (quotS (sv x) (sv y)) := by
  have hmin : BitVec.intMin 64 = BitVec.ofInt 64 (-2 ^ 63) := rfl
  have hmax : BitVec.intMax 64 = BitVec.ofInt 64 (2 ^ 63 - 1) := rfl
  simp only [divSigned, quotS, eq_zero_iff_sv, eq_intMin_iff, eq_allOnes_iff, msb_iff]
  rw [hmin, hmax]
  by_cases hy : sv y = 0
  · rw [if_pos hy, if_pos hy]
    obtain hneg | hzero | hpos := lt_trichotomy (sv x) 0
    · rw [if_neg hneg.ne, if_pos hneg, if_neg hneg.not_gt, if_pos hneg]
    · rw [if_pos hzero, hzero]; rfl
    · rw [if_neg hpos.ne', if_neg hpos.not_gt, if_pos hpos]
  · rw [if_neg hy, if_neg hy, apply_ite (BitVec.ofInt 64), sv, sv]

/-- The remainder of -2^63 / -1 is 0 on both sides, so only a zero divisor is a case of the model's own. -/
theorem remSigned_eq (x y : Word) : remSigned x y = BitVec.ofInt 64 (remS (sv x) (sv y)) := by
  have hdef : x.toInt.tmod y.toInt = sv x - (sv x).tdiv (sv y) * sv y := by rw [Int.tmod_def, Int.mul_comm, sv, sv]
  simp only [remSigned, remS, eq_zero_iff_sv, hdef]
  split_ifs with hy hlimit
  · exact (ofInt_sv x).symm
  · obtain ⟨hx, hy⟩ := hlimit
    rw [hx, hy]
    rfl
  · rfl

theorem divUnsigned_eq (x y : Word) : divUnsigned x y = BitVec.ofNat 64 (quotU (uv x) (uv y)) := by
  simp only [divUnsigned, quotU, eq_zero_iff_uv]
  split_ifs
  · rfl
  · rfl

theorem remUnsigned_eq (x y : Word) : remUnsigned x y = BitVec.ofNat 64 (remU (uv x) (uv y)) := by
  simp only [remUnsigned, remU, eq_zero_iff_uv]
  split_ifs
  · exact (ofNat_uv x).symm
  · rw [Nat.mod_eq_sub_div_mul, uv, uv]

/-! ### Compares of float values (04:R90). -/

theorem FVal.snan_of_not_isNan {x : FVal} (h : x.isNan = false) : x.snan = 0#5 := by
  cases x with
  | fin => rfl
  | inf => rfl
  | nan => cases h

theorem FVal.snan_eq (x : FVal) : x.snan = if x = .nan true then Flags.nv else 0#5 := by
  rcases x with _ | _ | ⟨_ | _⟩ <;> rfl

/-- A value raises nothing beside NV. -/
theorem FVal.snan_or_nv (x : FVal) : x.snan ||| Flags.nv = Flags.nv := by
  rw [FVal.snan_eq]
  split_ifs <;> decide

/-- A quiet compare raises NV for a signalling NaN alone. -/
theorem cmpFlags_quiet (x y : FVal) : cmpFlags x y false = if signalling x y then Flags.nv else 0#5 := by
  simp only [cmpFlags, FVal.snan_eq, Flags.when, signalling]
  by_cases hx : x = .nan true <;> by_cases hy : y = .nan true <;> simp [hx, hy]

/-- An ordered compare raises NV for a NaN of either kind. -/
theorem cmpFlags_ordered (x y : FVal) : cmpFlags x y true = if ordered x y then 0#5 else Flags.nv := by
  by_cases h : ordered x y
  · obtain ⟨hx, hy⟩ := h
    simp [cmpFlags, Flags.when, ordered, hx, hy, FVal.snan_of_not_isNan]
  · have hnan : (x.isNan || y.isNan) = true := by
      rw [← Bool.not_eq_false, Bool.or_eq_false_iff]
      exact h
    rw [cmpFlags, hnan, if_neg h, BitVec.or_assoc]
    exact (congrArg (x.snan ||| ·) y.snan_or_nv).trans x.snan_or_nv

theorem FVal.lt_asymm {x y : FVal} (h : x.lt y = true) : y.lt x = false := by
  cases x with
  | fin a m e =>
    cases y with
    | fin b n d =>
      simp only [FVal.lt, decide_eq_true_eq, decide_eq_false_iff_not, not_lt] at h ⊢
      rw [min_comm]
      exact h.le
    | inf b => simpa [FVal.lt] using h
    | nan => rfl
  | inf a =>
    cases y with
    | fin => simpa [FVal.lt] using h
    | inf b => simp_all [FVal.lt]
    | nan => rfl
  | nan => cases y <;> rfl

/-- For two numbers, not above is below or equal. -/
theorem FVal.not_lt_iff {x y : FVal} (h : ordered x y) : (!y.lt x) = true ↔ x.lt y = true ∨ x.eq y = true := by
  obtain ⟨hx, hy⟩ := h
  cases hlt : x.lt y with
  | true => simp [FVal.lt_asymm hlt]
  | false => simp [FVal.eq, hx, hy, hlt]

/-! ### Integer kinds (04:R92). -/

theorem readInt_unsigned (v bits : Nat) : readInt v bits false = (v % 2 ^ bits : Nat) := rfl

theorem readInt_signed (v : Nat) {bits : Nat} (h : 0 < bits) : readInt v bits true = (BitVec.ofNat bits v).toInt := by
  have hpow : 2 ^ bits = 2 * 2 ^ (bits - 1) := by rw [← Nat.pow_succ', Nat.succ_eq_add_one, Nat.sub_add_cancel h]
  simp only [BitVec.toInt_eq_toNat_cond, BitVec.toNat_ofNat, readInt, Bool.true_and, decide_eq_true_eq]
  split_ifs <;> omega

theorem readInt_i64 (x : Word) : readInt x.toNat 64 true = sv x := by
  rw [readInt_signed _ (by decide), BitVec.ofNat_toNat, BitVec.setWidth_eq, sv]

theorem readInt_u64 (x : Word) : readInt x.toNat 64 false = uv x := by
  rw [readInt_unsigned, Nat.mod_eq_of_lt x.isLt, uv]

theorem readInt_i32 (x : Word) : readInt x.toNat 32 true = (x.setWidth 32).toInt := by
  rw [readInt_signed _ (by decide), BitVec.ofNat_toNat]

theorem readInt_u32 (x : Word) : readInt x.toNat 32 false = (x.setWidth 32).toNat := by
  rw [readInt_unsigned, BitVec.toNat_setWidth]

/-! ### How a result completes (04:R80, 02:R41). -/

theorem outsideSame_of_eq {s t : State} (hcore : t.core = s.core) (hpkg : t.pkg = s.pkg) : OutsideSame s t where
  core := hcore
  pkg := hpkg
  bytes := { memory := fun a => State.peek_congr s t hcore hpkg a 1, bench := fun o => by rw [hcore] }

theorem State.result_outside (s : State) (d : GReg) (v : Word) : OutsideSame s (s.result d v) :=
  outsideSame_of_eq (State.result_core s d v) (State.result_pkg s d v)

/-- A result writes g(d), PC and INSTRET of the hart. -/
theorem State.result_hart (s : State) (d : GReg) (v : Word) : (s.result d v).hart =
    { s.hart with g := (s.result d v).hart.g, pc := s.hart.pc + 4#48, instret := s.hart.instret + 1#64 } := by
  obtain ⟨-, -, -, -, hhart⟩ := s.result_rest d v
  exact hhart

theorem State.result_retired (s : State) (d : GReg) (v : Word) : Retired s (s.result d v) where
  pc := by rw [State.result_hart]
  instret := by rw [State.result_hart]

theorem writes_result (s : State) (d : GReg) (v : Word) : Writes d v s (s.result d v) where
  regs r := s.g_result d r v
  retired := s.result_retired d v
  hart := by rw [OnlyRegs, State.result_hart]
  outside := s.result_outside d v

/-- An instruction that answers its result gives it, in whatever words the value is stated. -/
theorem gives_of_result {i : Instr} {d : GReg} {v w : Word} {s : State} (h : exec i s = .next (s.result d v))
    (hv : v = w) : Gives i d w s :=
  hv ▸ ⟨_, h, writes_result s d v⟩

/-! ### How a float instruction completes (04:R89). -/

/-- The hart with the flags and the count of a float instruction, before its result. -/
def State.floatFlags (s : State) (rm : Rm) (fl : Flags) : State :=
  s.mapHart (fun h => { h with vfsr := h.vfsr ||| fl, srcount := if rm = .rsr then h.srcount + 1#64 else h.srcount })

theorem State.floatDone_eq (s : State) (d : GReg) (rm : Rm) (r : FRes) :
    s.floatDone d rm r = .next ((s.floatFlags rm r.fl).result d (BitVec.ofNat 64 r.bits)) := by
  unfold State.floatDone State.floatFlags
  split_ifs <;> rfl

/-- A register keeps the low 64 bits of a result. -/
theorem State.floatDone_congr (s : State) (d : GReg) (rm : Rm) {r q : FRes}
    (hbits : BitVec.ofNat 64 r.bits = BitVec.ofNat 64 q.bits) (hfl : r.fl = q.fl) : s.floatDone d rm r = s.floatDone d rm q := by
  rw [State.floatDone_eq, State.floatDone_eq, hbits, hfl]

theorem floatRegs_result (s : State) (d : GReg) (rm : Rm) (fl : Flags) (v : Word) :
    FloatRegs rm fl s ((s.floatFlags rm fl).result d v) := by
  rw [FloatRegs, State.result_hart]
  rfl

theorem givesFloat_of_floatDone {i : Instr} {d : GReg} {rm : Rm} {r : FRes} {s : State} (h : exec i s = s.floatDone d rm r) :
    GivesFloat i d rm r s := by
  rw [State.floatDone_eq] at h
  refine ⟨_, h, fun x => State.g_result _ d x _, ⟨?_, ?_⟩, floatRegs_result s d rm r.fl _, ?_⟩
  · exact (State.result_retired _ d _).pc
  · exact (State.result_retired _ d _).instret
  · exact outsideSame_of_eq (State.result_core _ d _) (State.result_pkg _ d _)

/-- A compare: 1 or 0 for two numbers, 0 with a NaN operand. -/
theorem givesFloat_of_floatCompare {i : Instr} {f : FFmt} {d a b : GReg} {o : Bool} {c : FVal → FVal → Bool} {p : Prop}
    {fl : Flags} [Decidable p] {s : State} (h : exec i s = s.floatCompare f d a b o c)
    (hp : ordered (value f s a) (value f s b) → (c (value f s a) (value f s b) = true ↔ p))
    (hfl : cmpFlags (value f s a) (value f s b) o = fl) :
    GivesFloat i d .rne { bits := if ordered (value f s a) (value f s b) ∧ p then 1 else 0, fl := fl } s := by
  have hiff : (!(s.fval f a).isNan && !(s.fval f b).isNan && c (s.fval f a) (s.fval f b)) = true ↔
      ordered (value f s a) (value f s b) ∧ p := by
    rw [Bool.and_eq_true, Bool.and_eq_true, Bool.not_eq_true', Bool.not_eq_true']
    exact and_congr_right hp
  apply givesFloat_of_floatDone
  rw [h, State.floatCompare, ← hfl, ← if_congr hiff rfl rfl]
  rfl

/-- A conversion from an integer rounds the number that its kind reads. -/
theorem givesFloat_fcvtIf (f : FFmt) (d : GReg) {a : GReg} {k : IntKind} (rm : Rm) {v : Int} {s : State}
    (h : readInt (s.g a).toNat (IntKind.width k) (IntKind.isSigned k) = v) :
    GivesFloat (.fcvtIf f d a k rm) d rm (rounded f rm s (intExact v)) s :=
  h ▸ givesFloat_of_floatDone rfl

theorem ofNat_sext64_toNat (n : Nat) : BitVec.ofNat 64 (sext64 n 64).toNat = BitVec.ofNat 64 n := by
  rw [sext64, BitVec.signExtend_eq, BitVec.ofNat_toNat, BitVec.setWidth_eq]

theorem execFcvtFi_eq (f : FFmt) (d a : GReg) (k : IntKind) (rm : Rm) (s : State) : execFcvtFi f d a k rm s =
    s.floatDone d rm (kindResult k (toInt (s.frnd rm) 0 (s.fval f a) (IntKind.width k) (IntKind.isSigned k))) := by
  cases k with
  | i64 => exact s.floatDone_congr d rm (ofNat_sext64_toNat _) rfl
  | u64 => rfl
  | i32 => rfl
  | u32 => rfl

end Sys2Proof.Machine

namespace Sys2Proof
open Machine Claims

/-- From add to sll, ctz, and the sign extensions, the model and the statement write one term. -/
theorem integerRegisterResults : IntegerRegisterResults := by
  intro d a b s x y n
  have hn : n < 64 := Nat.mod_lt _ (by decide)
  exact
    ⟨gives_of_result rfl rfl, gives_of_result rfl rfl, gives_of_result rfl rfl, gives_of_result rfl rfl,
     gives_of_result rfl rfl, gives_of_result rfl rfl, gives_of_result rfl rfl, gives_of_result rfl rfl,
     gives_of_result rfl rfl, gives_of_result rfl rfl,
     gives_of_result rfl (ushiftRight_eq_ofNat_div x n),
     gives_of_result rfl (sshiftRight_eq_ofInt_div x n),
     gives_of_result rfl (rolWord_eq_rotateLeft x hn),
     gives_of_result rfl (rorWord_eq_rotateRight x hn),
     gives_of_result rfl (ofBool_slt x y),
     gives_of_result rfl (ofBool_ult x y),
     gives_of_result rfl (ite_slt_eq_min x y),
     gives_of_result rfl (ite_slt_eq_max x y),
     gives_of_result rfl (ite_ult_eq_min x y),
     gives_of_result rfl (ite_ult_eq_max x y),
     gives_of_result rfl (congrArg (BitVec.ofNat 64) (clzWord_eq_leadingZeros x)),
     gives_of_result rfl rfl,
     gives_of_result rfl (congrArg (BitVec.ofNat 64) (popcWord_eq_oneBits x)),
     gives_of_result rfl rfl, gives_of_result rfl rfl, gives_of_result rfl rfl,
     gives_of_result rfl (setWidth_setWidth_eq_and x 8),
     gives_of_result rfl (setWidth_setWidth_eq_and x 16),
     gives_of_result rfl (setWidth_setWidth_eq_and x 32)⟩

theorem immediateResults : ImmediateResults := by
  intro d a imm sh u s x i n
  exact
    ⟨gives_of_result rfl rfl, gives_of_result rfl rfl, gives_of_result rfl rfl, gives_of_result rfl rfl,
     gives_of_result rfl (slti_value x imm),
     gives_of_result rfl (ofBool_ult x i),
     gives_of_result rfl rfl,
     gives_of_result rfl (ushiftRight_eq_ofNat_div x n),
     gives_of_result rfl (sshiftRight_eq_ofInt_div x n),
     gives_of_result rfl (rorWord_eq_rotateRight x sh.isLt),
     gives_of_result rfl (signExtend_shiftLeft u 16),
     gives_of_result rfl (pcrel_value s.hart.pc u)⟩

theorem productResults : ProductResults := by
  intro d a b s x y
  exact
    ⟨gives_of_result rfl (mul_eq_ofNat x y),
     gives_of_result rfl (highHalf_eq_extractLsb' _),
     gives_of_result rfl (highHalf_eq_extractLsb' _),
     gives_of_result rfl (highHalf_eq_extractLsb' _),
     gives_of_result rfl (congrArg low32s (mul_eq_ofNat x y))⟩

/-- Settles O1: every row answers the result of its function of the table, and each function is the number the rule names. -/
theorem integerResults : Obligations.IntegerResults := by
  unfold Obligations.IntegerResults
  exact ⟨integerRegisterResults, immediateResults, productResults⟩

/-- Settles O2: the fixed cases are split off as in the rule; elsewhere the quotient truncates and the remainder is what it
leaves. -/
theorem divisionResults : Obligations.DivisionResults := by
  unfold Obligations.DivisionResults
  intro d a b s
  exact
    ⟨gives_of_result rfl (divSigned_eq _ _),
     gives_of_result rfl (remSigned_eq _ _),
     gives_of_result rfl (divUnsigned_eq _ _),
     gives_of_result rfl (remUnsigned_eq _ _)⟩

/-- Settles O3: every row is one call of floatDone, an integer operand read by its kind and an integer result extended by it. -/
theorem floatArithmeticResults : Obligations.FloatArithmeticResults := by
  unfold Obligations.FloatArithmeticResults
  intro f src d a b rm s x y
  exact
    ⟨givesFloat_of_floatDone rfl, givesFloat_of_floatDone rfl, givesFloat_of_floatDone rfl, givesFloat_of_floatDone rfl,
     givesFloat_of_floatDone rfl, givesFloat_of_floatDone rfl, givesFloat_of_floatDone rfl,
     givesFloat_fcvtIf f d rm (readInt_i64 (s.g a)),
     givesFloat_fcvtIf f d rm (readInt_u64 (s.g a)),
     givesFloat_fcvtIf f d rm (readInt_i32 (s.g a)),
     givesFloat_fcvtIf f d rm (readInt_u32 (s.g a)),
     fun k => givesFloat_of_floatDone (execFcvtFi_eq f d a k rm s)⟩

/-- Settles O4: the selections end in floatDone, and the compares in the one lemma over the compare, where fle asks that Y is not
below X. -/
theorem floatCompareResults : Obligations.FloatCompareResults := by
  unfold Obligations.FloatCompareResults
  intro f d a b s x y quiet strict
  exact
    ⟨givesFloat_of_floatDone rfl,
     givesFloat_of_floatDone rfl,
     givesFloat_of_floatCompare rfl (fun _ => Iff.rfl) (cmpFlags_quiet x y),
     givesFloat_of_floatCompare rfl (fun _ => Iff.rfl) (cmpFlags_ordered x y),
     givesFloat_of_floatCompare (c := fun x y => !FVal.lt y x) rfl FVal.not_lt_iff (cmpFlags_ordered x y),
     gives_of_result rfl rfl⟩

end Sys2Proof
end

/-! Issue of the array instructions (05:R93, R97, R101, R104, R107 to R110): how an instruction joins its queue or traps, the
register checks as the statements word them, then the statement O19. -/

section
namespace Sys2Proof.Machine
open Claims

/-! ### Joining a queue (05:R97, R101, 13:R285). -/

theorem State.issueHeld_iff (s : State) (i : Instr) (vd : BitVec 16) :
    s.issueHeld i vd = true ↔ 4 ≤ queued i s ∨ refilled i s ∨ s.peelReads &&& vd ≠ 0#16 := by
  simp only [State.issueHeld, State.queueFull, Bool.or_eq_true, decide_eq_true_eq, List.any_eq_true, Bool.and_eq_true, bne_iff_ne,
    or_assoc, and_comm (b := isFrame _ = isFrame i)]
  rfl

theorem State.issueHeld_of_room {s : State} {i : Instr} {vd : BitVec 16} (hroom : queued i s < 4) (hfill : ¬refilled i s)
    (hpeel : s.peelReads &&& vd = 0#16) : s.issueHeld i vd = false := by
  rw [← Bool.not_eq_true, State.issueHeld_iff, not_or, not_or, not_not]
  exact ⟨by omega, hfill, hpeel⟩

theorem State.joinQueue_core (s : State) (u : UnitOp) : (s.joinQueue u).core =
    { s.core with
      units := s.core.units ++ [u], walks := (s.joinQueue u).core.walks, counted := (s.joinQueue u).core.counted } := by
  simp only [State.joinQueue, State.mapCore_core, Core.freshWalks]
  split <;> rfl

theorem State.markDirty_eq (s : State) (n : Nat) (vd : BitVec 16) (pd : BitVec 32) : s.markDirty n vd pd =
    s.mapHart (fun h => { h with
      vdirty := if n < h.vl.toNat then h.vdirty ||| vd else h.vdirty
      pdirty := if n < h.vl.toNat then h.pdirty ||| pd else h.pdirty }) := by
  by_cases h : n < s.hart.vl.toNat
  · simp only [State.markDirty, State.mapHart, if_pos h]
  · simp only [State.markDirty, State.mapHart, if_neg h]

theorem State.countRounding_eq (s : State) (rounds : Bool) : s.countRounding rounds =
    s.mapHart (fun h => { h with
      srcount := if rounds = true ∧ modeRm h.mode = .rsr then h.srcount + 1#64 else h.srcount }) := by
  by_cases h : rounds = true ∧ modeRm s.hart.mode = .rsr
  · simp only [State.countRounding, State.mapHart, Bool.and_eq_true, decide_eq_true_eq, if_pos h]
  · simp only [State.countRounding, State.mapHart, Bool.and_eq_true, decide_eq_true_eq, if_neg h]

/-- The bytes of memory and bench depend on the lines and the bench of the core, and on the package. -/
theorem sameBytes_of_eq {s t : State} (hlines : t.core.lines = s.core.lines) (hbench : t.core.bench = s.core.bench)
    (hmem : t.pkg.mem = s.pkg.mem) : SameBytes s t where
  memory a := by unfold State.peek Core.owned Pkg.read; rw [hlines, hmem]
  bench o := by unfold Core.benchNat; rw [hbench]

theorem State.issue_issued {s : State} {i : Instr} {n : Nat} {gd gd1 ga gb : Word} {rounds : Bool} {vd : BitVec 16}
    {pd : BitVec 32} (hfree : s.issueHeld i vd = false) : ∃ t, s.issue i n gd gd1 ga gb rounds vd pd = .next t ∧
      Issued (s.sample i n gd gd1 ga gb) true vd pd rounds s t := by
  have hcore := s.joinQueue_core (s.sample i n gd gd1 ga gb)
  refine ⟨_, State.issue_free s i n gd gd1 ga gb rounds vd pd hfree, ?_⟩
  rw [State.countRounding_eq, State.markDirty_eq]
  exact
    { core := hcore
      hart := by
        simp only [State.clearVstart, State.joinQueue, State.retire_hart, State.mapHart_hart, State.mapCore_hart, if_true]
        rfl
      pkg := rfl
      bytes := sameBytes_of_eq (hcore ▸ rfl) (hcore ▸ rfl) rfl }

theorem issuesInto_of_issue {ok : Prop} {i : Instr} {n : Nat} {gd gd1 ga gb : Word} {rounds : Bool} {vd : BitVec 16}
    {pd : BitVec 32} {s : State} (h : ok → exec i s = s.issue i n gd gd1 ga gb rounds vd pd) :
    IssuesInto ok i (s.sample i n gd gd1 ga gb) true vd pd rounds s := by
  constructor
  · intro hok hroom hfill hpeel
    rw [Completes, h hok]
    exact State.issue_issued (State.issueHeld_of_room hroom hfill hpeel)
  · intro hok hheld
    rw [h hok]
    exact State.issue_held _ _ _ _ _ _ _ _ _ _ ((s.issueHeld_iff i vd).mpr hheld)

/-! ### The trap of an instruction that fails its checks (05:R93, 16:R308). -/

theorem State.illegalInstr_trapped {s : State} (i : Instr) (hready : HandlerReady s) :
    Trapped 0x01#8 (((encode i).getD 0).zeroExtend 64) s.hart.pc s (s.illegalInstr i) ∧
      (s.illegalInstr i).hart.instret = s.hart.instret := by
  rw [State.illegalInstr, State.illegal, State.trap_handler s _ _ hready.th hready.vec (.inr ⟨by decide, by decide⟩)]
  refine ⟨?_, rfl⟩
  exact
    { hart := rfl
      core := rfl
      pkg := by simp [Pkg.dropAsks, bne, BEq.beq]
      bytes := sameBytes_of_eq rfl rfl rfl
      regs := fun _ => rfl }

theorem illegalUnless_of_illegalInstr {ok : Prop} {i : Instr} {s : State} (h : ¬ok → exec i s = .next (s.illegalInstr i)) :
    IllegalUnless ok i s :=
  fun hok hready => ⟨_, h hok, State.illegalInstr_trapped i hready⟩

/-- An instruction that issues under its check and traps without it. -/
theorem issues_of_guard {ok : Prop} {c : Bool} {i : Instr} {n : Nat} {gd gd1 ga gb : Word} {rounds : Bool} {vd : BitVec 16}
    {pd : BitVec 32} {s : State}
    (h : exec i s = if c = true then s.issue i n gd gd1 ga gb rounds vd pd else .next (s.illegalInstr i))
    (hok : c = true ↔ ok) :
    Issues ok i (s.sample i n gd gd1 ga gb) true vd pd rounds s :=
  ⟨issuesInto_of_issue (fun h' => by rw [h, if_pos (hok.mpr h')]),
   illegalUnless_of_illegalInstr (fun h' => by rw [h, if_neg (mt hok.mp h')])⟩

/-! ### Register checks (05:R108 to R110). -/

theorem evenAt_iff (k : VReg) (w : Nat) : evenAt k w = true ↔ (w = 64 → k.toNat % 2 = 0) := by
  have hbit : k.getLsbD 0 = decide (k.toNat % 2 = 1) := by simp [BitVec.getLsbD, Nat.testBit_zero]
  simp only [evenAt, hbit, Bool.or_eq_true, bne_iff_ne, Bool.not_eq_true', decide_eq_false_iff_not, Nat.mod_two_ne_one,
    ne_eq, imp_iff_not_or]

theorem all_evenAt_iff (ks : List VReg) (w : Nat) : ks.all (evenAt · w) = true ↔ Claims.Even w ks := by
  simp only [List.all_eq_true, evenAt_iff, Claims.Even]
  exact ⟨fun h hw k hk => h k hk hw, fun h k hk hw => h hw k hk⟩

theorem vsrcs_eq_vecs (a : VReg) (y : VSrc) : vsrcs a y = vecs a y := by cases y <;> rfl

theorem scalOf_eq_scalar (s : State) (y : VSrc) : s.scalOf y = scalar s y := by cases y <;> rfl

theorem evenAt_iff_even (k : VReg) (w : Nat) : evenAt k w = true ↔ Claims.Even w [k] := by
  simp [evenAt_iff, Claims.Even]

theorem ArrayRegs.even_iff (r : ArrayRegs) : r.even = true ↔ Claims.Even r.dsew [r.d] ∧ Claims.Even r.ssew r.srcs := by
  rw [ArrayRegs.even, Bool.and_eq_true, all_evenAt_iff, evenAt_iff_even]

theorem overlap_iff (l m : List Nat) : overlap l m = true ↔ ∃ r ∈ l, r ∈ m := by simp [overlap]

theorem ArrayRegs.disjoint_iff (r : ArrayRegs) : r.disjoint = true ↔ Apart r.d r.dsew r.srcs r.ssew := by
  simp only [ArrayRegs.disjoint, List.all_eq_true, Bool.not_eq_true', ← Bool.not_eq_true, overlap_iff, not_exists, not_and]
  rfl

theorem even_cons (w : Nat) (k : VReg) (ks : List VReg) : Claims.Even w (k :: ks) ↔ Claims.Even w [k] ∧ Claims.Even w ks := by
  simp only [← all_evenAt_iff, List.all_cons, List.all_nil, Bool.and_true, Bool.and_eq_true]

/-! ### Element types accepted (05:R107, R108). -/

theorem etAny_iff (t : ElemType) : etAny t = true ↔ t ∈ allTypes := by cases t <;> decide
theorem etInt_iff (t : ElemType) : etInt t = true ↔ t ∈ intTypes := by cases t <;> decide
theorem etInt32_iff (t : ElemType) : etInt32 t = true ↔ t ∈ narrowInts := by cases t <;> decide
theorem etFloat_iff (t : ElemType) : etFloat t = true ↔ t ∈ floatsAll := by cases t <;> decide
theorem etFloat64_iff (t : ElemType) : etFloat64 t = true ↔ t ∈ floats14 := by cases t <;> decide
theorem etFloat32_iff (t : ElemType) : etFloat32 t = true ↔ t ∈ floats13 := by cases t <;> decide
theorem etFloat16_iff (t : ElemType) : etFloat16 t = true ↔ t ∈ floats12 := by cases t <;> decide

/-! ### The three forms of issue (05:R97, R109). -/

theorem issuesV_of_issueArray {c : Bool} {ok : Prop} {i : Instr} {d : VReg} {w : Nat} {y : VSrc} {rounds : Bool} {s : State}
    (h : exec i s = s.issueArray i c d w y rounds) (hok : c = true ↔ ok) : IssuesV ok i d w y rounds s := by
  rw [IssuesV, ← scalOf_eq_scalar]
  exact issues_of_guard h (by rw [Bool.and_eq_true, hok])

theorem issuesPlain_of_issueV {p : ElemType → Bool} {types : List ElemType} {i : Instr} {d a : VReg} {y : VSrc} {rounds : Bool}
    {s : State} (hp : ∀ t, p t = true ↔ t ∈ types) (h : exec i s = s.issueV i p d a y rounds) :
    IssuesPlain i types d a y rounds s :=
  issuesV_of_issueArray h (by
    rw [Bool.and_eq_true, hp, ArrayRegs.even_iff, vsrcs_eq_vecs]
    exact and_congr_right (fun _ => (even_cons _ d _).symm))

/-- A type in wides is one of the types and has a wide type, so under WD the wide type alone decides. -/
theorem issuesWide_of_issueWd {p q : ElemType → Bool} {types wides : List ElemType} {i : Instr} {d a : VReg} {y : VSrc}
    {rounds : Bool} {s : State} (hp : ∀ t, p t = true ↔ t ∈ types) (hq : ∀ t, q t = true ↔ t ∈ wides)
    (hsub : wides ⊆ types)
    (h : exec i s = s.issueWd i p q d a y rounds) : IssuesWide i types wides d a y rounds s := by
  constructor
  · intro hwd
    apply issuesPlain_of_issueV hp
    rw [h, State.issueWd, hwd]
    rfl
  intro hwd
  constructor
  · intro hnot hready
    refine illegalUnless_of_illegalInstr (ok := False) (fun _ => ?_) id hready
    have hqf : q (modeEt s.hart.mode) = false := by rw [← Bool.not_eq_true, hq]; exact hnot
    rw [h, State.issueWd, if_pos hwd]
    cases ht : (modeEt s.hart.mode).wide with
    | none => rfl
    | some t => simp [State.issueArray, hqf]
  · intro hin t ht
    apply issuesV_of_issueArray
    · rw [h, State.issueWd, if_pos hwd]
      simp only [show (modeEt s.hart.mode).wide = some t from ht]
      rfl
    · rw [Bool.and_eq_true, Bool.and_eq_true, Bool.and_eq_true, Bool.and_eq_true, hp, hq, ArrayRegs.even_iff,
        ArrayRegs.disjoint_iff, decide_eq_true_eq, vsrcs_eq_vecs]
      have : modeEt s.hart.mode ∈ wides := hin
      have : modeEt s.hart.mode ∈ types := hsub hin
      simp only [*, true_and, and_assoc]
      rfl

theorem issues_of_issueCmp {q : ElemType → Bool} {types : List ElemType} {i : Instr} {p : PReg} {a : VReg} {y : VSrc}
    {s : State} (hq : ∀ t, q t = true ↔ t ∈ types) (h : exec i s = s.issueCmp i q p a y) :
    Issues (s.arrayReady = true ∧ et s ∈ types ∧ Claims.Even (et s).sew (vecs a y)) i
      (s.sample i (startIndex s) 0 0 0 (scalar s y)) true 0 (pdirtyOf p) false s := by
  rw [← scalOf_eq_scalar]
  refine issues_of_guard h ?_
  rw [Bool.and_eq_true, Bool.and_eq_true, hq, all_evenAt_iff, vsrcs_eq_vecs, and_assoc]
  rfl

theorem issues_of_issuePred {i : Instr} {p : PReg} {v : Word} {s : State} (h : exec i s = s.issuePred i p v) :
    Issues (s.arrayReady = true) i (s.sample i 0 0 0 v 0) true 0 (pdirtyOf p) false s :=
  issues_of_guard h Iff.rfl

/-! ### What a vcvt reads (05:R110, R123). -/

theorem cvtMoves_iff (src dst : ElemType) : cvtMoves src dst = true ↔
    src.sew ≠ dst.sew ∨ (src ≠ .e2m1 ∧ dst = .e2m1) ∨ (src = .e2m1 ∧ dst ≠ .e2m1) := by
  by_cases hs : src = .e2m1 <;> by_cases hd : dst = .e2m1 <;> simp [cvtMoves, hs, hd]

theorem cvtReads_le_iff (src dst : ElemType) (n k : Nat) : cvtReads src dst n ≤ k ↔
    ((src ≠ .e2m1 ∧ dst = .e2m1) → 2 * n ≤ k) ∧ ((src = .e2m1 ∧ dst ≠ .e2m1) → (n + 1) / 2 ≤ k) ∧
      (¬(src ≠ .e2m1 ∧ dst = .e2m1) → ¬(src = .e2m1 ∧ dst ≠ .e2m1) → n ≤ k) := by
  by_cases hs : src = .e2m1 <;> by_cases hd : dst = .e2m1 <;> simp [cvtReads, hs, hd]

theorem not_both_isInt_iff (t u : ElemType) :
    (!(t.isInt && u.isInt)) = decide (¬(t ∈ intTypes ∧ u ∈ intTypes)) := by
  have hiff (t : ElemType) : t.isInt = true ↔ t ∈ intTypes := etInt_iff t
  simp only [← hiff, ← Bool.and_eq_true, Bool.decide_eq_true, decide_not]

end Sys2Proof.Machine

namespace Sys2Proof
open Machine Claims

theorem vectorIntegerIssue : VectorIntegerIssue := by
  intro d a y s
  have hwide : ∀ i ∈ [Instr.vadd d a y, .vsub d a y, .vrsub d a y, .vmul d a y, .vmacc d a y, .vnmsac d a y],
      exec i s = s.issueWd i etInt etInt32 d a y false := by
    intro i hi; fin_cases hi <;> rfl
  have hnarrow : ∀ i ∈ [Instr.vmulh d a y, .vdiv d a y, .vdivu d a y, .vrem d a y],
      exec i s = s.issueV i etInt32 d a y false := by
    intro i hi; fin_cases hi <;> rfl
  have hint : ∀ i ∈ [Instr.vmin d a y, .vmax d a y, .vminu d a y, .vmaxu d a y, .vsll d a y, .vsrl d a y, .vsra d a y,
      .vabsd d a y], exec i s = s.issueV i etInt d a y false := by
    intro i hi; fin_cases hi <;> rfl
  have hany : ∀ i ∈ [Instr.vand d a y, .vor d a y, .vxor d a y, .vandn d a y, .vmerge d a y, .vmv d a y],
      exec i s = s.issueV i etAny d a y false := by
    intro i hi; fin_cases hi <;> rfl
  exact
    ⟨fun i hi => issuesWide_of_issueWd etInt_iff etInt32_iff (by decide) (hwide i hi),
     fun i hi => issuesPlain_of_issueV etInt32_iff (hnarrow i hi),
     fun i hi => issuesPlain_of_issueV etInt_iff (hint i hi),
     fun i hi => issuesPlain_of_issueV etAny_iff (hany i hi),
     issuesPlain_of_issueV etInt_iff rfl,
     issuesPlain_of_issueV etInt_iff rfl,
     issuesV_of_issueArray rfl (by
      rw [Bool.and_eq_true, Bool.and_eq_true, Bool.and_eq_true, etInt32_iff, ArrayRegs.even_iff, ArrayRegs.disjoint_iff,
        decide_eq_true_eq]
      simp only [and_assoc]
      rfl)⟩

theorem vectorFloatIssue : VectorFloatIssue := by
  intro d a b y t s vl packs unpacks
  have hwide : ∀ i ∈ [Instr.vfadd d a y, .vfsub d a y, .vfmul d a y],
      exec i s = s.issueWd i etFloat64 etFloat32 d a y true := by
    intro i hi; fin_cases hi <;> rfl
  have hfma : ∀ i ∈ [Instr.vfma d a y, .vfnma d a y], exec i s = s.issueWd i etFloat32 etFloat16 d a y true := by
    intro i hi; fin_cases hi <;> rfl
  have hroot : ∀ i ∈ [Instr.vfsqrt d a, .vfrecip d a], exec i s = s.issueV i etFloat32 d a (.imm 0#5) true := by
    intro i hi; fin_cases hi <;> rfl
  have hexp : ∀ i ∈ [Instr.vfexp2 d a, .vflog2 d a, .vfrsqrt d a], exec i s = s.issueV i etFloat16 d a (.imm 0#5) true := by
    intro i hi; fin_cases hi <;> rfl
  have hmin : ∀ i ∈ [Instr.vfmin d a y, .vfmax d a y], exec i s = s.issueV i etFloat d a y false := by
    intro i hi; fin_cases hi <;> rfl
  have hsgn : ∀ i ∈ [Instr.vfsgn d a b, .vfsgnN d a b, .vfsgnX d a b], exec i s = s.issueV i etFloat d a (.vec b) false := by
    intro i hi; fin_cases hi <;> rfl
  refine
    ⟨fun i hi => issuesWide_of_issueWd etFloat64_iff etFloat32_iff (by decide) (hwide i hi),
     fun i hi => issuesWide_of_issueWd etFloat32_iff etFloat16_iff (by decide) (hfma i hi),
     issuesPlain_of_issueV etFloat32_iff rfl,
     fun i hi => issuesPlain_of_issueV etFloat32_iff (hroot i hi),
     fun i hi => issuesPlain_of_issueV etFloat16_iff (hexp i hi),
     fun i hi => issuesPlain_of_issueV etFloat_iff (hmin i hi),
     fun i hi => issuesPlain_of_issueV etFloat_iff (hsgn i hi), ?_⟩
  rw [← not_both_isInt_iff]
  refine issuesV_of_issueArray rfl ?_
  rw [Bool.and_eq_true, Bool.and_eq_true, ArrayRegs.even_iff, Bool.or_eq_true, Bool.not_eq_true', ← Bool.not_eq_true,
    cvtMoves_iff, ArrayRegs.disjoint_iff, ← imp_iff_not_or, decide_eq_true_eq, cvtReads_le_iff]
  simp only [and_assoc]
  rfl

theorem predicateIssue : PredicateIssue := by
  intro p q r a y g off s pd compares pred
  have hany : ∀ i ∈ [Instr.vcmpeq p a y, .vcmpne p a y], exec i s = s.issueCmp i etAny p a y := by
    intro i hi; fin_cases hi <;> rfl
  have hint : ∀ i ∈ [Instr.vcmplt p a y, .vcmple p a y, .vcmpltu p a y, .vcmpleu p a y],
      exec i s = s.issueCmp i etInt p a y := by
    intro i hi; fin_cases hi <;> rfl
  have hfloat : ∀ i ∈ [Instr.vfcmpeq p a y, .vfcmplt p a y, .vfcmple p a y, .vfcmpun p a y],
      exec i s = s.issueCmp i etFloat p a y := by
    intro i hi; fin_cases hi <;> rfl
  have hpred : ∀ i ∈ [Instr.pand p q r, .por p q r, .pxor p q r, .pandn p q r, .psbf p q r, .psif p q r, .pfirst p q r,
      .pmov p q], exec i s = s.issuePred i p 0 := by
    intro i hi; fin_cases hi <;> rfl
  refine
    ⟨fun i hi => issues_of_issueCmp etAny_iff (hany i hi),
     fun i hi => issues_of_issueCmp etInt_iff (hint i hi),
     fun i hi => issues_of_issueCmp etFloat_iff (hfloat i hi),
     fun i hi => issues_of_issuePred (hpred i hi),
     issues_of_issuePred rfl,
     issues_of_issuePred rfl,
     issues_of_guard rfl ?_⟩
  rw [Bool.and_eq_true, Bool.and_eq_true, evenAt_iff_even, and_assoc]
  exact and_congr_right (fun _ => and_congr_left (fun _ => etInt_iff _))

/-- Settles O19: an instruction of each group issues through one guarded call, and the guard is the checks that its group's
statement lists. -/
theorem arrayIssue : Obligations.ArrayIssue := by
  unfold Obligations.ArrayIssue
  exact ⟨vectorIntegerIssue, vectorFloatIssue, predicateIssue⟩

end Sys2Proof
end

/-! The rows of the array registers (02:R51, R52): where an element lies, and what a read of an element gives after writes of
elements. -/

section
namespace Sys2Proof.Machine
open Claims

/-! ### The lane grant (02:R51). -/

theorem Hart.grantWays_nodup (h : Hart) : h.grantWays.Nodup := List.nodup_range.filter _

theorem Hart.spot_way_lt (h : Hart) (e : Nat) : (h.spot e).way < 8 := by
  unfold Hart.spot
  dsimp only
  cases hk : h.grantWays[e % h.lanes / 16384]? with
  | none => decide
  | some k => exact List.mem_range.mp (List.mem_of_mem_filter (List.mem_of_getElem? hk))

theorem Hart.spot_lane_lt (h : Hart) (e : Nat) : (h.spot e).lane < 16384 := Nat.mod_lt _ (by decide)

theorem lanesOf_pos {s : State} (hs : LanesWf s) : 0 < lanesOf s := Nat.mul_pos (by decide) hs.some

/-- The granted ways are distinct, so elements at one way and lane are a multiple of L apart. -/
theorem spot_row_inj {s : State} (hs : LanesWf s) {e f : Nat} (hway : (s.hart.spot e).way = (s.hart.spot f).way)
    (hlane : (s.hart.spot e).lane = (s.hart.spot f).lane) : e % lanesOf s = f % lanesOf s := by
  have hlt (n : Nat) : n % lanesOf s / 16384 < s.hart.grantWays.length := by
    rw [hs.grant]
    exact Nat.div_lt_of_lt_mul (Nat.mod_lt _ (lanesOf_pos hs))
  have hget (n : Nat) : (s.hart.spot n).way = s.hart.grantWays[n % lanesOf s / 16384]'(hlt n) := by
    simp [Hart.spot, ← show lanesOf s = s.hart.lanes from rfl, hlt n]
  rw [hget, hget, s.hart.grantWays_nodup.getElem_inj_iff] at hway
  rw [← Nat.div_add_mod (e % lanesOf s) 16384, ← Nat.div_add_mod (f % lanesOf s) 16384, hway]
  exact congrArg _ hlane

/-- A row of a register is named by the register and the place of its lane. -/
theorem rowKey_add (k : Nat) (p : Spot) : rowKey k p = k * 2 ^ 17 + (p.way * 2 ^ 14 + p.lane) := Nat.add_assoc ..

theorem spot_row_lt (h : Hart) (e : Nat) : (h.spot e).way * 2 ^ 14 + (h.spot e).lane < 2 ^ 17 := by
  have := h.spot_way_lt e
  have := h.spot_lane_lt e
  omega

/-- Rows of two registers are apart. -/
theorem key_ne_rowKey {j k x : Nat} (h : Hart) (e : Nat) (hjk : j ≠ k) (hx : x < 2 ^ 17) :
    j * 2 ^ 17 + x ≠ rowKey k (h.spot e) := by
  have := spot_row_lt h e
  rw [rowKey_add]
  omega

theorem rowKey_spot_iff {s : State} (hs : LanesWf s) (j k e f : Nat) :
    rowKey j (s.hart.spot e) = rowKey k (s.hart.spot f) ↔ j = k ∧ e % lanesOf s = f % lanesOf s := by
  constructor
  · intro h
    have hjk : j = k := by
      by_contra hjk
      rw [rowKey_add] at h
      exact key_ne_rowKey s.hart f hjk (spot_row_lt s.hart e) h
    have := s.hart.spot_lane_lt e
    have := s.hart.spot_lane_lt f
    subst hjk
    simp only [rowKey] at h
    exact ⟨rfl, spot_row_inj hs (by omega) (by omega)⟩
  · rintro ⟨rfl, h⟩
    have hmod : e % s.hart.lanes = f % s.hart.lanes := h
    simp [Hart.spot, rowKey, hmod]

/-! ### Slots (02:R52). -/

/-- The width of an element: one of a pair of rows' halves, or a part of a row. -/
theorem sew_cases (t : ElemType) : t.sew = 64 ∨ t.sew ∣ 32 := by cases t <;> decide

theorem sew_pos (t : ElemType) : 0 < t.sew := by cases t <;> decide

/-- Below VLMAX a slot's bits lie in the row. -/
theorem slot_fits {s : State} {w e : Nat} (hw : w ∣ 32) (h64 : w ≠ 64) (he : e < vlmaxFor s w) :
    e / lanesOf s * w + w ≤ 32 := by
  obtain ⟨q, hq⟩ := hw
  have hwpos : 0 < w := Nat.pos_of_ne_zero (by rintro rfl; omega)
  have hmax : vlmaxFor s w = lanesOf s * q := by
    rw [vlmaxFor, if_neg h64, hq, Nat.mul_left_comm, Nat.mul_div_cancel_left _ hwpos, lanesOf]
  have hslot : e / lanesOf s < q := Nat.div_lt_of_lt_mul (hmax ▸ he)
  calc e / lanesOf s * w + w = w * (e / lanesOf s + 1) := by ring
    _ ≤ w * q := Nat.mul_le_mul_left w hslot
    _ = 32 := hq.symm

/-- At width 64 the elements are the lanes. -/
theorem lt_lanesOf_of_64 {s : State} {e : Nat} (he : e < vlmaxFor s 64) : e < lanesOf s := by
  rwa [vlmaxFor, if_pos rfl] at he

theorem eq_iff_lane_slot (L e f : Nat) : f = e ↔ f % L = e % L ∧ f / L = e / L := by
  constructor
  · rintro rfl
    exact ⟨rfl, rfl⟩
  · rintro ⟨hmod, hdiv⟩
    rw [← Nat.div_add_mod f L, ← Nat.div_add_mod e L, hmod, hdiv]

/-- A predicate has four slots. -/
theorem predSlot_lt {s : State} {e : Nat} (he : e < vlmaxFor s 8) : e / lanesOf s < 4 := by
  have := slot_fits (by decide) (by decide) he
  omega

theorem slots_apart {m n : Nat} (w : Nat) (h : m ≠ n) : m * w + w ≤ n * w ∨ n * w + w ≤ m * w := by
  rw [← Nat.succ_mul, ← Nat.succ_mul]
  exact (Nat.lt_or_gt_of_ne h).imp (Nat.mul_le_mul_right w) (Nat.mul_le_mul_right w)

/-- VLMAX falls as the width grows. -/
theorem vlmaxFor_anti (s : State) {v w : Nat} (hv : 0 < v) (hv32 : v ≤ 32) (hvw : v ≤ w) : vlmaxFor s w ≤ vlmaxFor s v := by
  unfold vlmaxFor
  rw [if_neg (show v ≠ 64 by omega)]
  split
  · exact (Nat.le_div_iff_mul_le hv).mpr (Nat.mul_le_mul_left _ hv32)
  · exact Nat.div_le_div_left hvw hv

theorem vlmaxFor_sew_le (s : State) (t : ElemType) : vlmaxFor s t.sew ≤ vlmaxFor s 8 :=
  vlmaxFor_anti s (by decide) (by decide) (by cases t <;> decide)

/-! ### Bits of a row. -/

/-- A number with its w bits from bit p on replaced by those of v. -/
def setField (p w old v : Nat) : Nat := old / (2 ^ p * 2 ^ w) * (2 ^ p * 2 ^ w) + v % 2 ^ w * 2 ^ p + old % 2 ^ p

theorem testBit_setField (p w old v i : Nat) : (setField p w old v).testBit i =
    if i < p then old.testBit i else if i < p + w then v.testBit (i - p) else old.testBit i := by
  have hcut : setField p w old v = 2 ^ p * (2 ^ w * (old / 2 ^ (p + w)) + v % 2 ^ w) + old % 2 ^ p := by
    rw [setField, pow_add]
    ring
  rw [hcut, Nat.testBit_two_pow_mul_add _ (Nat.mod_lt _ (Nat.two_pow_pos p)),
    Nat.testBit_two_pow_mul_add _ (Nat.mod_lt _ (Nat.two_pow_pos w))]
  by_cases hi : i < p
  · simp [hi]
  · obtain ⟨j, rfl⟩ := Nat.exists_eq_add_of_le (Nat.le_of_not_lt hi)
    by_cases hj : j < w
    · simp [hj]
    · simp [hj, Nat.testBit_div_two_pow, show j - w + (p + w) = p + j by omega]

theorem testBit_field (n p w i : Nat) : (n / 2 ^ p % 2 ^ w).testBit i = (decide (i < w) && n.testBit (i + p)) := by
  simp [Nat.testBit_mod_two_pow, Nat.testBit_div_two_pow]

theorem field_setField_same {p w : Nat} (old v : Nat) (h : p + w ≤ 32) :
    (BitVec.ofNat 32 (setField p w old v)).toNat / 2 ^ p % 2 ^ w = v % 2 ^ w := by
  apply Nat.eq_of_testBit_eq
  intro i
  rw [testBit_field, BitVec.toNat_ofNat, Nat.testBit_mod_two_pow, Nat.testBit_mod_two_pow, testBit_setField]
  by_cases hi : i < w
  · simp [hi, show i + p < 32 by omega, show i + p < p + w by omega]
  · simp [hi]

theorem field_setField_apart {p q w : Nat} {old : Nat} (v : Nat) (hq : q + w ≤ 32)
    (h : q + w ≤ p ∨ p + w ≤ q) :
    (BitVec.ofNat 32 (setField p w old v)).toNat / 2 ^ q % 2 ^ w = old / 2 ^ q % 2 ^ w := by
  apply Nat.eq_of_testBit_eq
  intro i
  rw [testBit_field, testBit_field, BitVec.toNat_ofNat, Nat.testBit_mod_two_pow, testBit_setField]
  by_cases hi : i < w
  · have hout : i + q < p ∨ ¬(i + q < p + w) := by omega
    rcases hout with hout | hout
    · simp [hout, show i + q < 32 by omega]
    · simp [hout, show i + q < 32 by omega]
  · simp [hi]

/-! ### One element (02:R52). -/

theorem sparseGet_set {α : Type} [DecidableEq α] {d : α} {m : Sparse α} (hm : sparseWf d m = true) (k j : Nat) (v : α) :
    sparseGet d (sparseSet d m k v) j = if j = k then v else sparseGet d m j := by
  split
  next h => rw [h, sparseGet_set_self d m k v hm]
  next h => exact sparseGet_set_of_ne d m k j v hm h

/-- The row of register k that holds an element. -/
def State.vRow (s : State) (k e : Nat) : Nat := (sparseGet 0#32 s.core.vrows (rowKey k (s.hart.spot e))).toNat

theorem State.vRow_congr {s : State} (hs : LanesWf s) (k : Nat) {e f : Nat} (h : f % lanesOf s = e % lanesOf s) :
    s.vRow k f = s.vRow k e := by
  rw [State.vRow, State.vRow, (rowKey_spot_iff hs k k f e).mpr ⟨rfl, h⟩]

theorem State.vGet_64 (s : State) (k : VReg) (e : Nat) :
    s.vGet k 64 e = s.vRow k.toNat e + 2 ^ 32 * s.vRow (k.toNat + 1) e := rfl

theorem State.vGet_narrow (s : State) (k : VReg) {w : Nat} (e : Nat) (hw : w ≠ 64) :
    s.vGet k w e = s.vRow k.toNat e / 2 ^ (e / lanesOf s * w) % 2 ^ w := if_neg hw

theorem State.vGet_lt (s : State) (k : VReg) (w e : Nat) : s.vGet k w e < 2 ^ w := by
  by_cases hw : w = 64
  · subst hw
    have hlo : s.vRow k.toNat e < 2 ^ 32 := BitVec.isLt _
    have hhi : s.vRow (k.toNat + 1) e < 2 ^ 32 := BitVec.isLt _
    rw [State.vGet_64]
    omega
  · rw [State.vGet_narrow s k e hw]
    exact Nat.mod_lt _ (Nat.two_pow_pos w)

@[simp] theorem State.vSet_hart (s : State) (k : VReg) (w e v : Nat) : (s.vSet k w e v).hart = s.hart := rfl
@[simp] theorem State.vSet_pkg (s : State) (k : VReg) (w e v : Nat) : (s.vSet k w e v).pkg = s.pkg := rfl
theorem State.vSet_core (s : State) (k : VReg) (w e v : Nat) :
    (s.vSet k w e v).core = { s.core with vrows := (s.vSet k w e v).core.vrows } := by
  simp only [State.vSet, State.mapCore_core]
  split <;> rfl
@[simp] theorem State.vSet_prows (s : State) (k : VReg) (w e v : Nat) : (s.vSet k w e v).core.prows = s.core.prows := by
  rw [State.vSet_core]

theorem State.vSet_vrows_64 (s : State) (k : VReg) (e v : Nat) : (s.vSet k 64 e v).core.vrows =
    sparseSet 0#32 (sparseSet 0#32 s.core.vrows (rowKey k.toNat (s.hart.spot e)) (BitVec.ofNat 32 v))
      (rowKey (k.toNat + 1) (s.hart.spot e)) (BitVec.ofNat 32 (v / 2 ^ 32)) := rfl

theorem State.vSet_vrows_narrow (s : State) (k : VReg) {w : Nat} (e v : Nat) (hw : w ≠ 64) : (s.vSet k w e v).core.vrows =
    sparseSet 0#32 s.core.vrows (rowKey k.toNat (s.hart.spot e))
      (BitVec.ofNat 32 (setField (e / lanesOf s * w) w (s.vRow k.toNat e) v)) := by
  simp only [State.vSet, State.mapCore_core, if_neg hw]
  rfl

theorem lanesWf_vSet {s : State} (hs : LanesWf s) (k : VReg) (w e v : Nat) : LanesWf (s.vSet k w e v) where
  grant := hs.grant
  some := hs.some
  rows := by
    by_cases hw : w = 64
    · subst hw
      exact sparseWf_set _ _ _ _ (sparseWf_set _ _ _ _ hs.rows)
    · rw [State.vSet_vrows_narrow s k e v hw]
      exact sparseWf_set _ _ _ _ hs.rows
  preds := by rw [State.vSet_prows]; exact hs.preds

/-- A read of an element after a write of one of the same register. -/
theorem vGet_vSet {s : State} (hs : LanesWf s) (k : VReg) {w e f : Nat} (v : Nat) (hw : w = 64 ∨ w ∣ 32)
    (he : e < vlmaxFor s w) (hf : f < vlmaxFor s w) :
    (s.vSet k w e v).vGet k w f = if f = e then v % 2 ^ w else s.vGet k w f := by
  by_cases h64 : w = 64
  · subst h64
    have heq : f % lanesOf s = e % lanesOf s ↔ f = e := by
      rw [Nat.mod_eq_of_lt (lt_lanesOf_of_64 he), Nat.mod_eq_of_lt (lt_lanesOf_of_64 hf)]
    have hwf := sparseWf_set 0#32 _ (rowKey k.toNat (s.hart.spot e)) (BitVec.ofNat 32 v) hs.rows
    rw [State.vGet_64, State.vGet_64, State.vRow, State.vRow, State.vSet_vrows_64, State.vSet_hart,
      sparseGet_set hwf, sparseGet_set hwf, sparseGet_set hs.rows, sparseGet_set hs.rows]
    simp only [rowKey_spot_iff hs, heq, Nat.left_eq_add, Nat.add_eq_left, one_ne_zero, false_and, true_and, if_false]
    split_ifs with hfe
    · simp only [BitVec.toNat_ofNat]
      omega
    · rfl
  · have hdvd : w ∣ 32 := hw.resolve_left h64
    have hfe := slot_fits hdvd h64 he
    have hff := slot_fits hdvd h64 hf
    rw [State.vGet_narrow _ k f h64, State.vGet_narrow s k f h64, State.vRow, State.vSet_vrows_narrow s k e v h64,
      State.vSet_hart, sparseGet_set hs.rows]
    simp only [rowKey_spot_iff hs, true_and]
    by_cases hrow : f % lanesOf s = e % lanesOf s
    · rw [if_pos hrow, State.vRow_congr hs k.toNat hrow]
      by_cases h : f = e
      · rw [if_pos h, h]
        exact field_setField_same _ v hfe
      · have hslot : f / lanesOf s ≠ e / lanesOf s := fun hslot => h ((eq_iff_lane_slot _ e f).mpr ⟨hrow, hslot⟩)
        rw [if_neg h]
        exact field_setField_apart v hff (slots_apart w hslot)
    · rw [if_neg hrow, if_neg (fun h => hrow (congrArg (· % lanesOf s) h))]
      rfl

/-- A write of an element leaves every row of the other registers. -/
theorem sparseGet_vSet {s : State} (hs : LanesWf s) (k : VReg) {w j x : Nat} (e v : Nat)
    (hj : j ∉ fieldOf k w) (hx : x < 2 ^ 17) :
    sparseGet 0#32 (s.vSet k w e v).core.vrows (j * 2 ^ 17 + x) = sparseGet 0#32 s.core.vrows (j * 2 ^ 17 + x) := by
  by_cases hw : w = 64
  · subst hw
    simp only [fieldOf, if_true, List.mem_cons, List.not_mem_nil, or_false, not_or] at hj
    obtain ⟨hlo, hhi⟩ := hj
    rw [State.vSet_vrows_64, sparseGet_set (sparseWf_set _ _ _ _ hs.rows), if_neg (key_ne_rowKey s.hart e hhi hx),
      sparseGet_set hs.rows, if_neg (key_ne_rowKey s.hart e hlo hx)]
  · have hne : j ≠ k.toNat := by simpa [fieldOf, hw] using hj
    rw [State.vSet_vrows_narrow s k e v hw, sparseGet_set hs.rows, if_neg (key_ne_rowKey s.hart e hne hx)]

/-! ### One predicate bit (02:R44, R52). -/

theorem State.pSet_core (s : State) (p : PReg) (e : Nat) (b : Bool) :
    (s.pSet p e b).core = { s.core with prows := (s.pSet p e b).core.prows } := by
  unfold State.pSet
  split <;> rfl
@[simp] theorem State.pSet_hart (s : State) (p : PReg) (e : Nat) (b : Bool) : (s.pSet p e b).hart = s.hart := by
  unfold State.pSet
  split <;> rfl
@[simp] theorem State.pSet_pkg (s : State) (p : PReg) (e : Nat) (b : Bool) : (s.pSet p e b).pkg = s.pkg := by
  unfold State.pSet
  split <;> rfl
@[simp] theorem State.pSet_vrows (s : State) (p : PReg) (e : Nat) (b : Bool) : (s.pSet p e b).core.vrows = s.core.vrows := by
  rw [State.pSet_core]

/-- A predicate's row with the bit of a slot written. -/
def setBit (old : BitVec 4) (slot : Nat) (b : Bool) : BitVec 4 :=
  if b then old ||| BitVec.ofNat 4 (2 ^ slot) else old &&& ~~~BitVec.ofNat 4 (2 ^ slot)

theorem getLsbD_setBit (old : BitVec 4) {m n : Nat} (b : Bool) (hn : n < 4) :
    (setBit old m b).getLsbD n = if n = m then b else old.getLsbD n := by
  have hbit : (BitVec.ofNat 4 (2 ^ m)).getLsbD n = decide (n = m) := by
    rw [BitVec.getLsbD_ofNat, Nat.testBit_two_pow]
    simp [hn, eq_comm]
  cases b with
  | true =>
    rw [setBit, if_pos rfl, BitVec.getLsbD_or, hbit]
    by_cases h : n = m <;> simp [h]
  | false =>
    rw [setBit, if_neg Bool.false_ne_true, BitVec.getLsbD_and, BitVec.getLsbD_not, hbit]
    by_cases h : n = m <;> simp [h, hn]

theorem State.pSet_prows (s : State) {p : PReg} (e : Nat) (b : Bool) (hp : p ≠ 0#5) : (s.pSet p e b).core.prows =
    sparseSet 0#4 s.core.prows (rowKey p.toNat (s.hart.spot e))
      (setBit (sparseGet 0#4 s.core.prows (rowKey p.toNat (s.hart.spot e))) (e / lanesOf s) b) := by
  simp only [State.pSet, if_neg hp]
  rfl

theorem lanesWf_pSet {s : State} (hs : LanesWf s) (p : PReg) (e : Nat) (b : Bool) : LanesWf (s.pSet p e b) where
  grant := by rw [State.pSet_hart]; exact hs.grant
  some := by rw [State.pSet_hart]; exact hs.some
  rows := by rw [State.pSet_vrows]; exact hs.rows
  preds := by
    by_cases hp : p = 0#5
    · rw [State.pSet, if_pos hp]; exact hs.preds
    · rw [State.pSet_prows s e b hp]; exact sparseWf_set _ _ _ _ hs.preds

theorem State.pGet_zero (s : State) (e : Nat) : s.pGet 0#5 e = true := rfl

theorem State.pGet_row (s : State) {q : PReg} (e : Nat) (hq : q ≠ 0#5) :
    s.pGet q e = (sparseGet 0#4 s.core.prows (rowKey q.toNat (s.hart.spot e))).getLsbD (e / lanesOf s) := if_neg hq

/-- A read of a predicate bit after a write of one; p0 reads true and discards writes. -/
theorem pGet_pSet {s : State} (hs : LanesWf s) (p q : PReg) {e f : Nat} (b : Bool) (hf : f < vlmaxFor s 8) :
    (s.pSet p e b).pGet q f = if q = p ∧ p ≠ 0#5 ∧ f = e then b else s.pGet q f := by
  by_cases hp : p = 0#5
  · simp [State.pSet, hp]
  by_cases hq : q = 0#5
  · subst hq
    rw [if_neg (fun h => hp h.1.symm)]
    rfl
  have hlanes : lanesOf (s.pSet p e b) = lanesOf s := by rw [lanesOf, State.pSet_hart, lanesOf]
  rw [State.pGet_row _ f hq, State.pGet_row s f hq, State.pSet_hart, State.pSet_prows s e b hp, sparseGet_set hs.preds, hlanes]
  simp only [rowKey_spot_iff hs, BitVec.toNat_inj]
  by_cases hqp : q = p
  · subst hqp
    by_cases hrow : f % lanesOf s = e % lanesOf s
    · have hkey : rowKey q.toNat (s.hart.spot e) = rowKey q.toNat (s.hart.spot f) :=
        (rowKey_spot_iff hs ..).mpr ⟨rfl, hrow.symm⟩
      simp [hrow, getLsbD_setBit _ b (predSlot_lt hf), eq_iff_lane_slot (lanesOf s) e f, hp, hkey]
    · have hne : f ≠ e := fun h => hrow (congrArg (· % lanesOf s) h)
      simp [hrow, hne]
  · simp [hqp]

/-! ### Elements and predicate bits in turn. -/

/-- The state as it was but for the rows of the registers. -/
structure RowsOnly (s t : State) : Prop where
  hart : t.hart = s.hart
  pkg : t.pkg = s.pkg
  core : t.core = { s.core with vrows := t.core.vrows, prows := t.core.prows }

theorem RowsOnly.refl (s : State) : RowsOnly s s := ⟨rfl, rfl, rfl⟩

theorem RowsOnly.trans {s t u : State} (h : RowsOnly s t) (h' : RowsOnly t u) : RowsOnly s u where
  hart := h'.hart.trans h.hart
  pkg := h'.pkg.trans h.pkg
  core := h'.core.trans (by rw [h.core])

theorem rowsOnly_vSet (s : State) (k : VReg) (w e v : Nat) : RowsOnly s (s.vSet k w e v) where
  hart := s.vSet_hart k w e v
  pkg := s.vSet_pkg k w e v
  core := by rw [State.vSet_core]

theorem rowsOnly_pSet (s : State) (p : PReg) (e : Nat) (b : Bool) : RowsOnly s (s.pSet p e b) where
  hart := s.pSet_hart p e b
  pkg := s.pSet_pkg p e b
  core := by rw [State.pSet_core]

/-- Write an element of register d and a bit of predicate p, each where a value is given. -/
def State.put (s : State) (d : VReg) (w : Nat) (p : PReg) (v : Nat → Option Nat) (b : Nat → Option Bool) (e : Nat) : State :=
  let t := (v e).elim s (s.vSet d w e)
  (b e).elim t (t.pSet p e)

/-- Write them for a list of elements, in order. -/
def State.putAll (s : State) (d : VReg) (w : Nat) (p : PReg) (v : Nat → Option Nat) (b : Nat → Option Bool) (es : List Nat) :
    State := es.foldl (fun t e => t.put d w p v b e) s

variable {d : VReg} {w : Nat} {p : PReg} {v : Nat → Option Nat} {b : Nat → Option Bool}

theorem rowsOnly_put (s : State) (e : Nat) : RowsOnly s (s.put d w p v b e) := by
  unfold State.put
  cases v e with
  | none =>
    cases b e with
    | none => exact .refl s
    | some y => exact rowsOnly_pSet s p e y
  | some x =>
    cases b e with
    | none => exact rowsOnly_vSet s d w e x
    | some y => exact (rowsOnly_vSet s d w e x).trans (rowsOnly_pSet _ p e y)

theorem lanesWf_put {s : State} (hs : LanesWf s) (e : Nat) : LanesWf (s.put d w p v b e) := by
  unfold State.put
  cases v e with
  | none =>
    cases b e with
    | none => exact hs
    | some y => exact lanesWf_pSet hs p e y
  | some x =>
    cases b e with
    | none => exact lanesWf_vSet hs d w e x
    | some y => exact lanesWf_pSet (lanesWf_vSet hs d w e x) p e y

/-- Elements are read from the vector rows, and bits from the predicate rows. -/
theorem State.vGet_congr {s t : State} (hspot : t.hart.spot = s.hart.spot) (hrows : t.core.vrows = s.core.vrows)
    (k : VReg) (w e : Nat) :
    t.vGet k w e = s.vGet k w e := by
  unfold State.vGet
  rw [hspot, hrows]

theorem State.pGet_congr {s t : State} (hspot : t.hart.spot = s.hart.spot) (hrows : t.core.prows = s.core.prows)
    (q : PReg) (e : Nat) :
    t.pGet q e = s.pGet q e := by
  unfold State.pGet
  rw [hspot, hrows]

theorem vGet_put {s : State} (hs : LanesWf s) {e f : Nat} (hw : w = 64 ∨ w ∣ 32) (he : e < vlmaxFor s w)
    (hf : f < vlmaxFor s w) :
    (s.put d w p v b e).vGet d w f = if f = e then ((v e).map (· % 2 ^ w)).getD (s.vGet d w f) else s.vGet d w f := by
  have hpred (t : State) : ((b e).elim t (t.pSet p e)).vGet d w f = t.vGet d w f := by
    cases b e with
    | none => rfl
    | some y => exact State.vGet_congr (congrArg Hart.spot (t.pSet_hart p e y)) (t.pSet_vrows p e y) d w f
  rw [State.put, hpred]
  cases v e with
  | none => simp
  | some x => exact vGet_vSet hs d x hw he hf

theorem pGet_put {s : State} (hs : LanesWf s) (q : PReg) (e : Nat) {f : Nat} (hf : f < vlmaxFor s 8) :
    (s.put d w p v b e).pGet q f = if q = p ∧ p ≠ 0#5 ∧ f = e then (b e).getD (s.pGet q f) else s.pGet q f := by
  have helem : ((v e).elim s (s.vSet d w e)).pGet q f = s.pGet q f ∧ LanesWf ((v e).elim s (s.vSet d w e)) ∧
      ((v e).elim s (s.vSet d w e)).hart = s.hart := by
    cases v e with
    | none => exact ⟨rfl, hs, rfl⟩
    | some x => exact ⟨State.pGet_congr (s := s) (t := s.vSet d w e x) rfl (s.vSet_prows d w e x) q f,
      lanesWf_vSet hs d w e x, rfl⟩
  obtain ⟨hget, hwf, hhart⟩ := helem
  unfold State.put
  generalize (v e).elim s (s.vSet d w e) = t at *
  cases b e with
  | none => simp [hget]
  | some y =>
    have hf' : f < vlmaxFor t 8 := by rwa [vlmaxFor, hhart]
    simpa [hget] using pGet_pSet hwf p q (e := e) y hf'

theorem otherRows_put {s : State} (hs : LanesWf s) (e : Nat) : OtherRowsSame d w s (s.put d w p v b e) := by
  intro k hk hd x hx
  have hpred (t : State) : ((b e).elim t (t.pSet p e)).core.vrows = t.core.vrows := by
    cases b e with
    | none => rfl
    | some y => exact t.pSet_vrows p e y
  rw [State.put, hpred]
  cases v e with
  | none => rfl
  | some y => exact sparseGet_vSet hs d e y hd hx

theorem rowsOnly_putAll (s : State) (es : List Nat) : RowsOnly s (s.putAll d w p v b es) := by
  induction es generalizing s with
  | nil => exact .refl s
  | cons e es ih => exact (rowsOnly_put s e).trans (ih _)

theorem vlmaxFor_congr {s t : State} (h : t.hart = s.hart) (w : Nat) : vlmaxFor t w = vlmaxFor s w := by
  rw [vlmaxFor, h, vlmaxFor]

/-- After writes to elements of d an element listed reads the value given for it, and every other one as before. -/
theorem vGet_putAll {s : State} (hs : LanesWf s) {es : List Nat} {f : Nat} (hw : w = 64 ∨ w ∣ 32)
    (hes : ∀ e ∈ es, e < vlmaxFor s w) (hf : f < vlmaxFor s w) : (s.putAll d w p v b es).vGet d w f =
      if f ∈ es then ((v f).map (· % 2 ^ w)).getD (s.vGet d w f) else s.vGet d w f := by
  induction es generalizing s with
  | nil => rfl
  | cons e es ih =>
    obtain ⟨he, hes⟩ := List.forall_mem_cons.mp hes
    have hmax := vlmaxFor_congr (rowsOnly_put (d := d) (w := w) (p := p) (v := v) (b := b) s e).hart w
    have htail := ih (lanesWf_put hs e) (fun e h => hmax ▸ hes e h) (hmax ▸ hf)
    rw [vGet_put hs hw he hf] at htail
    refine htail.trans ?_
    by_cases hfe : f = e
    · subst hfe
      cases v f <;> simp
    · simp [hfe]

/-- After writes to bits of p a bit listed reads the value given for it, and every other one as before. -/
theorem pGet_putAll {s : State} (hs : LanesWf s) {es : List Nat} (q : PReg) {f : Nat} (hf : f < vlmaxFor s 8) :
    (s.putAll d w p v b es).pGet q f =
      if q = p ∧ p ≠ 0#5 ∧ f ∈ es then (b f).getD (s.pGet q f) else s.pGet q f := by
  induction es generalizing s with
  | nil => simp [State.putAll]
  | cons e es ih =>
    have hmax := vlmaxFor_congr (rowsOnly_put (d := d) (w := w) (p := p) (v := v) (b := b) s e).hart 8
    have htail := ih (lanesWf_put hs e) (hmax ▸ hf)
    rw [pGet_put hs q e hf] at htail
    refine htail.trans ?_
    by_cases hp : q = p ∧ p ≠ 0#5
    · by_cases hfe : f = e
      · subst hfe
        cases b f <;> simp [hp]
      · simp [hfe]
    · simp [← and_assoc, hp]

theorem otherRows_putAll {s : State} (hs : LanesWf s) (es : List Nat) : OtherRowsSame d w s (s.putAll d w p v b es) := by
  induction es generalizing s with
  | nil => exact fun _ _ _ _ _ => rfl
  | cons e es ih => exact fun k hk hd x hx => (ih (lanesWf_put hs e) k hk hd x hx).trans (otherRows_put hs e k hk hd x hx)

/-- Writes to the bits of a predicate alone leave the vector rows. -/
theorem putAll_vrows (s : State) (es : List Nat) (hv : ∀ e, v e = none) :
    (s.putAll d w p v b es).core.vrows = s.core.vrows := by
  refine foldl_keeps (fun s : State => s.core.vrows) _ (fun t e => ?_) es s
  rw [State.put, hv]
  cases b e with
  | none => rfl
  | some y => exact t.pSet_vrows p e y

/-- Writes to the elements of a register alone leave the predicate rows. -/
theorem putAll_prows (s : State) (es : List Nat) (hb : ∀ e, b e = none) :
    (s.putAll d w p v b es).core.prows = s.core.prows := by
  refine foldl_keeps (fun s : State => s.core.prows) _ (fun t e => ?_) es s
  rw [State.put, hb]
  cases v e with
  | none => rfl
  | some x => exact t.vSet_prows d w e x

end Sys2Proof.Machine
end

/-! One slot of the kneader (05:R98, R100, R112): the step that an entry at the head of the queue takes when nothing stops it, and
what its writes leave. -/

section
namespace Sys2Proof.Machine
open Claims

/-! ### The elements of a slot (05:R98). -/

theorem mem_natRange {a n e : Nat} : e ∈ natRange a n ↔ a ≤ e ∧ e < a + n := by
  simp only [natRange, List.mem_map, List.mem_range]
  constructor
  · rintro ⟨k, hk, rfl⟩
    omega
  · rintro ⟨hlo, hhi⟩
    exact ⟨e - a, by omega, by omega⟩

theorem range_filter_between {a b n : Nat} (hab : a ≤ b) (hbn : b ≤ n) :
    (List.range n).filter (fun e => decide (a ≤ e ∧ e < b)) = natRange a (b - a) := by
  have hcut : List.range n = List.range a ++ (natRange a (b - a) ++ natRange b (n - b)) := by
    obtain ⟨k, rfl⟩ := Nat.exists_eq_add_of_le hab
    obtain ⟨m, rfl⟩ := Nat.exists_eq_add_of_le hbn
    rw [Nat.add_sub_cancel_left, Nat.add_sub_cancel_left]
    simp [natRange, List.range_add, Function.comp_def, Nat.add_assoc]
  rw [hcut, List.filter_append, List.filter_append, List.filter_eq_nil_iff.mpr, List.filter_eq_self.mpr,
    List.filter_eq_nil_iff.mpr, List.append_nil, List.nil_append]
  · intro e he
    have := mem_natRange.mp he
    simp
    omega
  · intro e he
    have := mem_natRange.mp he
    simp
    omega
  · intro e he
    have := List.mem_range.mp he
    simp
    omega

/-- The elements that an entry's next slot runs. -/
def slotList (s : State) (u : UnitOp) : List Nat := natRange u.vstart (slotTop s u - u.vstart)

theorem lt_slotTop {s : State} {u : UnitOp} (hs : LanesWf s) (h : u.vstart < u.vl) : u.vstart < slotTop s u :=
  lt_min h (Nat.lt_mul_of_div_lt (Nat.lt_succ_self _) (lanesOf_pos hs))

theorem mem_slotList {s : State} {u : UnitOp} {e : Nat} : e ∈ slotList s u ↔ InSlot s u e := by
  rw [slotList, mem_natRange, InSlot]
  omega

theorem slotElems_eq (s : State) (u : UnitOp) :
    u.slotElems s.hart.lanes (u.vstart / s.hart.lanes) = slotList s u := by
  rw [UnitOp.slotElems, max_eq_left (Nat.div_mul_le_self _ _)]
  rfl

theorem slot_filter {s : State} {u : UnitOp} (hs : LanesWf s) (h : u.vstart < u.vl) (q : Nat → Bool) :
    (List.range u.vl).filter (fun e => decide (InSlot s u e) && q e) = (slotList s u).filter q := by
  rw [slotList, ← range_filter_between (lt_slotTop hs h).le (min_le_left _ _), List.filter_filter]
  simp only [Bool.and_comm]

/-! ### The entry at the head runs (05:R98, 21:R360). -/

theorem turnOf_head {s : State} {u : UnitOp} {rest : List UnitOp} (hu : s.core.units = u :: rest) (hf : isFrame u.instr = false) :
    s.turnOf false = some u := by
  simp [State.turnOf, hu, hf]

theorem not_isFrame_of_isKneader {i : Instr} (h : isKneader i = true) : isFrame i = false := by
  simp only [isKneader, Bool.and_eq_true, Bool.not_eq_true'] at h
  exact h.1.1

theorem not_isVecMem_of_isKneader {i : Instr} (h : isKneader i = true) : isVecMem i = false := by
  simp only [isKneader, Bool.and_eq_true, Bool.not_eq_true'] at h
  exact h.2

theorem exec_kneaderSlot {s : State} {u : UnitOp} {rest : List UnitOp} (hu : UnitReady u rest s)
    (hk : isKneader u.instr = true) : exec .kneaderSlot s = .next (s.kneadOne u) := by
  have hm := not_isVecMem_of_isKneader hk
  have hf := not_isFrame_of_isKneader hk
  show execKneaderSlot s = _
  simp [execKneaderSlot, turnOf_head hu.head hf, hu.trigger, hm, hk]

/-- The entry once its unit has begun it, and at a later element. -/
def UnitOp.running (u : UnitOp) : UnitOp := { u with started := true }
def UnitOp.movedTo (u : UnitOp) (e : Nat) : UnitOp := { u with started := true, vstart := e }

@[simp] theorem UnitOp.running_instr (u : UnitOp) : u.running.instr = u.instr := rfl
@[simp] theorem UnitOp.running_vstart (u : UnitOp) : u.running.vstart = u.vstart := rfl
@[simp] theorem UnitOp.running_vl (u : UnitOp) : u.running.vl = u.vl := rfl

/-- The instruction counted for the check column when it starts. -/
def State.counted (s : State) (u : UnitOp) : State :=
  s.mapCore (fun c => { c with arrayCount := if u.started then c.arrayCount else c.arrayCount + 1#8 })

theorem startUnit_eq {s : State} {u : UnitOp} {rest : List UnitOp} (hu : UnitReady u rest s) (runs : Bool) :
    s.startUnit u runs = (s.counted u, u.running, false) := by
  simp only [State.startUnit, State.counted, State.mapCore, hu.inject, hu.column, Bool.and_false, Bool.false_and,
    Bool.false_or, Bool.not_eq_true']
  cases u.started <;> rfl

theorem noteRows_eq {s : State} (hrows : s.core.badRows = []) (hinj : s.core.injArm = false) (es rows : List Nat) :
    s.noteRows es rows = s := by
  unfold State.noteRows Core.writeRows State.mapCore
  dsimp only
  split
  · simp [hrows, hinj]
  · rfl

theorem badRow_none {s : State} (hrows : s.core.badRows = []) (rows : List Nat) : s.badRow rows = none := by
  simp [State.badRow, hrows]

/-- The next slot's first element. -/
def nextSlot (s : State) (u : UnitOp) : Nat := (u.vstart / lanesOf s + 1) * lanesOf s

/-- With nothing to stop it, an entry with elements left runs its slot and ends or goes on. -/
theorem kneadOne_slot {s t : State} {u : UnitOp} {rest : List UnitOp} (hu : UnitReady u rest s) (hpred : isPred u.instr = false)
    (hlt : u.vstart < u.vl) (ht : (s.counted u).slotEffect u.running (slotList s u) = t)
    (hrows : t.core.badRows = s.core.badRows) (hinj : t.core.injArm = s.core.injArm) :
    s.kneadOne u = if u.vl ≤ nextSlot s u then t.endKneader (u.movedTo (nextSlot s u))
      else t.setUnit (u.movedTo (nextSlot s u)) := by
  have hnot : ¬u.vl ≤ u.vstart := Nat.not_le.mpr hlt
  have hbad (rows : List Nat) : (s.counted u).badRow rows = none := badRow_none hu.parity rows
  have hes : u.running.slotElems (s.counted u).hart.lanes (u.vstart / (s.counted u).hart.lanes) =
    slotList s u := slotElems_eq s u
  simp only [State.kneadOne, startUnit_eq hu, UnitOp.running_instr, UnitOp.running_vstart, UnitOp.running_vl, hpred, hnot, hbad,
    hes, ht, noteRows_eq (hrows.trans hu.parity) (hinj.trans hu.inject), Bool.false_eq_true, if_false]
  rfl

/-- The state after a slot: rows as in q, flags in VFSR, the entry gone or at the next slot. -/
def slotAfter (s q : State) (u : UnitOp) (rest : List UnitOp) (fl : Flags) : State :=
  (q.orVfsr fl).mapCore (fun c => { c with units := unitsAfter s u rest })

section
variable {s q : State} {u : UnitOp} {rest : List UnitOp} {fl : Flags}

/-- The entry leaves its queue, or goes on at the next slot. -/
theorem endSlot_eq (hq : RowsOnly (s.counted u) q) (hunits : s.core.units = u :: rest) (hf : isFrame u.instr = false) :
    (if u.vl ≤ nextSlot s u then (q.orVfsr fl).dropUnit (u.movedTo (nextSlot s u))
      else (q.orVfsr fl).setUnit (u.movedTo (nextSlot s u))) = slotAfter s q u rest fl := by
  have hqunits : (q.orVfsr fl).core.units = u :: rest := by
    rw [State.orVfsr, State.mapHart_core, hq.core]
    exact hunits
  simp only [State.dropUnit, State.setUnit, UnitOp.movedTo, slotAfter, State.mapCore, hqunits, mapFirst, hf, if_true, Option.toList,
    List.nil_append,
    List.cons_append, unitsAfter, nextSlot]
  split <;> rfl

theorem slotAfter_units : (slotAfter s q u rest fl).core.units = unitsAfter s u rest := rfl
theorem slotAfter_vrows : (slotAfter s q u rest fl).core.vrows = q.core.vrows := rfl
theorem slotAfter_prows : (slotAfter s q u rest fl).core.prows = q.core.prows := rfl
theorem slotAfter_vGet (k : VReg) (w e : Nat) : (slotAfter s q u rest fl).vGet k w e = q.vGet k w e :=
  State.vGet_congr rfl rfl k w e
theorem slotAfter_pGet (k : PReg) (e : Nat) : (slotAfter s q u rest fl).pGet k e = q.pGet k e := State.pGet_congr rfl rfl k e

theorem slotAfter_pkg (hq : RowsOnly (s.counted u) q) : (slotAfter s q u rest fl).pkg = s.pkg := hq.pkg

theorem slotAfter_hart (hq : RowsOnly (s.counted u) q) :
    (slotAfter s q u rest fl).hart = { s.hart with vfsr := s.hart.vfsr ||| fl } := by
  rw [slotAfter, State.mapCore_hart, State.orVfsr, State.mapHart_hart, hq.hart]
  rfl

theorem slotAfter_core (hq : RowsOnly (s.counted u) q) : (slotAfter s q u rest fl).core =
    { s.core with
      vrows := q.core.vrows, prows := q.core.prows, units := unitsAfter s u rest
      arrayCount := (s.counted u).core.arrayCount } := by
  rw [slotAfter, State.mapCore_core, State.orVfsr, State.mapHart_core, hq.core]
  rfl

theorem slotAfter_bytes (hq : RowsOnly (s.counted u) q) : SameBytes s (slotAfter s q u rest fl) := by
  refine sameBytes_of_eq ?_ ?_ ?_
  · rw [slotAfter_core hq]
  · rw [slotAfter_core hq]
  · rw [slotAfter_pkg hq]

end

/-! ### What a slot of a vector instruction writes (05:R100). -/

/-- The value that a slot writes to an element, if it writes one. -/
def State.slotValue (s : State) (u : UnitOp) (all : Bool) (f : Nat → FRes) (other : Nat → Nat) (e : Nat) : Option Nat :=
  if s.active u.mode e then some (f e).bits else if all then some (other e) else none

theorem foldl_pair {α β γ : Type} (f : α → γ → α) (g : β → γ → β) (l : List γ) (a : α) (b : β) :
    l.foldl (fun acc x => (f acc.1 x, g acc.2 x)) (a, b) = (l.foldl f a, l.foldl g b) := by
  induction l generalizing a b with
  | nil => rfl
  | cons x l ih => exact ih _ _

/-- Flags of the active elements of a list. -/
def State.slotFlags (s : State) (u : UnitOp) (fl : Nat → Flags) (es : List Nat) : Flags :=
  (es.filter (s.active u.mode)).foldl (fun n e => n ||| fl e) 0#5

theorem slotV_eq (s : State) (u : UnitOp) (d : VReg) (w : Nat) (all : Bool) (es : List Nat)
    (f : Nat → FRes) (other : Nat → Nat) :
    s.slotV u d w all es f other =
      (s.putAll d w 0#5 (s.slotValue u all f other) (fun _ => none) es).orVfsr (s.slotFlags u (fun e => (f e).fl) es) := by
  have hstep : (fun (acc : State × Flags) e =>
      if s.active u.mode e then (acc.1.vSet d w e (f e).bits, acc.2 ||| (f e).fl)
      else if all then (acc.1.vSet d w e (other e), acc.2) else acc) =
      fun acc e => (acc.1.put d w 0#5 (s.slotValue u all f other) (fun _ => none) e,
        if s.active u.mode e then acc.2 ||| (f e).fl else acc.2) := by
    funext acc e
    by_cases h : s.active u.mode e <;> cases all <;> simp [State.put, State.slotValue, h]
  simp only [State.slotV, hstep]
  rw [foldl_pair (fun t e => State.put t d w 0#5 (s.slotValue u all f other) (fun _ => none) e)
    (fun n e => if s.active u.mode e then n ||| (f e).fl else n), State.slotFlags, List.foldl_filter]
  rfl

/-- The counted instruction writes what the entry as it stood would write. -/
theorem slotV_counted (s : State) (u : UnitOp) (d : VReg) (w : Nat) (all : Bool) (es : List Nat) (f : Nat → FRes)
    (other : Nat → Nat) : (s.counted u).slotV u.running d w all es f other =
      ((s.counted u).putAll d w 0#5 (s.slotValue u all f other) (fun _ => none) es).orVfsr
        (s.slotFlags u (fun e => (f e).fl) es) :=
  slotV_eq (s.counted u) u.running d w all es f other

theorem foldl_or_start (fl : Nat → Flags) (l : List Nat) (a b : Flags) :
    a ||| l.foldl (fun n e => n ||| fl e) b = l.foldl (fun n e => n ||| fl e) (a ||| b) := by
  induction l generalizing b with
  | nil => rfl
  | cons e l ih => rw [List.foldl_cons, ih, List.foldl_cons, BitVec.or_assoc]

/-- VFSR takes the flags of the slot's active elements. -/
theorem vfsr_slotFlags {s : State} {u : UnitOp} (hs : LanesWf s) (h : u.vstart < u.vl) (fl : Nat → Flags) :
    s.hart.vfsr ||| s.slotFlags u fl (slotList s u) =
      ((List.range u.vl).filter (fun e => decide (InSlot s u e) && s.active u.mode e)).foldl (fun n e => n ||| fl e)
        s.hart.vfsr := by
  rw [slot_filter hs h, State.slotFlags, foldl_or_start, BitVec.or_zero]

theorem lanesWf_counted {s : State} (hs : LanesWf s) (u : UnitOp) : LanesWf (s.counted u) :=
    ⟨hs.grant, hs.some, hs.rows, hs.preds⟩

theorem inSlot_lt {s : State} {u : UnitOp} {e : Nat} (h : InSlot s u e) : e < u.vl := h.2.trans_le (min_le_left _ _)

/-- The state after a slot that writes register d. -/
theorem slotDone_slotAfter {s : State} {u : UnitOp} (rest : List UnitOp) {d : VReg} {w : Nat} {all : Bool} {f : Nat → FRes}
    {other idle : Nat → Nat} (hs : LanesWf s) (hfit : SlotFits u w s) (hw : w = 64 ∨ w ∣ 32)
    (hidle : ∀ e, idle e = if all = true then other e % 2 ^ w else s.vGet d w e) :
    SlotDone u rest d w f idle s
      (slotAfter s ((s.counted u).putAll d w 0#5 (s.slotValue u all f other) (fun _ => none) (slotList s u)) u rest
        (s.slotFlags u (fun e => (f e).fl) (slotList s u))) := by
  have hc := lanesWf_counted hs u
  have hlt {e : Nat} (he : InSlot s u e) : e < vlmaxFor s w := (inSlot_lt he).trans_le hfit.fits
  have hread (e : Nat) (he : e < vlmaxFor s w) := vGet_putAll (d := d) (p := 0#5) (v := s.slotValue u all f other)
    (b := fun _ => none) hc hw (fun e h => hlt (mem_slotList.mp h)) he
  have hrows : RowsOnly (s.counted u) ((s.counted u).putAll d w 0#5 (s.slotValue u all f other) (fun _ => none) (slotList s u)) :=
    rowsOnly_putAll _ _
  have hprows := putAll_prows (d := d) (w := w) (p := 0#5) (v := s.slotValue u all f other) (b := fun _ => none) (s.counted u)
    (slotList s u) (fun _ => rfl)
  simp only [mem_slotList] at hread
  exact
    { active := fun e he hact => by
        rw [slotAfter_vGet, hread e (hlt he), if_pos he, State.slotValue, if_pos hact]
        rfl
      inactive := fun e he hact => by
        rw [slotAfter_vGet, hread e (hlt he), if_pos he, State.slotValue, hact, hidle]
        cases all <;> rfl
      outside := fun e he hout => by
        rw [slotAfter_vGet, hread e he, if_neg hout]
        rfl
      others := otherRows_putAll hc _
      queue := slotAfter_units
      hart := by rw [slotAfter_hart hrows, vfsr_slotFlags hs hfit.some]
      core := by
        rw [slotAfter_core hrows, hprows]
        rfl
      pkg := slotAfter_pkg hrows
      bytes := slotAfter_bytes hrows }

/-- The entry runs slot by slot and leaves its queue without a branch. -/
def runsBySlot (i : Instr) : Bool :=
  isKneader i && !isPred i && match i with
    | .vloop .. => false
    | _ => true

theorem endKneader_eq_dropUnit (t : State) {u : UnitOp} (h : runsBySlot u.instr = true) : t.endKneader u = t.dropUnit u := by
  unfold State.endKneader
  split
  next hi => rw [hi] at h; cases h
  next => rfl

/-- An entry whose slot has the effect q with flags completes the slot. -/
theorem exec_slot_of_effect {s q : State} {u : UnitOp} {rest : List UnitOp} {fl : Flags} (hu : UnitReady u rest s)
    (hrun : runsBySlot u.instr = true) (hlt : u.vstart < u.vl) (hq : RowsOnly (s.counted u) q)
    (heff : (s.counted u).slotEffect u.running (slotList s u) = q.orVfsr fl) :
    exec .kneaderSlot s = .next (slotAfter s q u rest fl) := by
  have hparts := hrun
  simp only [runsBySlot, Bool.and_eq_true, Bool.not_eq_true'] at hparts
  obtain ⟨⟨hk, hpred⟩, -⟩ := hparts
  have hbad : (q.orVfsr fl).core.badRows = s.core.badRows := by rw [State.orVfsr, State.mapHart_core, hq.core]; rfl
  have hinj : (q.orVfsr fl).core.injArm = s.core.injArm := by rw [State.orVfsr, State.mapHart_core, hq.core]; rfl
  rw [exec_kneaderSlot hu hk, kneadOne_slot hu hpred hlt heff hbad hinj,
    endKneader_eq_dropUnit (u := u.movedTo (nextSlot s u)) _ hrun,
    endSlot_eq hq hu.head (not_isFrame_of_isKneader hk)]

/-- An entry whose slot ends in slotV, from any effect that reads the state before it. -/
theorem slotGives_of_slotV {s : State} {u : UnitOp} {rest : List UnitOp} {i : Instr} {d : VReg} {w : Nat} {all : Bool}
    {f : Nat → FRes} {other idle : Nat → Nat} (hs : LanesWf s) (hu : UnitReady u rest s) (hfit : SlotFits u w s)
    (hw : w = 64 ∨ w ∣ 32) (hrun : runsBySlot i = true)
    (heff : u.instr = i → (s.counted u).slotEffect u.running (slotList s u) =
      (s.counted u).slotV u.running d w all (slotList s u) f other)
    (hidle : ∀ e, idle e = if all = true then other e % 2 ^ w else s.vGet d w e) : SlotGives i d w f idle u rest s := by
  rintro rfl
  have heff := heff rfl
  rw [slotV_counted] at heff
  exact ⟨_, exec_slot_of_effect hu hrun hfit.some (rowsOnly_putAll _ _) heff, slotDone_slotAfter rest hs hfit hw hidle⟩

/-! ### The vector instructions of opcodes 0x26 and 0x27 (05:R100, R106). -/

/-- vmerge writes every element of its slot (05:R111). -/
def isMerge : Instr → Bool
  | .vmerge .. => true
  | _ => false

/-- vclip reads its first source at twice the width (05:R116). -/
def UnitOp.srcSew (u : UnitOp) : Nat :=
  match u.instr with
  | .vclip .. => 2 * u.sew
  | _ => u.sew

theorem slotEffect_of_vView {s : State} {u : UnitOp} {d a : VReg} {y : VSrc} (h : vView u.instr = some (d, a, y))
    (es : List Nat) :
    s.slotEffect u es = s.slotV u d u.dstType.sew (isMerge u.instr) es
      (fun e => vElem u e (s.vGet a u.srcSew e) (u.src s y (isShift u.instr) e) (s.vGet d u.dstType.sew e))
      (s.vGet a u.srcSew) := by
  simp only [State.slotEffect, h]
  rfl

/-- An integer as bits of a width (03:R63). -/
theorem wrapInt_eq_wrapped (v : Int) (w : Nat) : wrapInt v w = wrapped w v := by simp [wrapInt, wrapped]

theorem src_eq_second (s : State) (u : UnitOp) (y : VSrc)
    (shift : Bool) (e : Nat) : u.src s y shift e = second s u y shift e := by
  cases y with
  | vec b => rfl
  | scal g => rfl
  | imm i => simp only [UnitOp.src, second, wrapInt_eq_wrapped]; rfl

/-- The entry with i for its instruction, so that what the model does for i can be read off. -/
def UnitOp.ofInstr (u : UnitOp) (i : Instr) : UnitOp := { u with instr := i }

@[simp] theorem UnitOp.ofInstr_instr (u : UnitOp) (i : Instr) : (u.ofInstr i).instr = i := rfl

/-- A slot of a vector instruction with the operands d, a and y and the destination type t. -/
theorem slotGives_of_vElem {s : State} {u : UnitOp} {rest : List UnitOp} {i : Instr} {d a : VReg} {y : VSrc} {t : ElemType}
    {f : Nat → FRes} {idle : Nat → Nat} (hs : LanesWf s) (hu : UnitReady u rest s) (hfit : SlotFits u t.sew s)
    (hrun : runsBySlot i = true) (hview : vView i = some (d, a, y)) (ht : (u.ofInstr i).dstType = t)
    (hf : ∀ e, vElem (u.ofInstr i) e (s.vGet a (u.ofInstr i).srcSew e) (second s u y (isShift i) e)
      (s.vGet d t.sew e) = f e)
    (hidle : ∀ e, idle e = if isMerge i = true then s.vGet a (u.ofInstr i).srcSew e % 2 ^ t.sew
      else s.vGet d t.sew e) :
    SlotGives i d t.sew f idle u rest s := by
  subst ht
  refine slotGives_of_slotV hs hu hfit (sew_cases _) hrun ?_ hidle
  rintro rfl
  have hfun : (fun e => vElem u.running e (s.vGet a u.srcSew e) (u.running.src (s.counted u) y (isShift u.instr) e)
      (s.vGet d u.dstType.sew e)) = f := by
    funext e
    rw [src_eq_second, ← hf e]
    rfl
  rw [← hfun]
  exact slotEffect_of_vView (u := u.running) hview (slotList s u)

/-! ### Destination types (05:R109). -/

theorem dstType_of_widens (u : UnitOp) {i : Instr} (h : widens i = true) : (u.ofInstr i).dstType =
    if modeWd u.mode = true then (modeEt u.mode).wide.getD (modeEt u.mode) else modeEt u.mode := by
  rw [UnitOp.dstType, UnitOp.ofInstr_instr, h, Bool.and_true]
  rfl

theorem dstType_of_not_widens (u : UnitOp) {i : Instr} (h : widens i = false) : (u.ofInstr i).dstType = modeEt u.mode := by
  rw [UnitOp.dstType, UnitOp.ofInstr_instr, h, Bool.and_false]
  rfl

end Sys2Proof.Machine
end

/-! Results of the integer array instructions (05:R98, R100, R106, R109, R111 to R117): the functions of the model as the numbers
of the spec, then the statement O22. -/

section
namespace Sys2Proof.Machine
open Claims

/-! ### Integers of a width (03:R63). -/

theorem readInt_eq_asInt (b : Nat) {w : Nat} (hw : 0 < w) (sg : Bool) : readInt b w sg = asInt sg w b := by
  cases sg with
  | false => rfl
  | true => exact readInt_signed b hw

theorem wrapped_lt (w : Nat) (v : Int) : wrapped w v < 2 ^ w := by
  have hpos : (0 : Int) < 2 ^ w := by positivity
  have := Int.emod_nonneg v hpos.ne'
  have := Int.emod_lt_of_pos v hpos
  rw [wrapped, Int.toNat_lt' (Nat.two_pow_pos w)]
  exact_mod_cast this

theorem wrapped_natCast (w n : Nat) : wrapped w (n : Int) = n % 2 ^ w := by
  have h : (n : Int) % 2 ^ w = ((n % 2 ^ w : Nat) : Int) := by push_cast; rfl
  rw [wrapped, h, Int.toNat_natCast]

theorem wrapped_congr {w : Nat} {a b : Int} (h : a % 2 ^ w = b % 2 ^ w) : wrapped w a = wrapped w b := congrArg Int.toNat h

/-- An integer of a width wraps to its bits. -/
theorem wrapped_asInt (sg : Bool) (w b : Nat) : wrapped w (asInt sg w b) = b % 2 ^ w := by
  cases sg with
  | false =>
    rw [asInt, if_neg Bool.false_ne_true, wrapped_natCast, Nat.mod_mod]
  | true =>
    have hmod : (BitVec.ofNat w b).toInt % 2 ^ w = (b : Int) % 2 ^ w := by
      rw [BitVec.toInt_eq_toNat_bmod, BitVec.toNat_ofNat]
      have := Int.bmod_emod (x := ((b % 2 ^ w : Nat) : Int)) (m := 2 ^ w)
      push_cast at this ⊢
      rw [this, Int.emod_emod]
    rw [asInt, if_pos rfl, wrapped_congr hmod, wrapped_natCast]

theorem wrapped_asInt_of_lt (sg : Bool) {w b : Nat} (hb : b < 2 ^ w) : wrapped w (asInt sg w b) = b := by
  rw [wrapped_asInt, Nat.mod_eq_of_lt hb]

/-- Clamping a signed integer. -/
theorem satInt_eq_clamped (v : Int) (w : Nat) (sg : Bool) : satInt v w sg = clamped sg w v := by
  cases sg with
  | false =>
    have hcast : ((2 ^ w : Nat) : Int) = 2 ^ w := by push_cast; rfl
    have hpos : (0 : Int) < 2 ^ w := by positivity
    rw [satInt, clamped, if_neg Bool.false_ne_true, if_neg Bool.false_ne_true, hcast]
    split_ifs with hneg hbig
    · rw [max_eq_left (by omega)]
      exact (wrapped_natCast w 0).symm
    · have hmax : (2 ^ w - 1 : Int) = ((2 ^ w - 1 : Nat) : Int) := by push_cast [Nat.one_le_two_pow]; rfl
      rw [min_eq_right (by omega), max_eq_right (by omega), hmax, wrapped_natCast,
        Nat.mod_eq_of_lt (Nat.sub_lt (Nat.two_pow_pos w) one_pos)]
    · rw [min_eq_left (by omega), max_eq_right (by omega), wrapped, Int.emod_eq_of_lt (by omega) (by omega)]
  | true =>
    have hcast : ((2 ^ (w - 1) : Nat) : Int) = 2 ^ (w - 1) := by push_cast; rfl
    have hpos : (0 : Int) < 2 ^ (w - 1) := by positivity
    rw [satInt, clamped, if_pos rfl, if_pos rfl, hcast, wrapInt_eq_wrapped]
    congr 1
    split_ifs <;> omega

/-- The bits of an element as a number of its type, and a number as bits of a type, clamped or wrapped by MODE.SAT. -/
def elemInt (t : ElemType) (b : Nat) : Int := asInt t.signed t.sew b
def fitInt (sat : Bool) (t : ElemType) (v : Int) : Nat := if sat = true then clamped t.signed t.sew v else wrapped t.sew v

theorem readInt_eq_elemInt (t : ElemType) (b : Nat) : readInt b t.sew t.signed = elemInt t b :=
  readInt_eq_asInt b (sew_pos t) t.signed

theorem reduceInt_eq_fitInt (v : Int) (t : ElemType) (sat : Bool) : reduceInt v t.sew t.signed sat = fitInt sat t v := by
  rw [reduceInt, satInt_eq_clamped, wrapInt_eq_wrapped, fitInt]

/-! ### The functions of 05:R111 on elements. -/

section
variable {w : Nat} (hw : 0 < w) (sg : Bool) (xb yb : Nat)
include hw

theorem mulh_value : wrapInt (readInt xb w sg * readInt yb w sg / ((2 ^ w : Nat) : Int)) w =
    wrapped w (asInt sg w xb * asInt sg w yb / 2 ^ w) := by
  rw [wrapInt_eq_wrapped, readInt_eq_asInt _ hw, readInt_eq_asInt _ hw]
  push_cast
  rfl

/-- The least integer divided by -1 wraps to itself. -/
theorem wrapped_min_tdiv : wrapped w (-2 ^ (w - 1)) = wrapped w ((-2 ^ (w - 1) : Int).tdiv (-1)) := by
  apply wrapped_congr
  have hpow : (2 ^ w : Int) = 2 * 2 ^ (w - 1) := by rw [← pow_succ', Nat.sub_add_cancel hw]
  rw [Int.tdiv_neg, Int.tdiv_one, neg_neg]
  rw [show (-2 ^ (w - 1) : Int) = 2 ^ (w - 1) - 2 ^ w by omega, Int.sub_emod_right]

/-- The fixed quotients of 05:R114. -/
theorem div_value (sat : Bool) : wrapInt (vdivSigned (readInt xb w true) (readInt yb w true) w sat) w =
    wrapped w (if asInt true w yb = 0 then
        (if 0 < asInt true w xb then 2 ^ (w - 1) - 1 else if asInt true w xb < 0 then -2 ^ (w - 1) else 0)
      else if asInt true w xb = -2 ^ (w - 1) ∧ asInt true w yb = -1 ∧ sat = true then 2 ^ (w - 1) - 1
      else (asInt true w xb).tdiv (asInt true w yb)) := by
  have hcast : ((2 ^ (w - 1) : Nat) : Int) = 2 ^ (w - 1) := by push_cast; rfl
  rw [wrapInt_eq_wrapped, readInt_eq_asInt _ hw, readInt_eq_asInt _ hw, vdivSigned, hcast]
  generalize asInt true w xb = x
  generalize asInt true w yb = y
  by_cases hy : y = 0
  · rw [if_pos hy, if_pos hy]
    obtain hneg | hzero | hpos := lt_trichotomy x 0
    · rw [if_neg hneg.ne, if_neg hneg.not_gt, if_neg hneg.not_gt, if_pos hneg]
    · rw [if_pos hzero, if_neg hzero.not_gt, if_neg hzero.not_lt]
    · rw [if_neg hpos.ne', if_pos hpos, if_pos hpos]
  · rw [if_neg hy, if_neg hy]
    by_cases hmin : x = -2 ^ (w - 1) ∧ y = -1
    · obtain ⟨rfl, rfl⟩ := hmin
      cases sat with
      | true => simp
      | false => simpa using wrapped_min_tdiv hw
    · rw [if_neg hmin, if_neg (fun h => hmin ⟨h.1, h.2.1⟩)]

theorem rem_value (hx : xb < 2 ^ w) :
    (if readInt yb w sg = 0 then xb else wrapInt ((readInt xb w sg).tmod (readInt yb w sg)) w) =
    wrapped w (if asInt sg w yb = 0 then asInt sg w xb
      else asInt sg w xb - (asInt sg w xb).tdiv (asInt sg w yb) * asInt sg w yb) := by
  rw [wrapInt_eq_wrapped, readInt_eq_asInt _ hw, readInt_eq_asInt _ hw, Int.tmod_def, Int.mul_comm (asInt sg w yb)]
  split_ifs
  · exact (wrapped_asInt_of_lt sg hx).symm
  · rfl

theorem min_value (hx : xb < 2 ^ w) (hy : yb < 2 ^ w) : (if readInt xb w true ≤ readInt yb w true then xb else yb) =
    wrapped w (min (asInt true w xb) (asInt true w yb)) := by
  rw [readInt_eq_asInt _ hw, readInt_eq_asInt _ hw, min_def, apply_ite (wrapped w), wrapped_asInt_of_lt _ hx,
    wrapped_asInt_of_lt _ hy]

theorem max_value (hx : xb < 2 ^ w) (hy : yb < 2 ^ w) : (if readInt yb w true ≤ readInt xb w true then xb else yb) =
    wrapped w (max (asInt true w xb) (asInt true w yb)) := by
  rw [readInt_eq_asInt _ hw, readInt_eq_asInt _ hw, max_comm, max_def, apply_ite (wrapped w), wrapped_asInt_of_lt _ hx,
    wrapped_asInt_of_lt _ hy]

theorem sra_value (n : Nat) : wrapInt (readInt xb w true / ((2 ^ n : Nat) : Int)) w = wrapped w (asInt true w xb / 2 ^ n) := by
  rw [wrapInt_eq_wrapped, readInt_eq_asInt _ hw]
  push_cast
  rfl

theorem absd_value : wrapInt ((readInt xb w sg - readInt yb w sg).natAbs : Nat) w =
    wrapped w ((asInt sg w xb - asInt sg w yb).natAbs : Nat) := by
  rw [wrapInt_eq_wrapped, readInt_eq_asInt _ hw, readInt_eq_asInt _ hw]

/-- vclip: the sign goes around the rounded magnitude (05:R116). -/
theorem clip_value (r : Rnd) (e k : Nat) : vclipElem r e xb w sg k = clamped sg w
    (if asInt sg (2 * w) xb = 0 then 0 else
      let q : Int := (roundGrid r.rm (decide (asInt sg (2 * w) xb < 0)) (.rat (asInt sg (2 * w) xb).natAbs 1 (-(k : Int))) 0
        (r.draw e)).1
      if asInt sg (2 * w) xb < 0 then -q else q) := by
  rw [vclipElem, readInt_eq_asInt _ (by omega), satInt_eq_clamped]
  by_cases h : asInt sg (2 * w) xb = 0
  · simp [h]
  · simp [h]

end

theorem second_lt (s : State) (u : UnitOp) (y : VSrc) (e : Nat) : second s u y false e < 2 ^ (modeEt u.mode).sew := by
  cases y with
  | vec b => exact s.vGet_lt b _ e
  | scal g => exact Nat.mod_lt _ (Nat.two_pow_pos _)
  | imm i => exact wrapped_lt _ _

/-- The exact integers of 05:R112 clamp or wrap to the destination type. -/
theorem fit_xyz {t t' : ElemType} (ht : t' = t) (op : Int → Int → Int → Int) (m : ElemType) (xb yb zb : Nat) (sat : Bool) :
    reduceInt (op (readInt xb m.sew m.signed) (readInt yb m.sew m.signed) (readInt zb t'.sew t'.signed)) t'.sew t'.signed sat =
      fitInt sat t (op (elemInt m xb) (elemInt m yb) (elemInt t zb)) := by
  rw [ht, reduceInt_eq_fitInt, readInt_eq_elemInt, readInt_eq_elemInt, readInt_eq_elemInt]

theorem fit_xy {t t' : ElemType} (ht : t' = t) (op : Int → Int → Int) (m : ElemType) (xb yb : Nat) (sat : Bool) :
    reduceInt (op (readInt xb m.sew m.signed) (readInt yb m.sew m.signed)) t'.sew t'.signed sat =
      fitInt sat t (op (elemInt m xb) (elemInt m yb)) :=
  fit_xyz ht (fun x y _ => op x y) m xb yb 0 sat

theorem fit_x {t t' : ElemType} (ht : t' = t) (op : Int → Int) (m : ElemType) (xb : Nat) (sat : Bool) :
    reduceInt (op (readInt xb m.sew m.signed)) t'.sew t'.signed sat = fitInt sat t (op (elemInt m xb)) :=
  fit_xy ht (fun x _ => op x) m xb 0 sat

theorem sew_le_of_narrow {t : ElemType} (h : t ∈ narrowInts) : t.sew ≤ 32 := by
  revert h
  cases t <;> decide

/-! ### One slot of an integer instruction (05:R100, R106). -/

/-- An instruction of opcode 0x26 that leaves its inactive elements. -/
def isPlainInt (i : Instr) : Bool := runsBySlot i && !isFloatVec i && !isMerge i

theorem slotGives_of_intElem {s : State} {u : UnitOp} {rest : List UnitOp} {i : Instr} {d a : VReg} {y : VSrc} {t : ElemType}
    {g : Nat → Nat} (hs : LanesWf s) (hu : UnitReady u rest s) (hfit : SlotFits u t.sew s) (hplain : isPlainInt i = true)
    (hview : vView i = some (d, a, y)) (ht : (u.ofInstr i).dstType = t)
    (hg : ∀ e, intElem (u.ofInstr i) e (s.vGet a (u.ofInstr i).srcSew e) (second s u y (isShift i) e)
    (s.vGet d t.sew e) = g e) :
    SlotGives i d t.sew (plainBits g) (fun e => s.vGet d t.sew e) u rest s := by
  simp only [isPlainInt, Bool.and_eq_true, Bool.not_eq_true'] at hplain
  obtain ⟨⟨hrun, hint⟩, hmerge⟩ := hplain
  refine slotGives_of_vElem hs hu hfit hrun hview ht (fun e => ?_) (fun e => ?_)
  · rw [vElem, UnitOp.ofInstr_instr, hint, hg]
    rfl
  · rw [hmerge]
    rfl

end Sys2Proof.Machine

namespace Sys2Proof
open Machine Claims

/-- Settles O22: every function is one value of intElem on the operands read before the slot,
an exact integer clamped or wrapped to
the destination type for the six that widen and for vabs; vmerge also writes the inactive elements. -/
theorem vectorIntegerResults : Obligations.VectorIntegerResults := by
  unfold Obligations.VectorIntegerResults
  intro d a y u rest s hs hu m w sg t xb yb n x yv xs ys z stay fit wide same
  have hw : 0 < w := sew_pos m
  have hx (e : Nat) : xb e < 2 ^ w := s.vGet_lt a w e
  have hy (e : Nat) : yb e < 2 ^ w := second_lt s u y e
  have hT {i : Instr} (h : widens i = true) : (u.ofInstr i).dstType = t := dstType_of_widens u h
  have hM {i : Instr} (h : widens i = false) : (u.ofInstr i).dstType = m := dstType_of_not_widens u h
  refine ⟨fun _ hfit => ?_, fun _ hfit => ?_, fun hfit => ?_, fun hm hfit => ?_⟩
  · exact
      ⟨slotGives_of_intElem hs hu hfit rfl rfl (hT rfl) (fun _ => fit_xy (hT rfl) (fun x y => x + y) _ _ _ _),
       slotGives_of_intElem hs hu hfit rfl rfl (hT rfl) (fun _ => fit_xy (hT rfl) (fun x y => x - y) _ _ _ _),
       slotGives_of_intElem hs hu hfit rfl rfl (hT rfl) (fun _ => fit_xy (hT rfl) (fun x y => y - x) _ _ _ _),
       slotGives_of_intElem hs hu hfit rfl rfl (hT rfl) (fun _ => fit_xy (hT rfl) (fun x y => x * y) _ _ _ _),
       slotGives_of_intElem hs hu hfit rfl rfl (hT rfl) (fun _ => fit_xyz (hT rfl) (fun x y z => z + x * y) _ _ _ _ _),
       slotGives_of_intElem hs hu hfit rfl rfl (hT rfl) (fun _ => fit_xyz (hT rfl) (fun x y z => z - x * y) _ _ _ _ _)⟩
  · exact
      ⟨slotGives_of_intElem hs hu hfit rfl rfl (hM rfl) (fun _ => mulh_value hw _ _ _),
       slotGives_of_intElem hs hu hfit rfl rfl (hM rfl) (fun _ => div_value hw _ _ _),
       slotGives_of_intElem hs hu hfit rfl rfl (hM rfl) (fun _ => rfl),
       slotGives_of_intElem hs hu hfit rfl rfl (hM rfl) (fun e => rem_value hw _ _ _ (hx e)),
       slotGives_of_intElem hs hu hfit rfl rfl (hM rfl) (fun e => min_value hw _ _ (hx e) (hy e)),
       slotGives_of_intElem hs hu hfit rfl rfl (hM rfl) (fun e => max_value hw _ _ (hx e) (hy e)),
       slotGives_of_intElem hs hu hfit rfl rfl (hM rfl) (fun _ => rfl),
       slotGives_of_intElem hs hu hfit rfl rfl (hM rfl) (fun _ => rfl),
       slotGives_of_intElem hs hu hfit rfl rfl (hM rfl) (fun _ => rfl),
       slotGives_of_intElem hs hu hfit rfl rfl (hM rfl) (fun _ => rfl),
       slotGives_of_intElem hs hu hfit rfl rfl (hM rfl) (fun _ => sra_value hw _ _),
       slotGives_of_intElem hs hu hfit rfl rfl (hM rfl) (fun _ => fit_x (hM rfl) (fun x => x.natAbs) _ _ _),
       slotGives_of_intElem hs hu hfit rfl rfl (hM rfl) (fun _ => absd_value hw _ _ _),
       slotGives_of_intElem hs hu hfit rfl rfl (hM rfl) (fun _ => rfl)⟩
  · refine
      ⟨slotGives_of_intElem hs hu hfit rfl rfl (hM rfl) (fun _ => rfl),
       slotGives_of_intElem hs hu hfit rfl rfl (hM rfl) (fun _ => rfl),
       slotGives_of_intElem hs hu hfit rfl rfl (hM rfl) (fun _ => rfl),
       slotGives_of_intElem hs hu hfit rfl rfl (hM rfl) (fun _ => rfl), ?_, ?_, ?_⟩
    · rintro b rfl
      exact slotGives_of_intElem hs hu hfit rfl rfl (hM rfl) (fun _ => rfl)
    · intro hvec
      cases y with
      | vec b => exact absurd rfl (hvec b)
      | scal g => exact slotGives_of_intElem hs hu hfit rfl rfl (hM rfl) (fun _ => rfl)
      | imm k => exact slotGives_of_intElem hs hu hfit rfl rfl (hM rfl) (fun _ => rfl)
    · exact slotGives_of_vElem hs hu hfit rfl rfl (hM rfl) (fun _ => rfl) (fun e => (Nat.mod_eq_of_lt (hx e)).symm)
  · have hnarrow : SlotFits u w s :=
      ⟨hfit.some, hfit.fits.trans (vlmaxFor_anti s hw (sew_le_of_narrow hm) (Nat.le_mul_of_pos_left w two_pos))⟩
    exact slotGives_of_intElem hs hu hnarrow rfl rfl (hM rfl) (fun _ => clip_value hw _ _ _ _ _)

end Sys2Proof
end

/-! Results of the float array instructions and vcvt (05:R118 to R123): each element is one value of floatElem, or of cvtElem, on
operands read before the slot; then the statement O23. -/

section
namespace Sys2Proof.Machine
open Claims

/-! ### One rounding of an exact result (05:R118, R119). -/

section
variable {m t t' : ElemType} {f ft : Fmt}

theorem getD_fmt (hf : m.fmt = some f) : m.fmt.getD .fp32 = f := by rw [hf, Option.getD_some]

theorem round_xyz (hf : m.fmt = some f) (hft : t.fmt = some ft) (ht : t' = t) (op : FVal → FVal → FVal → XRes) (r : Rnd)
    (e xb yb zb : Nat) :
    t'.roundTo r e (op ((m.fmt.getD .fp32).decode xb) ((m.fmt.getD .fp32).decode yb) (t'.value zb)) =
      ft.round r e (op (f.decode xb) (f.decode yb) (ft.decode zb)) := by
  rw [ht, getD_fmt hf, ElemType.roundTo, ElemType.value, hft]

theorem round_xy (hf : m.fmt = some f) (hft : t.fmt = some ft) (ht : t' = t) (op : FVal → FVal → XRes)
    (r : Rnd) (e xb yb : Nat) :
    t'.roundTo r e (op ((m.fmt.getD .fp32).decode xb) ((m.fmt.getD .fp32).decode yb)) =
      ft.round r e (op (f.decode xb) (f.decode yb)) :=
  round_xyz hf hft ht (fun x y _ => op x y) r e xb yb 0

theorem round_x (hf : m.fmt = some f) (hft : t.fmt = some ft) (ht : t' = t) (op : FVal → XRes) (r : Rnd) (e xb : Nat) :
    t'.roundTo r e (op ((m.fmt.getD .fp32).decode xb)) = ft.round r e (op (f.decode xb)) :=
  round_xy hf hft ht (fun x _ => op x) r e xb 0

end

/-! ### Signs (05:R121). -/

theorem signBit_eq_half {m : ElemType} {f : Fmt} (hm : m ∈ floatsAll) (hf : m.fmt = some f) : f.signBit = 2 ^ (m.sew - 1) := by
  have hall : ∀ t ∈ floatsAll, (t.fmt.getD .fp32).signBit = 2 ^ (t.sew - 1) := by decide
  rw [← hall m hm, getD_fmt hf]

/-- The top bit of a pattern of a width. -/
theorem topBit_iff {w b : Nat} (hw : 0 < w) (hb : b < 2 ^ w) : b / 2 ^ (w - 1) % 2 = 1 ↔ 2 ^ (w - 1) ≤ b := by
  have hpow : 2 ^ w = 2 ^ (w - 1) * 2 := by rw [← pow_succ, Nat.sub_add_cancel hw]
  have hlt : b / 2 ^ (w - 1) < 2 := Nat.div_lt_of_lt_mul (hpow ▸ hb)
  rw [Nat.mod_eq_of_lt hlt, ← Nat.one_le_div_iff (Nat.two_pow_pos _)]
  omega

theorem signOver_eq {m : ElemType} {f : Fmt} (hm : m ∈ floatsAll) (hf : m.fmt = some f) {xb yb : Nat} (hx : xb < 2 ^ m.sew)
    (hy : yb < 2 ^ m.sew) (op : Bool → Bool → Bool) : signOver (m.fmt.getD .fp32) xb yb op =
      f.signed (op (decide (2 ^ (m.sew - 1) ≤ xb)) (decide (2 ^ (m.sew - 1) ≤ yb))) (xb % 2 ^ (m.sew - 1)) := by
  rw [getD_fmt hf, signOver, signBit_eq_half hm hf, decide_eq_decide.mpr (topBit_iff (sew_pos m) hx),
    decide_eq_decide.mpr (topBit_iff (sew_pos m) hy)]

/-! ### One slot of a float instruction (05:R118). -/

/-- An instruction of opcode 0x27. -/
def isSlotFloat (i : Instr) : Bool := runsBySlot i && isFloatVec i && !isMerge i

theorem slotGives_of_floatElem {s : State} {u : UnitOp} {rest : List UnitOp} {i : Instr} {d a : VReg} {y : VSrc} {t : ElemType}
    {r : Nat → FRes} (hs : LanesWf s) (hu : UnitReady u rest s) (hfit : SlotFits u t.sew s) (hslot : isSlotFloat i = true)
    (hview : vView i = some (d, a, y)) (ht : (u.ofInstr i).dstType = t)
    (hr : ∀ e, floatElem (u.ofInstr i) e (s.vGet a (u.ofInstr i).srcSew e) (second s u y (isShift i) e)
    (s.vGet d t.sew e) = r e) :
    SlotGives i d t.sew r (fun e => s.vGet d t.sew e) u rest s := by
  simp only [isSlotFloat, Bool.and_eq_true, Bool.not_eq_true'] at hslot
  obtain ⟨⟨hrun, hfloat⟩, hmerge⟩ := hslot
  refine slotGives_of_vElem hs hu hfit hrun hview ht (fun e => ?_) (fun e => ?_)
  · rw [vElem, UnitOp.ofInstr_instr, hfloat, if_pos rfl, hr]
  · rw [hmerge]
    rfl

/-! ### vcvt (05:R122, R123). -/

/-- Two values of e2m1 share an element, the lower index in the lower bits. -/
theorem cvtElem_eq (s : State) (u : UnitOp) (a : VReg) (src : ElemType) (e : Nat) : s.cvtElem u a src e =
    let el := fun k => s.vGet a src.sew k
    let m := modeEt u.mode
    if m = .e2m1 ∧ src = .e2m1 then { bits := el e, fl := 0#5 }
    else if m = .e2m1 then
      { bits := (convert src m u.rnd (2 * e) (el (2 * e))).bits % 16 +
          16 * ((convert src m u.rnd (2 * e + 1) (el (2 * e + 1))).bits % 16)
        fl := (convert src m u.rnd (2 * e) (el (2 * e))).fl ||| (convert src m u.rnd (2 * e + 1) (el (2 * e + 1))).fl }
    else if src = .e2m1 then convert src m u.rnd e (el (e / 2) / 16 ^ (e % 2) % 16)
    else convert src m u.rnd e (el e) := by
  by_cases hsrc : src = .e2m1
  · subst hsrc
    have hlt : s.vGet a 8 (e / 2) < 2 ^ 8 := s.vGet_lt a 8 _
    have hpart : (if e % 2 = 0 then s.vGet a 8 (e / 2) % 16 else s.vGet a 8 (e / 2) / 16) =
        s.vGet a 8 (e / 2) / 16 ^ (e % 2) % 16 := by
      obtain h | h := Nat.mod_two_eq_zero_or_one e
      · simp [h]
      · rw [h, if_neg one_ne_zero]
        omega
    simp only [State.cvtElem, hpart]
    rfl
  · simp only [State.cvtElem, hsrc, and_false, if_false]
    rfl

theorem slotGives_vcvt {s : State} {u : UnitOp} {rest : List UnitOp} {d a : VReg} {src : ElemType} {r : Nat → FRes}
    (hs : LanesWf s) (hu : UnitReady u rest s) (hfit : SlotFits u (modeEt u.mode).sew s)
    (hr : ∀ e, s.cvtElem u a src e = r e) :
    SlotGives (.vcvt d a src) d (modeEt u.mode).sew r (fun e => s.vGet d (modeEt u.mode).sew e) u rest s := by
  obtain rfl : s.cvtElem u a src = r := funext hr
  refine slotGives_of_slotV (all := false) (other := fun _ => 0) hs hu hfit (sew_cases _) rfl (fun hi => ?_) (fun _ => rfl)
  simp only [State.slotEffect, UnitOp.running_instr, hi]
  rfl

end Sys2Proof.Machine

namespace Sys2Proof
open Machine Claims

/-- Settles O23: every float function is one value of floatElem, which rounds one exact result or copies bits, and vcvt is
cvtElem, on operands read before the slot. -/
theorem vectorFloatResults : Obligations.VectorFloatResults := by
  unfold Obligations.VectorFloatResults
  intro d a b y src f ft u rest s hs hu m w t xb yb x yv z rm wide same signed
  have hT {i : Instr} (h : widens i = true) : (u.ofInstr i).dstType = t := dstType_of_widens u h
  have hM {i : Instr} (h : widens i = false) : (u.ofInstr i).dstType = m := dstType_of_not_widens u h
  refine ⟨fun hf hft hfit => ?_, fun hf hfit => ?_, fun hfit => ?_⟩
  · exact
      ⟨slotGives_of_floatElem hs hu hfit rfl rfl (hT rfl) (fun _ => round_xy hf hft (hT rfl) (exactAdd rm) _ _ _ _),
       slotGives_of_floatElem hs hu hfit rfl rfl (hT rfl)
        (fun _ => round_xy hf hft (hT rfl) (fun x y => exactAdd rm x y.negate) _ _ _ _),
       slotGives_of_floatElem hs hu hfit rfl rfl (hT rfl) (fun _ => round_xy hf hft (hT rfl) exactMul _ _ _ _),
       slotGives_of_floatElem hs hu hfit rfl rfl (hT rfl) (fun _ => round_xyz hf hft (hT rfl) (exactFma rm) _ _ _ _ _),
       slotGives_of_floatElem hs hu hfit rfl rfl (hT rfl)
        (fun _ => round_xyz hf hft (hT rfl) (fun x y z => exactFma rm x.negate y z) _ _ _ _ _)⟩
  · refine
      ⟨slotGives_of_floatElem hs hu hfit rfl rfl (hM rfl) (fun _ => round_xy hf hf (hM rfl) exactDiv _ _ _ _),
       slotGives_of_floatElem hs hu hfit rfl rfl (hM rfl) (fun _ => round_x hf hf (hM rfl) exactSqrt _ _ _),
       slotGives_of_floatElem hs hu hfit rfl rfl (hM rfl) (fun _ => round_x hf hf (hM rfl) exactExp2 _ _ _),
       slotGives_of_floatElem hs hu hfit rfl rfl (hM rfl) (fun _ => round_x hf hf (hM rfl) exactLog2 _ _ _),
       slotGives_of_floatElem hs hu hfit rfl rfl (hM rfl) (fun _ => round_x hf hf (hM rfl) exactRecip _ _ _),
       slotGives_of_floatElem hs hu hfit rfl rfl (hM rfl) (fun _ => round_x hf hf (hM rfl) exactRsqrt _ _ _),
       slotGives_of_floatElem hs hu hfit rfl rfl (hM rfl) (fun _ => congrArg (Fmt.minMax · false _ _) (getD_fmt hf)),
       slotGives_of_floatElem hs hu hfit rfl rfl (hM rfl) (fun _ => congrArg (Fmt.minMax · true _ _) (getD_fmt hf)),
       fun hm => ?_⟩
    have hsign (op : Bool → Bool → Bool) (e : Nat) := signOver_eq hm hf (s.vGet_lt a w e) (s.vGet_lt b w e) op
    exact
      ⟨slotGives_of_floatElem hs hu hfit rfl rfl (hM rfl) (fun e => congrArg (plainBits · e) (funext (hsign _))),
       slotGives_of_floatElem hs hu hfit rfl rfl (hM rfl) (fun e => congrArg (plainBits · e) (funext (hsign _))),
       slotGives_of_floatElem hs hu hfit rfl rfl (hM rfl) (fun e => congrArg (plainBits · e) (funext (hsign _)))⟩
  · exact slotGives_vcvt hs hu hfit (cvtElem_eq s u a src)

end Sys2Proof
end

/-! Compares, predicate instructions, pcount and vloop (05:R100, R124, R125, R127, R128): what their slots write, where segments
start, and the branch of vloop; then the statement O24. -/

section
namespace Sys2Proof.Machine
open Claims

/-! ### Bits of a predicate after writes. -/

theorem predBits_of_pGet {s t : State} {p : PReg} {inside : Nat → Prop} [DecidablePred inside] {b : Nat → Bool}
    (hin : ∀ e, inside e → e < vlmaxFor s 8)
    (h : ∀ q e, e < vlmaxFor s 8 → t.pGet q e = if q = p ∧ p ≠ 0#5 ∧ inside e then b e else s.pGet q e) :
    PredBits p inside b s t where
  within hp e he := by rw [h p e (hin e he), if_pos ⟨rfl, hp, he⟩]
  beyond e he hout := by rw [h p e he, if_neg (fun h => hout h.2.2)]
  others q hq e he := by rw [h q e he, if_neg (fun h => hq h.1)]

/-! ### Compares (05:R124, R125). -/

/-- What a slot of a compare leaves. -/
def CompareSlot (p : PReg) (v : Nat → Bool) (fl : Nat → Flags) (u : UnitOp) (rest : List UnitOp) (s t : State) : Prop :=
  PredBits p (InSlot s u) (fun e => s.active u.mode e && v e) s t ∧ t.core.units = unitsAfter s u rest ∧
    t.core.vrows = s.core.vrows ∧ t.pkg = s.pkg ∧
    t.hart = { s.hart with vfsr := (((List.range u.vl).filter (fun e => decide (InSlot s u e) && s.active u.mode e)).foldl
      (fun n e => n ||| fl e) s.hart.vfsr) }

/-- A compare writes a bit for every element of its slot: the result where the guard holds, else 0. -/
theorem slotEffect_of_cmpView {s : State} {u : UnitOp} {p : PReg} {a : VReg} {y : VSrc} (hv : vView u.instr = none)
    (hc : cmpView u.instr = some (p, a, y)) {c : Nat → Bool × Flags}
    (hcmp : ∀ e, cmpElem u (s.vGet a u.sew e) (u.src s y false e) = c e) (es : List Nat) : s.slotEffect u es =
      (s.putAll 0#4 8 p (fun _ => none) (fun e => some (s.active u.mode e && (c e).1)) es).orVfsr
        (s.slotFlags u (fun e => (c e).2) es) := by
  have hstep : (fun (acc : State × Flags) e =>
      if s.active u.mode e then (acc.1.pSet p e (c e).1, acc.2 ||| (c e).2) else (acc.1.pSet p e false, acc.2)) =
      fun acc e => (acc.1.put 0#4 8 p (fun _ => none) (fun e => some (s.active u.mode e && (c e).1)) e,
        if s.active u.mode e then acc.2 ||| (c e).2 else acc.2) := by
    funext acc e
    by_cases h : s.active u.mode e <;> simp [State.put, h]
  simp only [State.slotEffect, hv, hc, hcmp, hstep]
  rw [foldl_pair (fun t e => State.put t 0#4 8 p (fun _ => none) (fun e => some (s.active u.mode e && (c e).1)) e)
    (fun n e => if s.active u.mode e then n ||| (c e).2 else n), State.slotFlags, List.foldl_filter]
  rfl

theorem compare_completes {s : State} {u : UnitOp} {rest : List UnitOp} {i : Instr} {p : PReg} {a : VReg} {y : VSrc}
    {v : Nat → Bool} {fl : Nat → Flags} (hs : LanesWf s) (hu : UnitReady u rest s)
    (hvl : u.vl ≤ vlmaxFor s (modeEt u.mode).sew)
    (hrun : runsBySlot i = true) (hv : vView i = none) (hc : cmpView i = some (p, a, y))
    (hcmp : ∀ e, cmpElem (u.ofInstr i) (s.vGet a (modeEt u.mode).sew e) (second s u y false e) = (v e, fl e)) :
    u.instr = i → u.vstart < u.vl → Completes .kneaderSlot s (CompareSlot p v fl u rest s) := by
  rintro rfl hlt
  have hc' := lanesWf_counted hs u
  have heff := slotEffect_of_cmpView (s := s.counted u) (u := u.running) hv hc (c := fun e => (v e, fl e))
    (fun e => by rw [← hcmp e, src_eq_second]; rfl) (slotList s u)
  have hrows := rowsOnly_putAll (d := 0#4) (w := 8) (p := p) (v := fun _ => none)
    (b := fun e => some (s.active u.mode e && v e)) (s.counted u) (slotList s u)
  refine ⟨_, exec_slot_of_effect hu hrun hlt hrows heff, ?_, slotAfter_units, ?_, slotAfter_pkg hrows, ?_⟩
  · refine predBits_of_pGet (fun e he => (inSlot_lt he).trans_le (hvl.trans (vlmaxFor_sew_le s _))) (fun q e he => ?_)
    rw [slotAfter_pGet, pGet_putAll hc' q he]
    simp only [mem_slotList]
    rfl
  · rw [slotAfter_vrows, putAll_vrows _ _ (fun _ => rfl)]
    rfl
  · rw [slotAfter_hart hrows, ← vfsr_slotFlags hs hlt]
    rfl

theorem snan_or_snan (x y : FVal) : x.snan ||| y.snan = if x = .nan true ∨ y = .nan true then Flags.nv else 0#5 := by
  rw [FVal.snan_eq, FVal.snan_eq]
  by_cases hx : x = .nan true <;> by_cases hy : y = .nan true <;> simp [hx, hy]

theorem bne_eq_decide (x y : Nat) : (x != y) = decide (x ≠ y) := Bool.eq_iff_iff.mpr (bne_iff_ne.trans decide_eq_true_iff.symm)

theorem compare_ints {w : Nat} (hw : 0 < w) (op : Int → Int → Bool) (xb yb : Nat) :
    (op (readInt xb w true) (readInt yb w true), 0#5) = (op (asInt true w xb) (asInt true w yb), (0#5 : Flags)) := by
  rw [readInt_eq_asInt _ hw, readInt_eq_asInt _ hw]

/-- A quiet compare of floats raises NV for a signalling NaN alone. -/
theorem compare_quiet {m : ElemType} {f : Fmt} (hf : m.fmt = some f) (op : FVal → FVal → Bool) (xb yb : Nat) :
    (op ((m.fmt.getD .fp32).decode xb) ((m.fmt.getD .fp32).decode yb),
      ((m.fmt.getD .fp32).decode xb).snan ||| ((m.fmt.getD .fp32).decode yb).snan) =
    (op (f.decode xb) (f.decode yb), if f.decode xb = .nan true ∨ f.decode yb = .nan true then Flags.nv else 0#5) := by
  rw [getD_fmt hf, snan_or_snan]

/-- An ordered compare of floats is false, and raises NV, for a NaN of either kind. -/
theorem compare_ordered {m : ElemType} {f : Fmt} (hf : m.fmt = some f) (op : FVal → FVal → Bool) (xb yb : Nat) :
    (!(((m.fmt.getD .fp32).decode xb).isNan || ((m.fmt.getD .fp32).decode yb).isNan) &&
        op ((m.fmt.getD .fp32).decode xb) ((m.fmt.getD .fp32).decode yb),
      Flags.when (((m.fmt.getD .fp32).decode xb).isNan || ((m.fmt.getD .fp32).decode yb).isNan) Flags.nv) =
    (!((f.decode xb).isNan || (f.decode yb).isNan) && op (f.decode xb) (f.decode yb),
      if ((f.decode xb).isNan || (f.decode yb).isNan) = true then Flags.nv else 0#5) := by
  rw [getD_fmt hf]
  rfl

/-! ### Predicate instructions write every element at once (05:R127). -/

theorem foldl_counter {α : Type} (f : α → Nat → Bool → α) (g : Nat → Bool) (n : Nat) (x : α) :
    ((List.range n).map g).foldl (fun (acc : α × Nat) b => (f acc.1 acc.2 b, acc.2 + 1)) (x, 0) =
      ((List.range n).foldl (fun t e => f t e (g e)) x, n) := by
  induction n with
  | zero => rfl
  | succ n ih =>
    rw [List.range_succ, List.map_append, List.foldl_append, ih, List.foldl_append]
    rfl

theorem runPred_of_predDst {s : State} {u : UnitOp} {d : PReg} {g : Nat → Bool} (hd : predDst u.instr = some d)
    (hbits : s.predBits u = (List.range u.vl).map g) :
    s.runPred u = (s.putAll 0#4 8 d (fun _ => none) (fun e => some (g e)) (List.range u.vl)).dropUnit u := by
  unfold State.runPred
  split
  next h => rw [h] at hd; cases hd
  next =>
    rw [hd, hbits]
    dsimp only
    rw [foldl_counter (fun t e b => State.pSet t d e b)]
    rfl

/-- With nothing to stop it, a predicate instruction runs whole. -/
theorem kneadOne_pred {s t : State} {u : UnitOp} {rest : List UnitOp} (hu : UnitReady u rest s) (hpred : isPred u.instr = true)
    (ht : (s.counted u).runPred u.running = t) (hrows : t.core.badRows = s.core.badRows) (hinj : t.core.injArm = s.core.injArm) :
    s.kneadOne u = t := by
  have hbad (rows : List Nat) : (s.counted u).badRow rows = none := badRow_none hu.parity rows
  simp only [State.kneadOne, startUnit_eq hu, UnitOp.running_instr, hpred, State.kneadPred, hbad, ht,
    noteRows_eq (hrows.trans hu.parity) (hinj.trans hu.inject), Bool.false_eq_true, if_false, if_true]

/-- The entry at the head leaves its queue. -/
theorem dropUnit_head {t : State} {u : UnitOp} {rest : List UnitOp} (hunits : t.core.units = u :: rest)
    (hf : isFrame u.instr = false) : t.dropUnit u.running = t.mapCore (fun c => { c with units := rest }) := by
  simp only [State.dropUnit, State.mapCore, hunits, UnitOp.running_instr, mapFirst, hf, if_true, Option.toList, List.nil_append]

/-- What a predicate instruction leaves. -/
def PredSlot (p : PReg) (v : Nat → Prop) (u : UnitOp) (rest : List UnitOp) (s t : State) : Prop :=
  (∀ b : Nat → Bool, (∀ e, b e = true ↔ v e) → PredBits p (· < u.vl) b s t) ∧ t.core.units = rest ∧
    t.core.vrows = s.core.vrows ∧ t.hart = s.hart ∧ t.pkg = s.pkg

theorem pred_completes {s : State} {u : UnitOp} {rest : List UnitOp} {i : Instr} {p : PReg} {v : Nat → Prop} {g : Nat → Bool}
    (hs : LanesWf s) (hu : UnitReady u rest s) (hvl : u.vl ≤ vlmaxFor s 8) (hk : isKneader i = true) (hp : isPred i = true)
    (hd : predDst i = some p) (hbits : (s.counted u).predBits (u.running.ofInstr i) = (List.range u.vl).map g)
    (hg : ∀ e, g e = true ↔ v e) : u.instr = i → Completes .kneaderSlot s (PredSlot p v u rest s) := by
  rintro rfl
  have hrows := rowsOnly_putAll (d := 0#4) (w := 8) (p := p) (v := fun _ => none) (b := fun e => some (g e)) (s.counted u)
    (List.range u.vl)
  have hrun := (runPred_of_predDst (u := u.running) hd hbits).trans
    (dropUnit_head (by rw [UnitOp.running_vl, hrows.core]; exact hu.head) (not_isFrame_of_isKneader hk))
  refine ⟨_, (exec_kneaderSlot hu hk).trans (congrArg _ (kneadOne_pred hu hp hrun ?_ ?_)), fun b hb => ?_, rfl, ?_, hrows.hart,
    hrows.pkg⟩
  · exact (congrArg Core.badRows hrows.core :)
  · exact (congrArg Core.injArm hrows.core :)
  · obtain rfl : g = b := funext (fun e => Bool.eq_iff_iff.mpr ((hg e).trans (hb e).symm))
    refine predBits_of_pGet (fun e he => lt_of_lt_of_le he hvl) (fun q e he => ?_)
    refine (State.pGet_congr rfl rfl q e).trans ((pGet_putAll (lanesWf_counted hs u) q he).trans ?_)
    simp only [List.mem_range]
    rfl
  · exact putAll_vrows _ _ (fun _ => rfl)

/-! ### Segments (05:R127). -/

/-- A bit of a stands before e since a segment last started below e. -/
def State.carried (s : State) (a b : PReg) : Nat → Bool
  | 0 => false
  | e + 1 => (s.carried a b e && !s.segStart b e) || s.pGet a e

theorem carried_iff (s : State) (a b : PReg) (e : Nat) : s.carried a b e = true ↔
    ∃ k, k < e ∧ s.pGet a k = true ∧ ∀ j, k < j → j < e → s.segStart b j = false := by
  induction e with
  | zero => simp [State.carried]
  | succ e ih =>
    rw [State.carried, Bool.or_eq_true, Bool.and_eq_true, ih, Bool.not_eq_true']
    constructor
    · rintro (⟨⟨k, hk, hset, hnone⟩, hstart⟩ | hset)
      · refine ⟨k, by omega, hset, fun j hj hje => ?_⟩
        obtain rfl | hlt := Nat.eq_or_lt_of_le (Nat.le_of_lt_succ hje)
        · exact hstart
        · exact hnone j hj hlt
      · exact ⟨e, by omega, hset, fun j hj hje => by omega⟩
    · rintro ⟨k, hk, hset, hnone⟩
      obtain rfl | hlt := Nat.eq_or_lt_of_le (Nat.le_of_lt_succ hk)
      · exact .inr hset
      · exact .inl ⟨⟨k, hlt, hset, fun j hj hje => hnone j hj (by omega)⟩, hnone e hlt (by omega)⟩

/-- A bit of a stands before e in its segment. -/
def State.seen (s : State) (a b : PReg) (e : Nat) : Bool := s.carried a b e && !s.segStart b e

theorem seen_eq_false_iff (s : State) (a b : PReg) (e : Nat) :
    s.seen a b e = false ↔ ∀ k, SegBefore s b k e → ¬s.pGet a k = true := by
  have hstart (j : Nat) : s.segStart b j = false ↔ ¬(b ≠ 0#5 ∧ s.pGet b j = true) := by simp [State.segStart]
  rw [← Bool.not_eq_true, State.seen, Bool.and_eq_true, carried_iff, Bool.not_eq_true']
  constructor
  · rintro hnot k ⟨hk, hnone⟩ hset
    exact hnot ⟨⟨k, hk, hset, fun j hj hje => (hstart j).mpr (hnone j hj hje.le)⟩, (hstart e).mpr (hnone e hk le_rfl)⟩
  · rintro hall ⟨⟨k, hk, hset, hnone⟩, he⟩
    refine hall k ⟨hk, fun j hj hje => (hstart j).mp ?_⟩ hset
    obtain rfl | hlt := Nat.eq_or_lt_of_le hje
    · exact he
    · exact hnone j hj hlt

theorem natRange_succ (a n : Nat) : natRange a (n + 1) = a :: natRange (a + 1) n := by
  simp [natRange, List.range_succ_eq_map, Nat.add_comm, Nat.add_left_comm]

theorem seenBefore_eq (s : State) (a b : PReg) (n e : Nat) :
    s.seenBefore a b n e (s.carried a b e) = (natRange e n).map (s.seen a b) := by
  induction n generalizing e with
  | zero => rfl
  | succ n ih =>
    rw [natRange_succ, List.map_cons, ← ih]
    rfl

theorem seenBefore_range (s : State) (a b : PReg) (n : Nat) : s.seenBefore a b n 0 false = (List.range n).map (s.seen a b) := by
  have h : s.seenBefore a b n 0 false = _ := seenBefore_eq s a b n 0
  simpa [natRange] using h

theorem mapIdx_seenBefore (s : State) (a b : PReg) (n : Nat) (h : Nat → Bool → Bool) :
    (s.seenBefore a b n 0 false).mapIdx h = (List.range n).map (fun e => h e (s.seen a b e)) := by
  rw [seenBefore_range]
  apply List.ext_getElem <;> simp

theorem map_seenBefore (s : State) (a b : PReg) (n : Nat) (h : Bool → Bool) :
    (s.seenBefore a b n 0 false).map h = (List.range n).map (fun e => h (s.seen a b e)) := by
  rw [seenBefore_range, List.map_map]
  rfl

/-! ### pcount (05:R127). -/

theorem setG_hart (s : State) (d : GReg) (v : Word) : (s.setG d v).hart = { s.hart with g := (s.setG d v).hart.g } := by
  unfold State.setG
  split <;> rfl

theorem pcount_completes {s : State} {u : UnitOp} {rest : List UnitOp} {g : GReg} {q : PReg} (hu : UnitReady u rest s) :
    u.instr = .pcount g q → Completes .kneaderSlot s
      (UnitResult rest g (BitVec.ofNat 64 ((List.range u.vl).countP (fun e => s.pGet q e))) 0#5 s) := by
  intro hi
  have hk : isKneader u.instr = true := by rw [hi]; rfl
  set v := BitVec.ofNat 64 ((List.range u.vl).countP (fun e => s.pGet q e)) with hv
  have hcore := State.setG_core (s.counted u) g v
  have hpkg := State.setG_pkg (s.counted u) g v
  have hrun : (s.counted u).runPred u.running = ((s.counted u).setG g v).mapCore (fun c => { c with units := rest }) := by
    rw [← dropUnit_head (by rw [hcore]; exact hu.head) (not_isFrame_of_isKneader hk)]
    simp only [State.runPred, UnitOp.running_instr, hi]
    rfl
  refine ⟨_, (exec_kneaderSlot hu hk).trans (congrArg _ (kneadOne_pred hu (by rw [hi]; rfl) hrun ?_ ?_)), ?_⟩
  · exact (congrArg Core.badRows hcore :)
  · exact (congrArg Core.injArm hcore :)
  · exact
      { regs := fun r => State.g_setG (s.counted u) g r v
        hart := by
          rw [BitVec.or_zero]
          exact setG_hart (s.counted u) g v
        core := by
          rw [State.mapCore_core, hcore]
          rfl
        pkg := hpkg
        bytes := sameBytes_of_eq (congrArg Core.lines hcore :) (congrArg Core.bench hcore :) (congrArg Pkg.mem hpkg :) }

/-! ### vloop (05:R128). -/

/-- A lane that runs counts down by 1, and runs on while its count is not 0. -/
def State.loopCount (s : State) (u : UnitOp) (p : PReg) (a : VReg) (e : Nat) : Option Nat :=
  if s.pGet p e then some (wrapInt ((s.vGet a u.sew e : Int) - 1) u.sew) else none

/-- The branch of a vloop that ends: back while a lane below VL runs. -/
def State.loopBranch (t : State) (u : UnitOp) (p : PReg) (off : BitVec 9) : State :=
  if (List.range u.vl).any (fun e => t.pGet p e) then
    t.mapHart (fun h => { h with pc := (u.pc - (off.setWidth 48 <<< 2)) &&& ~~~3#48 })
  else t

theorem loopBranch_core (t : State) (u : UnitOp) (p : PReg) (off : BitVec 9) : (t.loopBranch u p off).core = t.core := by
  unfold State.loopBranch
  split <;> rfl

theorem loopBranch_spot (t : State) (u : UnitOp) (p : PReg) (off : BitVec 9) :
    (t.loopBranch u p off).hart.spot = t.hart.spot := by
  unfold State.loopBranch
  split <;> rfl

theorem loop_target (pc : Addr) (off : BitVec 9) : (pc - (off.setWidth 48 <<< 2)) &&& ~~~3#48 =
    (pc - BitVec.ofNat 48 (4 * off.toNat)) &&& 0xFFFF_FFFF_FFFC#48 := by
  have hoff : off.setWidth 48 <<< 2 = BitVec.ofNat 48 (4 * off.toNat) := by
    apply BitVec.eq_of_toNat_eq
    have := off.isLt
    simp only [BitVec.toNat_shiftLeft, BitVec.toNat_setWidth, BitVec.toNat_ofNat, Nat.shiftLeft_eq]
    omega
  rw [hoff]
  rfl

theorem wrapInt_pred (x w : Nat) : wrapInt ((x : Int) - 1) w = (x + 2 ^ w - 1) % 2 ^ w := by
  have hpos : 1 ≤ 2 ^ w := Nat.one_le_two_pow
  have hcast : ((x + 2 ^ w - 1 : Nat) : Int) = (x - 1 : Int) + 2 ^ w := by
    rw [Nat.add_sub_assoc hpos]
    push_cast [hpos]
    ring
  rw [wrapInt_eq_wrapped, ← wrapped_natCast, hcast]
  exact wrapped_congr (Int.add_emod_right _ _).symm

theorem orVfsr_zero (s : State) : s.orVfsr 0#5 = s := by
  simp [State.orVfsr, State.mapHart]

theorem slotEffect_vloop {s : State} {u : UnitOp} {p : PReg} {a : VReg} {off : BitVec 9} (hi : u.instr = .vloop p a off)
    (es : List Nat) : s.slotEffect u es =
      s.putAll a u.sew p (s.loopCount u p a) (fun e => (s.loopCount u p a e).map (· != 0)) es := by
  have hstep : (fun (t : State) e =>
      if s.pGet p e then (t.vSet a u.sew e (wrapInt ((s.vGet a u.sew e : Int) - 1) u.sew)).pSet p e
        (wrapInt ((s.vGet a u.sew e : Int) - 1) u.sew != 0) else t) =
      fun t e => t.put a u.sew p (s.loopCount u p a) (fun e => (s.loopCount u p a e).map (· != 0)) e := by
    funext t e
    by_cases h : s.pGet p e <;> simp [State.put, State.loopCount, h]
  simp only [State.slotEffect, hi, vView, cmpView, hstep]
  rfl

theorem exec_vloop {s : State} {u : UnitOp} {rest : List UnitOp} {p : PReg} {a : VReg} {off : BitVec 9} (hu : UnitReady u rest s)
    (hi : u.instr = .vloop p a off) (hlt : u.vstart < u.vl) {q : State} (hrows : RowsOnly (s.counted u) q)
    (heff : (s.counted u).slotEffect u.running (slotList s u) = q) : exec .kneaderSlot s = .next
      (if u.vl ≤ nextSlot s u then (slotAfter s q u rest 0#5).loopBranch u p off else slotAfter s q u rest 0#5) := by
  have hk : isKneader u.instr = true := by rw [hi]; rfl
  have hend := endSlot_eq (fl := 0#5) hrows hu.head (not_isFrame_of_isKneader hk)
  rw [orVfsr_zero] at hend
  have hstep := kneadOne_slot hu (by rw [hi]; rfl) hlt heff (congrArg Core.badRows hrows.core :)
    (congrArg Core.injArm hrows.core :)
  rw [exec_kneaderSlot hu hk, hstep]
  by_cases hlast : u.vl ≤ nextSlot s u
  · rw [if_pos hlast] at hend ⊢
    rw [if_pos hlast, ← hend]
    simp only [State.endKneader, UnitOp.movedTo, hi]
    rfl
  · rw [if_neg hlast] at hend ⊢
    rw [if_neg hlast, hend]

theorem loopCount_eq (s : State) (u : UnitOp) (p : PReg) (a : VReg) (e : Nat) : s.loopCount u p a e =
    if s.pGet p e = true then some ((s.vGet a u.sew e + 2 ^ u.sew - 1) % 2 ^ u.sew) else none := by
  rw [State.loopCount, wrapInt_pred]

/-- The lanes, bits and other rows after a slot of vloop. -/
theorem vloop_rows {s : State} {u : UnitOp} {p : PReg} (a : VReg) (hs : LanesWf s) (hvl : u.vl ≤ vlmaxFor s u.sew)
    {q : State}
    (hq : (s.counted u).putAll a u.sew p (s.loopCount u p a) (fun e => (s.loopCount u p a e).map (· != 0)) (slotList s u) = q) :
    let c := fun e => (s.vGet a u.sew e + 2 ^ u.sew - 1) % 2 ^ u.sew
    (∀ e, InSlot s u e → q.vGet a u.sew e = if s.pGet p e = true then c e else s.vGet a u.sew e) ∧
      PredBits p (InSlot s u) (fun e => decide (s.pGet p e = true ∧ c e ≠ 0)) s q ∧ OtherRowsSame a u.sew s q := by
  intro c
  subst hq
  have hc := lanesWf_counted hs u
  have hlt (e : Nat) (he : InSlot s u e) : e < vlmaxFor s u.sew := (inSlot_lt he).trans_le hvl
  refine ⟨fun e he => ?_, predBits_of_pGet (fun e he => (hlt e he).trans_le (vlmaxFor_sew_le s _)) (fun k e he => ?_),
    otherRows_putAll hc _⟩
  · rw [vGet_putAll hc (w := u.sew) (sew_cases u.et) (fun e h => hlt e (mem_slotList.mp h)) (hlt e he),
      if_pos (mem_slotList.mpr he), loopCount_eq]
    by_cases hrun : s.pGet p e = true
    · rw [if_pos hrun, if_pos hrun]
      exact Nat.mod_mod _ _
    · rw [if_neg hrun, if_neg hrun]
      rfl
  · rw [pGet_putAll hc k he, loopCount_eq]
    simp only [mem_slotList]
    by_cases hk : k = p ∧ p ≠ 0#5 ∧ InSlot s u e
    · rw [if_pos hk, if_pos hk, hk.1]
      by_cases hrun : s.pGet p e = true
      · simp [hrun, c, bne, BEq.beq]
      · rw [if_neg hrun, decide_eq_false (fun h => hrun h.1)]
        exact (Bool.not_eq_true _).mp hrun
    · rw [if_neg hk, if_neg hk]
      rfl

theorem vloop_completes {s : State} {u : UnitOp} {rest : List UnitOp} {p : PReg} {a : VReg} {off : BitVec 9} (hs : LanesWf s)
    (hu : UnitReady u rest s) (hvl : u.vl ≤ vlmaxFor s u.sew) (hi : u.instr = .vloop p a off)
    (hlt : u.vstart < u.vl) : Completes .kneaderSlot s (fun t =>
      let w := u.sew
      let c := fun e => (s.vGet a w e + 2 ^ w - 1) % 2 ^ w
      (∀ e, InSlot s u e → t.vGet a w e = if s.pGet p e = true then c e else s.vGet a w e) ∧
      PredBits p (InSlot s u) (fun e => decide (s.pGet p e = true ∧ c e ≠ 0)) s t ∧ OtherRowsSame a w s t ∧
      t.core.units = unitsAfter s u rest ∧
      (u.vl ≤ nextSlot s u → ((∃ e, e < u.vl ∧ t.pGet p e = true) →
        t.hart.pc = (u.pc - BitVec.ofNat 48 (4 * off.toNat)) &&& 0xFFFF_FFFF_FFFC#48) ∧
        (¬(∃ e, e < u.vl ∧ t.pGet p e = true) → t.hart.pc = s.hart.pc))) := by
  have hrows := rowsOnly_putAll (d := a) (w := u.sew) (p := p) (v := s.loopCount u p a)
    (b := fun e => (s.loopCount u p a e).map (· != 0)) (s.counted u) (slotList s u)
  have hexec := exec_vloop hu hi hlt hrows (slotEffect_vloop (s := s.counted u) (u := u.running) hi _)
  obtain ⟨hlanes, hbits, hothers⟩ := vloop_rows (p := p) a hs hvl rfl
  generalize (s.counted u).putAll a u.sew p (s.loopCount u p a) (fun e => (s.loopCount u p a e).map (· != 0)) (slotList s u) = q at *
  refine ⟨_, hexec, ?_⟩
  generalize ht : (if u.vl ≤ nextSlot s u then (slotAfter s q u rest 0#5).loopBranch u p off else slotAfter s q u rest 0#5) = t
  have hcore : t.core = (slotAfter s q u rest 0#5).core := by
    rw [← ht, apply_ite State.core, loopBranch_core, ite_self]
  have hspot : t.hart.spot = q.hart.spot := by
    rw [← ht, apply_ite (fun t : State => t.hart.spot), loopBranch_spot, ite_self]
    rfl
  have hlane (e : Nat) : t.vGet a u.sew e = q.vGet a u.sew e := State.vGet_congr hspot (by rw [hcore]; rfl) a _ e
  have hbit (k : PReg) (e : Nat) : t.pGet k e = q.pGet k e := State.pGet_congr hspot (by rw [hcore]; rfl) k e
  refine ⟨fun e he => (hlane e).trans (hlanes e he), ?_, ?_, by rw [hcore]; rfl,
    fun hlast => ⟨fun hruns => ?_, fun hnone => ?_⟩⟩
  · exact
      { within := fun hp e he => (hbit p e).trans (hbits.within hp e he)
        beyond := fun e he hout => (hbit p e).trans (hbits.beyond e he hout)
        others := fun k hk e he => (hbit k e).trans (hbits.others k hk e he) }
  · intro k hk hd x hx
    rw [hcore]
    exact hothers k hk hd x hx
  · have hany : (List.range u.vl).any (fun e => (slotAfter s q u rest 0#5).pGet p e) = true := by
      simpa [hbit, slotAfter_pGet] using hruns
    rw [← ht, if_pos hlast, State.loopBranch, if_pos hany, loop_target]
    rfl
  · have hany : ¬(List.range u.vl).any (fun e => (slotAfter s q u rest 0#5).pGet p e) = true := by
      simpa [hbit, slotAfter_pGet] using hnone
    rw [← ht, if_pos hlast, State.loopBranch, if_neg hany, slotAfter_hart hrows]

end Sys2Proof.Machine

namespace Sys2Proof
open Machine Claims

/-- Settles O24: a compare writes one bit for each element of its slot, a predicate instruction the bits of a function of the
element, where a carried bit says what stands before it in its segment, and vloop a count and a bit for each lane that runs. -/
theorem predicateResults : Obligations.PredicateResults := by
  unfold Obligations.PredicateResults
  intro p q r a y g off f u rest s hs hu hvl w xb yb sx sy x yv un sn none5 cmp pred pa
  have hw : 0 < w := sew_pos _
  have hvl8 : u.vl ≤ vlmaxFor s 8 := hvl.trans (vlmaxFor_sew_le s _)
  have hseen (e : Nat) : (s.counted u).seen q r e = false ↔ ∀ k, SegBefore s r k e → ¬pa k :=
    seen_eq_false_iff (s.counted u) q r e
  refine
    ⟨compare_completes hs hu hvl rfl rfl rfl (fun _ => rfl),
     compare_completes hs hu hvl rfl rfl rfl (fun e => congrArg (·, 0#5) (bne_eq_decide (xb e) (yb e))),
     compare_completes hs hu hvl rfl rfl rfl (fun _ => compare_ints hw (fun x y => decide (x < y)) _ _),
     compare_completes hs hu hvl rfl rfl rfl (fun _ => compare_ints hw (fun x y => decide (x ≤ y)) _ _),
     compare_completes hs hu hvl rfl rfl rfl (fun _ => rfl),
     compare_completes hs hu hvl rfl rfl rfl (fun _ => rfl),
     fun hf =>
      ⟨compare_completes hs hu hvl rfl rfl rfl (fun _ => compare_quiet hf FVal.eq _ _),
       compare_completes hs hu hvl rfl rfl rfl (fun _ => compare_ordered hf FVal.lt _ _),
       compare_completes hs hu hvl rfl rfl rfl (fun _ => compare_ordered hf (fun x y => !y.lt x) _ _),
       compare_completes hs hu hvl rfl rfl rfl (fun _ => compare_quiet hf (fun x y => x.isNan || y.isNan) _ _)⟩,
     pred_completes hs hu hvl8 rfl rfl rfl rfl (fun e => ?pand),
     pred_completes hs hu hvl8 rfl rfl rfl rfl (fun e => ?por),
     pred_completes hs hu hvl8 rfl rfl rfl rfl (fun e => bne_iff_ne),
     pred_completes hs hu hvl8 rfl rfl rfl rfl (fun e => ?pandn),
     pred_completes hs hu hvl8 rfl rfl rfl rfl (fun _ => Iff.rfl),
     pred_completes hs hu hvl8 rfl rfl rfl (mapIdx_seenBefore _ q r _ _) (fun e => ?psbf),
     pred_completes hs hu hvl8 rfl rfl rfl (map_seenBefore _ q r _ _) (fun e => ?psif),
     pred_completes hs hu hvl8 rfl rfl rfl (mapIdx_seenBefore _ q r _ _) (fun e => ?pfirst),
     pred_completes hs hu hvl8 rfl rfl rfl rfl (fun e => ?pset),
     pcount_completes hu,
     fun hi _ hlt => vloop_completes hs hu hvl hi hlt⟩
  case pand =>
    show (s.pGet q e && s.pGet r e) = true ↔ _
    rw [Bool.and_eq_true]
  case por =>
    show (s.pGet q e || s.pGet r e) = true ↔ _
    rw [Bool.or_eq_true]
  case pandn =>
    show (s.pGet q e && !s.pGet r e) = true ↔ _
    rw [Bool.and_eq_true, Bool.not_eq_true']
  case psbf =>
    show (!(s.counted u).seen q r e && !s.pGet q e) = true ↔ _
    rw [Bool.and_eq_true, Bool.not_eq_true', Bool.not_eq_true', hseen, ← Bool.not_eq_true, and_comm]
  case psif =>
    show (!(s.counted u).seen q r e) = true ↔ _
    rw [Bool.not_eq_true', hseen]
  case pfirst =>
    show (!(s.counted u).seen q r e && s.pGet q e) = true ↔ _
    rw [Bool.and_eq_true, Bool.not_eq_true', hseen, and_comm]
  case pset =>
    rw [decide_eq_true_iff, BitVec.extractLsb'_toNat, BitVec.extractLsb'_toNat, Nat.shiftRight_eq_div_pow]
    rfl

end Sys2Proof
end

/-! Issue of the rod tree and of the vector memory instructions (06:R131 to R133, R137, 10:R223, R224), then the statement O20. -/

section
namespace Sys2Proof.Machine
open Claims

/-! ### Types of the reductions (06:R131). -/

theorem isInt_iff (t : ElemType) : t.isInt = true ↔ t ∈ intTypes := etInt_iff t

theorem etSum_iff (t : ElemType) : etSum t = true ↔ t ∈ intTypes ++ floats14 := by
  rw [etSum, Bool.or_eq_true, isInt_iff, etFloat64_iff, List.mem_append]

theorem etMinMax_iff (t : ElemType) : etMinMax t = true ↔ t ∈ intTypes ++ floatsAll := by
  rw [etMinMax, Bool.or_eq_true, isInt_iff, etFloat_iff, List.mem_append]

theorem not_isInt_eq_decide (t : ElemType) : (!t.isInt) = decide (t ∉ intTypes) := by
  simp only [← isInt_iff, decide_not, Bool.decide_eq_true]

/-! ### Issue of a rod-tree instruction (06:R131, R132). -/

section
variable {p : ElemType → Bool} {types : List ElemType} {i : Instr} {ks : List VReg} {v w : Word} {rounds : Bool} {s : State}

theorem rodGuard_iff (hp : ∀ t, p t = true ↔ t ∈ types) (anyStart : Bool) :
    (s.arrayReady && p (modeEt s.hart.mode) && ks.all (fun k => evenAt k (modeEt s.hart.mode).sew) &&
        (anyStart || s.hart.start = 0)) = true ↔
      s.arrayReady = true ∧ et s ∈ types ∧ Claims.Even (et s).sew ks ∧ (anyStart = true ∨ startIndex s = 0) := by
  rw [Bool.and_eq_true, Bool.and_eq_true, Bool.and_eq_true, Bool.or_eq_true, decide_eq_true_eq, hp, all_evenAt_iff, and_assoc,
    and_assoc]
  rfl

/-- An instruction that needs start index 0 is sampled with it. -/
theorem issues_of_issueRod (d : Option VReg) (hp : ∀ t, p t = true ↔ t ∈ types)
    (h : exec i s = s.issueRod i p ks d v w rounds false) :
    Issues (s.arrayReady = true ∧ et s ∈ types ∧ Claims.Even (et s).sew ks ∧ startIndex s = 0) i (s.sample i 0 0 w 0 v) true
      ((d.map (fun k => dirtyOf k (et s).sew)).getD 0) 0 rounds s := by
  have hguard := rodGuard_iff (s := s) (ks := ks) hp false
  simp only [Bool.false_eq_true, false_or] at hguard
  constructor
  · refine issuesInto_of_issue (fun hok => ?_)
    obtain ⟨-, -, -, hstart⟩ := id hok
    rw [h, State.issueRod, if_pos (hguard.mpr hok), ← hstart]
    rfl
  · refine illegalUnless_of_illegalInstr (fun hnot => ?_)
    rw [h, State.issueRod, if_neg (mt hguard.mp hnot)]

theorem issues_of_issueRod_anyStart (d : Option VReg) (hp : ∀ t, p t = true ↔ t ∈ types)
    (h : exec i s = s.issueRod i p ks d v w rounds true) :
    Issues (s.arrayReady = true ∧ et s ∈ types ∧ Claims.Even (et s).sew ks) i (s.sample i (startIndex s) 0 w 0 v) true
      ((d.map (fun k => dirtyOf k (et s).sew)).getD 0) 0 rounds s :=
  issues_of_guard h (by simpa using rodGuard_iff (s := s) (ks := ks) hp true)

end

/-! ### Issue of a vector memory instruction (10:R223, R224). -/

/-- A trap that enters the handler in every gang. -/
theorem traps_of_trap {i : Instr} {c : BitVec 8} {v : Word} {s : State} (hc : c ≠ 0x0A#8 ∧ c ≠ 0x0B#8)
    (h : exec i s = .next (s.trap c v)) : Traps i c v s := by
  intro hready
  refine ⟨_, h, ?_⟩
  rw [State.trap_handler s c v hready.th hready.vec (.inr hc)]
  refine ⟨?_, rfl⟩
  exact
    { hart := rfl
      core := rfl
      pkg := by simp [Pkg.dropAsks, bne, BEq.beq]
      bytes := sameBytes_of_eq rfl rfl rfl
      regs := fun _ => rfl }

/-- The checks, the alignment traps and the queued operation of a vector memory instruction whose stride is the second general
register, or 0 where it has none. -/
def VecMemIssues (i : Instr) (ks : List VReg) (base stride : Word) (vd : BitVec 16) (s : State) : Prop :=
  let n := (et s).sew / 8
  let ok := s.arrayReady = true ∧ Claims.Even (et s).sew ks
  IllegalUnless ok i s ∧
  (ok → uv base % n ≠ 0 → Traps i 0x02#8 base s) ∧
  (ok → uv base % n = 0 → uv stride % n ≠ 0 → Traps i 0x02#8 stride s) ∧
  IssuesInto (ok ∧ uv base % n = 0 ∧ uv stride % n = 0) i (s.sample i (startIndex s) 0 0 base stride) true vd 0 false s

theorem strideCheck_iff (stride : Option Word) (n : Nat) :
    (stride.map (fun v => v.toNat % n != 0)).getD false = true ↔ uv (stride.getD 0) % n ≠ 0 := by
  cases stride with
  | none => simp [uv]
  | some v => simp [uv]

theorem vecMemIssues_of_issueVecMem {i : Instr} {ks : List VReg} {base : Word} {stride : Option Word} {dst : Option VReg}
    {s : State} (h : exec i s = s.issueVecMem i ks base stride dst) :
    VecMemIssues i ks base (stride.getD 0) ((dst.map (fun k => dirtyOf k (et s).sew)).getD 0) s := by
  have hguard : (!(s.arrayReady && ks.all (fun k => evenAt k (modeEt s.hart.mode).sew))) = true ↔
      ¬(s.arrayReady = true ∧ Claims.Even (et s).sew ks) := by
    rw [Bool.not_eq_true', ← Bool.not_eq_true, Bool.and_eq_true, all_evenAt_iff]
    rfl
  have hbase : (base.toNat % ((modeEt s.hart.mode).sew / 8) != 0) = true ↔ uv base % ((et s).sew / 8) ≠ 0 := bne_iff_ne
  have hstride := strideCheck_iff stride ((modeEt s.hart.mode).sew / 8)
  have hcause : (0x02#8 : BitVec 8) ≠ 0x0A#8 ∧ (0x02#8 : BitVec 8) ≠ 0x0B#8 := by decide
  unfold State.issueVecMem at h
  refine ⟨?_, ?_, ?_, ?_⟩
  · exact illegalUnless_of_illegalInstr (fun hnot => by rw [h, if_pos (hguard.mpr hnot)])
  · intro hok hb
    exact traps_of_trap hcause (by rw [h, if_neg (fun hn => hguard.mp hn hok), if_pos (hbase.mpr hb)])
  · intro hok hb hst
    exact traps_of_trap hcause (by
      rw [h, if_neg (fun hn => hguard.mp hn hok), if_neg (fun hn => hbase.mp hn hb), if_pos (hstride.mpr hst)])
  · refine issuesInto_of_issue (fun hok => ?_)
    obtain ⟨hok, hb, hst⟩ := hok
    rw [h, if_neg (fun hn => hguard.mp hn hok), if_neg (fun hn => hbase.mp hn hb), if_neg (fun hn => hstride.mp hn hst)]
    rfl

end Sys2Proof.Machine

namespace Sys2Proof
open Machine Claims

theorem rodTreeIssue : RodTreeIssue := by
  intro d a b y g s e float rod dd
  have hfloat : float = (true && !(modeEt s.hart.mode).isInt) := (not_isInt_eq_decide _).symm
  have hslide : ∀ i ∈ [Instr.vslideup d a y, .vslidedn d a y, .vbcast d a y],
      exec i s = s.issueRod i etAny [d, a] (some d) (scalar s y) 0 false false := by
    rw [← scalOf_eq_scalar]
    intro i hi; fin_cases hi <;> rfl
  have hslide1 : ∀ i ∈ [Instr.vslide1up d a g, .vslide1dn d a g, .vsqueeze d a g],
      exec i s = s.issueRod i etAny [d, a] (some d) (s.g g) 0 false false := by
    intro i hi; fin_cases hi <;> rfl
  have hminmax : ∀ i ∈ [Instr.vredmin g a, .vredmax g a],
      exec i s = s.issueRod i etMinMax [a] none (s.g g) 0 false false := by
    intro i hi; fin_cases hi <;> rfl
  have hbits : ∀ i ∈ [Instr.vredbitAnd g a, .vredbitOr g a, .vredbitXor g a, .vextr g a],
      exec i s = s.issueRod i etAny [a] none (s.g g) 0 false false := by
    intro i hi; fin_cases hi <;> rfl
  rw [hfloat]
  exact
    ⟨issues_of_issueRod none etSum_iff rfl,
     issues_of_issueRod_anyStart none etSum_iff rfl,
     fun i hi => issues_of_issueRod none etMinMax_iff (hminmax i hi),
     fun i hi => issues_of_issueRod none etAny_iff (hbits i hi),
     issues_of_issueRod (some d) etSum_iff rfl,
     fun i hi => issues_of_issueRod (some d) etAny_iff (hslide i hi),
     fun i hi => issues_of_issueRod (some d) etAny_iff (hslide1 i hi),
     issues_of_issueRod (some d) etAny_iff rfl,
     issues_of_issueRod (some d) etAny_iff rfl⟩

theorem vectorMemoryIssue : VectorMemoryIssue := by
  intro x b a c d s w vmem
  have hvmem {i : Instr} {ks : List VReg} (stride : Option Word) (dst : Option VReg)
      (h : exec i s = s.issueVecMem i ks (s.g a) stride dst) :
      vmem i ks (stride.getD 0) ((dst.map (fun k => dirtyOf k w)).getD 0) := vecMemIssues_of_issueVecMem h
  exact
    ⟨hvmem none (some x) rfl, hvmem (some (s.g c)) (some x) rfl, hvmem none (some x) rfl, hvmem none (some x) rfl,
     hvmem none none rfl, hvmem (some (s.g c)) none rfl, hvmem none none rfl⟩

/-- Settles O20: each instruction issues through one guarded call of its group, and the guard is the checks that the group's
statement lists. -/
theorem rodTreeAndVectorMemoryIssue : Obligations.RodTreeAndVectorMemoryIssue := by
  unfold Obligations.RodTreeAndVectorMemoryIssue
  exact ⟨rodTreeIssue, vectorMemoryIssue⟩

end Sys2Proof
end

/-! One operation of the rod tree (06:R132, R138): the step that the operation at the head of the queue takes when nothing stops
it, and what its writes leave; then the shuffles and the statement O25. -/

section
namespace Sys2Proof.Machine
open Claims

/-! ### The operation at the head runs (06:R132, R134, 21:R360). -/

theorem not_isFrame_of_isRodTree {i : Instr} (h : isRodTree i = true) : isFrame i = false := by
  unfold isRodTree at h
  split at h
  case h_18 => cases h
  all_goals rfl

theorem exec_rodTreeComplete {s : State} {u : UnitOp} {rest : List UnitOp} (hu : UnitReady u rest s)
    (hrod : isRodTree u.instr = true) : exec .rodTreeComplete s = .next (s.rodOne u) := by
  show execRodTreeComplete s = _
  simp [execRodTreeComplete, turnOf_head hu.head (not_isFrame_of_isRodTree hrod), hrod, hu.trigger]

/-- With nothing to stop it, an operation has its effect. -/
theorem rodOne_eq {s t : State} {u : UnitOp} {rest : List UnitOp} (hu : UnitReady u rest s)
    (ht : (s.counted u).rodEffect u.running = t) (hrows : t.core.badRows = s.core.badRows) (hinj : t.core.injArm = s.core.injArm) :
    s.rodOne u = t := by
  have hbad (rows : List Nat) : (s.counted u).badRow rows = none := badRow_none hu.parity rows
  simp only [State.rodOne, startUnit_eq hu, hbad, ht, noteRows_eq (hrows.trans hu.parity) (hinj.trans hu.inject),
    Bool.false_eq_true, if_false]

/-- Of the core, only the rows of the vector registers, the queue and the count of array instructions may differ. -/
def OnlyVrows (units : List UnitOp) (s t : State) : Prop :=
  t.core = { s.core with vrows := t.core.vrows, units := units, arrayCount := t.core.arrayCount }

theorem exec_of_rodEffect {s t : State} {u : UnitOp} {rest units : List UnitOp} (hu : UnitReady u rest s)
    (hrod : isRodTree u.instr = true) (ht : (s.counted u).rodEffect u.running = t) (hcore : OnlyVrows units s t) :
    exec .rodTreeComplete s = .next t := by
  rw [exec_rodTreeComplete hu hrod, rodOne_eq hu ht]
  · exact (congrArg Core.badRows hcore :)
  · exact (congrArg Core.injArm hcore :)

theorem onlyVrows_bytes {units : List UnitOp} {s t : State} (hcore : OnlyVrows units s t) (hpkg : t.pkg = s.pkg) :
    SameBytes s t :=
  sameBytes_of_eq (congrArg Core.lines hcore :) (congrArg Core.bench hcore :) (congrArg Pkg.mem hpkg :)

/-! ### A result in a general register (06:R133, R138). -/

/-- The entry at the head leaves its queue after a write of a general register. -/
theorem unitResult_head {t : State} {u : UnitOp} {rest : List UnitOp} (g : GReg) (v : Word) (hunits : t.core.units = u :: rest)
    (hf : isFrame u.instr = false) :
    t.unitResult u.running g v = (t.setG g v).mapCore (fun c => { c with units := rest }) :=
  dropUnit_head (by rw [State.setG_core, hunits]) hf

theorem unitResult_completes {s : State} {u : UnitOp} {rest : List UnitOp} {g : GReg} {v : Word} {fl : Flags}
    (hu : UnitReady u rest s) (hrod : isRodTree u.instr = true)
    (heff : (s.counted u).rodEffect u.running = ((s.counted u).orVfsr fl).unitResult u.running g v) :
    Completes .rodTreeComplete s (UnitResult rest g v fl s) := by
  rw [unitResult_head g v (t := (s.counted u).orVfsr fl) hu.head (not_isFrame_of_isRodTree hrod)] at heff
  have hcore : OnlyVrows rest s ((((s.counted u).orVfsr fl).setG g v).mapCore (fun c => { c with units := rest })) := by
    rw [OnlyVrows, State.mapCore_core, State.setG_core]
    rfl
  have hpkg := State.setG_pkg ((s.counted u).orVfsr fl) g v
  refine ⟨_, exec_of_rodEffect hu hrod heff hcore, ?_⟩
  exact
    { regs := fun r => State.g_setG ((s.counted u).orVfsr fl) g r v
      hart := setG_hart ((s.counted u).orVfsr fl) g v
      core := by
        rw [State.mapCore_core, State.setG_core]
        rfl
      pkg := hpkg
      bytes := onlyVrows_bytes hcore hpkg }

/-! ### Elements written (06:R138). -/

/-- Write f e to element e of register d for a list of elements, in order. -/
def State.vSetAll (s : State) (d : VReg) (w : Nat) (f : Nat → Nat) (es : List Nat) : State :=
  es.foldl (fun t e => t.vSet d w e (f e)) s

theorem vSetAll_eq_putAll (s : State) (d : VReg) (w : Nat) (f : Nat → Nat) (es : List Nat) :
    s.vSetAll d w f es = s.putAll d w 0#5 (fun e => some (f e)) (fun _ => none) es := rfl

theorem rowsOnly_vSetAll (s : State) (d : VReg) (w : Nat) (f : Nat → Nat) (es : List Nat) : RowsOnly s (s.vSetAll d w f es) := by
  rw [vSetAll_eq_putAll]
  exact rowsOnly_putAll s es

theorem vSetAll_prows (s : State) (d : VReg) (w : Nat) (f : Nat → Nat) (es : List Nat) :
    (s.vSetAll d w f es).core.prows = s.core.prows := by
  rw [vSetAll_eq_putAll]
  exact putAll_prows s es (fun _ => rfl)

theorem vSetAll_units {s : State} {u : UnitOp} {rest : List UnitOp} (hunits : s.core.units = u :: rest) (d : VReg) (w : Nat)
    (f : Nat → Nat) (es : List Nat) : ((s.counted u).vSetAll d w f es).core.units = u :: rest := by
  rw [(rowsOnly_vSetAll (s.counted u) d w f es).core]
  exact hunits

/-- An operation wrote f e to the elements e of d that a list names, and left its queue. -/
structure Wrote (rest : List UnitOp) (d : VReg) (w : Nat) (f : Nat → Nat) (es : List Nat) (s t : State) : Prop where
  written : ∀ e ∈ es, t.vGet d w e = f e % 2 ^ w
  kept : ∀ e, e < vlmaxFor s w → e ∉ es → t.vGet d w e = s.vGet d w e
  others : OtherRowsSame d w s t
  core : OnlyVrows rest s t
  pkg : t.pkg = s.pkg

/-- The registers of the hart may change beside the writes; the lane grant may not. -/
theorem wrote_of_vSetAll {s t : State} {u : UnitOp} {rest : List UnitOp} {d : VReg} {w : Nat} {f : Nat → Nat} {es : List Nat}
    (hs : LanesWf s) (hw : w = 64 ∨ w ∣ 32) (hes : ∀ e ∈ es, e < vlmaxFor s w)
    (hcore : t.core = { ((s.counted u).vSetAll d w f es).core with units := rest }) (hspot : t.hart.spot = s.hart.spot)
    (hpkg : t.pkg = s.pkg) : Wrote rest d w f es s t := by
  have hc := lanesWf_counted hs u
  have hrows := rowsOnly_vSetAll (s.counted u) d w f es
  have hread (e : Nat) (he : e < vlmaxFor s w) : t.vGet d w e = if e ∈ es then f e % 2 ^ w else s.vGet d w e := by
    have hsame : t.vGet d w e = ((s.counted u).vSetAll d w f es).vGet d w e :=
      State.vGet_congr (by rw [hspot, hrows.hart]; rfl) (by rw [hcore]) d w e
    rw [hsame, vSetAll_eq_putAll, vGet_putAll hc hw hes he]
    rfl
  exact
    { written := fun e he => by rw [hread e (hes e he), if_pos he]
      kept := fun e he hne => by rw [hread e he, if_neg hne]
      others := fun k hk hd x hx => by
        rw [hcore]
        exact otherRows_putAll (v := fun e => some (f e)) (b := fun _ => none) (p := 0#5) hc es k hk hd x hx
      core := by
        rw [OnlyVrows, hcore, hrows.core, vSetAll_prows]
        rfl
      pkg := hpkg }

theorem shuffled_of_wrote {s t : State} {u : UnitOp} {rest : List UnitOp} {d : VReg} {p : Nat → Prop} {f : Nat → Nat}
    {es : List Nat} (hmem : ∀ e, e ∈ es ↔ e < u.vl ∧ p e) (hw : Wrote rest d (modeEt u.mode).sew f es s t)
    (hhart : t.hart = { s.hart with g := t.hart.g }) : Shuffled u rest d p f s t where
  written e he hp := hw.written e ((hmem e).mpr ⟨he, hp⟩)
  kept e he hnot := hw.kept e he (mt (hmem e).mp hnot)
  others := hw.others
  hart := hhart
  core := hw.core
  pkg := hw.pkg
  bytes := onlyVrows_bytes hw.core hw.pkg

/-- An operation whose effect is to write elements below VL and to leave its queue. -/
theorem shuffle_completes {s : State} {u : UnitOp} {rest : List UnitOp} {d : VReg} {p : Nat → Prop} {f : Nat → Nat}
    {es : List Nat} (hs : LanesWf s) (hu : UnitReady u rest s) (hvl : u.vl ≤ vlmaxFor s (modeEt u.mode).sew)
    (hrod : isRodTree u.instr = true) (hmem : ∀ e, e ∈ es ↔ e < u.vl ∧ p e)
    (heff : (s.counted u).rodEffect u.running = ((s.counted u).vSetAll d (modeEt u.mode).sew f es).dropUnit u.running) :
    Completes .rodTreeComplete s (fun t => Shuffled u rest d p f s t ∧ t.hart = s.hart) := by
  rw [dropUnit_head (vSetAll_units hu.head d _ f es) (not_isFrame_of_isRodTree hrod)] at heff
  have hrows := rowsOnly_vSetAll (s.counted u) d (modeEt u.mode).sew f es
  have hhart : (((s.counted u).vSetAll d (modeEt u.mode).sew f es).mapCore (fun c => { c with units := rest })).hart = s.hart :=
    hrows.hart
  have hwrote : Wrote rest d (modeEt u.mode).sew f es s
      (((s.counted u).vSetAll d (modeEt u.mode).sew f es).mapCore (fun c => { c with units := rest })) :=
    wrote_of_vSetAll hs (sew_cases _) (fun e he => ((hmem e).mp he).1.trans_le hvl) rfl (congrArg Hart.spot hhart) hrows.pkg
  exact ⟨_, exec_of_rodEffect hu hrod heff hwrote.core, shuffled_of_wrote hmem hwrote (by rw [hhart]), hhart⟩

/-! ### The shuffles that write active elements (06:R138). -/

theorem shuffle_eq_vSetAll (s : State) (u : UnitOp) (d : VReg) (w : Nat → Bool) (f : Nat → Nat) :
    s.shuffle u d w f = s.vSetAll d u.sew f ((List.range u.vl).filter (fun e => s.active u.mode e && w e)) := by
  rw [State.shuffle, State.vSetAll, List.foldl_filter]

theorem activeShuffle_completes {s : State} {u : UnitOp} {rest : List UnitOp} {d : VReg} {w : Nat → Bool} {p : Nat → Prop}
    {f : Nat → Nat} (hs : LanesWf s) (hu : UnitReady u rest s) (hvl : u.vl ≤ vlmaxFor s (modeEt u.mode).sew)
    (hrod : isRodTree u.instr = true) (hp : ∀ e, p e ↔ s.active u.mode e = true ∧ w e = true)
    (heff : (s.counted u).rodEffect u.running = ((s.counted u).shuffle u.running d w f).dropUnit u.running) :
    Completes .rodTreeComplete s (fun t => Shuffled u rest d p f s t ∧ t.hart = s.hart) := by
  rw [shuffle_eq_vSetAll] at heff
  refine shuffle_completes hs hu hvl hrod (fun e => ?_) heff
  rw [List.mem_filter, List.mem_range, Bool.and_eq_true, hp]
  rfl

/-! ### vsqueeze and vextr (06:R138). -/

theorem foldl_index (f : State → Nat → Nat → State) (l : List Nat) (s : State) :
    l.foldl (fun (acc : State × Nat) e => (f acc.1 acc.2 e, acc.2 + 1)) (s, 0) =
      ((List.range l.length).foldl (fun t k => f t k (l[k]?.getD 0)) s, l.length) := by
  induction l using List.reverseRecOn with
  | nil => rfl
  | append_singleton l e ih =>
    rw [List.foldl_append, ih, List.length_append, List.length_singleton, List.range_succ, List.foldl_append]
    simp only [List.foldl_cons, List.foldl_nil, List.getElem?_concat_length, Option.getD_some]
    refine Prod.ext (congrArg (f · l.length e) (List.foldl_ext _ _ _ (fun t k hk => ?_))) rfl
    rw [List.getElem?_append_left (List.mem_range.mp hk)]

/-- The active elements go to the lowest elements of d, in ascending order. -/
theorem squeeze_eq_vSetAll (s : State) (d a : VReg) (w : Nat) (l : List Nat) :
    (l.foldl (fun (acc : State × Nat) e => (acc.1.vSet d w acc.2 (s.vGet a w e), acc.2 + 1)) (s, 0)).1 =
      s.vSetAll d w (fun k => s.vGet a w (l[k]?.getD 0)) (List.range l.length) := by
  rw [foldl_index (fun t k e => State.vSet t d w k (s.vGet a w e))]
  rfl

theorem actives_length_le (s : State) (u : UnitOp) : (actives s u).length ≤ u.vl :=
  (List.length_filter_le _ _).trans_eq List.length_range

theorem vsqueeze_completes {s : State} {u : UnitOp} {rest : List UnitOp} {d a : VReg} {g : GReg} (hs : LanesWf s)
    (hu : UnitReady u rest s) (hvl : u.vl ≤ vlmaxFor s (modeEt u.mode).sew) (hi : u.instr = .vsqueeze d a g) :
    Completes .rodTreeComplete s (fun t =>
      Shuffled u rest d (· < (actives s u).length) (fun e => s.vGet a (modeEt u.mode).sew ((actives s u)[e]?.getD 0)) s t ∧
      RegsAfter g (BitVec.ofNat 64 (actives s u).length) s t) := by
  have hrod : isRodTree u.instr = true := by rw [hi]; rfl
  set f := fun e : Nat => s.vGet a (modeEt u.mode).sew ((actives s u)[e]?.getD 0)
  set n := BitVec.ofNat 64 (actives s u).length
  set q := (s.counted u).vSetAll d (modeEt u.mode).sew f (List.range (actives s u).length)
  have hrows : RowsOnly (s.counted u) q := rowsOnly_vSetAll ..
  have heff : (s.counted u).rodEffect u.running = q.unitResult u.running g n := by
    simp only [State.rodEffect, State.runShuffle, UnitOp.running_instr, hi]
    exact congrArg (State.unitResult · u.running g n) (squeeze_eq_vSetAll (s.counted u) d a _ (actives s u))
  rw [unitResult_head g n (t := q) (vSetAll_units hu.head ..) (not_isFrame_of_isRodTree hrod)] at heff
  have hhart : (q.setG g n).hart = { s.hart with g := (q.setG g n).hart.g } := by
    rw [setG_hart, hrows.hart]
    rfl
  have hmem (e : Nat) : e ∈ List.range (actives s u).length ↔ e < u.vl ∧ e < (actives s u).length := by
    have := actives_length_le s u
    rw [List.mem_range]
    omega
  have hwrote : Wrote rest d (modeEt u.mode).sew f (List.range (actives s u).length) s
      ((q.setG g n).mapCore (fun c => { c with units := rest })) := by
    refine wrote_of_vSetAll (u := u) hs (sew_cases _) (fun e he => ((hmem e).mp he).1.trans_le hvl) ?_ ?_ ?_
    · rw [State.mapCore_core, State.setG_core]
    · rw [State.mapCore_hart, hhart]
      rfl
    · exact (State.setG_pkg q g n).trans hrows.pkg
  refine ⟨_, exec_of_rodEffect hu hrod heff hwrote.core, shuffled_of_wrote hmem hwrote hhart, fun r => ?_⟩
  refine (State.g_setG q g r n).trans ?_
  rw [State.g, hrows.hart]
  rfl

/-- A signed integer element is sign-extended, every other zero-extended. -/
theorem extendElem_eq (t : ElemType) (b : Nat) : extendElem t b = BitVec.ofInt 64 (asInt t.signed t.sew b) := by
  have hint : t.signed = true → t.isInt = true := by cases t <;> decide
  rw [extendElem]
  cases hs : t.signed with
  | false => rw [Bool.and_false, if_neg Bool.false_ne_true, asInt, if_neg Bool.false_ne_true, BitVec.ofInt_natCast]
  | true => rw [hint hs, Bool.and_true, if_pos rfl, readInt_eq_asInt _ (sew_pos t)]

theorem vextr_completes {s : State} {u : UnitOp} {rest : List UnitOp} {a : VReg} {g : GReg} (hu : UnitReady u rest s)
    (hi : u.instr = .vextr g a) : Completes .rodTreeComplete s (UnitResult rest g
      (if uv u.gb < u.vl then
        BitVec.ofInt 64 (asInt (modeEt u.mode).signed (modeEt u.mode).sew (s.vGet a (modeEt u.mode).sew (uv u.gb))) else 0)
      0#5 s) := by
  refine unitResult_completes hu (by rw [hi]; rfl) ?_
  rw [orVfsr_zero, ← extendElem_eq]
  simp only [State.rodEffect, State.runShuffle, UnitOp.running_instr, hi]
  rfl

/-! ### vinsr (06:R138). -/

theorem vinsr_completes {s : State} {u : UnitOp} {rest : List UnitOp} {d : VReg} {g : GReg} (hs : LanesWf s)
    (hu : UnitReady u rest s) (hvl : u.vl ≤ vlmaxFor s (modeEt u.mode).sew) (hi : u.instr = .vinsr d g) :
    Completes .rodTreeComplete s (fun t =>
      Shuffled u rest d (fun e => e = uv u.gd1) (fun _ => uv u.gb % 2 ^ (modeEt u.mode).sew) s t ∧ t.hart = s.hart) := by
  refine shuffle_completes (es := if uv u.gd1 < u.vl then [uv u.gd1] else []) hs hu hvl (by rw [hi]; rfl) (fun e => ?_) ?_
  · by_cases h : uv u.gd1 < u.vl
    · rw [if_pos h, List.mem_singleton]
      exact ⟨fun he => ⟨he ▸ h, he⟩, And.right⟩
    · rw [if_neg h]
      exact ⟨fun he => absurd he (List.not_mem_nil), fun he => absurd (he.2 ▸ he.1) h⟩
  · simp only [State.rodEffect, State.runShuffle, UnitOp.running_instr, hi, apply_ite (State.vSetAll (s.counted u) d _ _)]
    rfl

end Sys2Proof.Machine

namespace Sys2Proof
open Machine Claims

/-- Settles O25: each shuffle writes a value for every element of one list: the active elements of its condition, the lowest
elements for vsqueeze, at most one for vinsr. -/
theorem shuffleResults : Obligations.ShuffleResults := by
  unfold Obligations.ShuffleResults
  intro d a b y g u rest s hs hu hvl m w el pick act k gv gives
  have hk : k = u.running.offset y := by cases y <;> rfl
  have hshuffle {i : Instr} {p : Nat → Prop} {c : Nat → Bool} {f : Nat → Nat} (hrod : isRodTree i = true)
      (hp : ∀ e, p e ↔ act e ∧ c e = true)
      (heff : u.instr = i → (s.counted u).rodEffect u.running = ((s.counted u).shuffle u.running d c f).dropUnit u.running) :
      gives i p f := fun hi =>
    activeShuffle_completes hs hu hvl (hi ▸ hrod) hp (heff hi)
  have hact (e : Nat) : act e ↔ act e ∧ true = true := (and_iff_left rfl).symm
  refine
    ⟨hshuffle (c := fun e => decide (k ≤ e)) rfl (fun e => and_congr_right (fun _ => decide_eq_true_iff.symm)) (fun hi => ?_),
     hshuffle (c := fun _ => true) rfl hact (fun hi => ?_), hshuffle (c := fun _ => true) rfl hact (fun hi => ?_),
     hshuffle (c := fun _ => true) rfl hact (fun hi => ?_), hshuffle (c := fun _ => true) rfl hact (fun hi => ?_),
     hshuffle (c := fun _ => true) rfl hact (fun hi => ?_),
     vinsr_completes hs hu hvl, vsqueeze_completes hs hu hvl, vextr_completes hu⟩
  all_goals
    simp only [State.rodEffect, State.runShuffle, UnitOp.running_instr, hi, hk]
    rfl

end Sys2Proof
end

/-! The index tree (06:R129, R130): the levels that the model builds list by list hold the nodes of the tree. -/

section
namespace Sys2Proof.Machine
open Claims

variable {α : Type}

/-! ### Nodes (06:R129). -/

/-- Two children combined: c where both are filled, the filled one where one is, none where none is; with the flags of both. -/
def joinNodes (c : α → α → α × Flags) (l r : Option α × Flags) : Option α × Flags :=
  match l.1, r.1 with
  | some x, some y => (some (c x y).1, l.2 ||| r.2 ||| (c x y).2)
  | some x, none => (some x, l.2 ||| r.2)
  | none, y => (y, l.2 ||| r.2)

theorem joinNodes_empty (c : α → α → α × Flags) : joinNodes c (none, 0#5) (none, 0#5) = (none, 0#5) := by simp [joinNodes]

/-- Node (j, i) over values of any type, with the flags of the nodes below it. -/
def indexNode (f : Nat → Nat → α → α → α × Flags) (leaf : Nat → Option α) : Nat → Nat → Option α × Flags
  | 0, i => (leaf i, 0#5)
  | j + 1, i => joinNodes (f (j + 1) i) (indexNode f leaf j (2 * i)) (indexNode f leaf j (2 * i + 1))

theorem treeNode_eq_indexNode (f : Nat → Nat → Nat → Nat × Flags) (leaf : Nat → Option Nat) (j i : Nat) :
    treeNode f leaf j i = indexNode (fun j i => f (j * 2 ^ 20 + i)) leaf j i := by
  induction j generalizing i with
  | zero => rfl
  | succ j ih =>
    rw [treeNode, indexNode, ih, ih, joinNodes]
    cases (indexNode (fun j i => f (j * 2 ^ 20 + i)) leaf j (2 * i)).1 with
    | none => rfl
    | some x => cases (indexNode (fun j i => f (j * 2 ^ 20 + i)) leaf j (2 * i + 1)).1 <;> rfl

section
variable {f : Nat → Nat → α → α → α × Flags} {leaf : Nat → Option α}

/-- A node over no leaf is empty. -/
theorem indexNode_of_empty {n : Nat} (hleaf : ∀ i, n ≤ i → leaf i = none) (j i : Nat) (h : n ≤ i * 2 ^ j) :
    indexNode f leaf j i = (none, 0#5) := by
  induction j generalizing i with
  | zero => rw [indexNode, hleaf i (by omega)]
  | succ j ih =>
    rw [pow_succ] at h
    rw [indexNode, ih _ (by linarith), ih _ (by linarith [Nat.zero_le (2 ^ j)]), joinNodes_empty]

/-- A property of the leaves that f keeps holds of every node. -/
theorem indexNode_forall {P : α → Prop} (hleaf : ∀ i, ∀ x ∈ leaf i, P x) (hf : ∀ j i x y, P x → P y → P (f j i x y).1)
    (j i : Nat) : ∀ x ∈ (indexNode f leaf j i).1, P x := by
  induction j generalizing i with
  | zero => exact hleaf i
  | succ j ih =>
    have hl := ih (2 * i)
    have hr := ih (2 * i + 1)
    rw [indexNode, joinNodes]
    split
    next x y hx hy =>
      rintro _ ⟨⟩
      exact hf _ _ _ _ (hl x hx) (hr y hy)
    next x hx _ =>
      rintro _ ⟨⟩
      exact hl x hx
    next => exact hr

/-- Where f raises no flag, no node does. -/
theorem indexNode_flags_zero (hf : ∀ j i x y, (f j i x y).2 = 0#5) (j i : Nat) : (indexNode f leaf j i).2 = 0#5 := by
  induction j generalizing i with
  | zero => rfl
  | succ j ih =>
    rw [indexNode, joinNodes]
    split <;> simp [ih, hf]

end

/-! ### One level of the tree as a list (06:R129). -/

theorem orFlags_cons (x : Flags) (l : List Flags) : orFlags (x :: l) = x ||| orFlags l := by
  rw [orFlags, orFlags, List.foldl_cons, BitVec.or_comm 0#5 x]
  exact List.foldl_assoc

/-- n nodes of level j from node i on: their values, and their flags together. -/
def levelValues (N : Nat → Nat → Option α × Flags) (j i n : Nat) : List (Option α) := (natRange i n).map (fun k => (N j k).1)
def levelFlags (N : Nat → Nat → Option α × Flags) (j i n : Nat) : Flags := orFlags ((natRange i n).map (fun k => (N j k).2))

theorem levelValues_succ (N : Nat → Nat → Option α × Flags) (j i n : Nat) :
    levelValues N j i (n + 1) = (N j i).1 :: levelValues N j (i + 1) n := by
  rw [levelValues, natRange_succ, List.map_cons, levelValues]

theorem levelFlags_succ (N : Nat → Nat → Option α × Flags) (j i n : Nat) :
    levelFlags N j i (n + 1) = (N j i).2 ||| levelFlags N j (i + 1) n := by
  rw [levelFlags, natRange_succ, List.map_cons, orFlags_cons, levelFlags]

theorem levelValues_length (N : Nat → Nat → Option α × Flags) (j i n : Nat) : (levelValues N j i n).length = n := by
  simp [levelValues, natRange]

/-- An index at or beyond the end names an empty node. -/
theorem levelValues_get {N : Nat → Nat → Option α × Flags} {j n : Nat} (hend : ∀ k, n ≤ k → N j k = (none, 0#5)) (i : Nat) :
    ((levelValues N j 0 n)[i]?).join = (N j i).1 := by
  by_cases h : i < n
  · simp [levelValues, natRange, h]
  · simp [levelValues, natRange, hend i (Nat.le_of_not_lt h), h]

/-- N holds the nodes of a tree combined by f. -/
def IsTree (f : Nat → Nat → α → α → α × Flags) (N : Nat → Nat → Option α × Flags) : Prop :=
  ∀ j i, N (j + 1) i = joinNodes (f (j + 1) i) (N j (2 * i)) (N j (2 * i + 1))

section
variable {f : Nat → Nat → α → α → α × Flags} {N : Nat → Nat → Option α × Flags}

theorem node_empty (hN : IsTree f N) {j n : Nat} (hend : ∀ k, n ≤ k → N j k = (none, 0#5)) (k : Nat) (hk : (n + 1) / 2 ≤ k) :
    N (j + 1) k = (none, 0#5) := by
  rw [hN, hend _ (by omega), hend _ (by omega), joinNodes_empty]

/-- A level paired up is the next level; the flags raised beside those of its nodes are those of the next level's. -/
theorem pairUp_level (hN : IsTree f N) {j : Nat} (n i : Nat) (hend : ∀ k, 2 * i + n ≤ k → N j k = (none, 0#5)) :
    (pairUp (f (j + 1)) i (levelValues N j (2 * i) n)).1 = levelValues N (j + 1) i ((n + 1) / 2) ∧
      levelFlags N j (2 * i) n ||| (pairUp (f (j + 1)) i (levelValues N j (2 * i) n)).2 =
        levelFlags N (j + 1) i ((n + 1) / 2) := by
  induction n using Nat.twoStepInduction generalizing i with
  | zero => exact ⟨rfl, BitVec.or_zero⟩
  | one =>
    have hnode : N (j + 1) i = N j (2 * i) := by
      rw [hN, hend (2 * i + 1) le_rfl, joinNodes]
      cases h : (N j (2 * i)).1 <;> simp [← h]
    have hone (j i : Nat) : levelValues N j i 1 = [(N j i).1] ∧ levelFlags N j i 1 = (N j i).2 := by
      simp [levelValues, levelFlags, natRange, orFlags]
    obtain ⟨hv, hf⟩ := hone j (2 * i)
    obtain ⟨hv', hf'⟩ := hone (j + 1) i
    rw [hv, hf, hv', hf', hnode]
    exact ⟨rfl, BitVec.or_zero⟩
  | more n ih _ =>
    obtain ⟨hvals, hflags⟩ := ih (i + 1) (fun k hk => hend k (by omega))
    rw [show 2 * (i + 1) = 2 * i + 1 + 1 from rfl] at hvals hflags
    have hhalf : (n + 1 + 1 + 1) / 2 = (n + 1) / 2 + 1 := by omega
    have hnode := hN j i
    rw [hhalf, levelValues_succ, levelValues_succ, levelValues_succ, levelFlags_succ, levelFlags_succ, levelFlags_succ,
      ← hvals, ← hflags, hnode, joinNodes]
    generalize levelFlags N j (2 * i + 1 + 1) n = fl
    generalize levelValues N j (2 * i + 1 + 1) n = xs
    cases (N j (2 * i)).1 with
    | none =>
      simp only [pairUp, true_and]
      ac_rfl
    | some x =>
      cases (N j (2 * i + 1)).1 with
      | none =>
        simp only [pairUp, true_and]
        ac_rfl
      | some y =>
        simp only [pairUp, true_and]
        ac_rfl

/-! ### All levels (06:R129). -/

theorem treeDepth_half {n : Nat} (h : 1 < n) : treeDepth n = treeDepth ((n + 1) / 2) + 1 := by
  rw [treeDepth, if_neg (Nat.not_le.mpr h), treeDepth]
  by_cases h2 : (n + 1) / 2 ≤ 1
  · obtain rfl : n = 2 := by omega
    rfl
  · rw [if_neg h2, show (n + 1) / 2 - 1 = (n - 1) / 2 by omega, Nat.log2_def (n - 1), if_pos (by omega)]

/-- What the model's levels from level j up hold: every node of the levels up to the root, and the flags of the nodes above j. -/
structure LevelsOf (N : Nat → Nat → Option α × Flags) (j n : Nat) (r : List (List (Option α)) × Flags) : Prop where
  length : r.1.length = treeDepth n + 1
  node : ∀ k ≤ treeDepth n, ∀ i, ((r.1[k]?).bind (·[i]?)).join = (N (j + k) i).1
  flags : levelFlags N j 0 n ||| r.2 = (N (j + treeDepth n) 0).2

theorem levelsOf_single {j n : Nat} (hn : n ≤ 1) (hend : ∀ k, n ≤ k → N j k = (none, 0#5)) :
    LevelsOf N j n ([levelValues N j 0 n], 0#5) := by
  have hdepth : treeDepth n = 0 := if_pos hn
  refine ⟨by rw [hdepth]; rfl, fun k hk i => ?_, ?_⟩
  · obtain rfl : k = 0 := by omega
    exact levelValues_get hend i
  · rw [hdepth, BitVec.or_zero]
    obtain rfl | rfl : n = 0 ∨ n = 1 := by omega
    · rw [Nat.add_zero, hend 0 le_rfl]
      rfl
    · simp [levelFlags, natRange, orFlags]

theorem treeLevels_levelsOf (hN : IsTree f N) (fuel j n : Nat) (hfuel : n ≤ 2 ^ fuel)
    (hend : ∀ k, n ≤ k → N j k = (none, 0#5)) : LevelsOf N j n (treeLevels f fuel (j + 1) (levelValues N j 0 n)) := by
  induction fuel generalizing j n with
  | zero => exact levelsOf_single hfuel hend
  | succ fuel ih =>
    rw [treeLevels, levelValues_length]
    by_cases hn : n ≤ 1
    · rw [if_pos hn]
      exact levelsOf_single hn hend
    · rw [if_neg hn]
      obtain ⟨hvals, hflags⟩ := pairUp_level hN (j := j) n 0 (fun k hk => hend k (by omega))
      rw [Nat.mul_zero] at hvals hflags
      rw [pow_succ] at hfuel
      obtain ⟨hlen, hnode, hfl⟩ := ih (j + 1) ((n + 1) / 2) (by omega) (node_empty hN hend)
      have hdepth := treeDepth_half (Nat.lt_of_not_le hn)
      have hup (k : Nat) : j + (k + 1) = j + 1 + k := by omega
      dsimp only
      rw [hvals]
      refine ⟨by rw [List.length_cons, hlen, hdepth], fun k hk i => ?_, ?_⟩
      · cases k with
        | zero => exact levelValues_get hend i
        | succ k =>
          rw [hup k]
          exact hnode k (by omega) i
      · rw [hdepth, hup (treeDepth _), ← hfl, ← hflags, BitVec.or_assoc]

end

/-- The leaves raise no flag. -/
theorem levelFlags_leaves (f : Nat → Nat → α → α → α × Flags) (leaf : Nat → Option α) (i n : Nat) :
    levelFlags (indexNode f leaf) 0 i n = 0#5 := by
  induction n generalizing i with
  | zero => rfl
  | succ n ih =>
    rw [levelFlags_succ, ih, indexNode, BitVec.or_zero]

/-! ### The model's tree over leaves below VL (06:R129). -/

section
variable {leaf : Nat → Option α} {n : Nat} (hleaf : ∀ e, n ≤ e → leaf e = none)
include hleaf

theorem treeLevels_leaves (f : Nat → Nat → α → α → α × Flags) :
    LevelsOf (indexNode f leaf) 0 n (treeLevels f (n.log2 + 2) 1 ((List.range n).map leaf)) := by
  have hxs : (List.range n).map leaf = levelValues (indexNode f leaf) 0 0 n := by
    simp [levelValues, natRange, indexNode]
  rw [hxs]
  refine treeLevels_levelsOf (fun _ _ => rfl) _ 0 n ?_ (fun k hk => by rw [indexNode, hleaf k hk])
  exact (Nat.lt_log2_self.trans (Nat.pow_lt_pow_right one_lt_two (Nat.lt_succ_self _))).le

theorem treeLevels_flags (f : Nat → Nat → α → α → α × Flags) :
    (treeLevels f (n.log2 + 2) 1 ((List.range n).map leaf)).2 = (indexNode f leaf (treeDepth n) 0).2 := by
  have h := (treeLevels_leaves hleaf f).flags
  rwa [levelFlags_leaves, BitVec.zero_or, Nat.zero_add] at h

theorem treeRoot_eq (f : Nat → Nat → α → α → α × Flags) :
    treeRoot f ((List.range n).map leaf) = indexNode f leaf (treeDepth n) 0 := by
  obtain ⟨hlen, hnode, -⟩ := treeLevels_leaves hleaf f
  rw [treeRoot, List.length_map, List.length_range, treeLevels_flags hleaf]
  refine Prod.ext ?_ rfl
  have hroot := hnode (treeDepth n) le_rfl 0
  rw [Nat.zero_add] at hroot
  rw [← hroot, List.getLast?_eq_getElem?, hlen]
  simp only [Nat.add_sub_cancel, List.head?_eq_getElem?]

end

end Sys2Proof.Machine
end

/-! Folds over the index tree (06:R129, R133, R136): an associative combination of the nodes is the same combination of the leaves
in order, and the interval of a scan's element is the blocks that its binary digits name. -/

section
namespace Sys2Proof.Machine
open Claims

variable {α β : Type}

/-! ### Leaves in order. -/

/-- A value combined with one that may be missing. -/
def absorb (op : β → β → β) (y : β) (v : Option β) : β := v.elim y (op y)

/-- The leaves from a on, n of them, combined in order with y. -/
def foldLeaves (op : β → β → β) (φ : α → β) (leaf : Nat → Option α) (a n : Nat) (y : β) : β :=
  (natRange a n).foldl (fun z e => absorb op z ((leaf e).map φ)) y

theorem natRange_add (a m n : Nat) : natRange a (m + n) = natRange a m ++ natRange (a + m) n := by
  simp [natRange, List.range_add, Function.comp_def, Nat.add_assoc]

theorem foldLeaves_add (op : β → β → β) (φ : α → β) (leaf : Nat → Option α) (a m n : Nat) (y : β) :
    foldLeaves op φ leaf a (m + n) y = foldLeaves op φ leaf (a + m) n (foldLeaves op φ leaf a m y) := by
  rw [foldLeaves, natRange_add, List.foldl_append]
  rfl

theorem foldLeaves_empty (op : β → β → β) (φ : α → β) {leaf : Nat → Option α} {a : Nat} (h : ∀ e, a ≤ e → leaf e = none) (n : Nat)
    (y : β) : foldLeaves op φ leaf a n y = y := by
  induction n generalizing a with
  | zero => rfl
  | succ n ih =>
    rw [foldLeaves, natRange_succ, List.foldl_cons, h a le_rfl]
    exact ih (fun e he => h e (by omega))

section
variable {f : Nat → Nat → α → α → α × Flags} {leaf : Nat → Option α} {op : β → β → β} [Std.Associative op] {φ : α → β}

theorem absorb_joinNodes {c : α → α → α × Flags} (hc : ∀ x y, φ (c x y).1 = op (φ x) (φ y)) (l r : Option α × Flags) (y : β) :
    absorb op y ((joinNodes c l r).1.map φ) = absorb op (absorb op y (l.1.map φ)) (r.1.map φ) := by
  rw [joinNodes]
  split
  next x z hx hz =>
    rw [hx, hz]
    simp only [Option.map_some, absorb, Option.elim_some, hc, Std.Associative.assoc (op := op)]
  next x hx hz =>
    rw [hx, hz]
    rfl
  next hx =>
    rw [hx]
    rfl

/-- A node combined with a value is its leaves combined with it, in order. -/
theorem absorb_indexNode (hf : ∀ j i x y, φ (f j i x y).1 = op (φ x) (φ y)) (j i : Nat) (y : β) :
    absorb op y ((indexNode f leaf j i).1.map φ) = foldLeaves op φ leaf (i * 2 ^ j) (2 ^ j) y := by
  induction j generalizing i y with
  | zero => simp [indexNode, foldLeaves, natRange]
  | succ j ih =>
    rw [indexNode, absorb_joinNodes (hf _ _), ih, ih, show i * 2 ^ (j + 1) = 2 * i * 2 ^ j by ring,
      show 2 ^ (j + 1) = 2 ^ j + 2 ^ j by ring, foldLeaves_add, Nat.add_mul, Nat.one_mul]

theorem le_two_pow_treeDepth (n : Nat) : n ≤ 2 ^ treeDepth n := by
  rw [treeDepth]
  split
  next h => exact h
  next => exact Nat.le_of_pred_lt Nat.lt_log2_self

/-- The root combined with a value is all leaves combined with it, in order. -/
theorem absorb_root (hf : ∀ j i x y, φ (f j i x y).1 = op (φ x) (φ y)) {n : Nat} (hleaf : ∀ e, n ≤ e → leaf e = none) (y : β) :
    absorb op y ((indexNode f leaf (treeDepth n) 0).1.map φ) = foldLeaves op φ leaf 0 n y := by
  obtain ⟨m, hm⟩ := Nat.exists_eq_add_of_le (le_two_pow_treeDepth n)
  rw [absorb_indexNode hf, Nat.zero_mul, hm, foldLeaves_add, foldLeaves_empty op φ (fun e he => hleaf e (by omega))]

/-! ### The blocks of an interval (06:R136). -/

/-- The blocks of an interval combined with a value are its leaves combined with it, in order. -/
theorem foldl_prefixBlocks (hf : ∀ j i x y, φ (f j i x y).1 = op (φ x) (φ y)) (k m done : Nat)
    (hdone : 2 ^ (k + 1) ∣ done) (y : β) : (prefixBlocks k m done).foldl (fun z b => absorb op z ((indexNode f leaf b.1 b.2).1.map φ)) y =
      foldLeaves op φ leaf done (m % 2 ^ (k + 1)) y := by
  induction k generalizing done y with
  | zero =>
    obtain h | h := Nat.mod_two_eq_zero_or_one m
    · simp [prefixBlocks, h, foldLeaves, natRange]
    · simp [prefixBlocks, h, foldLeaves, natRange, indexNode]
  | succ k ih =>
    have hmod : m % 2 ^ (k + 1 + 1) = m / 2 ^ (k + 1) % 2 * 2 ^ (k + 1) + m % 2 ^ (k + 1) := by
      rw [pow_succ, Nat.mod_mul, Nat.mul_comm, Nat.add_comm]
    have hlow : 2 ^ (k + 1) ∣ done := (Nat.pow_dvd_pow 2 (Nat.le_succ _)).trans hdone
    rw [prefixBlocks, hmod]
    obtain h | h := Nat.mod_two_eq_zero_or_one (m / 2 ^ (k + 1))
    · rw [if_neg (by omega), h, Nat.zero_mul, Nat.zero_add, ih done hlow]
    · rw [if_pos h, h, Nat.one_mul, List.foldl_cons, ih _ (hlow.add dvd_rfl), absorb_indexNode hf, Nat.div_mul_cancel hlow,
        foldLeaves_add]

end

/-- The blocks of the first m elements are named by the binary digits of m. -/
theorem prefixBlocks_eq (k m : Nat) : prefixBlocks k m (m / 2 ^ (k + 1) * 2 ^ (k + 1)) =
    ((List.range (k + 1)).reverse.filter (fun j => m.testBit j)).map (fun j => (j, 2 * (m / 2 ^ (j + 1)))) := by
  have hdigit (j : Nat) : m / 2 ^ j = 2 * (m / 2 ^ (j + 1)) + m / 2 ^ j % 2 := by
    rw [pow_succ, ← Nat.div_div_eq_div_mul]
    omega
  have hpow (j : Nat) : m / 2 ^ (j + 1) * 2 ^ (j + 1) = 2 * (m / 2 ^ (j + 1)) * 2 ^ j := by ring
  induction k with
  | zero =>
    rw [prefixBlocks, hpow, pow_zero, Nat.mul_one]
    by_cases h : m % 2 = 1 <;> simp [Nat.testBit_zero, h]
  | succ k ih =>
    rw [prefixBlocks, List.range_succ, List.reverse_append, List.reverse_singleton, List.singleton_append, List.filter_cons,
      Nat.testBit_eq_decide_div_mod_eq, hpow, Nat.mul_div_cancel _ (Nat.two_pow_pos _)]
    have hk := hdigit (k + 1)
    by_cases h : m / 2 ^ (k + 1) % 2 = 1
    · rw [if_pos h, if_pos (decide_eq_true h), List.map_cons, ← ih, hk, h, Nat.add_mul, Nat.one_mul]
    · rw [if_neg h, if_neg (by simpa using h), ← ih, hk, Nat.mod_two_ne_one.mp h]
      rfl

/-- The blocks from the highest digit on are those of any digits that hold m. -/
theorem prefixBlocks_log2 {m n : Nat} (hm : m ≠ 0) (hn : m < 2 ^ n) : prefixBlocks m.log2 m 0 =
    ((List.range n).reverse.filter (fun j => m.testBit j)).map (fun j => (j, 2 * (m / 2 ^ (j + 1)))) := by
  have htop : m / 2 ^ (m.log2 + 1) = 0 := Nat.div_eq_of_lt Nat.lt_log2_self
  have hblocks := prefixBlocks_eq m.log2 m
  rw [htop, Nat.zero_mul] at hblocks
  obtain ⟨k, hk⟩ := Nat.exists_eq_add_of_le ((Nat.log2_lt hm).mpr hn)
  have hhigh : ((List.range k).map (m.log2 + 1 + ·)).reverse.filter (fun j => m.testBit j) = [] := by
    rw [List.filter_eq_nil_iff]
    intro j hj
    obtain ⟨i, -, rfl⟩ := List.mem_map.mp (List.mem_reverse.mp hj)
    rw [Nat.testBit_lt_two_pow (Nat.lt_log2_self.trans_le (Nat.pow_le_pow_right two_pos (Nat.le_add_right _ i)))]
    exact Bool.false_ne_true
  rw [hblocks, show n = m.log2 + 1 + k from hk, List.range_add (n := m.log2 + 1), List.reverse_append,
    List.filter_append, hhigh, List.nil_append]

/-! ### One element of a scan (06:R136). -/

/-- The fold of an element reads nodes of the tree. -/
theorem scanElem_eq {N : Nat → Nat → Option α × Flags} {n e : Nat} {r : List (List (Option α)) × Flags} (hr : LevelsOf N 0 n r)
    (he : e < n) (c : α → α → α × Flags) : scanElem r.1 c e =
      (prefixBlocks (e + 1).log2 (e + 1) 0).foldl (fun acc b => joinNodes c acc ((N b.1 b.2).1, 0#5)) (none, 0#5) := by
  have hlevel : ∀ b ∈ prefixBlocks (e + 1).log2 (e + 1) 0, b.1 ≤ treeDepth n := by
    rw [prefixBlocks_log2 (n := (e + 1).log2 + 1) (Nat.succ_ne_zero e) Nat.lt_log2_self]
    intro b hb
    obtain ⟨j, hj, rfl⟩ := List.mem_map.mp hb
    have hlt := List.mem_range.mp (List.mem_reverse.mp (List.mem_of_mem_filter hj))
    have hpow : 2 ^ (e + 1).log2 ≤ 2 ^ treeDepth n :=
      (Nat.log2_self_le (Nat.succ_ne_zero e)).trans (he.trans_le (le_two_pow_treeDepth n))
    exact (Nat.le_of_lt_succ hlt).trans ((Nat.pow_le_pow_iff_right one_lt_two).mp hpow)
  refine List.foldl_ext _ _ _ (fun acc b hb => ?_)
  rw [hr.node b.1 (hlevel b hb), Nat.zero_add, joinNodes]
  cases acc.1 with
  | none => simp
  | some x => cases (N b.1 b.2).1 <;> simp

theorem scanFold_eq (f : Nat → Nat → Nat → Nat × Flags) (leaf : Nat → Option Nat) {e : Nat} (he : e + 1 < 2 ^ 20) :
    scanFold f leaf e = (prefixBlocks (e + 1).log2 (e + 1) 0).foldl (fun acc b =>
      joinNodes (f (2 ^ 25 + e)) acc ((indexNode (fun j i => f (j * 2 ^ 20 + i)) leaf b.1 b.2).1, 0#5)) (none, 0#5) := by
  rw [prefixBlocks_log2 (Nat.succ_ne_zero e) he, List.foldl_map, scanFold]
  refine List.foldl_ext _ _ _ (fun acc k _ => ?_)
  rw [treeNode_eq_indexNode, joinNodes]
  cases acc.1 with
  | none => simp
  | some x => cases (indexNode (fun j i => f (j * 2 ^ 20 + i)) leaf k (2 * ((e + 1) / 2 ^ (k + 1)))).1 <;> simp

/-- The fold of an element combined with a value is the leaves up to it combined with the value, in order. -/
theorem absorb_scanElem {f : Nat → Nat → α → α → α × Flags} {leaf : Nat → Option α} {op : β → β → β} [Std.Associative op]
    {φ : α → β} {n e : Nat} {r : List (List (Option α)) × Flags} (hf : ∀ j i x y, φ (f j i x y).1 = op (φ x) (φ y))
    (hr : LevelsOf (indexNode f leaf) 0 n r) (he : e < n) {c : α → α → α × Flags}
    (hc : ∀ x y, φ (c x y).1 = op (φ x) (φ y)) (y : β) : absorb op y ((scanElem r.1 c e).1.map φ) = foldLeaves op φ leaf 0 (e + 1) y := by
  have hfold (bs : List (Nat × Nat)) (acc : Option α × Flags) :
      absorb op y ((bs.foldl (fun acc b => joinNodes c acc ((indexNode f leaf b.1 b.2).1, 0#5)) acc).1.map φ) =
        bs.foldl (fun z b => absorb op z ((indexNode f leaf b.1 b.2).1.map φ)) (absorb op y (acc.1.map φ)) := by
    induction bs generalizing acc with
    | nil => rfl
    | cons b bs ih => rw [List.foldl_cons, ih, absorb_joinNodes hc, List.foldl_cons]
  rw [scanElem_eq hr he, hfold, Option.map_none, absorb, Option.elim_none, foldl_prefixBlocks hf _ _ _ (Nat.dvd_zero _),
    Nat.mod_eq_of_lt Nat.lt_log2_self]

end Sys2Proof.Machine
end

/-! Reductions (06:R129, R130, R133): the root of the index tree over the active elements combined with the initial value, exactly
for integers and bits, node by node for floats. -/

section
namespace Sys2Proof.Machine
open Claims

/-! ### The leaves (06:R129). -/

/-- Leaf e: the element where it is active and below VL. -/
def State.rodLeaf (s : State) (u : UnitOp) (a : VReg) (e : Nat) : Option Nat :=
  if e < u.vl ∧ s.active u.mode e = true then some (s.vGet a u.sew e) else none

section
variable (s : State) (u : UnitOp) (a : VReg)

theorem rodLeaf_beyond {e : Nat} (h : u.vl ≤ e) : s.rodLeaf u a e = none := if_neg (fun h' => h.not_gt h'.1)

theorem rodLeaf_below {e : Nat} (h : e < u.vl) : s.rodLeaf u a e = s.leaf u a e := by
  rw [State.rodLeaf, State.leaf]
  simp only [h, true_and]

theorem leaves_eq : s.leaves u a = (List.range u.vl).map (s.rodLeaf u a) :=
  List.map_congr_left (fun _ he => (rodLeaf_below s u a (List.mem_range.mp he)).symm)

theorem leaves_map {γ : Type} (g : Nat → γ) :
    (s.leaves u a).map (·.map g) = (List.range u.vl).map (fun e => (s.rodLeaf u a e).map g) := by
  rw [leaves_eq, List.map_map]
  rfl

theorem rodLeaf_map_beyond {γ : Type} (g : Nat → γ) (e : Nat) (h : u.vl ≤ e) : (s.rodLeaf u a e).map g = none := by
  rw [rodLeaf_beyond s u a h, Option.map_none]

/-- A fold over the leaves that passes over the empty ones runs over the active elements. -/
theorem foldl_leaves {γ : Type} (h : γ → Option Nat → γ) (hnone : ∀ z, h z none = z) (z : γ) :
    (s.leaves u a).foldl h z = (actives s u).foldl (fun z e => h z (some (s.vGet a u.sew e))) z := by
  have hstep : (fun z e => h z (s.leaf u a e)) =
      fun z e => if s.active u.mode e = true then h z (some (s.vGet a u.sew e)) else z := by
    funext z e
    by_cases hact : s.active u.mode e <;> simp [State.leaf, hact, hnone]
  rw [State.leaves, List.foldl_map, hstep, actives, List.foldl_filter]

/-- The leaves below an index in order are the active elements below it. -/
theorem foldLeaves_rodLeaf {γ : Type} (op : γ → γ → γ) (φ : Nat → γ) {n : Nat} (hn : n ≤ u.vl) (y : γ) :
    foldLeaves op φ (s.rodLeaf u a) 0 n y =
      ((List.range n).filter (s.active u.mode)).foldl (fun z e => op z (φ (s.vGet a u.sew e))) y := by
  rw [foldLeaves, List.foldl_filter, show natRange 0 n = List.range n by simp [natRange]]
  refine List.foldl_ext _ _ _ (fun z e he => ?_)
  rw [rodLeaf_below s u a ((List.mem_range.mp he).trans_le hn), State.leaf]
  by_cases hact : s.active u.mode e <;> simp [hact, absorb]

end

/-! ### The root and the initial value (06:R133). -/

/-- The initial value combined with the root; alone where the root is empty. -/
def rootWith (c : Nat → Nat → Nat × Flags) (iv : Nat) (r : Option Nat × Flags) : Nat × Flags :=
  match r.1 with
  | none => (iv, r.2)
  | some v => ((c iv v).1, r.2 ||| (c iv v).2)

theorem rootWith_none (c : Nat → Nat → Nat × Flags) (iv : Nat) (fl : Flags) : rootWith c iv (none, fl) = (iv, fl) := rfl
theorem rootWith_some (c : Nat → Nat → Nat × Flags) (iv v : Nat) (fl : Flags) :
    rootWith c iv (some v, fl) = ((c iv v).1, fl ||| (c iv v).2) := rfl

theorem treeResult_eq (f : Nat → Nat → Nat → Nat × Flags) {leaf : Nat → Option Nat} {n : Nat} (hleaf : ∀ e, n ≤ e → leaf e = none)
    (iv : Nat) : treeResult f leaf n iv =
      rootWith (f (31 * 2 ^ 20)) iv (treeRoot (fun j i => f (j * 2 ^ 20 + i)) ((List.range n).map leaf)) := by
  rw [treeRoot_eq hleaf, treeResult, treeNode_eq_indexNode]
  obtain ⟨v, fl⟩ := indexNode (fun j i => f (j * 2 ^ 20 + i)) leaf (treeDepth n) 0
  cases v <;> rfl

theorem rootWith_forall {P : Nat → Prop} {c : Nat → Nat → Nat × Flags} {iv : Nat} {r : Option Nat × Flags} (hiv : P iv)
    (hr : ∀ x ∈ r.1, P x) (hc : ∀ x y, P x → P y → P (c x y).1) : P (rootWith c iv r).1 := by
  obtain ⟨v, fl⟩ := r
  cases v with
  | none => exact hiv
  | some v => exact hc iv v hiv (hr v rfl)

theorem rootWith_flags_zero {c : Nat → Nat → Nat × Flags} {iv : Nat} {r : Option Nat × Flags} (hr : r.2 = 0#5)
    (hc : ∀ x y, (c x y).2 = 0#5) : (rootWith c iv r).2 = 0#5 := by
  obtain ⟨v, fl⟩ := r
  cases v with
  | none => exact hr
  | some v => rw [rootWith_some, hc, BitVec.or_zero]; exact hr

/-- An exact reduction is the combination of the active elements in order, from the initial value. -/
theorem exact_reduction {γ : Type} {op : γ → γ → γ} [Std.Associative op] {φ : Nat → γ} {c : Nat → Nat → Nat × Flags}
    (hc : ∀ x y, φ (c x y).1 = op (φ x) (φ y)) (s : State) (u : UnitOp) (a : VReg) (iv : Nat) :
    φ (rootWith c iv (treeRoot (fun _ _ => c) (s.leaves u a))).1 =
      (actives s u).foldl (fun z e => op z (φ (s.vGet a u.sew e))) (φ iv) := by
  have hfold := foldLeaves_rodLeaf s u a op φ le_rfl (φ iv)
  have hroot := absorb_root (f := fun _ _ => c) (fun _ _ => hc) (fun e he => rodLeaf_beyond s u a he) (φ iv)
  rw [leaves_eq, treeRoot_eq (fun e he => rodLeaf_beyond s u a he)]
  refine Eq.trans ?_ (hroot.trans hfold)
  obtain ⟨v, fl⟩ := indexNode (fun _ _ => c) (s.rodLeaf u a) (treeDepth u.vl) 0
  cases v with
  | none => rfl
  | some v => exact hc iv v

theorem exact_flags {c : Nat → Nat → Nat × Flags} (hc : ∀ x y, (c x y).2 = 0#5) (s : State) (u : UnitOp) (a : VReg) (iv : Nat) :
    (rootWith c iv (treeRoot (fun _ _ => c) (s.leaves u a))).2 = 0#5 := by
  refine rootWith_flags_zero ?_ hc
  rw [leaves_eq, treeRoot_eq (fun e he => rodLeaf_beyond s u a he)]
  exact indexNode_flags_zero (fun _ _ => hc) _ _

/-! ### Completion of a reduction (06:R133). -/

/-- The reductions over the index tree, with the general register and the source of each. -/
def treeReduction : Instr → Option (GReg × VReg)
  | .vredsum g a => some (g, a)
  | .vredmin g a => some (g, a)
  | .vredmax g a => some (g, a)
  | .vredbitAnd g a => some (g, a)
  | .vredbitOr g a => some (g, a)
  | .vredbitXor g a => some (g, a)
  | _ => none

theorem rodEffect_treeReduction {s : State} {u : UnitOp} {g : GReg} {a : VReg} (h : treeReduction u.instr = some (g, a)) :
    s.rodEffect u = (s.orVfsr (s.reduction u a).2).unitResult u g (s.reduction u a).1 := by
  unfold treeReduction at h
  split at h
  case h_7 => cases h
  all_goals
    next hi =>
      cases h
      simp only [State.rodEffect, hi]

theorem isRodTree_of_treeReduction {i : Instr} {r : GReg × VReg} (h : treeReduction i = some r) : isRodTree i = true := by
  unfold treeReduction at h
  split at h
  case h_7 => cases h
  all_goals rfl

theorem treeReduction_completes {s : State} {u : UnitOp} {rest : List UnitOp} {i : Instr} {g : GReg} {a : VReg} {v : Word}
    {fl : Flags} (hu : UnitReady u rest s) (hi : treeReduction i = some (g, a)) (hv : u.instr = i → s.reduction u a = (v, fl)) :
    u.instr = i → Completes .rodTreeComplete s (UnitResult rest g v fl s) := by
  rintro rfl
  refine unitResult_completes hu (isRodTree_of_treeReduction hi) ?_
  rw [rodEffect_treeReduction (u := u.running) hi, show (s.counted u).reduction u.running a = s.reduction u a from rfl, hv rfl]

/-! ### Integer sums (06:R133). -/

theorem reduceInt_eq (v : Int) (w : Nat) (sg sat : Bool) :
    reduceInt v w sg sat = if sat = true then clamped sg w v else wrapped w v := by
  rw [reduceInt, satInt_eq_clamped, wrapInt_eq_wrapped]

theorem reduction_intSum {s : State} {u : UnitOp} {g : GReg} {a : VReg} (hm : modeEt u.mode ∈ intTypes)
    (hi : u.instr = .vredsum g a) : s.reduction u a =
      (BitVec.ofNat 64 (reduceInt (asInt (modeEt u.mode).signed 64 (uv u.gb) +
        (actives s u).foldl (fun n e => n + asInt (modeEt u.mode).signed (modeEt u.mode).sew (s.vGet a (modeEt u.mode).sew e)) 0)
        64 (modeEt u.mode).signed (modeSat u.mode)), 0#5) := by
  have hint : u.et.isInt = true := (isInt_iff _).mpr hm
  have hsum := foldl_leaves s u a (fun (n : Int) x => n + ((x.map (fun b => readInt b u.et.sew u.et.signed)).getD 0))
    (fun z => add_zero z) 0
  simp only [Option.map_some, Option.getD_some, readInt_eq_asInt _ (sew_pos u.et)] at hsum
  simp only [State.reduction, hi, hint, if_true, readInt_eq_asInt _ (sew_pos u.et), hsum,
    readInt_eq_asInt _ (show 0 < 64 by decide)]
  rfl

/-! ### Minima, maxima and bits (06:R133). -/

theorem asInt_mod (sg : Bool) (w b : Nat) : asInt sg w (b % 2 ^ w) = asInt sg w b := by
  rw [asInt, asInt, Nat.mod_mod]
  congr 1
  exact congrArg BitVec.toInt (BitVec.eq_of_toNat_eq (by simp))

/-- The element that a comparison of integers picks. -/
def pickInt (t : ElemType) (isMax : Bool) (x y : Nat) : Nat :=
  if isMax = true then (if elemInt t y ≤ elemInt t x then x else y) else (if elemInt t x ≤ elemInt t y then x else y)

theorem minMaxComb_int {t : ElemType} (ht : t ∈ intTypes) (isMax : Bool) (x y : Nat) :
    minMaxComb t isMax x y = (pickInt t isMax x y, 0#5) := by
  have hfmt : t.fmt = none := by
    revert ht
    cases t <;> decide
  simp only [minMaxComb, hfmt, readInt_eq_elemInt, pickInt]

theorem elemInt_pickMin (t : ElemType) (x y : Nat) : elemInt t (pickInt t false x y) = min (elemInt t x) (elemInt t y) := by
  rw [pickInt, if_neg Bool.false_ne_true, apply_ite (elemInt t), min_def]

theorem elemInt_pickMax (t : ElemType) (x y : Nat) : elemInt t (pickInt t true x y) = max (elemInt t x) (elemInt t y) := by
  rw [pickInt, if_pos rfl, apply_ite (elemInt t), max_comm, max_def]

/-- The minimum or maximum over the tree, extended to the register. -/
def State.minMaxResult (s : State) (u : UnitOp) (a : VReg) (isMax : Bool) : Word × Flags :=
  let r := rootWith (minMaxComb u.et isMax) (uv u.gb % 2 ^ u.sew) (treeRoot (fun _ _ => minMaxComb u.et isMax) (s.leaves u a))
  (extendElem u.et r.1, r.2)

theorem reduction_min {s : State} {u : UnitOp} {g : GReg} {a : VReg} (hi : u.instr = .vredmin g a) :
    s.reduction u a = s.minMaxResult u a false := by
  simp only [State.reduction, hi]
  rfl

theorem reduction_max {s : State} {u : UnitOp} {g : GReg} {a : VReg} (hi : u.instr = .vredmax g a) :
    s.reduction u a = s.minMaxResult u a true := by
  simp only [State.reduction, hi]
  rfl

theorem minMaxResult_int {s : State} {u : UnitOp} {isMax : Bool} {op : Int → Int → Int} [Std.Associative op] (a : VReg)
    (hm : modeEt u.mode ∈ intTypes) (hop : ∀ x y, elemInt u.et (pickInt u.et isMax x y) = op (elemInt u.et x) (elemInt u.et y)) :
    s.minMaxResult u a isMax =
      (BitVec.ofInt 64 ((actives s u).foldl (fun n e => op n (elemInt u.et (s.vGet a u.sew e))) (elemInt u.et (uv u.gb))), 0#5) := by
  have hcomb (x y : Nat) := minMaxComb_int hm isMax x y
  have hval := exact_reduction (op := op) (φ := elemInt u.et) (c := minMaxComb u.et isMax)
    (fun x y => (congrArg (elemInt u.et ·.1) (hcomb x y)).trans (hop x y)) s u a (uv u.gb % 2 ^ u.sew)
  have hfl := exact_flags (c := minMaxComb u.et isMax) (fun x y => congrArg Prod.snd (hcomb x y)) s u a (uv u.gb % 2 ^ u.sew)
  rw [State.minMaxResult, hfl, extendElem_eq]
  refine Prod.ext (congrArg (BitVec.ofInt 64) (hval.trans ?_)) rfl
  rw [show elemInt u.et (uv u.gb % 2 ^ u.sew) = elemInt u.et (uv u.gb) from asInt_mod _ _ _]

/-- A bit reduction runs over the patterns. -/
theorem reduction_bits {s : State} {u : UnitOp} {a : VReg} {op : Nat → Nat → Nat} [Std.Associative op]
    (hr : s.reduction u a = (BitVec.ofNat 64 (rootWith (fun x y => (op x y, 0#5)) (uv u.gb % 2 ^ u.sew)
      (treeRoot (fun _ _ x y => (op x y, 0#5)) (s.leaves u a))).1, 0#5)) :
    s.reduction u a = (BitVec.ofNat 64 ((actives s u).foldl (fun n e => op n (s.vGet a u.sew e)) (uv u.gb % 2 ^ u.sew)), 0#5) := by
  rw [hr]
  refine Prod.ext (congrArg (BitVec.ofNat 64) ?_) rfl
  exact exact_reduction (op := op) (φ := id) (c := fun x y => (op x y, 0#5)) (fun _ _ => rfl) s u a _

/-! ### Float sums (06:R130, R133). -/

/-- The flags that widening the active elements raises. -/
def State.widenFlagsAll (s : State) (u : UnitOp) (a : VReg) : Flags :=
  (actives s u).foldl (fun n e => n ||| widenFlags u.et (s.vGet a u.sew e)) 0#5

theorem addIn_eq_addRounded : addIn = addRounded := rfl

theorem reduction_floatSum {s : State} {u : UnitOp} {g : GReg} {a : VReg} (hm : u.et.isInt = false) (hi : u.instr = .vredsum g a) :
    s.reduction u a =
      let r := treeResult (addRounded (sumFmt u.et) u.rnd) (fun e => (s.rodLeaf u a e).map (widen u.et)) u.vl
        (uv u.gb % 2 ^ (sumFmt u.et).width)
      (BitVec.ofNat 64 r.1, s.widenFlagsAll u a ||| r.2) := by
  have hfl := foldl_leaves s u a (fun n x => n ||| ((x.map (widenFlags u.et)).getD 0#5)) (fun _ => BitVec.or_zero) 0#5
  simp only [Option.map_some, Option.getD_some] at hfl
  rw [treeResult_eq _ (rodLeaf_map_beyond s u a _), ← leaves_map, State.widenFlagsAll, ← hfl]
  simp only [State.reduction, hi, hm, Bool.false_eq_true, if_false, addIn_eq_addRounded]
  generalize treeRoot (fun j i => addRounded (sumFmt u.et) u.rnd (j * 2 ^ 20 + i)) ((s.leaves u a).map (·.map (widen u.et))) = r
  obtain ⟨v, fl⟩ := r
  cases v with
  | none => rfl
  | some v => exact Prod.ext rfl (BitVec.or_assoc _ _ _)

theorem own_width {t : ElemType} (h : t = .fp32 ∨ t = .fp64) : t.isInt = false ∧ (sumFmt t).width = t.sew := by
  rcases h with rfl | rfl <;> decide

theorem half_width {t : ElemType} (h : t = .bf16 ∨ t = .fp16) : t.isInt = false ∧ (sumFmt t).width = 32 := by
  rcases h with rfl | rfl <;> decide

/-- A sum in its own type widens nothing. -/
theorem widen_own {t : ElemType} {f : Fmt} (hf : t.fmt = some f) (ht : t = .fp32 ∨ t = .fp64) :
    sumFmt t = f ∧ widen t = id ∧ widenFlags t = fun _ => 0#5 := by
  rcases ht with rfl | rfl <;> cases hf <;> exact ⟨rfl, rfl, rfl⟩

/-- bf16 and fp16 accumulate in fp32. -/
theorem widen_half {t : ElemType} {f : Fmt} (hf : t.fmt = some f) (ht : t = .bf16 ∨ t = .fp16) :
    sumFmt t = .fp32 ∧
      (widen t = fun b => (Fmt.fp32.round { rm := .rne, sat := false, seed := 0, count := 0 } 0 (f.decode b).exact).bits) ∧
      widenFlags t = fun b => (f.decode b).snan := by
  rcases ht with rfl | rfl <;> cases hf <;> exact ⟨rfl, rfl, rfl⟩

/-! ### Float minima and maxima (06:R133). -/

theorem minMax_bits_lt {f : Fmt} {w : Nat} (hw : f.width ≤ w) (isMax : Bool) {x y : Nat} (hx : x < 2 ^ w) (hy : y < 2 ^ w) :
    (f.minMax isMax x y).bits < 2 ^ w := by
  have hnan : f.nanBits < 2 ^ w := f.nanBits_lt_width.trans_le (Nat.pow_le_pow_right two_pos hw)
  unfold Fmt.minMax
  dsimp only
  split_ifs <;> assumption

/-- The minimum or maximum of two patterns with its flags, at any node. -/
def minMaxPick (f : Fmt) (isMax : Bool) (_ x y : Nat) : Nat × Flags := ((f.minMax isMax x y).bits, (f.minMax isMax x y).fl)

theorem minMaxResult_float {s : State} {u : UnitOp} {f : Fmt} (a : VReg) (isMax : Bool) (hf : (modeEt u.mode).fmt = some f)
    (hm : modeEt u.mode ∈ floatsAll) : s.minMaxResult u a isMax =
      let r := treeResult (minMaxPick f isMax) (s.rodLeaf u a) u.vl (uv u.gb % 2 ^ u.sew)
      (BitVec.ofNat 64 r.1, r.2) := by
  have hprops : ∀ t ∈ floatsAll, t.isInt = false ∧ (t.fmt.getD .fp32).width ≤ t.sew := by decide
  obtain ⟨hint, hwidth⟩ := hprops _ hm
  rw [getD_fmt hf] at hwidth
  have hcomb : minMaxComb u.et isMax = minMaxPick f isMax 0 := by
    funext x y
    simp only [minMaxComb, show u.et.fmt = some f from hf, minMaxPick]
  have hlt (x y : Nat) (hx : x < 2 ^ u.sew) (hy : y < 2 ^ u.sew) : (minMaxPick f isMax 0 x y).1 < 2 ^ u.sew :=
    minMax_bits_lt hwidth isMax hx hy
  have hleaf (e : Nat) : ∀ x ∈ s.rodLeaf u a e, x < 2 ^ u.sew := by
    intro x hx
    rw [State.rodLeaf] at hx
    split at hx
    next =>
      cases hx
      exact s.vGet_lt a _ e
    next => cases hx
  have hroot := treeRoot_eq (fun e he => rodLeaf_beyond s u a he) (fun _ _ => minMaxPick f isMax 0)
  have hbound : (rootWith (minMaxPick f isMax 0) (uv u.gb % 2 ^ u.sew)
      (treeRoot (fun _ _ => minMaxPick f isMax 0) ((List.range u.vl).map (s.rodLeaf u a)))).1 < 2 ^ u.sew := by
    refine rootWith_forall (P := (· < 2 ^ u.sew)) (Nat.mod_lt _ (Nat.two_pow_pos _)) ?_ hlt
    rw [hroot]
    exact indexNode_forall (P := (· < 2 ^ u.sew)) hleaf (fun _ _ => hlt) _ _
  rw [treeResult_eq _ (fun e he => rodLeaf_beyond s u a he), State.minMaxResult, hcomb, leaves_eq]
  refine Prod.ext ?_ rfl
  simp only [extendElem, show u.et.isInt = false from hint, Bool.false_and, Bool.false_eq_true, if_false]
  exact congrArg _ (Nat.mod_eq_of_lt hbound)

end Sys2Proof.Machine

namespace Sys2Proof
open Machine Claims

theorem floatReductionsUseTheIndexTree : FloatReductionsUseTheIndexTree := by
  intro a g f u rest s hs hu hvl hf m leaf pick gives init
  refine ⟨fun hm => treeReduction_completes hu rfl (fun hi => ?_), fun hm => treeReduction_completes hu rfl (fun hi => ?_),
    fun hm => ⟨?_, ?_⟩⟩
  · obtain ⟨hint, hwidth⟩ := own_width (t := u.et) hm
    obtain ⟨hsum, hwiden, hflags⟩ := widen_own (t := u.et) hf hm
    rw [reduction_floatSum hint hi, State.widenFlagsAll, hwidth, hwiden, hflags, hsum]
    simp only [BitVec.or_zero, List.foldl_fixed, Option.map_id, id_eq, BitVec.zero_or]
    rfl
  · obtain ⟨hint, -⟩ := half_width (t := u.et) hm
    obtain ⟨hsum, hwiden, hflags⟩ := widen_half (t := u.et) hf hm
    rw [reduction_floatSum hint hi, State.widenFlagsAll, hwiden, hflags, hsum]
    rfl
  · exact treeReduction_completes hu rfl (fun hi => (reduction_min hi).trans (minMaxResult_float a false hf hm))
  · exact treeReduction_completes hu rfl (fun hi => (reduction_max hi).trans (minMaxResult_float a true hf hm))

end Sys2Proof
end

/-! Scans and the ordered sum (06:R130, R136, R137): the elements that a scan writes, one step of vredosum; then the statement
O26. -/

section
namespace Sys2Proof.Machine
open Claims

/-! ### vscan of integers (06:R136). -/

theorem vSetAll_congr (s : State) (d : VReg) (w : Nat) {f g : Nat → Nat} {es : List Nat} (h : ∀ e ∈ es, f e = g e) :
    s.vSetAll d w f es = s.vSetAll d w g es :=
  List.foldl_ext _ _ _ (fun t e he => by rw [h e he])

theorem mem_actives {s : State} {u : UnitOp} {e : Nat} : e ∈ actives s u ↔ e < u.vl ∧ s.active u.mode e = true := by
  rw [actives, List.mem_filter, List.mem_range]

theorem actives_filter_le (s : State) (u : UnitOp) {e : Nat} (he : e < u.vl) :
    (actives s u).filter (· ≤ e) = (List.range (e + 1)).filter (s.active u.mode) := by
  have hcut := range_filter_between (Nat.zero_le (e + 1)) he
  simp only [Nat.zero_le, true_and, Nat.lt_succ_iff, Nat.sub_zero] at hcut
  rw [actives, List.filter_filter, show List.range (e + 1) = natRange 0 (e + 1) by simp [natRange], ← hcut, List.filter_filter]
  simp only [Bool.and_comm]

/-- The sum of the active elements up to e. -/
def State.prefixSum (s : State) (u : UnitOp) (a : VReg) (e : Nat) : Int :=
  ((actives s u).filter (· ≤ e)).foldl (fun n e => n + elemInt u.et (s.vGet a u.sew e)) 0

/-- The integer tree of a scan. -/
def State.intLevels (s : State) (u : UnitOp) (a : VReg) : List (List (Option Int)) × Flags :=
  treeLevels (fun _ _ (x y : Int) => (x + y, 0#5)) (u.vl.log2 + 2) 1 ((s.leaves u a).map (·.map (elemInt u.et)))

theorem scanElem_int (s : State) (u : UnitOp) (a : VReg) {e : Nat} (he : e < u.vl) :
    ((scanElem (s.intLevels u a).1 (fun x y => (x + y, 0#5)) e).1).getD 0 = s.prefixSum u a e := by
  have hlevels : LevelsOf (indexNode (fun _ _ (x y : Int) => (x + y, 0#5)) (fun e => (s.rodLeaf u a e).map (elemInt u.et))) 0 u.vl
      (s.intLevels u a) := by
    rw [State.intLevels, leaves_map]
    exact treeLevels_leaves (rodLeaf_map_beyond s u a _) _
  have hscan := absorb_scanElem (op := (· + · : Int → Int → Int)) (φ := id) (fun _ _ _ _ => rfl) hlevels he
    (c := fun x y => (x + y, 0#5)) (fun _ _ => rfl) 0
  have hleaves := foldLeaves_rodLeaf s u a (· + · : Int → Int → Int) (elemInt u.et) (n := e + 1) he 0
  have hmap : foldLeaves (· + · : Int → Int → Int) id (fun e => (s.rodLeaf u a e).map (elemInt u.et)) 0 (e + 1) 0 =
      foldLeaves (· + ·) (elemInt u.et) (s.rodLeaf u a) 0 (e + 1) 0 := by
    simp only [foldLeaves, Option.map_map, Function.id_comp]
  rw [State.prefixSum, actives_filter_le s u he, ← hleaves, ← hmap, ← hscan]
  generalize (scanElem (s.intLevels u a).1 (fun x y => (x + y, 0#5)) e).1 = v
  cases v with
  | none => rfl
  | some v => exact (zero_add v).symm

theorem scan_int {s : State} {u : UnitOp} (d a : VReg) (hm : modeEt u.mode ∈ intTypes) : s.scan u d a =
    s.vSetAll d u.sew (fun e => fitInt u.sat u.et (s.prefixSum u a e)) (actives s u) := by
  have hint : u.et.isInt = true := (isInt_iff _).mpr hm
  have hlen : (s.leaves u a).length = u.vl := by rw [State.leaves, List.length_map, List.length_range]
  simp only [State.scan, hint, if_true, hlen, readInt_eq_elemInt, reduceInt_eq_fitInt]
  exact vSetAll_congr s d u.sew (fun e he => congrArg (fitInt u.sat u.et) (scanElem_int s u a (mem_actives.mp he).1))

theorem intScan_completes {s : State} {u : UnitOp} {rest : List UnitOp} {d a : VReg} (hs : LanesWf s) (hu : UnitReady u rest s)
    (hvl : u.vl ≤ vlmaxFor s (modeEt u.mode).sew) (hm : modeEt u.mode ∈ intTypes) (hi : u.instr = .vscan d a) :
    Completes .rodTreeComplete s (fun t => Shuffled u rest d (fun e => s.active u.mode e = true)
      (fun e => fitInt u.sat u.et (s.prefixSum u a e)) s t ∧ t.hart = s.hart) := by
  refine shuffle_completes hs hu hvl (by rw [hi]; rfl) (fun _ => mem_actives) ?_
  simp only [State.rodEffect, UnitOp.running_instr, hi]
  exact congrArg (State.dropUnit · u.running) (scan_int (s := s.counted u) (u := u.running) d a hm)

/-! ### vscan of floats (06:R130, R136). -/

/-- VLMAX of any type is below 2^20. -/
theorem vlmaxFor_sew_lt (s : State) (t : ElemType) : vlmaxFor s t.sew < 2 ^ 20 := by
  refine (vlmaxFor_sew_le s t).trans_lt ?_
  have := s.hart.lanesW.isLt
  rw [vlmaxFor, if_neg (by decide)]
  omega

/-- The float tree of a scan, the value of an element with the flags of its fold, and the flags of the whole scan. -/
def State.floatLevels (s : State) (u : UnitOp) (a : VReg) (f : Fmt) : List (List (Option Nat)) × Flags :=
  treeLevels (fun j i => addRounded f u.rnd (j * 2 ^ 20 + i)) (u.vl.log2 + 2) 1 (s.leaves u a)
def State.scanValue (s : State) (u : UnitOp) (a : VReg) (f : Fmt) (e : Nat) : Option Nat × Flags :=
  scanFold (addRounded f u.rnd) (s.rodLeaf u a) e
def State.scanFlags (s : State) (u : UnitOp) (a : VReg) (f : Fmt) : Flags :=
  (actives s u).foldl (fun n e => n ||| (s.scanValue u a f e).2)
    (treeNode (addRounded f u.rnd) (s.rodLeaf u a) (treeDepth u.vl) 0).2

section
variable {s : State} {u : UnitOp} {a : VReg} {f : Fmt}

theorem floatLevels_flags : (s.floatLevels u a f).2 = (treeNode (addRounded f u.rnd) (s.rodLeaf u a) (treeDepth u.vl) 0).2 := by
  rw [State.floatLevels, leaves_eq, treeLevels_flags (fun e he => rodLeaf_beyond s u a he), treeNode_eq_indexNode]

theorem scanElem_float (hvl : u.vl < 2 ^ 20) {e : Nat} (he : e < u.vl) :
    scanElem (s.floatLevels u a f).1 (addRounded f u.rnd (2 ^ 25 + e)) e = s.scanValue u a f e := by
  rw [State.floatLevels, leaves_eq, scanElem_eq (treeLevels_leaves (fun e he => rodLeaf_beyond s u a he) _) he, State.scanValue,
    scanFold_eq _ _ (by omega)]

theorem scan_float (d : VReg) (hf : u.et.fmt = some f) (hint : u.et.isInt = false) (hvl : u.vl < 2 ^ 20) : s.scan u d a =
    (s.vSetAll d u.sew (fun e => (s.scanValue u a f e).1.getD 0) (actives s u)).orVfsr (s.scanFlags u a f) := by
  have hlen : (s.leaves u a).length = u.vl := by rw [State.leaves, List.length_map, List.length_range]
  have hfold : (actives s u).foldl (fun (acc : State × Flags) e =>
      let v := scanElem (s.floatLevels u a f).1 (addRounded f u.rnd (2 ^ 25 + e)) e
      (acc.1.vSet d u.sew e (v.1.getD 0), acc.2 ||| v.2)) (s, (s.floatLevels u a f).2) = _ :=
    (List.foldl_ext _ _ _ (fun _ e he => by rw [scanElem_float hvl (mem_actives.mp he).1])).trans
      (foldl_pair (fun t e => t.vSet d u.sew e ((s.scanValue u a f e).1.getD 0)) (fun n e => n ||| (s.scanValue u a f e).2) _ _ _)
  simp only [State.scan, hint, Bool.false_eq_true, if_false, hlen, hf, Option.getD_some, addIn_eq_addRounded]
  rw [State.scanFlags, ← floatLevels_flags]
  exact congrArg (fun r => State.orVfsr r.1 r.2) hfold

end

theorem floatScan_completes {s : State} {u : UnitOp} {rest : List UnitOp} {d a : VReg} {f : Fmt} (hs : LanesWf s)
    (hu : UnitReady u rest s) (hvl : u.vl ≤ vlmaxFor s u.sew) (hf : u.et.fmt = some f) (hint : u.et.isInt = false)
    (hi : u.instr = .vscan d a) : Completes .rodTreeComplete s (fun t =>
      Wrote rest d u.sew (fun e => (s.scanValue u a f e).1.getD 0) (actives s u) s t ∧
      t.hart = { s.hart with vfsr := s.hart.vfsr ||| s.scanFlags u a f }) := by
  have hrod : isRodTree u.instr = true := by rw [hi]; rfl
  set v := fun e => (s.scanValue u a f e).1.getD 0
  have hscan : (s.counted u).scan u.running d a =
      ((s.counted u).vSetAll d u.sew v (actives s u)).orVfsr (s.scanFlags u a f) :=
    scan_float (s := s.counted u) (u := u.running) d hf hint (hvl.trans_lt (vlmaxFor_sew_lt s u.et))
  have heff : (s.counted u).rodEffect u.running = ((s.counted u).scan u.running d a).dropUnit u.running := by
    simp only [State.rodEffect, UnitOp.running_instr, hi]
  rw [hscan, dropUnit_head (t := State.orVfsr _ _) (vSetAll_units (s := s) hu.head d _ _ _)
    (not_isFrame_of_isRodTree hrod)] at heff
  have hrows := rowsOnly_vSetAll (s.counted u) d u.sew v (actives s u)
  generalize hq : (s.counted u).vSetAll d u.sew v (actives s u) = q at heff hrows
  have hwrote : Wrote rest d u.sew v (actives s u) s
      ((q.orVfsr (s.scanFlags u a f)).mapCore (fun c => { c with units := rest })) :=
    wrote_of_vSetAll (u := u) hs (sew_cases u.et) (fun e he => (mem_actives.mp he).1.trans_le hvl) (by rw [hq]; rfl)
      (congrArg Hart.spot hrows.hart :) hrows.pkg
  refine ⟨_, exec_of_rodEffect hu hrod heff hwrote.core, hwrote, ?_⟩
  rw [State.mapCore_hart, State.orVfsr, State.mapHart_hart, hrows.hart]
  rfl

/-! ### vredosum (06:R137). -/

/-- The operation at the head goes on as v. -/
theorem setUnit_head {t : State} {u v : UnitOp} {rest : List UnitOp} (hunits : t.core.units = u :: rest)
    (hframe : isFrame v.instr = isFrame u.instr) : t.setUnit v = t.mapCore (fun c => { c with units := v :: rest }) := by
  simp only [State.setUnit, State.mapCore, hunits, mapFirst, hframe, if_true, Option.toList, List.singleton_append]

theorem exec_orderedSum {s : State} {u : UnitOp} {rest units : List UnitOp} {a : VReg} {g : GReg} (hu : UnitReady u rest s)
    (hi : u.instr = .vredosum g a) {t : State} (ht : (s.counted u).osumStep u.running g a = t) (hcore : OnlyVrows units s t) :
    exec .rodTreeComplete s = .next t := by
  refine exec_of_rodEffect hu (by rw [hi]; rfl) ?_ hcore
  simp only [State.rodEffect, UnitOp.running_instr, hi]
  exact ht

/-- One more element, or an inactive one passed over. -/
theorem orderedSum_adds {s : State} {u : UnitOp} {rest : List UnitOp} {a : VReg} {g : GReg} {sum : Nat} {fl : Flags}
    (hu : UnitReady u rest s) (hi : u.instr = .vredosum g a) (hadd : s.osumAdd u a (s.osumStart u) = (sum, fl))
    (hlt : u.vstart < u.vl) : Completes .rodTreeComplete s (fun t =>
      t.hart = { s.hart with rds := BitVec.ofNat 64 sum, vfsr := s.hart.vfsr ||| fl } ∧
      t.core = { s.core with
        units := { u with started := true, vstart := u.vstart + 1 } :: rest, arrayCount := t.core.arrayCount } ∧
      t.pkg = s.pkg) := by
  have hadd' : (s.counted u).osumAdd u.running a ((s.counted u).osumStart u.running) = (sum, fl) := hadd
  have hstep : (s.counted u).osumStep u.running g a =
      (((s.counted u).orVfsr fl).mapHart (fun h => { h with rds := BitVec.ofNat 64 sum })).mapCore
        (fun c => { c with units := u.movedTo (u.vstart + 1) :: rest }) := by
    have hnot : ¬u.running.vl ≤ u.running.vstart := Nat.not_le.mpr hlt
    simp only [State.osumStep, hadd', if_neg hnot]
    exact setUnit_head (u := u) (v := u.movedTo (u.vstart + 1)) hu.head rfl
  exact ⟨_, exec_orderedSum (units := u.movedTo (u.vstart + 1) :: rest) hu hi hstep rfl, rfl, rfl, rfl⟩

/-- With no element left, the result. -/
theorem orderedSum_ends {s : State} {u : UnitOp} {rest : List UnitOp} {a : VReg} {g : GReg} (hu : UnitReady u rest s)
    (hi : u.instr = .vredosum g a) (hend : u.vl ≤ u.vstart) : Completes .rodTreeComplete s (fun t =>
      RegsAfter g (BitVec.ofNat 64 (s.osumStart u)) s t ∧ t.hart = { s.hart with g := t.hart.g } ∧
      t.core = { s.core with units := rest, arrayCount := t.core.arrayCount } ∧ t.pkg = s.pkg) := by
  have heff : (s.counted u).rodEffect u.running =
      ((s.counted u).orVfsr 0#5).unitResult u.running g (BitVec.ofNat 64 (s.osumStart u)) := by
    rw [orVfsr_zero]
    simp only [State.rodEffect, UnitOp.running_instr, hi, State.osumStep]
    exact if_pos hend
  obtain ⟨t, ht, hdone⟩ := unitResult_completes hu (by rw [hi]; rfl) heff
  refine ⟨t, ht, hdone.regs, ?_, hdone.core, hdone.pkg⟩
  rw [hdone.hart, BitVec.or_zero]

/-- The running sum before the next element, read in w bits. -/
def State.runningSum (s : State) (u : UnitOp) (w : Nat) : Nat := (if u.vstart = 0 then uv u.gb else uv s.hart.rds) % 2 ^ w

theorem osumStart_int {s : State} {u : UnitOp} (h : u.et.isInt = true) : s.osumStart u = s.runningSum u 64 := by
  rw [State.osumStart, State.runningSum, if_pos h]
  split_ifs
  · exact (Nat.mod_eq_of_lt u.gb.isLt).symm
  · exact (Nat.mod_eq_of_lt s.hart.rds.isLt).symm

theorem osumStart_float {s : State} {u : UnitOp} {w : Nat} (h : u.et.isInt = false) (hw : (sumFmt u.et).width = w) :
    s.osumStart u = s.runningSum u w := by
  rw [State.osumStart, State.runningSum, ← hw, h, if_neg Bool.false_ne_true]
  rfl

section
variable {s : State} {u : UnitOp} (a : VReg) (acc : Nat)

theorem osumAdd_inactive (h : ¬s.active u.mode u.vstart = true) : s.osumAdd u a acc = (acc, 0#5) := by
  rw [State.osumAdd, State.leaf, if_neg h]

theorem osumAdd_int (h : s.active u.mode u.vstart = true) (hm : u.et.isInt = true) : s.osumAdd u a acc =
    (reduceInt (asInt u.et.signed 64 acc + asInt u.et.signed u.sew (s.vGet a u.sew u.vstart)) 64 u.et.signed u.sat, 0#5) := by
  rw [State.osumAdd, State.leaf, if_pos h]
  dsimp only
  rw [if_pos hm, readInt_eq_asInt _ (by decide), readInt_eq_asInt (w := u.sew) _ (sew_pos u.et)]

theorem osumAdd_float (h : s.active u.mode u.vstart = true) (hm : u.et.isInt = false) : s.osumAdd u a acc =
    let r := addRounded (sumFmt u.et) u.rnd u.vstart acc (widen u.et (s.vGet a u.sew u.vstart))
    (r.1, r.2 ||| widenFlags u.et (s.vGet a u.sew u.vstart)) := by
  rw [State.osumAdd, State.leaf, if_pos h]
  dsimp only
  rw [hm, if_neg Bool.false_ne_true]
  rfl

end

end Sys2Proof.Machine

namespace Sys2Proof
open Machine Claims

theorem integerReductionResults : IntegerReductionResults := by
  intro d a g u rest s hs hu hvl m w xb x acts sum fit init gives word
  refine ⟨fun hm => ⟨?_, ?_, ?_, ?_⟩, ?_, ?_, ?_⟩
  · refine treeReduction_completes hu rfl (fun hi => ?_)
    rw [reduction_intSum hm hi, reduceInt_eq]
  · exact treeReduction_completes hu rfl (fun hi =>
      (reduction_min hi).trans (minMaxResult_int a hm (elemInt_pickMin u.et)))
  · exact treeReduction_completes hu rfl (fun hi =>
      (reduction_max hi).trans (minMaxResult_int a hm (elemInt_pickMax u.et)))
  · intro hi
    obtain ⟨t, ht, hshuffled, hhart⟩ := intScan_completes hs hu hvl hm hi
    exact ⟨t, ht, hhart, hshuffled⟩
  · exact treeReduction_completes hu rfl (fun hi => reduction_bits (op := (· &&& ·)) (by simp only [State.reduction, hi]; rfl))
  · exact treeReduction_completes hu rfl (fun hi => reduction_bits (op := (· ||| ·)) (by simp only [State.reduction, hi]; rfl))
  · exact treeReduction_completes hu rfl (fun hi => reduction_bits (op := (· ^^^ ·)) (by simp only [State.reduction, hi]; rfl))

theorem floatScansFoldTheIndexTree : FloatScansFoldTheIndexTree := by
  intro d a f u rest s hs hu hvl hf hm hi w leaf v nodes
  have hint : u.et.isInt = false := (by decide : ∀ t ∈ floatsAll, t.isInt = false) _ hm
  obtain ⟨t, ht, hwrote, hhart⟩ := floatScan_completes hs hu hvl hf hint hi
  rw [State.scanFlags, foldl_or_start] at hhart
  exact ⟨t, ht, fun e he hact => hwrote.written e (mem_actives.mpr ⟨he, hact⟩),
    fun e he hnot => hwrote.kept e he (mt mem_actives.mp hnot), hwrote.others, hhart, hwrote.core, hwrote.pkg⟩

theorem orderedSumAddsInOrder : OrderedSumAddsInOrder := by
  intro a g f u rest s hu hi m b acc act wide adds ends
  have hadds {start sum : Nat} {fl : Flags} (hstart : s.osumStart u = start) (h : s.osumAdd u a start = (sum, fl)) : adds sum fl :=
    orderedSum_adds hu hi (hstart ▸ h)
  have hends {w : Nat} (hstart : s.osumStart u = acc w) : ends w := by
    intro hend
    rw [← hstart]
    exact orderedSum_ends hu hi hend
  have hint (hm : m ∈ intTypes) : u.et.isInt = true := (isInt_iff _).mpr hm
  have hstartInt (hm : m ∈ intTypes) : s.osumStart u = acc 64 := osumStart_int (hint hm)
  have hstartHalf (hm : m = .bf16 ∨ m = .fp16) : s.osumStart u = acc 32 := by
    obtain ⟨hfloat, hwidth⟩ := half_width hm
    exact osumStart_float hfloat hwidth
  have hstartOwn (hm : m = .fp32 ∨ m = .fp64) : s.osumStart u = acc m.sew := by
    obtain ⟨hfloat, hwidth⟩ := own_width hm
    exact osumStart_float hfloat hwidth
  refine ⟨?_, ?_, fun hm hf => ⟨fun hact => ?_, fun hact => ?_⟩, fun hm hact => ?_, fun hm hact => ?_, fun hm hf hact => ?_,
    fun hm hf hact => ?_⟩
  · rintro (hm | hm)
    · exact hends (hstartInt hm)
    · exact hends ((hstartOwn (.inr hm)).trans (by rw [hm]; rfl))
  · rintro (hm | hm)
    · exact hends ((hstartOwn (.inl hm)).trans (by rw [hm]; rfl))
    · exact hends (hstartHalf hm)
  · exact hadds (hstartHalf hm) (osumAdd_inactive a _ hact)
  · obtain ⟨hfloat, -⟩ := half_width (t := u.et) hm
    obtain ⟨hsum, hwiden, hflags⟩ := widen_half (t := u.et) hf hm
    refine hadds (hstartHalf hm) ?_
    rw [osumAdd_float a _ hact hfloat, hsum, hwiden, hflags]
    rfl
  · exact hadds (hstartInt hm) (osumAdd_inactive a _ hact)
  · refine hadds (hstartInt hm) ?_
    rw [osumAdd_int a _ hact (hint hm), reduceInt_eq]
    rfl
  · exact hadds (hstartOwn hm) (osumAdd_inactive a _ hact)
  · obtain ⟨hfloat, -⟩ := own_width (t := u.et) hm
    obtain ⟨hsum, hwiden, hflags⟩ := widen_own (t := u.et) hf hm
    refine hadds (hstartOwn hm) ?_
    rw [osumAdd_float a _ hact hfloat, hsum, hwiden, hflags]
    exact Prod.ext rfl BitVec.or_zero

/-- Settles O26: an associative combination over the index tree is the combination of the active elements in order, float trees keep
their nodes, and vredosum takes one element an event. -/
theorem reductions : Obligations.Reductions := by
  unfold Obligations.Reductions
  exact ⟨integerReductionResults, floatReductionsUseTheIndexTree, floatScansFoldTheIndexTree, orderedSumAddsInOrder⟩

end Sys2Proof
end

/-! Issue of the frame instructions (07:R145, R152, R157, R160 to R163): the checks of a matrix instruction as the statement words
them, and issue that leaves VSTART armed; then the statement O21. -/

section
namespace Sys2Proof.Machine
open Claims

/-! ### Issue that leaves VSTART alone (07:R155). -/

theorem State.issueKeep_issued {s : State} {i : Instr} {n : Nat} {gd gd1 ga gb : Word} {rounds : Bool} {vd : BitVec 16}
    {pd : BitVec 32} (hfree : s.issueHeld i vd = false) : ∃ t, s.issueKeep i n gd gd1 ga gb rounds vd pd = .next t ∧
      Issued (s.sample i n gd gd1 ga gb) false vd pd rounds s t := by
  have hcore := s.joinQueue_core (s.sample i n gd gd1 ga gb)
  refine ⟨_, State.issueKeep_free s i n gd gd1 ga gb rounds vd pd hfree, ?_⟩
  rw [State.countRounding_eq, State.markDirty_eq]
  exact
    { core := hcore
      hart := by
        simp only [State.joinQueue, State.retire_hart, State.mapHart_hart, State.mapCore_hart, Bool.false_eq_true, if_false]
        rfl
      pkg := rfl
      bytes := sameBytes_of_eq (hcore ▸ rfl) (hcore ▸ rfl) rfl }

theorem issuesInto_of_issueKeep {ok : Prop} {i : Instr} {n : Nat} {gd gd1 ga gb : Word} {rounds : Bool} {vd : BitVec 16}
    {pd : BitVec 32} {s : State} (h : ok → exec i s = s.issueKeep i n gd gd1 ga gb rounds vd pd) :
    IssuesInto ok i (s.sample i n gd gd1 ga gb) false vd pd rounds s := by
  constructor
  · intro hok hroom hfill hpeel
    rw [Completes, h hok]
    exact State.issueKeep_issued (State.issueHeld_of_room hroom hfill hpeel)
  · intro hok hheld
    rw [h hok]
    exact State.issueKeep_held _ _ _ _ _ _ _ _ _ _ ((s.issueHeld_iff i vd).mpr hheld)

/-! ### Shapes, types and scales (07:R140, R145, R152). -/

theorem shapeP_eq (sh : BitVec 2) : shapeP sh = if sh = 0#2 then 64 else 128 := by
  revert sh
  decide

theorem matrixTypes_isSome_iff (t : ElemType) (xb : Bool) : (matrixTypes t xb).isSome = true ↔
    t ∈ [ElemType.i8, .u8, .e4m3, .e5m2] ∨ (t ∈ [ElemType.e2m1, .bf16, .fp16, .fp32] ∧ xb = false) := by
  cases t <;> cases xb <;> decide

theorem etDrain_iff (t : ElemType) :
    etDrain t = true ↔ t ∈ [ElemType.i8, .u8, .i16, .i32, .e4m3, .e5m2, .bf16, .fp16, .fp32] := by
  cases t <;> decide

theorem etRowAdd_iff (t : ElemType) : etRowAdd t = true ↔ t ∈ narrowInts ++ [ElemType.e4m3, .e5m2, .bf16, .fp16, .fp32] := by
  cases t <;> decide

theorem blockLen_of_none {mode : BitVec 21} (h : modeSb mode = 0#2) : blockLen mode = 0 := if_pos h
theorem blockLen_of_some {mode : BitVec 21} (h : modeSb mode ≠ 0#2) : blockLen mode = 8 * 2 ^ (modeSb mode).toNat := if_neg h

theorem blockLen_eq_zero_iff (mode : BitVec 21) : blockLen mode = 0 ↔ modeSb mode = 0#2 := by
  constructor
  · intro h
    by_contra hne
    rw [blockLen_of_some hne] at h
    have := Nat.two_pow_pos (modeSb mode).toNat
    omega
  · exact blockLen_of_none

/-- P, K, and the depth values that the scales of a matrix instruction must cover (07:R144, R152). -/
def State.stepSize (s : State) : Nat := if s.hart.fcrShape = 0#2 then 64 else 128
def State.stepCount (s : State) : Nat := (s.hart.vl.toNat + s.stepSize - 1) / s.stepSize
def State.scaledDepth (s : State) (sparse : Bool) : Nat :=
  let deep := if et s = .e2m1 then 2 * s.stepCount else s.stepCount
  if sparse = true then (deep + 3) / 4 * 4 else deep

/-- The checks of a matrix instruction in the words of 07:R145 and R152. -/
def MatrixAccepted (xb sparse : Bool) (s : State) : Prop :=
  s.arrayReady = true ∧
  (et s ∈ [ElemType.i8, .u8, .e4m3, .e5m2] ∨ (et s ∈ [ElemType.e2m1, .bf16, .fp16, .fp32] ∧ xb = false)) ∧
  (modeSb s.hart.mode ≠ 0#2 → et s ∈ [ElemType.e4m3, .e5m2, .e2m1] ∧
    (0 < s.stepCount → ((s.scaledDepth sparse - 1) / (8 * 2 ^ (modeSb s.hart.mode).toNat) + 1) * s.stepSize ≤ vlmaxFor s 8)) ∧
  startIndex s % s.stepSize = 0

theorem matrixOk_iff (s : State) (xb sparse : Bool) : s.matrixOk xb sparse = true ↔ MatrixAccepted xb sparse s := by
  have hdef : s.matrixOk xb sparse = true ↔ (((s.arrayReady = true ∧ (matrixTypes (et s) xb).isSome = true) ∧
      (blockLen s.hart.mode = 0 ∨ et s ∈ [ElemType.e4m3, .e5m2, .e2m1])) ∧ startIndex s % s.stepSize = 0) ∧
      (blockLen s.hart.mode = 0 ∨ s.stepCount = 0 ∨
        ((s.scaledDepth sparse - 1) / blockLen s.hart.mode + 1) * s.stepSize ≤ vlmaxFor s 8) := by
    simp only [State.matrixOk, shapeP_eq, depthOf, ite_mul, one_mul, Bool.and_eq_true, Bool.or_eq_true, decide_eq_true_eq,
      List.mem_cons, List.not_mem_nil, or_false, or_assoc]
    rfl
  rw [hdef, matrixTypes_isSome_iff, blockLen_eq_zero_iff]
  constructor
  · rintro ⟨⟨⟨⟨harray, htypes⟩, hfloat⟩, hstart⟩, hfit⟩
    refine ⟨harray, htypes, fun hsb => ⟨hfloat.resolve_left hsb, fun hk => ?_⟩, hstart⟩
    rw [← blockLen_of_some hsb]
    exact (hfit.resolve_left hsb).resolve_left hk.ne'
  · rintro ⟨harray, htypes, hscales, hstart⟩
    refine ⟨⟨⟨⟨harray, htypes⟩, ?_⟩, hstart⟩, ?_⟩
    · exact or_iff_not_imp_left.mpr (fun hsb => (hscales hsb).1)
    · refine or_iff_not_imp_left.mpr (fun hsb => (Nat.eq_zero_or_pos s.stepCount).imp_right (fun hk => ?_))
      rw [blockLen_of_some hsb]
      exact (hscales hsb).2 hk

/-! ### Traps of unaligned addresses (07:R157, R163). -/

theorem cause_misaligned : (0x02#8 : BitVec 8) ≠ 0x0A#8 ∧ (0x02#8 : BitVec 8) ≠ 0x0B#8 := by decide

theorem misaligned_iff (base : Word) (n : Nat) : (base.toNat % n != 0) = true ↔ uv base % n ≠ 0 := bne_iff_ne

/-- mmo.st: its checks, then the alignment of base and stride. -/
theorem mmoSt_issues {d : VReg} {a b : GReg} {v : VReg} {s24 xb : Bool} {s : State} {ok : Prop}
    (hok : s.matrixOk xb s24 = true ↔ ok) :
    let i : Instr := .mmoSt d a b v s24 xb
    let n := (et s).sew / 8
    IllegalUnless ok i s ∧
    (ok → uv (s.g a) % n ≠ 0 → Traps i 0x02#8 (s.g a) s) ∧
    (ok → uv (s.g a) % n = 0 → uv (s.g b) % n ≠ 0 → Traps i 0x02#8 (s.g b) s) ∧
    IssuesInto (ok ∧ uv (s.g a) % n = 0 ∧ uv (s.g b) % n = 0) i (s.sample i (startIndex s) 0 0 (s.g a) (s.g b)) true 0 0
      (!(et s).isInt) s := by
  intro i n
  have hbase := misaligned_iff (s.g a) n
  have hstride := misaligned_iff (s.g b) n
  have hcheck : (!s.matrixOk xb s24) = true ↔ ¬ok := by rw [Bool.not_eq_true', ← Bool.not_eq_true, hok]
  have hexec : exec i s = if !s.matrixOk xb s24 then .next (s.illegalInstr i)
      else if (s.g a).toNat % n != 0 then .next (s.trap 0x02#8 (s.g a))
      else if (s.g b).toNat % n != 0 then .next (s.trap 0x02#8 (s.g b))
      else s.issue i (startIndex s) 0 0 (s.g a) (s.g b) (!(et s).isInt) 0 0 := rfl
  refine ⟨?_, ?_, ?_, ?_⟩
  · exact illegalUnless_of_illegalInstr (fun hnot => by rw [hexec, if_pos (hcheck.mpr hnot)])
  · intro hgood hb
    exact traps_of_trap cause_misaligned (by rw [hexec, if_neg (fun hn => hcheck.mp hn hgood), if_pos (hbase.mpr hb)])
  · intro hgood hb hst
    exact traps_of_trap cause_misaligned (by
      rw [hexec, if_neg (fun hn => hcheck.mp hn hgood), if_neg (fun hn => hbase.mp hn hb), if_pos (hstride.mpr hst)])
  · refine issuesInto_of_issue (fun hall => ?_)
    obtain ⟨hgood, hb, hst⟩ := hall
    rw [hexec, if_neg (fun hn => hcheck.mp hn hgood), if_neg (fun hn => hbase.mp hn hb), if_neg (fun hn => hstride.mp hn hst)]

/-- frowadd and frowadd.c: a listed type, and no other check. -/
theorem rowAdd_issues {i : Instr} {s : State} (h : exec i s = s.issueRowAdd i) :
    Issues (s.arrayReady = true ∧ et s ∈ narrowInts ++ [ElemType.e4m3, .e5m2, .bf16, .fp16, .fp32]) i
      (s.sample i 0 0 0 0 0) false 0 0 (!(et s).isInt) s := by
  have hguard : (s.arrayReady && etRowAdd (modeEt s.hart.mode)) = true ↔
      s.arrayReady = true ∧ et s ∈ narrowInts ++ [ElemType.e4m3, .e5m2, .bf16, .fp16, .fp32] := by
    rw [Bool.and_eq_true, etRowAdd_iff]
    rfl
  unfold State.issueRowAdd at h
  constructor
  · refine issuesInto_of_issueKeep (fun hok => ?_)
    rw [h, if_pos (hguard.mpr hok)]
    rfl
  · refine illegalUnless_of_illegalInstr (fun hnot => ?_)
    rw [h, if_neg (mt hguard.mp hnot)]

/-- fsave and fload: a misaligned base traps, an aligned one issues. -/
theorem frameMem_issues {i : Instr} {base : Word} {s : State} (h : exec i s = s.issueFrameMem i base) :
    (uv base % 64 ≠ 0 → Traps i 0x02#8 base s) ∧
      IssuesInto (uv base % 64 = 0) i (s.sample i (startIndex s) 0 0 base 0) true 0 0 false s := by
  have hguard := misaligned_iff base 64
  unfold State.issueFrameMem at h
  constructor
  · intro hbad
    exact traps_of_trap cause_misaligned (by rw [h, if_pos (hguard.mpr hbad)])
  · refine issuesInto_of_issue (fun hok => ?_)
    rw [h, if_neg (fun hn => hguard.mp hn hok)]
    rfl

end Sys2Proof.Machine

namespace Sys2Proof
open Machine Claims

/-- Settles O21: a matrix instruction, a fdrain, a frowadd, a fsave and a fload each issue through one guarded call of their group,
and the guard is the group's checks; fzero, fzero.c and frc have none. -/
theorem frameIssue : Obligations.FrameIssue := by
  unfold Obligations.FrameIssue
  intro d a b v g h xb s24 s e rounds p k deep block matrix issue
  have hmatrix (sparse : Bool) : s.matrixOk xb sparse = true ↔ matrix sparse := matrixOk_iff s xb sparse
  have hrounds : rounds = !(et s).isInt := (not_isInt_eq_decide _).symm
  have hissues {i : Instr} (sparse : Bool) (hi : exec i s = s.issueMatrix i xb sparse) :
      issue (matrix sparse) i 0 0 rounds ∧ IllegalUnless (matrix sparse) i s := by
    rw [hrounds]
    exact issues_of_guard hi (hmatrix sparse)
  have hkeep : ∀ i ∈ [Instr.fzero, .fzeroC, .frc], exec i s = s.issueKeep i 0 0 0 0 0 false 0 0 := by
    intro i hi; fin_cases hi <;> rfl
  have hdrain : ∀ i ∈ [Instr.fdrain d a, .fdrainNcs d, .fdrainZ d a, .fdrainZNcs d], exec i s = s.issueDrain i d := by
    intro i hi; fin_cases hi <;> rfl
  have hadd : ∀ i ∈ [Instr.frowadd a, .frowaddC a], exec i s = s.issueRowAdd i := by
    intro i hi; fin_cases hi <;> rfl
  have hmem : ∀ i ∈ [Instr.fsave g, .fload g], exec i s = s.issueFrameMem i (s.g g) := by
    intro i hi; fin_cases hi <;> rfl
  refine ⟨hissues false rfl, hissues true rfl, ?_, ?_, ?_, ?_, fun i hi => frameMem_issues (hmem i hi)⟩
  · have hst := mmoSt_issues (d := d) (a := g) (b := h) (v := v) (hmatrix s24)
    rw [← hrounds] at hst
    exact hst
  · exact fun i hi => issuesInto_of_issueKeep (fun _ => hkeep i hi)
  · intro i hi
    refine issues_of_guard (hdrain i hi) ?_
    rw [Bool.and_eq_true, Bool.and_eq_true, decide_eq_true_eq, etDrain_iff, and_assoc]
    rfl
  · intro i hi
    rw [hrounds]
    exact rowAdd_issues (hadd i hi)

end Sys2Proof
end

/-! The cells and channels of the frame (07:R141, R147, R160, 03:R78, R79): what a change of every cell leaves, the conclusion of a
window, and the step that the operation at the head of the frame's queue takes; then fzero, fzero.c and frc. -/

section
namespace Sys2Proof.Machine
open Claims

/-! ### Maps of the first keys. -/

/-- A list as a map whose keys begin at a. -/
def tabulateFrom {α : Type} [DecidableEq α] (d : α) (a : Nat) (vs : List α) : Sparse α :=
  (vs.mapIdx (fun k v => (a + k, v))).filter (fun e => e.2 ≠ d)

theorem tabulateFrom_cons {α : Type} [DecidableEq α] (d : α) (a : Nat) (v : α) (vs : List α) :
    tabulateFrom d a (v :: vs) = if v = d then tabulateFrom d (a + 1) vs else (a, v) :: tabulateFrom d (a + 1) vs := by
  have hkeys : (fun k (x : α) => (a + (k + 1), x)) = fun k x => (a + 1 + k, x) := by
    funext k x
    rw [Nat.add_assoc, Nat.add_comm 1 k]
  rw [tabulateFrom, List.mapIdx_cons, hkeys, List.filter_cons, Nat.add_zero]
  by_cases hv : v = d
  · rw [if_neg (by simpa using hv), if_pos hv]
    rfl
  · rw [if_pos (by simpa using hv), if_neg hv]
    rfl

theorem sparseGet_tabulateFrom_below {α : Type} [DecidableEq α] (d : α) {a n : Nat} (vs : List α) (h : n < a) :
    sparseGet d (tabulateFrom d a vs) n = d := by
  induction vs generalizing a with
  | nil => rfl
  | cons v vs ih =>
    rw [tabulateFrom_cons]
    split
    · exact ih (by omega)
    · rw [sparseGet, if_neg (by omega), if_neg (by omega)]

theorem sparseGet_tabulateFrom {α : Type} [DecidableEq α] (d : α) (a n : Nat) (vs : List α) :
    sparseGet d (tabulateFrom d a vs) (a + n) = (vs[n]?).getD d := by
  induction vs generalizing a n with
  | nil => rfl
  | cons v vs ih =>
    rw [tabulateFrom_cons]
    cases n with
    | zero =>
      by_cases hv : v = d
      · rw [if_pos hv, sparseGet_tabulateFrom_below d vs (by omega), hv]
        rfl
      · rw [if_neg hv, sparseGet, Nat.add_zero, if_neg (Nat.lt_irrefl a), if_pos rfl]
        rfl
    | succ n =>
      have htail : sparseGet d (tabulateFrom d (a + 1) vs) (a + (n + 1)) = (vs[n]?).getD d := by
        rw [← ih (a + 1) n, Nat.add_assoc, Nat.add_comm 1 n]
      split
      · exact htail
      · rw [sparseGet, if_pos (by omega)]
        exact htail

theorem sparseGet_tabulate {α : Type} [DecidableEq α] (d : α) (n : Nat) (vs : List α) :
    sparseGet d (tabulate d vs) n = (vs[n]?).getD d := by
  have h := sparseGet_tabulateFrom d 0 n vs
  simp only [tabulateFrom, Nat.zero_add] at h
  exact h

/-! ### What the frame leaves (07:R143, R147). -/

/-- The state as it was but for FSR, the cells and the windows. -/
structure FrameOnly (s t : State) : Prop where
  hart : t.hart = { s.hart with fsr := t.hart.fsr }
  pkg : t.pkg = s.pkg
  core : t.core = { s.core with
    cells := t.core.cells, chans := t.core.chans, winCount := t.core.winCount, winPair := t.core.winPair
    badCells := t.core.badCells }

theorem FrameOnly.refl (s : State) : FrameOnly s s := ⟨rfl, rfl, rfl⟩

theorem FrameOnly.trans {s t v : State} (h : FrameOnly s t) (h' : FrameOnly t v) : FrameOnly s v where
  hart := h'.hart.trans (by rw [h.hart])
  pkg := h'.pkg.trans h.pkg
  core := h'.core.trans (by rw [h.core])

theorem FrameOnly.units {s t : State} (h : FrameOnly s t) : t.core.units = s.core.units := by rw [h.core]
theorem FrameOnly.bench {s t : State} (h : FrameOnly s t) : t.core.bench = s.core.bench := by rw [h.core]
theorem FrameOnly.lines {s t : State} (h : FrameOnly s t) : t.core.lines = s.core.lines := by rw [h.core]
theorem FrameOnly.vrows {s t : State} (h : FrameOnly s t) : t.core.vrows = s.core.vrows := by rw [h.core]

/-- The windows of the frame, changed alone. -/
theorem frameOnly_windows (s : State) (chans : Sparse Chan) (count : Nat) (pair : WinPair) :
    FrameOnly s (s.mapCore (fun c => { c with chans := chans, winCount := count, winPair := pair })) := ⟨rfl, rfl, rfl⟩

/-- The operation at the head leaves its queue. -/
theorem dropUnit_units {t : State} {u v : UnitOp} {rest : List UnitOp} (hunits : t.core.units = u :: rest)
    (hframe : isFrame v.instr = isFrame u.instr) : t.dropUnit v = t.mapCore (fun c => { c with units := rest }) := by
  simp only [State.dropUnit, State.mapCore, hunits, mapFirst, hframe, if_true, Option.toList, List.nil_append]

theorem frameDone_of_units {s t : State} (h : FrameOnly s t) (queue : List UnitOp) :
    FrameDone queue s (t.mapCore (fun c => { c with units := queue })) where
  queue := rfl
  hart := h.hart
  rows := h.vrows
  pkg := h.pkg
  bytes := sameBytes_of_eq h.lines h.bench (congrArg Pkg.mem h.pkg)

/-! ### Changes of every cell (07:R141). -/

/-- The state with other cells and flags ORed into FSR. -/
def State.withCells (s : State) (cells : Sparse (BitVec 64)) (fl : Flags) : State :=
  (s.mapCore (fun c => { c with cells := cells })).orFsr fl

section
variable (s : State) (cells : Sparse (BitVec 64)) (fl : Flags)

theorem withCells_frameOnly : FrameOnly s (s.withCells cells fl) := ⟨rfl, rfl, rfl⟩
theorem withCells_cell (n : Nat) : cellOf (s.withCells cells fl) n = sparseGet 0#64 cells n := rfl
theorem withCells_fsr : (s.withCells cells fl).hart.fsr = s.hart.fsr ||| fl := rfl
theorem withCells_chans : (s.withCells cells fl).core.chans = s.core.chans := rfl
theorem withCells_winCount : (s.withCells cells fl).core.winCount = s.core.winCount := rfl
theorem withCells_winPair : (s.withCells cells fl).core.winPair = s.core.winPair := rfl

end

/-- The cells and the flags that a change of every cell gives. -/
def State.newCells (s : State) (f : Nat → BitVec 64 → BitVec 64 × Flags) : Sparse (BitVec 64) :=
  tabulate 0#64 ((s.core.cellList.mapIdx f).map (fun x : BitVec 64 × Flags => x.1))
def State.newFlags (s : State) (f : Nat → BitVec 64 → BitVec 64 × Flags) : Flags :=
  orFlags ((s.core.cellList.mapIdx f).map (fun x : BitVec 64 × Flags => x.2))

theorem mapCells_eq (s : State) (f : Nat → BitVec 64 → BitVec 64 × Flags) :
    s.mapCells f = s.withCells (s.newCells f) (s.newFlags f) := by
  unfold State.mapCells State.newCells State.newFlags
  generalize s.core.cellList.mapIdx f = r
  rfl

theorem mapCells_frameOnly (s : State) (f : Nat → BitVec 64 → BitVec 64 × Flags) : FrameOnly s (s.mapCells f) := by
  rw [mapCells_eq]
  exact withCells_frameOnly s _ _

theorem cellList_getElem? (s : State) {n : Nat} (hn : n < 4096) : s.core.cellList[n]? = some (cellOf s n) := by
  rw [Core.cellList, List.getElem?_map, List.getElem?_range (show n < cellCount from hn)]
  rfl

theorem newCells_get (s : State) (f : Nat → BitVec 64 → BitVec 64 × Flags) {n : Nat} (hn : n < 4096) :
    sparseGet 0#64 (s.newCells f) n = (f n (cellOf s n)).1 := by
  rw [State.newCells, sparseGet_tabulate, List.getElem?_map, List.getElem?_mapIdx, cellList_getElem? s hn]
  rfl

theorem mapCells_cell (s : State) (f : Nat → BitVec 64 → BitVec 64 × Flags) {n : Nat} (hn : n < 4096) :
    cellOf (s.mapCells f) n = (f n (cellOf s n)).1 := by
  rw [mapCells_eq, withCells_cell, newCells_get s f hn]

/-- The windows stand. -/
theorem mapCells_windows (s : State) (f : Nat → BitVec 64 → BitVec 64 × Flags) : (s.mapCells f).core.chans = s.core.chans ∧
    (s.mapCells f).core.winCount = s.core.winCount ∧ (s.mapCells f).core.winPair = s.core.winPair := by
  rw [mapCells_eq, withCells_chans, withCells_winCount, withCells_winPair]
  exact ⟨rfl, rfl, rfl⟩

/-- When a change raises one flag at most, that flag alone may join FSR. -/
theorem orFlags_of_forall {fl : Flags} {fs : List Flags} (h : ∀ x ∈ fs, x = 0#5 ∨ x = fl) : orFlags fs = 0#5 ∨ orFlags fs = fl := by
  have hfold : ∀ (fs : List Flags) (a : Flags), (a = 0#5 ∨ a = fl) → (∀ x ∈ fs, x = 0#5 ∨ x = fl) →
      (fs.foldl (fun a b => a ||| b) a = 0#5 ∨ fs.foldl (fun a b => a ||| b) a = fl) := by
    intro fs
    induction fs with
    | nil => exact fun a ha _ => ha
    | cons x fs ih =>
      intro a ha hfs
      obtain ⟨hx, hfs⟩ := List.forall_mem_cons.mp hfs
      refine ih (a ||| x) ?_ hfs
      rcases ha with rfl | rfl <;> rcases hx with rfl | rfl <;> simp
  exact hfold fs 0#5 (.inl rfl) h

theorem mapCells_fsr {s : State} {f : Nat → BitVec 64 → BitVec 64 × Flags} {fl : Flags}
    (h : ∀ n c, (f n c).2 = 0#5 ∨ (f n c).2 = fl) :
    (s.mapCells f).hart.fsr = s.hart.fsr ∨ (s.mapCells f).hart.fsr = s.hart.fsr ||| fl := by
  have hflags : ∀ x ∈ (s.core.cellList.mapIdx f).map (fun x : BitVec 64 × Flags => x.2), x = 0#5 ∨ x = fl := by
    intro x hx
    simp only [List.mem_map, List.mem_mapIdx] at hx
    obtain ⟨_, ⟨n, hn, rfl⟩, rfl⟩ := hx
    exact h _ _
  have hnew : s.newFlags f = 0#5 ∨ s.newFlags f = fl := orFlags_of_forall hflags
  rw [mapCells_eq, withCells_fsr]
  exact hnew.imp (fun h0 => by rw [h0, BitVec.or_zero]) (fun hfl => by rw [hfl])

/-! ### A contribution added to a cell (07:R141). -/

theorem cellAdd_fst (c : BitVec 64) (v : Int) : (cellAdd c v).1 = cellPlus c v := by
  unfold cellAdd cellPlus poisonCell pinMax pinMin
  dsimp only
  by_cases hfixed : c = 0x8000000000000000#64 ∨ c = 0x7FFFFFFFFFFFFFFF#64 ∨ c = 0x8000000000000001#64
  · rw [if_pos hfixed, if_pos hfixed]
  · rw [if_neg hfixed, if_neg hfixed]
    by_cases hmax : ((2 ^ 63 - 1 : Nat) : Int) ≤ c.toInt + v
    · rw [if_pos hmax, min_eq_right (by omega), max_eq_right (by omega)]
      decide
    · by_cases hmin : c.toInt + v ≤ -((2 ^ 63 - 1 : Nat) : Int)
      · rw [if_neg hmax, if_pos hmin, min_eq_left (by omega), max_eq_left (by omega)]
        decide
      · rw [if_neg hmax, if_neg hmin, min_eq_left (by omega), max_eq_right (by omega)]

theorem cellAdd_snd (c : BitVec 64) (v : Int) : (cellAdd c v).2 = 0#5 ∨ (cellAdd c v).2 = Flags.fov := by
  unfold cellAdd
  dsimp only
  split_ifs
  · exact .inl rfl
  · exact .inr rfl
  · exact .inr rfl
  · exact .inl rfl

/-! ### The conclusion of a window (07:R147, 03:R79). -/

/-- 8421376, 16711425 and 8421120 are 1 modulo one of 255, 256 and 257 and 0 modulo the others. -/
theorem represents_value (x : Chan) : Represents x x.value := by
  have hb : x.b.toNat < 256 := x.b.isLt
  unfold Represents Chan.value
  dsimp only
  generalize x.a.toNat = a, x.c.toNat = c at *
  generalize x.b.toNat = b at *
  split_ifs <;> refine ⟨?_, ?_, ?_, ?_, ?_⟩ <;> omega

theorem conclude_frameOnly (s : State) : FrameOnly s s.conclude := by
  unfold State.conclude
  dsimp only
  split_ifs
  · exact .refl s
  · exact (mapCells_frameOnly s _).trans (frameOnly_windows _ _ _ _)

theorem conclude_of_closed {s : State} (hpair : s.core.winPair = .none) (hcount : s.core.winCount = 0) : s.conclude = s :=
  if_pos ⟨hpair, hcount⟩

/-- The conclusion of an open window. -/
structure Concluded (s t : State) : Prop where
  cells : ∀ n < 4096, cellOf t n = cellPlus (cellOf s n) (chanOf s n).value
  chans : ∀ n, chanOf t n = Chan.zero
  winCount : t.core.winCount = 0
  winPair : t.core.winPair = .none
  fsr : t.hart.fsr = s.hart.fsr ∨ t.hart.fsr = s.hart.fsr ||| Flags.fov

/-- The state with its windows closed. -/
def State.closeWindows (s : State) : State := s.mapCore (fun c => { c with chans := [], winCount := 0, winPair := .none })

theorem concluded_closeWindows {s t : State} (hcells : ∀ n < 4096, cellOf t n = cellPlus (cellOf s n) (chanOf s n).value)
    (hfsr : t.hart.fsr = s.hart.fsr ∨ t.hart.fsr = s.hart.fsr ||| Flags.fov) : Concluded s t.closeWindows where
  cells := hcells
  chans _ := rfl
  winCount := rfl
  winPair := rfl
  fsr := hfsr

theorem conclude_of_open {s : State} (hpair : s.core.winPair ≠ .none) : Concluded s s.conclude := by
  unfold State.conclude
  rw [if_neg (fun h => hpair h.1)]
  exact concluded_closeWindows (fun n hn => (mapCells_cell s _ hn).trans (cellAdd_fst _ _))
    (mapCells_fsr (fun _ _ => cellAdd_snd _ _))

/-! ### The operation at the head of the frame's queue runs (07:R155, R156). -/

theorem turnOf_frame {s : State} {u : UnitOp} {rest : List UnitOp} (hunits : s.core.units = u :: rest)
    (hf : isFrame u.instr = true) : s.turnOf true = some u := by
  simp [State.turnOf, hunits, hf]

theorem exec_frameKstep {s : State} {u : UnitOp} {rest : List UnitOp} (hu : UnitReady u rest s) (hf : isFrame u.instr = true)
    (hparked : u.parked = none) (hsnap : s.hart.snap = false) : exec .frameKstep s = .next (s.frameEffect u) := by
  have hone : s.frameOne u = s.frameEffect u := by rw [State.frameOne, badRow_none hu.parity]
  have hturn : s.frameTurn u = s.frameEffect u := by
    simp only [State.frameTurn, hparked, State.fmcTrigger, hsnap, Bool.false_eq_true, if_false, hone]
  show execFrameKstep s = _
  simp only [execFrameKstep, turnOf_frame hu.head hf, hu.trigger, Bool.false_eq_true, if_false, hturn]

/-- An operation of the frame that ends: what it does to the frame, and its leaving. -/
theorem frame_completes {s t : State} {u : UnitOp} {rest : List UnitOp} {P : State → Prop} (hu : UnitReady u rest s)
    (hf : isFrame u.instr = true) (hparked : u.parked = none) (hsnap : s.hart.snap = false)
    (heff : s.frameEffect u = t.dropUnit u) (hframe : FrameOnly s t)
    (hP : P (t.mapCore (fun c => { c with units := rest }))) :
    Completes .frameKstep s (fun t => FrameDone rest s t ∧ P t) := by
  rw [dropUnit_units (hframe.units.trans hu.head) rfl] at heff
  exact ⟨_, (exec_frameKstep hu hf hparked hsnap).trans (congrArg _ heff), frameDone_of_units hframe rest, hP⟩

end Sys2Proof.Machine

namespace Sys2Proof
open Machine Claims

theorem frameClearAndConclude : FrameClearAndConclude := by
  intro u rest s hu hparked hsnap cleared
  have hzero (t : State) (ht : t.core = s.core.zeroFrame) : cleared t := by
    refine ⟨fun n => ⟨?_, ?_⟩, ?_, ?_⟩
    · rw [cellOf, ht]; rfl
    · rw [chanOf, ht]; rfl
    · rw [ht]; rfl
    · rw [ht]; rfl
  refine ⟨fun hi => ?_, fun hi => ?_, fun hi hopen => ?_, fun hi hpair hcount => ?_⟩
  · refine frame_completes hu (by rw [hi]; rfl) hparked hsnap (t := s.mapCore Core.zeroFrame) (by simp only [State.frameEffect, hi])
      ⟨rfl, rfl, rfl⟩ ⟨?_, rfl⟩
    exact hzero (s.mapCore Core.zeroFrame) rfl
  · refine frame_completes hu (by rw [hi]; rfl) hparked hsnap
      (t := (s.mapCore Core.zeroFrame).mapHart (fun h => { h with fsr := 0 })) (by simp only [State.frameEffect, hi])
      ⟨rfl, rfl, rfl⟩ ⟨?_, rfl⟩
    exact hzero (s.mapCore Core.zeroFrame) rfl
  · have hdone := conclude_of_open hopen
    refine frame_completes hu (by rw [hi]; rfl) hparked hsnap (t := s.conclude) (by simp only [State.frameEffect, hi])
      (conclude_frameOnly s) ⟨fun n hn _ _ => ⟨_, represents_value _, hdone.cells n hn⟩, hdone.chans, hdone.winCount, hdone.winPair,
        hdone.fsr⟩
  · have hsame := conclude_of_closed hpair hcount
    exact frame_completes hu (by rw [hi]; rfl) hparked hsnap (t := s) (by simp only [State.frameEffect, hi, hsame]) (.refl s)
      ⟨fun _ => rfl, rfl⟩

end Sys2Proof
end

/-! One span of k-steps of a matrix instruction (07:R144 to R149, R151 to R153, R156): the factors of its rows and of B, the
contributions and windows that they make, and the span that an event runs. -/

section
namespace Sys2Proof.Machine
open Claims

/-! ### Shapes and types (07:R140, R145). -/

theorem UnitOp.rows_eq (u : UnitOp) : u.rows = frameRows u := by
  unfold UnitOp.rows frameRows
  generalize u.shape = sh
  revert sh
  decide

theorem UnitOp.cols_eq (u : UnitOp) : u.cols = frameCols u := by
  unfold UnitOp.cols frameCols
  generalize u.shape = sh
  revert sh
  decide

theorem UnitOp.p_eq (u : UnitOp) : u.p = frameP u := by
  rw [frameP, ← u.rows_eq, ← u.cols_eq]
  rfl

theorem frameCols_pos (u : UnitOp) : 0 < frameCols u := by
  unfold frameCols
  split_ifs <;> decide

theorem frameP_pos (u : UnitOp) : 0 < frameP u := (frameCols_pos u).trans_le (le_max_right _ _)

/-- The cells are R times C. -/
theorem div_frameCols_lt (u : UnitOp) {n : Nat} (hn : n < 4096) : n / frameCols u < frameRows u := by
  unfold frameCols frameRows
  split_ifs <;> omega

theorem UnitOp.depth_cases (u : UnitOp) : u.depth = 1 ∨ u.depth = 2 := by
  unfold UnitOp.depth depthOf
  split
  · exact .inr rfl
  · exact .inl rfl

/-! ### Factors and products (07:R146, R149, R152). -/

theorem termOf_float {t : ElemType} (ht : t.isInt = false) (bits sc : Nat) : termOf t bits sc = factor t bits sc := by
  rw [termOf, ht]
  rfl

theorem termOf_int {t : ElemType} (ht : t.isInt = true) (bits sc : Nat) :
    termOf t bits sc = some (decide (elemInt t bits < 0), (elemInt t bits).natAbs, 0) := by
  rw [termOf, if_pos ht, readInt_eq_elemInt]

theorem Term.mul_eq_factorProduct (x y : Term) : x.mul y = factorProduct x y := by
  cases x <;> cases y <;> rfl

/-- The integer that a product adds to the channels, if it adds one. -/
def Term.toInt : Term → Option Int
  | some (neg, m, _) => some (if neg then -(m : Int) else (m : Int))
  | none => none

/-- Sign and magnitude of a product of integers. -/
theorem toInt_mul_termOf {t t' : ElemType} (ht : t.isInt = true) (ht' : t'.isInt = true) (x y sc sc' : Nat) :
    ((termOf t x sc).mul (termOf t' y sc')).toInt = some (elemInt t x * elemInt t' y) := by
  rw [termOf_int ht, termOf_int ht']
  generalize elemInt t x = v, elemInt t' y = w
  simp only [Term.mul, Term.toInt, Option.some.injEq]
  have hsign (x : Int) : (x.natAbs : Int) = if x < 0 then -x else x := by split_ifs <;> omega
  by_cases hv : v < 0 <;> by_cases hw : w < 0 <;> simp [hv, hw, hsign]

/-! ### Channels (03:R78). -/

/-- The channels of y are those of x with p added. -/
def HasResidues (x y : Chan) (p : Int) : Prop :=
  (y.a.toNat : Int) = (x.a.toNat + p) % 255 ∧ (y.b.toNat : Int) = (x.b.toNat + p) % 256 ∧
    (y.c.toNat : Int) = (x.c.toNat + p) % 257

theorem hasResidues_refl {x : Chan} (ha : x.a.toNat < 255) (hc : x.c.toNat < 257) : HasResidues x x 0 := by
  have := x.b.isLt
  unfold HasResidues
  omega

theorem hasResidues_add (x : Chan) (p : Int) : HasResidues x (x.add p) p := by
  unfold HasResidues Chan.add
  simp only [BitVec.toNat_ofNat]
  omega

theorem HasResidues.add {x y : Chan} {p : Int} (h : HasResidues x y p) (q : Int) : HasResidues x (y.add q) (p + q) := by
  obtain ⟨ha, hb, hc⟩ := h
  obtain ⟨ha', hb', hc'⟩ := hasResidues_add y q
  unfold HasResidues
  omega

theorem HasResidues.foldl {β : Type} {x y : Chan} {p : Int} (h : HasResidues x y p) (f : β → Int) (l : List β) :
    HasResidues x (l.foldl (fun y e => y.add (f e)) y) (l.foldl (fun p e => p + f e) p) := by
  induction l generalizing y p with
  | nil => exact h
  | cons e l ih => exact ih (h.add (f e))

/-! ### Contributions of rows (07:R146, R149). -/

section
variable {s : State} {u : UnitOp}

/-- The cell that a row's contributions leave. -/
theorem fxCell_fst (u : UnitOp) (b : Nat → Nat → Term) (n : Nat) (row : List Kept) (c : BitVec 64) :
    (fxCell u b n row c).1 = row.foldl (fun x k => (contribute x u.exp u.rnd (k.depth * 4096 + n)
      (k.a.mul (if k.beyond then some (false, 0, 0) else b k.depth (n % u.cols)))).1) c := by
  unfold fxCell
  generalize (0#5 : Flags) = fl
  induction row generalizing c fl with
  | nil => rfl
  | cons k row ih => exact ih _ _

/-- The channels that a row's products leave. -/
theorem intCell_eq (b : Nat → Nat → Term) (j : Nat) (row : List Kept) (x : Chan) :
    intCell b j row x = (row.filter (fun k => !k.beyond)).foldl
      (fun x k => ((k.a.mul (b k.depth j)).toInt).elim x x.add) x := by
  rw [List.foldl_filter, intCell]
  refine List.foldl_ext _ _ _ (fun x k _ => ?_)
  cases k.beyond with
  | true => rfl
  | false =>
    cases k.a.mul (b k.depth j) with
    | none => rfl
    | some p => rfl

/-- No armed or natural fault strikes a contribution. -/
theorem productHit_none {rest : List UnitOp} (hu : UnitReady u rest s) : s.core.productHit = none := by
  simp [Core.productHit, hu.inject, hu.product]

theorem strike_none (h : s.core.productHit = none) (cells : List Nat) : s.strike cells = (s, none) := by
  simp only [State.strike, h]

/-- The row that holds a cell. -/
theorem rows_getElem? (u : UnitOp) (row : Nat → List Kept) {n : Nat} (hn : n < 4096) :
    ((((List.range u.rows).map row)[n / u.cols]?).getD []) = row (n / frameCols u) := by
  rw [u.rows_eq, u.cols_eq, List.getElem?_map, List.getElem?_range (div_frameCols_lt u hn)]
  rfl

/-- Contributions of floats. -/
theorem applyRows_float (h : s.core.productHit = none) (hint : u.et.isInt = false) (rows : List (List Kept))
    (b : Nat → Nat → Term) : s.applyRows u rows b =
      s.mapCells (fun n c => fxCell u b n ((rows[n / u.cols]?).getD []) c) := by
  simp only [State.applyRows, strike_none h, hint, Bool.false_eq_true, if_false, reduceCtorEq]

/-- The channels of every cell after products of integers. -/
def State.newChans (s : State) (u : UnitOp) (rows : List (List Kept)) (b : Nat → Nat → Term) : Sparse Chan :=
  tabulate Chan.zero (s.core.chanList.mapIdx (fun n x => intCell b (n % u.cols) ((rows[n / u.cols]?).getD []) x))

/-- The state with other channels. -/
def State.withChans (s : State) (chans : Sparse Chan) : State := s.mapCore (fun c => { c with chans := chans })

theorem withChans_winCount (s : State) (chans : Sparse Chan) : (s.withChans chans).core.winCount = s.core.winCount := rfl

theorem applyRows_int (h : s.core.productHit = none) (hint : u.et.isInt = true) (rows : List (List Kept))
    (b : Nat → Nat → Term) : s.applyRows u rows b = s.withChans (s.newChans u rows b) := by
  simp only [State.applyRows, strike_none h, hint, if_true, reduceCtorEq, if_false, State.newChans, State.withChans, State.mapCore]

theorem newChans_get (s : State) (u : UnitOp) (rows : List (List Kept)) (b : Nat → Nat → Term) {n : Nat} (hn : n < 4096) :
    sparseGet Chan.zero (s.newChans u rows b) n = intCell b (n % u.cols) ((rows[n / u.cols]?).getD []) (chanOf s n) := by
  have hlist : s.core.chanList[n]? = some (chanOf s n) := by
    rw [Core.chanList, List.getElem?_map, List.getElem?_range (show n < cellCount from hn)]
    rfl
  rw [State.newChans, sparseGet_tabulate, List.getElem?_mapIdx, hlist]
  rfl

/-! ### A span and its window (07:R146, R147). -/

/-- A span in FX mode, with no window open: every cell takes the contributions of its row. -/
structure FloatSpan (u : UnitOp) (row : Nat → List Kept) (b : Nat → Nat → Term) (s t : State) : Prop where
  frame : FrameOnly s t
  cells : ∀ n < 4096, cellOf t n = (row (n / frameCols u)).foldl (fun x k => (contribute x u.exp u.rnd (k.depth * 4096 + n)
    (k.a.mul (if k.beyond then some (false, 0, 0) else b k.depth (n % frameCols u)))).1) (cellOf s n)
  chans : ∀ n, chanOf t n = chanOf s n
  winCount : t.core.winCount = s.core.winCount
  winPair : t.core.winPair = .none

theorem frameSpan_float (h : s.core.productHit = none) (hint : u.et.isInt = false) (hclosed : s.core.winPair = .none)
    (row : Nat → List Kept) (b : Nat → Nat → Term) (cnt : Nat) :
    FloatSpan u row b s (s.frameSpan u ((List.range u.rows).map row) b cnt) := by
  have hspan : s.frameSpan u ((List.range u.rows).map row) b cnt = s.mapCells (fun n c => fxCell u b n
      ((((List.range u.rows).map row)[n / u.cols]?).getD []) c) := by
    simp only [State.frameSpan, hclosed, hint, Bool.false_eq_true, if_false, bne_self_eq_false, Bool.false_and,
      applyRows_float h hint]
  rw [hspan]
  obtain ⟨hchans, hcount, hpair⟩ := mapCells_windows s (fun n c => fxCell u b n
      ((((List.range u.rows).map row)[n / u.cols]?).getD []) c)
  exact
    { frame := mapCells_frameOnly s _
      cells := fun n hn => by rw [mapCells_cell s _ hn, fxCell_fst, rows_getElem? u row hn, u.cols_eq]
      chans := fun n => by rw [chanOf, hchans, chanOf]
      winCount := hcount
      winPair := hpair.trans hclosed }

/-- A span in INT mode, its window no other's and below the limit: every cell's channels take the products of its row. -/
structure IntSpan (u : UnitOp) (row : Nat → List Kept) (b : Nat → Nat → Term) (cnt : Nat) (s t : State) : Prop where
  frame : FrameOnly s t
  chans : ∀ n < 4096, chanOf t n = intCell b (n % frameCols u) (row (n / frameCols u)) (chanOf s n)
  cells : ∀ n, cellOf t n = cellOf s n
  fsr : t.hart.fsr = s.hart.fsr
  winCount : t.core.winCount = s.core.winCount + cnt
  winPair : t.core.winPair = if s.core.winCount + cnt = 0 then .none else pairOf u.types.1 u.types.2

theorem intSpan_of_chans {row : Nat → List Kept} {b : Nat → Nat → Term} (cnt : Nat) {chans : Sparse Chan}
    (hchans : ∀ n < 4096, sparseGet Chan.zero chans n = intCell b (n % frameCols u) (row (n / frameCols u)) (chanOf s n)) :
    IntSpan u row b cnt s ((s.withChans chans).mapCore (fun c => { c with
      winCount := s.core.winCount + cnt
      winPair := if s.core.winCount + cnt = 0 then .none else pairOf u.types.1 u.types.2 })) where
  frame := ⟨rfl, rfl, rfl⟩
  chans := hchans
  cells _ := rfl
  fsr := rfl
  winCount := rfl
  winPair := rfl

theorem frameSpan_int (h : s.core.productHit = none) (hint : u.et.isInt = true)
    (hpair : s.core.winPair = .none ∨ s.core.winPair = pairOf u.types.1 u.types.2) (row : Nat → List Kept)
    (b : Nat → Nat → Term) {cnt : Nat} (hlimit : s.core.winCount + cnt < (pairOf u.types.1 u.types.2).limit) :
    IntSpan u row b cnt s (s.frameSpan u ((List.range u.rows).map row) b cnt) := by
  have hkeep : ¬(s.core.winPair != .none && (!u.et.isInt || s.core.winPair != pairOf u.types.1 u.types.2)) = true := by
    rcases hpair with hp | hp <;> simp [hp, hint]
  unfold State.frameSpan
  dsimp only
  rw [if_neg hkeep, if_pos hint, if_neg (Nat.not_lt.mpr hlimit.le), applyRows_int h hint, withChans_winCount,
    if_neg (Nat.not_le.mpr hlimit)]
  exact intSpan_of_chans cnt (fun n hn => by rw [newChans_get s u _ b hn, rows_getElem? u row hn, u.cols_eq])

end

/-! ### The operands of a span (07:R144, R152, R153). -/

/-- K. -/
def UnitOp.stepCount (u : UnitOp) : Nat := (u.vl + Claims.frameP u - 1) / Claims.frameP u

theorem UnitOp.ksteps_eq (u : UnitOp) : u.ksteps = u.stepCount := by rw [UnitOp.ksteps, u.p_eq, UnitOp.stepCount]

/-- Value h of an element that holds d values. -/
def depthValue (d x h : Nat) : Nat := if d = 2 then x / 16 ^ h % 16 else x

/-- The dense depth and the position in A of the values of row i that a span multiplies: sp says whether A is compressed, and k is
the first k-step (07:R144, R153). -/
def State.keptAt (s : State) (u : UnitOp) (v : VReg) (sp : Bool) (k i : Nat) : List (Nat × Nat) :=
  if sp = true then
    ((List.range 2).map (fun h => (4 * (k * u.depth / 4) + s.vGet v 8 (k * u.depth / 4 * Claims.frameRows u + i) / 4 ^ h % 4,
      2 * (k * u.depth / 4) + h))).filter
      (fun e => decide (u.depth * u.stepCount ≤ e.1 ∨
        (k ≤ e.1 / u.depth ∧ s.active u.mode (e.1 / u.depth) = true)))
  else (List.range u.depth).map (fun h => (u.depth * k + h, u.depth * k + h))

/-- Position pos of row i of A, as bits; an element at or beyond VL reads zero. -/
def State.aBits (s : State) (u : UnitOp) (a : VReg) (i pos : Nat) : Nat :=
  if pos / u.depth * Claims.frameRows u + i < u.vl then
    depthValue u.depth (s.vGet a u.sew (pos / u.depth * Claims.frameRows u + i)) (pos % u.depth)
  else 0

/-- B at a depth, from its rows of elements. -/
def bBits (u : UnitOp) (B : Nat → Nat → Nat) (kappa j : Nat) : Nat := depthValue u.depth (B (kappa / u.depth) j) (kappa % u.depth)

theorem depthBits_eq (s : State) (u : UnitOp) (a : VReg) (i pos : Nat) :
    s.depthBits u a (pos / u.depth * u.rows + i) (pos % u.depth) = s.aBits u a i pos := by
  rw [State.depthBits, State.aBits, u.rows_eq]
  by_cases h : pos / u.depth * Claims.frameRows u + i < u.vl
  · rw [if_neg (by omega), if_pos h]
    rfl
  · rw [if_pos (by omega), if_neg h]

/-- A kept value of row i with its factor. -/
def State.keptOf (s : State) (u : UnitOp) (a : VReg) (i : Nat) (e : Nat × Nat) : Kept where
  depth := e.1
  a := termOf u.types.1 (s.aBits u a i e.2) (s.scaleByte u false (Claims.frameRows u) e.1 i)
  beyond := decide (u.depth * u.stepCount ≤ e.1)

theorem denseRow_eq {s : State} {u : UnitOp} {a : VReg} (v : VReg) (ha : u.regA = some a) {k : Nat}
    (hk : k < u.stepCount) (i : Nat) :
    s.denseRow u k i = (s.keptAt u v false k i).map (s.keptOf u a i) := by
  rw [State.keptAt, if_neg Bool.false_ne_true, State.denseRow, List.map_map]
  refine List.map_congr_left (fun h hh => ?_)
  have hh : h < u.depth := List.mem_range.mp hh
  have hdiv : (u.depth * k + h) / u.depth = k := by
    rw [Nat.mul_add_div (by omega), Nat.div_eq_of_lt hh, Nat.add_zero]
  have hmod : (u.depth * k + h) % u.depth = h := by rw [Nat.mul_add_mod, Nat.mod_eq_of_lt hh]
  have hbelow : u.depth * k + h < u.depth * u.stepCount :=
    calc u.depth * k + h < u.depth * (k + 1) := by rw [Nat.mul_succ]; omega
      _ ≤ _ := Nat.mul_le_mul_left _ hk
  have hbits := depthBits_eq s u a i (u.depth * k + h)
  rw [hdiv, hmod, u.rows_eq] at hbits
  simp only [Function.comp_apply, State.keptOf, ha, Option.getD_some, hbits, u.rows_eq, decide_eq_false (Nat.not_le.mpr hbelow)]

theorem filterMap_ite_eq {α β : Type} (p : α → Bool) (f : α → β) (l : List α) :
    l.filterMap (fun x => if p x then some (f x) else none) = (l.filter p).map f := by
  induction l with
  | nil => rfl
  | cons x l ih => cases hp : p x <;> simp [hp, ih]

theorem sparseRow_eq {s : State} {u : UnitOp} {a v : VReg} (ha : u.regA = some a) (hv : u.regX = v) (k i : Nat) :
    s.sparseRow u (k * u.depth / 4) k i = (s.keptAt u v true k i).map (s.keptOf u a i) := by
  rw [State.keptAt, if_pos rfl, List.filter_map, List.map_map, ← filterMap_ite_eq, State.sparseRow]
  refine List.filterMap_congr (fun h _ => ?_)
  simp only [Function.comp_apply, hv, ha, Option.getD_some, u.rows_eq, UnitOp.ksteps_eq, State.live,
    ← depthBits_eq, State.keptOf, Bool.decide_or, Bool.decide_and, Bool.decide_eq_true]

end Sys2Proof.Machine
end

/-! One step of a matrix instruction (07:R144 to R149, R153, R156): the span that it runs, B over that span from its rows, and what
the step leaves, whatever form the instruction has. -/

section
namespace Sys2Proof.Machine
open Claims

/-! ### The span (07:R144, R153, R156). -/

/-- The first k-step that is left, and the end of the span that begins at a k-step: of the k-step, or of its group where A is
compressed. -/
def UnitOp.firstStep (u : UnitOp) : Nat := u.vstart / Claims.frameP u
def UnitOp.spanTop (u : UnitOp) (sp : Bool) : Nat :=
  if sp = true then (u.firstStep * u.depth / 4 + 1) * (4 / u.depth) else u.firstStep + 1

/-- The operation stands at a k-step, and a k-step of its span is live: the first one, where A is dense. -/
structure SpanReady (s : State) (u : UnitOp) (sp : Bool) : Prop where
  start : u.vstart % frameP u = 0
  live : ∃ k, u.firstStep ≤ k ∧ k < u.spanTop sp ∧ k < u.stepCount ∧ s.active u.mode k = true
  first : sp = true ∨ s.active u.mode u.firstStep = true

/-- K-steps in a group of four depth values, or one k-step. -/
def UnitOp.spanSize (u : UnitOp) (sp : Bool) : Nat := if sp = true then 4 / u.depth else 1

theorem spanSize_pos (u : UnitOp) (sp : Bool) : 0 < u.spanSize sp := by
  rcases u.depth_cases with hd | hd <;> cases sp <;> simp [UnitOp.spanSize, hd]

/-- The span is the rest of the group of its first k-step. -/
theorem spanTop_eq (u : UnitOp) (sp : Bool) :
    u.spanTop sp = u.firstStep / u.spanSize sp * u.spanSize sp + u.spanSize sp := by
  rcases u.depth_cases with hd | hd <;> cases sp <;> simp only [UnitOp.spanTop, UnitOp.spanSize, hd, if_true, Bool.false_eq_true, if_false]
    <;> omega

theorem firstStep_lt_spanTop (u : UnitOp) (sp : Bool) : u.firstStep < u.spanTop sp := by
  rw [spanTop_eq, ← Nat.succ_mul, ← Nat.div_lt_iff_lt_mul (spanSize_pos u sp)]
  exact Nat.lt_succ_self _

/-- The search finds a live k-step no later than one that is there. -/
theorem nextLive_of_live {s : State} {u : UnitOp} {n k m : Nat} (hkm : k ≤ m) (hm : m < u.ksteps) (hn : m < k + n)
    (hlive : s.live u m = true) : ∃ j, s.nextLive u n k = some j ∧ k ≤ j ∧ j ≤ m := by
  induction n generalizing k with
  | zero => omega
  | succ n ih =>
    rw [State.nextLive, if_neg (by omega)]
    by_cases hk : s.live u k = true
    · exact ⟨k, if_pos hk, le_rfl, hkm⟩
    · rw [if_neg hk]
      have hne : k ≠ m := fun h => hk (h ▸ hlive)
      obtain ⟨j, hj, hlo, hhi⟩ := ih (k := k + 1) (by omega) (by omega)
      exact ⟨j, hj, by omega, hhi⟩

theorem vstart_lt_vl {u : UnitOp} (hstart : u.vstart % frameP u = 0) (h : u.firstStep < u.stepCount) : u.vstart < u.vl := by
  have hpos := frameP_pos u
  have hle : (u.firstStep + 1) * frameP u ≤ u.vl + frameP u - 1 := (Nat.le_div_iff_mul_le hpos).mp h
  have hstep : u.firstStep * frameP u = u.vstart := by
    rw [UnitOp.firstStep, Nat.div_mul_cancel (Nat.dvd_of_mod_eq_zero hstart)]
  rw [Nat.succ_mul, hstep] at hle
  omega

theorem nextSpan_eq {s : State} {u : UnitOp} {sp : Bool} (hsp : isSparse u.instr = sp) (h : SpanReady s u sp) :
    s.nextSpan u = some (u.firstStep, u.spanTop sp) := by
  obtain ⟨k, hlo, htop, hcount, hlive⟩ := h.live
  have hlt := vstart_lt_vl h.start (hlo.trans_lt hcount)
  have hsize : (if isSparse u.instr then 4 / u.depth else 1) = u.spanSize sp := by rw [hsp, UnitOp.spanSize]
  obtain ⟨j, hj, hjlo, hjk⟩ := nextLive_of_live (n := u.ksteps + 1) hlo (u.ksteps_eq ▸ hcount) (by rw [u.ksteps_eq]; omega) hlive
  have hgroup : j / u.spanSize sp = u.firstStep / u.spanSize sp := by
    refine le_antisymm ?_ (Nat.div_le_div_right hjlo)
    rw [← Nat.lt_succ_iff, Nat.div_lt_iff_lt_mul (spanSize_pos u sp), Nat.succ_mul, ← spanTop_eq]
    omega
  rw [State.nextSpan, if_neg (Nat.not_le.mpr hlt), u.p_eq, ← UnitOp.firstStep, hj]
  simp only [Option.map_some, hsize, hgroup, ← spanTop_eq, max_eq_left (Nat.div_mul_le_self _ _)]

/-- The live k-steps of the span. -/
def State.spanSteps (s : State) (u : UnitOp) (sp : Bool) : List Nat :=
  (natRange u.firstStep (min (u.spanTop sp) u.ksteps - u.firstStep)).filter (s.live u)

theorem mem_spanSteps {s : State} {u : UnitOp} {sp : Bool} {k : Nat} : k ∈ s.spanSteps u sp ↔
    u.firstStep ≤ k ∧ k < u.spanTop sp ∧ k < u.stepCount ∧ s.active u.mode k = true := by
  have := firstStep_lt_spanTop u sp
  rw [State.spanSteps, List.mem_filter, mem_natRange, u.ksteps_eq, State.live]
  constructor
  · rintro ⟨hrange, hlive⟩
    exact ⟨by omega, by omega, by omega, hlive⟩
  · rintro ⟨hlo, htop, hcount, hlive⟩
    exact ⟨by omega, hlive⟩

/-! ### B over a span (07:R144, R157). -/

/-- Rows of B as the lists that a step multiplies. -/
def rowsOf (u : UnitOp) (B : Nat → Nat → Nat) (ks : List Nat) : List (Nat × List Nat) :=
  ks.map (fun k => (k, (List.range (Claims.frameCols u)).map (B k)))

theorem find?_map_key {β : Type} (f : Nat → β) {ks : List Nat} {k : Nat} (hk : k ∈ ks) :
    (ks.map (fun k => (k, f k))).find? (fun e => e.1 = k) = some (k, f k) := by
  induction ks with
  | nil => cases hk
  | cons x ks ih =>
    by_cases hx : x = k
    · subst hx
      simp
    · simp only [List.map_cons, List.find?_cons, decide_eq_false hx]
      exact ih ((List.mem_cons.mp hk).resolve_left (Ne.symm hx))

/-- The factors of B that a span finds, from the rows given. -/
def State.bTable (s : State) (u : UnitOp) (lo hi : Nat) (pats : List (Nat × List Nat)) (kappa j : Nat) : Term :=
  let tab := (natRange (lo * u.depth) ((hi - lo) * u.depth)).map (fun x =>
    (x, s.bTerms u (((pats.find? (fun e => e.1 = x / u.depth)).map (·.2)).getD []) x))
  (((tab.find? (fun e => e.1 = kappa)).map (·.2)).getD [])[j]?.getD (some (false, 0, 0))

theorem bTable_get (s : State) (u : UnitOp) (B : Nat → Nat → Nat) {lo hi kappa j : Nat} {ks : List Nat}
    (hlo : lo ≤ kappa / u.depth) (hhi : kappa / u.depth < hi) (hk : kappa / u.depth ∈ ks) (hj : j < frameCols u) :
    s.bTable u lo hi (rowsOf u B ks) kappa j =
      termOf u.types.2 (bBits u B kappa j) (s.scaleByte u true (frameCols u) kappa j) := by
  have hpos : 0 < u.depth := by rcases u.depth_cases with hd | hd <;> omega
  have hmem : kappa ∈ natRange (lo * u.depth) ((hi - lo) * u.depth) := by
    rw [mem_natRange, ← Nat.add_mul, Nat.add_sub_cancel' (hlo.trans hhi.le)]
    exact ⟨(Nat.le_div_iff_mul_le hpos).mp hlo, (Nat.div_lt_iff_lt_mul hpos).mp hhi⟩
  have hvalue : (if u.depth = 2 then B (kappa / u.depth) j / 16 ^ (kappa % 2) % 16 else B (kappa / u.depth) j) = bBits u B kappa j := by
    rw [bBits, depthValue]
    split_ifs with hd
    · rw [hd]
    · rfl
  simp only [State.bTable, find?_map_key _ hmem, rowsOf, find?_map_key _ hk, Option.map_some, Option.getD_some, State.bTerms,
    List.getElem?_mapIdx, List.getElem?_map, List.getElem?_range hj, u.cols_eq, hvalue]

/-! ### The rows of a span (07:R144, R153). -/

/-- What the three forms of a matrix instruction share: the registers of A and of the sparse indices, the types of B, and whether A
is compressed. -/
structure MatrixOp (a v : VReg) (xb sp : Bool) (u : UnitOp) : Prop where
  regA : u.regA = some a
  regX : sp = true → u.regX = v
  xb : u.xb = xb
  sparse : isSparse u.instr = sp
  frame : isFrame u.instr = true

theorem matrixOp_mmo {a b : VReg} (v : VReg) {xb : Bool} {u : UnitOp} (hi : u.instr = .mmo a b xb) : MatrixOp a v xb false u where
  regA := by rw [UnitOp.regA, hi]
  regX := fun h => by cases h
  xb := by rw [UnitOp.xb, hi]
  sparse := by rw [hi]; rfl
  frame := by rw [hi]; rfl

theorem matrixOp_mmoSp {a b v : VReg} {xb : Bool} {u : UnitOp} (hi : u.instr = .mmoSp a b v xb) : MatrixOp a v xb true u where
  regA := by rw [UnitOp.regA, hi]
  regX := fun _ => by rw [UnitOp.regX, hi]
  xb := by rw [UnitOp.xb, hi]
  sparse := by rw [hi]; rfl
  frame := by rw [hi]; rfl

theorem matrixOp_mmoSt {a v : VReg} {ra rb : GReg} {sp xb : Bool} {u : UnitOp} (hi : u.instr = .mmoSt a ra rb v sp xb) :
    MatrixOp a v xb sp u where
  regA := by rw [UnitOp.regA, hi]
  regX := fun _ => by rw [UnitOp.regX, hi]
  xb := by rw [UnitOp.xb, hi]
  sparse := by rw [hi]; rfl
  frame := by rw [hi]; rfl

section
variable {s : State} {u : UnitOp} {a v : VReg} {xb sp : Bool}

/-- Row i of the span, as its kept values with their factors. -/
def State.spanRow (s : State) (u : UnitOp) (a v : VReg) (sp : Bool) (i : Nat) : List Kept :=
  (s.keptAt u v sp u.firstStep i).map (s.keptOf u a i)

/-- What the window counts of a span: the longest row of a group, or one k-step (07:R146). -/
def State.spanCount (s : State) (u : UnitOp) (v : VReg) (sp : Bool) : Nat :=
  if sp = true then (List.range (Claims.frameRows u)).foldl (fun x i => max x (s.keptAt u v sp u.firstStep i).length) 0 else 1

theorem applyKsteps_eq (hop : MatrixOp a v xb sp u) (hspan : SpanReady s u sp) (pats : List (Nat × List Nat)) :
    s.applyKsteps u u.firstStep (u.spanTop sp) pats =
      s.frameSpan u ((List.range u.rows).map (s.spanRow u a v sp)) (s.bTable u u.firstStep (u.spanTop sp) pats)
        (s.spanCount u v sp) := by
  have hlt : u.firstStep < u.stepCount := by
    obtain ⟨k, hlo, -, hcount, -⟩ := hspan.live
    exact hlo.trans_lt hcount
  have hrow : (fun i => if isSparse u.instr then s.sparseRow u (u.firstStep * u.depth / 4) u.firstStep i
      else s.denseRow u u.firstStep i) = s.spanRow u a v sp := by
    funext i
    rw [hop.sparse]
    cases sp with
    | true => exact sparseRow_eq hop.regA (hop.regX rfl) u.firstStep i
    | false => exact denseRow_eq v hop.regA hlt i
  have hcount : (if isSparse u.instr then ((List.range u.rows).map (s.spanRow u a v sp)).foldl (fun n r => max n r.length) 0
      else 1) = s.spanCount u v sp := by
    rw [hop.sparse, State.spanCount, List.foldl_map, u.rows_eq]
    simp only [State.spanRow, List.length_map]
  simp only [State.applyKsteps, hrow, hcount]
  rfl

/-- A kept value whose product B takes part in lies in a live k-step of the span. -/
theorem mem_spanSteps_of_kept (hspan : SpanReady s u sp) {i : Nat} {e : Nat × Nat} (he : e ∈ s.keptAt u v sp u.firstStep i)
    (hbelow : ¬u.depth * u.stepCount ≤ e.1) : e.1 / u.depth ∈ s.spanSteps u sp := by
  have hpos : 0 < u.depth := by rcases u.depth_cases with hd | hd <;> omega
  have hcount : e.1 / u.depth < u.stepCount := Nat.div_lt_of_lt_mul (Nat.not_le.mp hbelow)
  rw [mem_spanSteps]
  cases sp with
  | true =>
    simp only [State.keptAt, if_true, List.mem_filter, List.mem_map, List.mem_range, decide_eq_true_eq] at he
    obtain ⟨⟨h, -, rfl⟩, hkept⟩ := he
    obtain ⟨hlo, hlive⟩ := hkept.resolve_left hbelow
    refine ⟨hlo, ?_, hcount, hlive⟩
    rw [UnitOp.spanTop, if_pos rfl]
    generalize s.vGet v 8 _ / 4 ^ h = x
    rcases u.depth_cases with hd | hd <;> rw [hd] <;> omega
  | false =>
    simp only [State.keptAt, Bool.false_eq_true, if_false, List.mem_map, List.mem_range] at he
    obtain ⟨h, hh, rfl⟩ := he
    have hdiv : (u.depth * u.firstStep + h) / u.depth = u.firstStep := by
      rw [Nat.mul_add_div hpos, Nat.div_eq_of_lt hh, Nat.add_zero]
    rw [hdiv] at hcount ⊢
    exact ⟨le_rfl, firstStep_lt_spanTop u false, hcount, hspan.first.resolve_left Bool.false_ne_true⟩

/-- The factor of B of a kept value. -/
theorem bTable_kept (hspan : SpanReady s u sp) (B : Nat → Nat → Nat) {i j : Nat} {e : Nat × Nat}
    (he : e ∈ s.keptAt u v sp u.firstStep i) (hbelow : ¬u.depth * u.stepCount ≤ e.1) (hj : j < frameCols u) :
    s.bTable u u.firstStep (u.spanTop sp) (rowsOf u B (s.spanSteps u sp)) e.1 j =
      termOf u.types.2 (bBits u B e.1 j) (s.scaleByte u true (frameCols u) e.1 j) := by
  have hmem := mem_spanSteps_of_kept hspan he hbelow
  obtain ⟨hlo, htop, -, -⟩ := mem_spanSteps.mp hmem
  exact bTable_get s u B hlo htop hmem hj

/-! ### What a span leaves (07:R146, R149, R151). -/

/-- The contribution of a kept value of row i to column j. -/
def State.keptProduct (s : State) (u : UnitOp) (a : VReg) (B : Nat → Nat → Nat) (i j : Nat) (e : Nat × Nat) : Term :=
  factorProduct (factor u.types.1 (s.aBits u a i e.2) (s.scaleByte u false (Claims.frameRows u) e.1 i))
    (if u.depth * u.stepCount ≤ e.1 then some (false, 0, 0)
      else factor u.types.2 (bBits u B e.1 j) (s.scaleByte u true (Claims.frameCols u) e.1 j))

/-- A cell after the contributions of its row's kept values, in order. -/
def State.cellAfter (s : State) (u : UnitOp) (a v : VReg) (sp : Bool) (B : Nat → Nat → Nat) (c : Nat) : BitVec 64 :=
  (s.keptAt u v sp u.firstStep (c / Claims.frameCols u)).foldl (fun x e => (contribute x u.fe.toInt u.rnd (e.1 * 4096 + c)
    (s.keptProduct u a B (c / Claims.frameCols u) (c % Claims.frameCols u) e)).1) (Claims.cellOf s c)

theorem floatSpan_cells (hspan : SpanReady s u sp) (h1 : u.types.1.isInt = false) (h2 : u.types.2.isInt = false)
    (B : Nat → Nat → Nat) (c : Nat) :
    (s.spanRow u a v sp (c / frameCols u)).foldl (fun x k => (contribute x u.exp u.rnd (k.depth * 4096 + c)
      (k.a.mul (if k.beyond then some (false, 0, 0) else
        s.bTable u u.firstStep (u.spanTop sp) (rowsOf u B (s.spanSteps u sp)) k.depth (c % frameCols u)))).1) (cellOf s c) =
      s.cellAfter u a v sp B c := by
  rw [State.cellAfter, State.spanRow, List.foldl_map]
  refine List.foldl_ext _ _ _ (fun x e he => ?_)
  have hj : c % frameCols u < frameCols u := Nat.mod_lt _ (frameCols_pos u)
  have hprod : (s.keptOf u a (c / frameCols u) e).a.mul (if (s.keptOf u a (c / frameCols u) e).beyond then some (false, 0, 0) else
      s.bTable u u.firstStep (u.spanTop sp) (rowsOf u B (s.spanSteps u sp)) e.1 (c % frameCols u)) =
      s.keptProduct u a B (c / frameCols u) (c % frameCols u) e := by
    simp only [Term.mul_eq_factorProduct, State.keptProduct, State.keptOf, termOf_float h1, decide_eq_true_eq]
    by_cases hbelow : u.depth * u.stepCount ≤ e.1
    · rw [if_pos hbelow, if_pos hbelow]
    · rw [if_neg hbelow, if_neg hbelow, bTable_kept hspan B he hbelow hj, termOf_float h2]
  exact congrArg (fun p => (contribute x u.exp u.rnd (e.1 * 4096 + c) p).1) hprod

/-- The integer that a kept value of row i adds to the channels of column j. -/
def State.keptInt (s : State) (u : UnitOp) (a : VReg) (B : Nat → Nat → Nat) (i j : Nat) (e : Nat × Nat) : Int :=
  elemInt u.types.1 (s.aBits u a i e.2) * elemInt u.types.2 (bBits u B e.1 j)

/-- The kept values of a row that B takes part in. -/
def State.keptBelow (s : State) (u : UnitOp) (v : VReg) (sp : Bool) (i : Nat) : List (Nat × Nat) :=
  (s.keptAt u v sp u.firstStep i).filter (fun e => decide (e.1 < u.depth * u.stepCount))

theorem intSpan_chans (hspan : SpanReady s u sp) (h1 : u.types.1.isInt = true) (h2 : u.types.2.isInt = true)
    (B : Nat → Nat → Nat) (i : Nat) {j : Nat} (hj : j < frameCols u) (x : Chan) :
    intCell (s.bTable u u.firstStep (u.spanTop sp) (rowsOf u B (s.spanSteps u sp))) j (s.spanRow u a v sp i) x =
      (s.keptBelow u v sp i).foldl (fun x e => x.add (s.keptInt u a B i j e)) x := by
  have hfilter : (s.spanRow u a v sp i).filter (fun k => !k.beyond) = (s.keptBelow u v sp i).map (s.keptOf u a i) := by
    rw [State.spanRow, List.filter_map, State.keptBelow]
    refine congrArg _ (List.filter_congr (fun e _ => ?_))
    simp only [Function.comp_apply, State.keptOf, ← decide_not, not_le]
  rw [intCell_eq, hfilter, List.foldl_map]
  refine List.foldl_ext _ _ _ (fun x e he => ?_)
  obtain ⟨hkept, hbelow⟩ := List.mem_filter.mp he
  have hbelow : ¬u.depth * u.stepCount ≤ e.1 := Nat.not_le.mpr (of_decide_eq_true hbelow)
  have hterm := bTable_kept hspan B hkept hbelow hj
  simp only [State.keptOf, hterm, toInt_mul_termOf h1 h2, Option.elim_some, State.keptInt]

end

/-! ### The step ends (07:R156). -/

/-- The queue after a span: the operation at the next k-step, or gone. -/
def UnitOp.afterSpan (u : UnitOp) (sp : Bool) (rest : List UnitOp) : List UnitOp :=
  if u.vl ≤ u.spanTop sp * Claims.frameP u then rest else { u with vstart := u.spanTop sp * Claims.frameP u, got := [] } :: rest

theorem afterKsteps_units {t : State} {u : UnitOp} {rest : List UnitOp} (sp : Bool) (hunits : t.core.units = u :: rest) :
    t.afterKsteps u (u.spanTop sp) = t.mapCore (fun c => { c with units := u.afterSpan sp rest }) := by
  simp only [State.afterKsteps, u.p_eq, UnitOp.afterSpan]
  by_cases hend : u.vl ≤ u.spanTop sp * frameP u
  · rw [if_pos hend, if_pos hend]
    exact dropUnit_units hunits rfl
  · rw [if_neg hend, if_neg hend]
    exact setUnit_head hunits rfl

section
variable {s : State} {u : UnitOp} {rest : List UnitOp} {a v : VReg} {xb sp : Bool} {B : Nat → Nat → Nat}

/-- An event runs the span of a matrix instruction over the rows of B. -/
def RunsSpan (s : State) (u : UnitOp) (sp : Bool) (B : Nat → Nat → Nat) : Prop :=
  s.frameEffect u = (s.applyKsteps u u.firstStep (u.spanTop sp) (rowsOf u B (s.spanSteps u sp))).afterKsteps u (u.spanTop sp)

/-- What the span does to the frame is what the event does. -/
theorem span_completes {P : State → Prop} (hu : UnitReady u rest s) (hop : MatrixOp a v xb sp u) (hparked : u.parked = none)
    (hsnap : s.hart.snap = false) (hruns : RunsSpan s u sp B) {t : State}
    (ht : s.applyKsteps u u.firstStep (u.spanTop sp) (rowsOf u B (s.spanSteps u sp)) = t) (hframe : FrameOnly s t)
    (hP : P (t.mapCore (fun c => { c with units := u.afterSpan sp rest }))) :
    Completes .frameKstep s (fun t => FrameDone (u.afterSpan sp rest) s t ∧ P t) := by
  rw [RunsSpan, ht, afterKsteps_units sp (hframe.units.trans hu.head)] at hruns
  exact ⟨_, (exec_frameKstep hu hop.frame hparked hsnap).trans (congrArg _ hruns), frameDone_of_units hframe _, hP⟩

theorem floatSpan_completes (hu : UnitReady u rest s) (hop : MatrixOp a v xb sp u) (hparked : u.parked = none)
    (hsnap : s.hart.snap = false) (hspan : SpanReady s u sp) (hruns : RunsSpan s u sp B) (hint : u.et.isInt = false)
    (h1 : u.types.1.isInt = false) (h2 : u.types.2.isInt = false) (hclosed : s.core.winPair = .none) :
    Completes .frameKstep s (fun t => FrameDone (u.afterSpan sp rest) s t ∧
      (∀ c, c < 4096 → cellOf t c = s.cellAfter u a v sp B c) ∧ (∀ c, chanOf t c = chanOf s c) ∧
      t.core.winCount = s.core.winCount ∧ t.core.winPair = .none) := by
  have hfloat := frameSpan_float (productHit_none hu) hint hclosed (s.spanRow u a v sp)
    (s.bTable u u.firstStep (u.spanTop sp) (rowsOf u B (s.spanSteps u sp))) (s.spanCount u v sp)
  rw [← applyKsteps_eq hop hspan] at hfloat
  refine span_completes hu hop hparked hsnap hruns rfl hfloat.frame ⟨fun c hc => ?_, hfloat.chans, hfloat.winCount, hfloat.winPair⟩
  exact (hfloat.cells c hc).trans (floatSpan_cells hspan h1 h2 B c)

theorem intSpan_completes (hu : UnitReady u rest s) (hop : MatrixOp a v xb sp u) (hparked : u.parked = none)
    (hsnap : s.hart.snap = false) (hspan : SpanReady s u sp) (hruns : RunsSpan s u sp B) (hint : u.et.isInt = true)
    (h1 : u.types.1.isInt = true) (h2 : u.types.2.isInt = true)
    (hpair : s.core.winPair = .none ∨ s.core.winPair = pairOf u.types.1 u.types.2)
    (hlimit : s.core.winCount + s.spanCount u v sp < (pairOf u.types.1 u.types.2).limit) :
    Completes .frameKstep s (fun t => FrameDone (u.afterSpan sp rest) s t ∧
      (∀ c, c < 4096 → chanOf t c = (s.keptBelow u v sp (c / frameCols u)).foldl
        (fun x e => x.add (s.keptInt u a B (c / frameCols u) (c % frameCols u) e)) (chanOf s c)) ∧
      (∀ c, cellOf t c = cellOf s c) ∧ t.core.winCount = s.core.winCount + s.spanCount u v sp ∧
      t.core.winPair = (if s.core.winCount + s.spanCount u v sp = 0 then .none else pairOf u.types.1 u.types.2) ∧
      t.hart.fsr = s.hart.fsr) := by
  have hdone := frameSpan_int (productHit_none hu) hint hpair (s.spanRow u a v sp)
    (s.bTable u u.firstStep (u.spanTop sp) (rowsOf u B (s.spanSteps u sp))) hlimit
  rw [← applyKsteps_eq hop hspan] at hdone
  refine span_completes hu hop hparked hsnap hruns rfl hdone.frame
    ⟨fun c hc => ?_, hdone.cells, hdone.winCount, hdone.winPair, hdone.fsr⟩
  exact (hdone.chans c hc).trans (intSpan_chans hspan h1 h2 B _ (Nat.mod_lt _ (frameCols_pos u)) _)

/-! ### B in a register (07:R144). -/

/-- The elements of a register as rows of B; an element at or beyond VL reads zero. -/
def State.sampledRow (s : State) (u : UnitOp) (b : VReg) (k j : Nat) : Nat :=
  if k * Claims.frameCols u + j < u.vl then s.vGet b u.sew (k * Claims.frameCols u + j) else 0

theorem runsSpan_of_register {b : VReg} (heff : s.frameEffect u = s.matrixStep u) (hb : u.regB = some b)
    (hop : MatrixOp a v xb sp u) (hspan : SpanReady s u sp) : RunsSpan s u sp (s.sampledRow u b) := by
  have hrows : (s.spanSteps u sp).map (fun k => (k, s.bPatterns u b k)) = rowsOf u (s.sampledRow u b) (s.spanSteps u sp) := by
    refine List.map_congr_left (fun k _ => ?_)
    rw [State.bPatterns, u.cols_eq]
    refine congrArg _ (List.map_congr_left (fun j _ => ?_))
    rw [State.sampledRow]
    by_cases h : k * frameCols u + j < u.vl
    · rw [if_neg (by omega), if_pos h]
    · rw [if_pos (by omega), if_neg h]
  rw [RunsSpan, heff, ← hrows]
  simp only [State.matrixStep, nextSpan_eq hop.sparse hspan, hb]
  rfl

end

end Sys2Proof.Machine
end

/-! Elements that the frame reads from bench (08:R173 to R175, 10:R213, R226, 07:R157): an element that may be read is its bytes, and
rows of B from bench are those bytes; then one step of a matrix instruction in every form, and the statement O30. -/

section
namespace Sys2Proof.Machine
open Claims

/-! ### An access of a unit to bench (10:R213). -/

theorem locate_of_benchAccess {s : State} {ea : Word} {o n : Nat} (h : BenchAccess s ea o n) (acc : FaultAccess) (unit : Bool) :
    s.locate ea n acc unit = .ok (.bench o) s := by
  have haddr : ea.toNat = 0xFF00_0000_0000 + o := h.address
  have hwindow := h.window
  have hhigh : ea.extractLsb' 48 16 = 0#16 := by
    apply BitVec.eq_of_toNat_eq
    rw [BitVec.extractLsb'_toNat, Nat.shiftRight_eq_div_pow, haddr]
    simp only [BitVec.toNat_ofNat]
    omega
  have hin : inBenchWindow ea.toNat = true := by
    simp only [inBenchWindow, haddr, Bool.and_eq_true, decide_eq_true_eq]
    omega
  have haligned : ea.toNat % n = 0 := h.aligned
  unfold State.locate
  rw [if_neg (by simp [hhigh]), if_neg (by simp [haligned]), if_pos hin, State.benchCheck_cases, haddr, Nat.add_sub_cancel_left,
    h.ways, h.owner]
  rfl

theorem countInvalid_nil (s : State) (key : Nat) : s.countInvalid (.part key) [] = s := by
  have hcount : s.hart.countInvalid 0 = s.hart := by
    unfold Hart.countInvalid
    rw [Nat.add_zero, if_pos s.hart.wcount.isLt, BitVec.add_zero]
  simp only [State.countInvalid, List.filter_nil, List.length_nil, List.foldl_nil, State.mapHart, State.mapCore, hcount]

theorem correct_of_sound {s : State} {o n : Nat}
    (h : (natRange (o / 8) ((o + n + 7) / 8 - o / 8)).any (natSetHas s.core.softBench) = false) : s.correct (.bench o) n = s := by
  have hnone : (natRange (o / 8) ((o + n + 7) / 8 - o / 8)).filter (natSetHas s.core.softBench) = [] := by
    rw [List.filter_eq_nil_iff]
    exact fun w hw => by simpa using List.any_eq_false.mp h w hw
  simp only [State.correct, hnone, List.foldl_nil]

/-- A read of valid words without a single-bit error: their bytes, or the trap of a poisoned one (21:R359). -/
theorem unitRead_bench {s : State} {ea : Word} {o n : Nat} (h : BenchAccess s ea o n) (hyp : BitVec 12) (key : Nat)
    (hstores : s.core.storeQ = []) (hchecked : s.core.checkedStores = []) (hvalid : s.core.invalidWords o n = [])
    (hsoft : (natRange (o / 8) ((o + n + 7) / 8 - o / 8)).any (natSetHas s.core.softBench) = false) :
    s.unitRead ea n hyp (.part key) = if s.core.benchPoisoned o n = true
      then .trap 0x0A#8 ea 10 (s.recordUe 2#4 (BitVec.ofNat 64 (3 * 2 ^ 62 + o / 8 * 8)))
      else .ok (s.core.benchNat o n) s := by
  have hforward : s.forward (.bench o) n hyp = .memory :=
    State.forward_memory s _ n hyp (by rw [hstores]; exact List.forall_mem_nil _) (by rw [hchecked]; exact List.forall_mem_nil _)
  have hcorrect : (if s.hart.act = 1#2 then s.countInvalid (.part key) [] else s).correct (.bench o) n = s := by
    rw [countInvalid_nil, ite_self, correct_of_sound hsoft]
  rw [State.unitRead, locate_of_benchAccess h, Res.andThen_ok]
  simp only [hforward, State.readTarget, hvalid, hcorrect]

theorem unitRead_clean {s : State} {ea : Word} {o n : Nat} (h : BenchAccess s ea o n) (hclean : CleanBench s o n) (hyp : BitVec 12)
    (key : Nat) (hstores : s.core.storeQ = []) (hchecked : s.core.checkedStores = []) :
    s.unitRead ea n hyp (.part key) = .ok (s.core.benchNat o n) s := by
  rw [unitRead_bench h hyp key hstores hchecked hclean.valid hclean.soft, hclean.poison]
  rfl

/-! ### Rows of B in bench (07:R157). -/

/-- The elements of the rows ks of B that lie below VL. -/
def UnitOp.elemsBelow (u : UnitOp) (ks : List Nat) : List (Nat × Nat) :=
  ks.flatMap (fun k => (List.range (u.rowLength k)).map (fun j => (k, j)))

theorem mem_elemsBelow {u : UnitOp} {ks : List Nat} {e : Nat × Nat} :
    e ∈ u.elemsBelow ks ↔ e.1 ∈ ks ∧ e.2 < frameCols u ∧ e.1 * frameCols u + e.2 < u.vl := by
  obtain ⟨k, j⟩ := e
  simp only [UnitOp.elemsBelow, List.mem_flatMap, List.mem_map, List.mem_range, UnitOp.rowLength, u.cols_eq, Prod.mk.injEq]
  constructor
  · rintro ⟨k', hk, j', hj, rfl, rfl⟩
    exact ⟨hk, by omega, by omega⟩
  · rintro ⟨hk, hj, hvl⟩
    exact ⟨k, hk, j, by omega, rfl, rfl⟩

/-- Elements that complete are read in order. -/
theorem fetchElems_eq {s : State} {u : UnitOp} {value : Nat × Nat → Nat} {es : List (Nat × Nat)} (got : List Nat)
    (h : ∀ e ∈ es, s.unitRead (u.ga + BitVec.ofNat 64 e.1 * u.gb + BitVec.ofNat 64 (e.2 * (u.sew / 8))) (u.sew / 8) u.hyp
      (.part ((e.1 + 1) * 2 ^ 21)) = .ok (value e) s) :
    State.fetchElems u es got s = (got ++ es.map value, .ok () s) := by
  induction es generalizing got with
  | nil => simp [State.fetchElems]
  | cons e es ih =>
    obtain ⟨he, hes⟩ := List.forall_mem_cons.mp h
    obtain ⟨k, j⟩ := e
    simp only [State.fetchElems, he, ih _ hes, List.map_cons, List.append_assoc, List.singleton_append]

/-- Elements below VL read one after another make the rows, with zeros beyond VL. -/
theorem splitRows_elemsBelow (u : UnitOp) (value : Nat → Nat → Nat) (ks : List Nat) :
    splitRows u ks ((u.elemsBelow ks).map (fun e => value e.1 e.2)) =
      rowsOf u (fun k j => if k * frameCols u + j < u.vl then value k j else 0) ks := by
  induction ks with
  | nil => rfl
  | cons k ks ih =>
    have hhead : (u.elemsBelow (k :: ks)).map (fun e => value e.1 e.2) =
        (List.range (u.rowLength k)).map (value k) ++ (u.elemsBelow ks).map (fun e => value e.1 e.2) := by
      simp [UnitOp.elemsBelow, Function.comp_def]
    have hrow : (List.range (u.rowLength k)).map (value k) ++ List.replicate (u.cols - u.rowLength k) 0 =
        (List.range (frameCols u)).map (fun j => if k * frameCols u + j < u.vl then value k j else 0) := by
      rw [u.cols_eq]
      have hle : u.rowLength k ≤ frameCols u := by rw [UnitOp.rowLength, u.cols_eq]; exact min_le_left _ _
      refine List.ext_getElem (by simp; omega) (fun j hj hj' => ?_)
      have hjc : j < frameCols u := by simpa using hj'
      have hiff : j < u.rowLength k ↔ k * frameCols u + j < u.vl := by
        rw [UnitOp.rowLength, u.cols_eq]
        omega
      by_cases hlt : j < u.rowLength k
      · simp [hlt, hiff.mp hlt]
      · simp [List.getElem_append, hlt, mt hiff.mpr hlt]
    have hlen : ((List.range (u.rowLength k)).map (value k)).length = u.rowLength k := by simp
    rw [hhead, splitRows, List.take_left' hlen, List.drop_left' hlen, hrow, ih]
    rfl

section
variable {s : State} {u : UnitOp} {a v : VReg} {ra rb : GReg} {xb sp : Bool} {o : Nat → Nat → Nat}

/-- The address of an element of B (07:R157). -/
def UnitOp.bAddress (u : UnitOp) (k j : Nat) : Word := u.ga + BitVec.ofNat 64 k * u.gb + BitVec.ofNat 64 (j * (u.sew / 8))

/-- The elements at bench offsets o as rows of B; an element at or beyond VL is not read, and is zero. -/
def State.fetchedRow (s : State) (u : UnitOp) (o : Nat → Nat → Nat) (k j : Nat) : Nat :=
  if k * Claims.frameCols u + j < u.vl then s.core.benchNat (o k j) (u.sew / 8) else 0

theorem runsSpan_of_bench (hi : u.instr = .mmoSt a ra rb v sp xb) (hgot : u.got = []) (hspan : SpanReady s u sp)
    (hstores : s.core.storeQ = []) (hchecked : s.core.checkedStores = [])
    (hreads : ∀ k j, k ∈ s.spanSteps u sp → j < frameCols u → k * frameCols u + j < u.vl →
      BenchAccess s (u.bAddress k j) (o k j) (u.sew / 8) ∧ CleanBench s (o k j) (u.sew / 8)) :
    RunsSpan s u sp (s.fetchedRow u o) := by
  have hfetch : State.fetchElems u (u.elemsBelow (s.spanSteps u sp)) [] s =
      ((u.elemsBelow (s.spanSteps u sp)).map (fun e => s.core.benchNat (o e.1 e.2) (u.sew / 8)), .ok () s) := by
    refine fetchElems_eq (value := fun e => s.core.benchNat (o e.1 e.2) (u.sew / 8)) [] (fun e he => ?_)
    obtain ⟨hk, hj, hvl⟩ := mem_elemsBelow.mp he
    obtain ⟨haccess, hclean⟩ := hreads e.1 e.2 hk hj hvl
    exact unitRead_clean haccess hclean u.hyp _ hstores hchecked
  have hrows := splitRows_elemsBelow u (fun k j => s.core.benchNat (o k j) (u.sew / 8)) (s.spanSteps u sp)
  have heff : s.frameEffect u = s.matrixStep u := by simp only [State.frameEffect, hi]
  have hnone : u.regB = none := by rw [UnitOp.regB, hi]
  have hsp : isSparse u.instr = sp := (matrixOp_mmoSt hi).sparse
  have hdrop (es : List (Nat × Nat)) : State.fetchElems u (es.drop u.got.length) u.got s = State.fetchElems u es [] s := by
    rw [hgot, List.length_nil, List.drop_zero]
  rw [RunsSpan, heff, State.matrixStep, nextSpan_eq hsp hspan]
  simp only [hnone, hdrop]
  simp only [UnitOp.elemsBelow, State.spanSteps] at hfetch hrows
  rw [hfetch]
  dsimp only
  rw [hrows]
  rfl

end

/-! ### The types of a matrix instruction (07:R145). -/

theorem matrixTypes_float {u : UnitOp} {xb : Bool} {ta tb : ElemType} (hxb : u.xb = xb) (hm : u.et = ta)
    (h : (ta, tb) ∈ (if xb = true then [(.e4m3, .e5m2), (.e5m2, .e4m3)] else
      [(.e4m3, .e4m3), (.e5m2, .e5m2), (.e2m1, .e2m1), (.bf16, .bf16), (.fp16, .fp16), (.fp32, .fp32)] :
        List (ElemType × ElemType))) :
    u.types = (ta, tb) ∧ u.et.isInt = false ∧ ta.isInt = false ∧ tb.isInt = false := by
  rw [UnitOp.types, hxb, hm]
  cases xb with
  | true =>
    simp only [if_true, List.mem_cons, List.not_mem_nil, or_false, Prod.mk.injEq] at h
    rcases h with ⟨rfl, rfl⟩ | ⟨rfl, rfl⟩ <;> decide
  | false =>
    simp only [Bool.false_eq_true, if_false, List.mem_cons, List.not_mem_nil, or_false, Prod.mk.injEq] at h
    rcases h with ⟨rfl, rfl⟩ | ⟨rfl, rfl⟩ | ⟨rfl, rfl⟩ | ⟨rfl, rfl⟩ | ⟨rfl, rfl⟩ | ⟨rfl, rfl⟩ <;> decide

/-- The window of 8-bit integers, by the types of the products (07:R146). -/
def windowPair (m : ElemType) (xb : Bool) : WinPair :=
  if m = .i8 ∧ xb = false then .ss else if m = .u8 ∧ xb = false then .uu else .su

/-- The types of an INT matrix instruction: those of A's element, and B's signedness swapped under XB. -/
structure IntMatrix (u : UnitOp) (xb : Bool) : Prop where
  int : u.et.isInt = true
  int1 : u.types.1.isInt = true
  int2 : u.types.2.isInt = true
  elem1 : ∀ x, elemInt u.types.1 x = asInt u.et.signed 8 x
  elem2 : ∀ x, elemInt u.types.2 x = asInt (if xb = true then !u.et.signed else u.et.signed) 8 x
  pair : pairOf u.types.1 u.types.2 = windowPair u.et xb
  depth : u.depth = 1

theorem intMatrix_of_type {u : UnitOp} {xb : Bool} (hxb : u.xb = xb) (hm : u.et = .i8 ∨ u.et = .u8) : IntMatrix u xb := by
  have htypes : u.types = (matrixTypes u.et xb).getD (.i8, .i8) := by rw [UnitOp.types, hxb]
  rcases hm with hm | hm <;> cases xb <;> rw [hm] at htypes <;>
    exact
      { int := by rw [hm]; rfl
        int1 := by rw [htypes]; rfl
        int2 := by rw [htypes]; rfl
        elem1 := fun x => by rw [htypes, hm]; rfl
        elem2 := fun x => by rw [htypes, hm]; rfl
        pair := by rw [htypes, hm]; rfl
        depth := by rw [UnitOp.depth, hm]; rfl }

theorem windowPair_ne_none (m : ElemType) (xb : Bool) : windowPair m xb ≠ .none := by
  unfold windowPair
  split_ifs <;> decide

/-- The window limit of an open window (03:R79). -/
theorem limit_of_open {p : WinPair} (h : p ≠ .none) : p.limit = if p = .ss then 511 else if p = .su then 257 else 129 := by
  cases p with
  | none => exact absurd rfl h
  | ss => rfl
  | su => rfl
  | uu => rfl

end Sys2Proof.Machine

namespace Sys2Proof
open Machine Claims

/-- Settles O30: in every form an event runs one span, whose kept values multiply B from rows that the form gives, and a cell or its
channels take the row's products in order. -/
theorem matrixStepsOfEveryForm : Obligations.MatrixStepsOfEveryForm := by
  unfold Obligations.MatrixStepsOfEveryForm
  intro a b v ra rb xb sp B o ta tb u rest s _ hu hparked hsnap m d R C P K k g top live sb nib n ea sampled fetched index kept scale
    aBits bBits after hstart hlive hfirst hform
  have hspan : SpanReady s u sp := by
    refine ⟨hstart, ?_, hfirst⟩
    obtain ⟨kk, hlo, htop, hcount, hact⟩ := hlive
    exact ⟨kk, hlo, htop, hcount, hact⟩
  have hop : MatrixOp a v xb sp u ∧ RunsSpan s u sp B := by
    rcases hform with ⟨hi, rfl, rfl⟩ | ⟨hi, rfl, rfl⟩ | ⟨hi, hgot, rfl, hstores, hchecked, hreads⟩
    · exact ⟨matrixOp_mmo v hi, runsSpan_of_register (by simp only [State.frameEffect, hi]) (by rw [UnitOp.regB, hi])
        (matrixOp_mmo v hi) hspan⟩
    · exact ⟨matrixOp_mmoSp hi, runsSpan_of_register (by simp only [State.frameEffect, hi]) (by rw [UnitOp.regB, hi])
        (matrixOp_mmoSp hi) hspan⟩
    · refine ⟨matrixOp_mmoSt hi, runsSpan_of_bench hi hgot hspan hstores hchecked (fun kk j hk hj hvl => ?_)⟩
      obtain ⟨hlo, htop, hcount, hact⟩ := mem_spanSteps.mp hk
      exact hreads kk j hlo htop hcount hact hj hvl
  obtain ⟨hop, hruns⟩ := hop
  constructor
  · intro htypes hm hclosed
    obtain ⟨hpair, hint, h1, h2⟩ := matrixTypes_float hop.xb hm htypes
    have hdone := floatSpan_completes hu hop hparked hsnap hspan hruns hint (by rw [hpair]; exact h1) (by rw [hpair]; exact h2)
      hclosed
    have hcell (c : Nat) : s.cellAfter u a v sp B c = (kept (c / C)).foldl (fun x e => (contribute x u.fe.toInt u.rnd (e.1 * 4096 + c)
        (factorProduct (factor ta (aBits (c / C) e.2) (scale false R e.1 (c / C)))
          (if d * K ≤ e.1 then some (false, 0, 0) else factor tb (bBits e.1 (c % C)) (scale true C e.1 (c % C))))).1)
        (cellOf s c) := by
      simp only [State.cellAfter, State.keptProduct, hpair]
      rfl
    simp only [hcell] at hdone
    exact hdone
  · intro sgn hm hsgn pair limit rise hpair hlimit hbound
    have hint := intMatrix_of_type hop.xb hm
    have hdone := intSpan_completes hu hop hparked hsnap hspan hruns hint.int hint.int1 hint.int2 (by rw [hint.pair]; exact hpair)
      (by rw [hint.pair, limit_of_open (windowPair_ne_none _ _)]; exact hlimit)
    rw [hint.pair] at hdone
    obtain ⟨t, ht, hframe, hchans, hrest⟩ := hdone
    refine ⟨t, ht, hframe, fun c hc => ?_, hrest⟩
    have hres := (hasResidues_refl (hbound c).1 (hbound c).2).foldl
      (s.keptInt u a B (c / frameCols u) (c % frameCols u)) (s.keptBelow u v sp (c / frameCols u))
    rw [← hchans c hc] at hres
    have hsum : (s.keptBelow u v sp (c / frameCols u)).foldl
        (fun p e => p + s.keptInt u a B (c / frameCols u) (c % frameCols u) e) 0 =
        ((kept (c / C)).filter (fun e => decide (e.1 < K))).foldl (fun x e =>
          x + asInt m.signed 8 (aBits (c / C) e.2) * asInt sgn 8 (bBits e.1 (c % C))) 0 := by
      simp only [State.keptBelow, State.keptInt, hint.elem1, hint.elem2, hint.depth, one_mul, hsgn]
      rfl
    rw [hsum] at hres
    exact hres

end Sys2Proof
end

/-! One k-step of mmo without scales (07:R144, R146, R149): the span of one k-step and one product for each cell. -/

section
namespace Sys2Proof.Machine
open Claims

/-! ### A k-step of one depth value (07:R144). -/

section
variable {s : State} {u : UnitOp}

theorem firstStep_lt_stepCount {u : UnitOp} (hstart : u.vstart % frameP u = 0) (hlt : u.vstart < u.vl) :
    u.firstStep < u.stepCount := by
  have hpos := frameP_pos u
  have hstep : u.firstStep * frameP u = u.vstart := by
    rw [UnitOp.firstStep, Nat.div_mul_cancel (Nat.dvd_of_mod_eq_zero hstart)]
  have hle : (u.firstStep + 1) * frameP u ≤ u.vl + frameP u - 1 := by
    rw [Nat.succ_mul, hstep]
    omega
  exact (Nat.le_div_iff_mul_le hpos).mpr hle

theorem spanReady_dense (hstart : u.vstart % frameP u = 0) (hlt : u.vstart < u.vl) (hlive : s.active u.mode u.firstStep = true) :
    SpanReady s u false :=
  ⟨hstart, ⟨u.firstStep, le_rfl, firstStep_lt_spanTop u false, firstStep_lt_stepCount hstart hlt, hlive⟩, .inr hlive⟩

/-- One value of each row is kept, at the depth of the k-step. -/
theorem keptAt_single (hdepth : u.depth = 1) (v : VReg) (i : Nat) :
    s.keptAt u v false u.firstStep i = [(u.firstStep, u.firstStep)] := by
  simp [State.keptAt, hdepth]

theorem keptBelow_single (hdepth : u.depth = 1) (hcount : u.firstStep < u.stepCount) (v : VReg) (i : Nat) :
    s.keptBelow u v false i = [(u.firstStep, u.firstStep)] := by
  rw [State.keptBelow, keptAt_single hdepth, hdepth, one_mul]
  simp [hcount]

/-- An element of vA, or zero at or beyond VL. -/
theorem aBits_single (hdepth : u.depth = 1) (a : VReg) (i k : Nat) :
    s.aBits u a i k = if k * frameRows u + i < u.vl then s.vGet a u.sew (k * frameRows u + i) else 0 := by
  rw [State.aBits, hdepth, Nat.div_one]
  rfl

theorem bBits_single (hdepth : u.depth = 1) (B : Nat → Nat → Nat) (k j : Nat) : bBits u B k j = B k j := by
  rw [bBits, hdepth, Nat.div_one]
  rfl

theorem scaleByte_none (hsb : modeSb u.mode = 0#2) (second : Bool) (dim kappa i : Nat) :
    s.scaleByte u second dim kappa i = 127 := by
  rw [State.scaleByte]
  exact if_pos (blockLen_of_none hsb)

end

/-- A product of two patterns without scales: one contribution, or the poison of a special value (07:R149, R151). -/
theorem contribute_unscaled {t : ElemType} {f : Fmt} (hf : t.fmt = some f) (c : BitVec 64) (fe : Int) (r : Rnd) (idx x y : Nat) :
    (contribute c fe r idx (factorProduct (factor t x 127) (factor t y 127))).1 =
      match f.decode x, f.decode y with
      | .fin sa ma ea, .fin sb mb eb => (contribute c fe r idx (some (sa != sb, ma * mb, ea + eb))).1
      | _, _ => 0x8000000000000000#64 := by
  have hfactor (z : Nat) : factor t z 127 = match f.decode z with
      | .fin neg m e => some (neg, m, e)
      | _ => none := by
    rw [factor, if_neg (by decide), ElemType.value, hf]
    dsimp only
    cases f.decode z with
    | fin neg m e => simp
    | inf neg => rfl
    | nan sig => rfl
  rw [hfactor, hfactor]
  cases f.decode x with
  | fin sa ma ea => cases f.decode y <;> rfl
  | inf neg => rfl
  | nan sig => rfl

end Sys2Proof.Machine

namespace Sys2Proof
open Machine Claims

theorem matrixStep : MatrixStep := by
  intro a b xb u rest s _ hu hparked hsnap hi m k hsb hstart hlt hlive at_ av bv after
  have hspan : SpanReady s u false := spanReady_dense hstart hlt hlive
  have hcount : u.firstStep < u.stepCount := firstStep_lt_stepCount hstart hlt
  have hop : MatrixOp a 0 xb false u := matrixOp_mmo 0 hi
  have hruns : RunsSpan s u false (s.sampledRow u b) :=
    runsSpan_of_register (by simp only [State.frameEffect, hi]) (by rw [UnitOp.regB, hi]) hop hspan
  constructor
  · intro sb hm hsgn pair limit hpair hlimit
    have hint := intMatrix_of_type hop.xb hm
    have hdone := intSpan_completes hu hop hparked hsnap hspan hruns hint.int hint.int1 hint.int2 (by rw [hint.pair]; exact hpair)
      (by rw [hint.pair, limit_of_open (windowPair_ne_none _ _)]; exact hlimit)
    rw [hint.pair] at hdone
    obtain ⟨t, ht, hframe, hchans, hcells, hwin, hopen, hfsr⟩ := hdone
    refine ⟨t, ht, hframe, fun n hn => ?_, hcells, hwin, hopen.trans (if_neg (Nat.succ_ne_zero _)), hfsr⟩
    have hsb' : sb = if xb = true then !u.et.signed else u.et.signed := hsgn
    have hres := hasResidues_add (chanOf s n) (s.keptInt u a (s.sampledRow u b) (n / frameCols u) (n % frameCols u)
      (u.firstStep, u.firstStep))
    have hchan := hchans n hn
    rw [keptBelow_single hint.depth hcount, List.foldl_cons, List.foldl_nil] at hchan
    rw [← hchan, State.keptInt, hint.elem1, hint.elem2, aBits_single hint.depth, bBits_single hint.depth, ← hsb'] at hres
    exact hres
  · intro f hm hxb hf hclosed
    have htypes : (m, m) ∈ (if xb = true then [(.e4m3, .e5m2), (.e5m2, .e4m3)] else
        [(.e4m3, .e4m3), (.e5m2, .e5m2), (.e2m1, .e2m1), (.bf16, .bf16), (.fp16, .fp16), (.fp32, .fp32)] :
          List (ElemType × ElemType)) := by
      rw [hxb]
      rcases hm with hm | hm | hm <;> rw [hm] <;> decide
    have hdepth : u.depth = 1 := by
      show depthOf m = 1
      rcases hm with hm | hm | hm <;> rw [hm] <;> rfl
    obtain ⟨hpair, hint, h1, h2⟩ := matrixTypes_float hop.xb rfl htypes
    obtain ⟨t, ht, hframe, hcells, hrest⟩ := floatSpan_completes hu hop hparked hsnap hspan hruns hint
      (by rw [hpair]; exact h1) (by rw [hpair]; exact h2) hclosed
    refine ⟨t, ht, hframe, fun n hn => ?_, hrest⟩
    have hnot : ¬u.depth * u.stepCount ≤ u.firstStep := by rw [hdepth, one_mul]; exact Nat.not_le.mpr hcount
    rw [hcells n hn, State.cellAfter, keptAt_single hdepth, List.foldl_cons, List.foldl_nil, State.keptProduct, hpair,
      if_neg hnot, scaleByte_none hsb, scaleByte_none hsb, aBits_single hdepth, bBits_single hdepth]
    exact contribute_unscaled hf _ _ _ _ _ _

end Sys2Proof
end

/-! fsave and fload (07:R163, 21:R359): a word of bench written or read for a cell, and a block of them; then the statement O31. -/

section
namespace Sys2Proof.Machine
open Claims

/-! ### A word of bench written (08:R174, 10:R213). -/

/-- The state as it was but for the bytes of bench and what is known of their words. -/
structure BenchOnly (s t : State) : Prop where
  hart : t.hart = s.hart
  pkg : t.pkg = s.pkg
  core : t.core = { s.core with
    bench := t.core.bench, benchInvalid := t.core.benchInvalid, benchPoison := t.core.benchPoison
    softBench := t.core.softBench }

theorem BenchOnly.refl (s : State) : BenchOnly s s := ⟨rfl, rfl, rfl⟩

theorem BenchOnly.trans {s t v : State} (h : BenchOnly s t) (h' : BenchOnly t v) : BenchOnly s v where
  hart := h'.hart.trans h.hart
  pkg := h'.pkg.trans h.pkg
  core := h'.core.trans (by rw [h.core])

theorem BenchOnly.cell {s t : State} (h : BenchOnly s t) (n : Nat) : cellOf t n = cellOf s n := by rw [cellOf, h.core]; rfl

theorem benchAccess_congr {s t : State} {ea : Word} {o n : Nat} (hctx : t.hart.ctxid = s.hart.ctxid)
    (hways : t.core.ways = s.core.ways) (hengine : t.core.benchEngine = s.core.benchEngine) (h : BenchAccess s ea o n) :
    BenchAccess t ea o n where
  address := h.address
  window := h.window
  aligned := h.aligned
  ways := by
    have hw := h.ways
    unfold Core.benchIn Core.benchWay at hw ⊢
    rwa [hways, hctx]
  owner := by
    have ho := h.owner
    unfold Core.engineOwned at ho ⊢
    rwa [hengine]

/-- The word at a bench offset is aligned. -/
theorem benchAccess_aligned {s : State} {ea : Word} {o : Nat} (h : BenchAccess s ea o 8) : o % 8 = 0 := by
  have haddr := h.address
  have haligned := h.aligned
  omega

/-- Bench may be written without a shadow and without an injected error. -/
structure WritesPlainly (s : State) : Prop where
  stores : s.core.storeQ = []
  captured : s.core.captured = none
  shadows : s.core.shadows = []
  inject : s.core.injArm = false
  bench : sparseWf (0 : Byte) s.core.bench = true
  invalid : sparseWf false s.core.benchInvalid = true

theorem shadow_of_free {c : Core} (h : c.captured = none) (g : Nat) : c.shadow g = c := by
  unfold Core.shadow
  rw [h]
  rfl

theorem foldl_shadow_of_free {c : Core} (h : c.captured = none) (gs : List Nat) : gs.foldl Core.shadow c = c := by
  induction gs with
  | nil => rfl
  | cons g gs ih => rw [List.foldl_cons, shadow_of_free h, ih]

theorem fitShadows_of_none {s : State} (h : s.core.shadows = []) : s.fitShadows = s := by
  rw [State.fitShadows, h]
  rfl

theorem injectBench_of_unarmed {c : Core} (h : c.injArm = false) (w : Nat) : c.injectBench w = c := by
  simp [Core.injectBench, h]

/-- Bench with an aligned word written. -/
def Core.wordBench (c : Core) (o : Nat) (v : Nat) : List Host.Cell :=
  cellsSet (((natRange (o / 8) 1).filter (natSetHas c.benchInvalid)).foldl
    (fun m w => cellsSet m (w * 8) (List.replicate 8 0)) c.bench) o (leBytes 8 v)

theorem benchWrite_word {c : Core} {o : Nat} (v : Nat) (hcap : c.captured = none) (hinj : c.injArm = false) (ho : o % 8 = 0) :
    (c.benchWrite o (leBytes 8 v)).bench = c.wordBench o v ∧
      c.benchWrite o (leBytes 8 v) = { c with
        bench := (c.benchWrite o (leBytes 8 v)).bench, benchInvalid := (c.benchWrite o (leBytes 8 v)).benchInvalid
        benchPoison := (c.benchWrite o (leBytes 8 v)).benchPoison, softBench := (c.benchWrite o (leBytes 8 v)).softBench } := by
  have hone : (o + 8 + 7) / 8 - o / 8 = 1 := by omega
  unfold Core.benchWrite
  simp only [foldl_shadow_of_free hcap, leBytes_length, hone]
  rw [injectBench_of_unarmed]
  · exact ⟨rfl, rfl⟩
  · exact hinj

/-- Zeroing a word and writing it leave the bytes beside it. -/
theorem wordBench_wf {c : Core} {o : Nat} (hwf : Memory.wf c.bench = true) : Memory.wf (((natRange (o / 8) 1).filter
    (natSetHas c.benchInvalid)).foldl (fun m w => cellsSet m (w * 8) (List.replicate 8 0)) c.bench) = true :=
  sparseWf_foldl _ _ _ _ (fun _ _ h => cellsSet_wf _ _ _ h) hwf

theorem cellGet_wordBench_outside {c : Core} {o z : Nat} (v : Nat) (hwf : Memory.wf c.bench = true) (ho : o % 8 = 0)
    (hz : z < o ∨ o + 8 ≤ z) : cellGet (c.wordBench o v) z = cellGet c.bench z := by
  rw [Core.wordBench, cellGet_cellsSet_outside _ _ _ _ (wordBench_wf hwf) (by rwa [leBytes_length])]
  have hword : o / 8 * 8 = o := by omega
  have hlist : natRange (o / 8) 1 = [o / 8] := rfl
  rw [hlist, List.filter_singleton, Bool.cond_eq_ite]
  split
  · rw [List.foldl_cons, List.foldl_nil, hword]
    exact cellGet_cellsSet_outside _ _ _ _ hwf (by simpa using hz)
  · rfl

theorem cellsNat_wordBench {c : Core} {o : Nat} (v : Nat) (hwf : Memory.wf c.bench = true) :
    cellsNat (c.wordBench o v) o 8 = v % 2 ^ 64 := by
  have h := cellsGet_cellsSet _ o (leBytes 8 v) (wordBench_wf (c := c) (o := o) hwf)
  rw [leBytes_length] at h
  rw [cellsNat, Core.wordBench, h, ofBytes_leBytes]

/-- A unit writes a word of bench outside any hypothesis. -/
theorem unitWrite_word {s : State} {ea : Word} {o : Nat} (v : Nat) (hw : WritesPlainly s) (h : BenchAccess s ea o 8) :
    ∃ t, s.unitWrite ea 8 v 0#12 = .ok () t ∧ BenchOnly s t ∧ WritesPlainly t ∧ t.core.bench = s.core.wordBench o v := by
  obtain ⟨hbench, hcore⟩ := benchWrite_word v hw.captured hw.inject (benchAccess_aligned h)
  have hwf := Core.benchWrite_wf s.core o (leBytes 8 v) hw.bench hw.invalid
  have hshadow : (s.mapCore (fun c => c.benchWrite o (leBytes 8 v))).core.shadows = [] := by
    rw [State.mapCore_core, hcore]
    exact hw.shadows
  have hchecks : s.writeChecks ea 8 .write false 0#12 true = .ok (.bench o) s := by
    unfold State.writeChecks
    rw [locate_of_benchAccess h, Res.andThen_ok]
    simp only [State.writeCheck_root, Bool.false_eq_true, if_false, State.race_bench, State.takeShadows, hw.captured,
      Option.isSome_none]
  refine ⟨s.mapCore (fun c => c.benchWrite o (leBytes 8 v)), ?_, ⟨rfl, rfl, hcore⟩, ?_, hbench⟩
  · have htag : s.storeTag 0#12 = some 0#12 := if_pos rfl
    simp only [State.unitWrite, hw.stores, List.isEmpty_nil, if_true, htag, hchecks, Res.andThen_ok, State.perform, State.benchStore,
      fitShadows_of_none hshadow]
  · exact
      { stores := by rw [State.mapCore_core, hcore]; exact hw.stores
        captured := by rw [State.mapCore_core, hcore]; exact hw.captured
        shadows := hshadow
        inject := by rw [State.mapCore_core, hcore]; exact hw.inject
        bench := hwf.1
        invalid := hwf.2 }

/-! ### A block of fsave (07:R163). -/

/-- The address of a cell in memory. -/
def UnitOp.cellAddress (u : UnitOp) (n : Nat) : Word := u.ga + BitVec.ofNat 64 (8 * n)

/-- Cells of one block lie in words apart. -/
theorem cell_words_apart {s : State} {u : UnitOp} {o : Nat → Nat} {m n : Nat} (hm : BenchAccess s (u.cellAddress m) (o m) 8)
    (hn : BenchAccess s (u.cellAddress n) (o n) 8) (hne : m ≠ n) (hclose : m < n + 8 ∧ n < m + 8) :
    o m + 8 ≤ o n ∨ o n + 8 ≤ o m := by
  have ham := hm.address
  have han := hn.address
  simp only [uv, UnitOp.cellAddress, BitVec.toNat_add, BitVec.toNat_ofNat] at ham han
  have := u.ga.isLt
  omega

/-- Cells were stored at bench offsets, and no other byte of bench was written. -/
structure CellsSaved (o : Nat → Nat) (ns : List Nat) (s t : State) : Prop where
  rest : BenchOnly s t
  saved : ∀ n ∈ ns, t.core.benchNat (o n) 8 = (cellOf s n).toNat
  beside : ∀ z, (∀ n ∈ ns, z < o n ∨ o n + 8 ≤ z) → cellGet t.core.bench z = cellGet s.core.bench z

theorem saveCells_eq {s : State} {u : UnitOp} {o : Nat → Nat} {ns : List Nat} (hyp : u.hyp = 0#12) (hw : WritesPlainly s)
    (haccess : ∀ n ∈ ns, BenchAccess s (u.cellAddress n) (o n) 8)
    (hapart : ns.Pairwise (fun m n => o m + 8 ≤ o n ∨ o n + 8 ≤ o m)) :
    ∃ t, State.saveCells u ns s = (cellCount, .ok () t) ∧ CellsSaved o ns s t := by
  induction ns generalizing s with
  | nil => exact ⟨s, rfl, .refl s, fun _ h => absurd h (by simp), fun _ _ => rfl⟩
  | cons n ns ih =>
    obtain ⟨hn, hns⟩ := List.forall_mem_cons.mp haccess
    obtain ⟨hhead, htail⟩ := List.pairwise_cons.mp hapart
    obtain ⟨t, ht, hrest, hw', hbench⟩ := unitWrite_word (cellOf s n).toNat hw hn
    have hns' : ∀ m ∈ ns, BenchAccess t (u.cellAddress m) (o m) 8 := fun m hm =>
      benchAccess_congr (by rw [hrest.hart]) (by rw [hrest.core]) (by rw [hrest.core]) (hns m hm)
    obtain ⟨t', ht', hdone⟩ := ih hw' hns' htail
    refine ⟨t', ?_, hrest.trans hdone.rest, ?_, ?_⟩
    · rw [State.saveCells, hyp, show s.unitWrite (u.ga + BitVec.ofNat 64 (8 * n)) 8 (sparseGet 0#64 s.core.cells n).toNat 0#12 = _
        from ht]
      exact ht'
    · intro m hm
      rcases List.mem_cons.mp hm with rfl | hm
      · have hkept : cellsGet t'.core.bench (o m) 8 = cellsGet t.core.bench (o m) 8 :=
          cellsGet_congr _ _ _ _ (fun k hk => hdone.beside _ (fun x hx => by have := hhead x hx; omega))
        have hword := cellsNat_wordBench (c := s.core) (o := o m) (cellOf s m).toNat hw.bench
        rw [← hbench, Nat.mod_eq_of_lt (cellOf s m).isLt] at hword
        rw [Core.benchNat, cellsNat, hkept]
        exact hword
      · rw [hdone.saved m hm, hrest.cell]
    · intro z hz
      obtain ⟨hzn, hzns⟩ := List.forall_mem_cons.mp hz
      rw [hdone.beside z hzns, hbench, cellGet_wordBench_outside _ hw.bench (benchAccess_aligned hn) hzn]

/-! ### A block of fload (07:R163, 21:R359). -/

/-- The state as it was but for FSR, the cells and the error registers. -/
structure LoadOnly (s t : State) : Prop where
  hart : t.hart = { s.hart with fsr := t.hart.fsr }
  pkg : t.pkg = s.pkg
  core : t.core = { s.core with
    cells := t.core.cells, badCells := t.core.badCells, ue := t.core.ue, ovf := t.core.ovf, uesrc := t.core.uesrc
    uectx := t.core.uectx, erraddr := t.core.erraddr }

theorem LoadOnly.refl (s : State) : LoadOnly s s := ⟨rfl, rfl, rfl⟩

theorem LoadOnly.trans {s t v : State} (h : LoadOnly s t) (h' : LoadOnly t v) : LoadOnly s v where
  hart := h'.hart.trans (by rw [h.hart])
  pkg := h'.pkg.trans h.pkg
  core := h'.core.trans (by rw [h.core])

/-- The word of a cell may be read: valid, without a single-bit error, and with no store before it. -/
structure WordReadable (s : State) (u : UnitOp) (o n : Nat) : Prop where
  access : BenchAccess s (u.cellAddress n) o 8
  stores : s.core.storeQ = []
  checked : s.core.checkedStores = []
  valid : s.core.invalidWords o 8 = []
  sound : natSetHas s.core.softBench (o / 8) = false

theorem WordReadable.of_loadOnly {s t : State} {u : UnitOp} {o n : Nat} (hr : WordReadable s u o n) (h : LoadOnly s t) :
    WordReadable t u o n where
  access := benchAccess_congr (by rw [h.hart]) (by rw [h.core]) (by rw [h.core]) hr.access
  stores := by rw [h.core]; exact hr.stores
  checked := by rw [h.core]; exact hr.checked
  valid := by rw [h.core]; exact hr.valid
  sound := by rw [h.core]; exact hr.sound

/-- What a cell takes from its word, and the flag of a poisoned one. -/
def Core.loadedCell (c : Core) (o : Nat) : BitVec 64 :=
  if c.benchPoisoned o 8 = true then 0x8000000000000000#64 else BitVec.ofNat 64 (c.benchNat o 8)
def Core.loadedFlags (c : Core) (o : Nat) : Flags := if c.benchPoisoned o 8 = true then Flags.fmc else 0#5

theorem recordUe_loadOnly (s : State) (src : BitVec 4) (addr : Word) : LoadOnly s (s.recordUe src addr) := by
  refine ⟨rfl, rfl, ?_⟩
  unfold State.recordUe
  rw [State.mapCore_core]
  split_ifs <;> rfl

theorem recordUe_cells (s : State) (src : BitVec 4) (addr : Word) : (s.recordUe src addr).core.cells = s.core.cells := by
  unfold State.recordUe
  rw [State.mapCore_core]
  split_ifs <;> rfl

theorem loadCell_eq {s : State} {u : UnitOp} {o n : Nat} (hr : WordReadable s u o n) :
    ∃ t, s.loadCell u n = .ok () t ∧ LoadOnly s t ∧ t.core.cells = sparseSet 0#64 s.core.cells n (s.core.loadedCell o) ∧
      t.hart.fsr = s.hart.fsr ||| s.core.loadedFlags o := by
  have hsound : (natRange (o / 8) ((o + 8 + 7) / 8 - o / 8)).any (natSetHas s.core.softBench) = false := by
    have hone : (o + 8 + 7) / 8 - o / 8 = 1 := by
      have := benchAccess_aligned hr.access
      omega
    rw [hone, show natRange (o / 8) 1 = [o / 8] from rfl]
    simp [hr.sound]
  have hread : s.unitRead (u.ga + BitVec.ofNat 64 (8 * n)) 8 u.hyp (.part 0) = _ :=
    unitRead_bench hr.access u.hyp 0 hr.stores hr.checked hr.valid hsound
  unfold State.loadCell Core.loadedCell Core.loadedFlags
  rw [hread]
  by_cases hpoison : s.core.benchPoisoned o 8 = true
  · simp only [if_pos hpoison]
    have hue := recordUe_loadOnly s 2#4 (BitVec.ofNat 64 (3 * 2 ^ 62 + o / 8 * 8))
    refine ⟨_, rfl, hue.trans ⟨rfl, rfl, rfl⟩, ?_, rfl⟩
    rw [← recordUe_cells s 2#4 (BitVec.ofNat 64 (3 * 2 ^ 62 + o / 8 * 8))]
    rfl
  · simp only [if_neg hpoison]
    exact ⟨_, rfl, ⟨rfl, rfl, rfl⟩, rfl, BitVec.or_zero.symm⟩

/-- Cells were loaded from bench offsets. -/
structure CellsLoaded (o : Nat → Nat) (ns : List Nat) (s t : State) : Prop where
  rest : LoadOnly s t
  cells : ∀ n, cellOf t n = if n ∈ ns then s.core.loadedCell (o n) else cellOf s n
  clean : (∀ n ∈ ns, s.core.benchPoisoned (o n) 8 = false) → t.hart.fsr = s.hart.fsr
  poisoned : (∃ n ∈ ns, s.core.benchPoisoned (o n) 8 = true) → t.hart.fsr = s.hart.fsr ||| Flags.fmc

theorem loadCells_eq {s : State} {u : UnitOp} {o : Nat → Nat} {ns : List Nat} (hwf : sparseWf 0#64 s.core.cells = true)
    (hr : ∀ n ∈ ns, WordReadable s u (o n) n) (hnodup : ns.Nodup) :
    ∃ t, State.loadCells u ns s = (cellCount, .ok () t) ∧ CellsLoaded o ns s t := by
  induction ns generalizing s with
  | nil => exact ⟨s, rfl, .refl s, fun _ => by simp, fun _ => rfl, fun h => by simp at h⟩
  | cons n ns ih =>
    obtain ⟨hn, hns⟩ := List.forall_mem_cons.mp hr
    obtain ⟨hnot, hnodup⟩ := List.nodup_cons.mp hnodup
    obtain ⟨t, ht, hrest, hcells, hfsr⟩ := loadCell_eq hn
    have hsame (x : Nat) : t.core.loadedCell x = s.core.loadedCell x ∧ t.core.benchPoisoned x 8 = s.core.benchPoisoned x 8 := by
      rw [hrest.core]
      exact ⟨rfl, rfl⟩
    obtain ⟨t', ht', hdone⟩ := ih (by rw [hcells]; exact sparseWf_set _ _ _ _ hwf) (fun m hm => (hns m hm).of_loadOnly hrest) hnodup
    refine ⟨t', by simp only [State.loadCells, ht, ht'], hrest.trans hdone.rest, ?_, ?_, ?_⟩
    · intro m
      rw [hdone.cells, (hsame _).1]
      have hcell : cellOf t m = if m = n then s.core.loadedCell (o n) else cellOf s m := by
        rw [cellOf, hcells, sparseGet_set hwf]
        rfl
      by_cases hm : m = n
      · subst hm
        simp [hnot, hcell]
      · simp [hm, hcell]
    · intro hclean
      obtain ⟨hcn, hcns⟩ := List.forall_mem_cons.mp hclean
      rw [hdone.clean (fun m hm => (hsame _).2.trans (hcns m hm)), hfsr, Core.loadedFlags, hcn]
      exact BitVec.or_zero
    · rintro ⟨m, hm, hpm⟩
      by_cases htail : ∃ m ∈ ns, s.core.benchPoisoned (o m) 8 = true
      · obtain ⟨x, hx, hpx⟩ := htail
        rw [hdone.poisoned ⟨x, hx, (hsame _).2.trans hpx⟩, hfsr, Core.loadedFlags, BitVec.or_assoc]
        split_ifs <;> rfl
      · have hclean : ∀ x ∈ ns, s.core.benchPoisoned (o x) 8 = false := fun x hx =>
          Bool.eq_false_iff.mpr (fun hpx => htail ⟨x, hx, hpx⟩)
        have hhead : m = n := (List.mem_cons.mp hm).resolve_right (fun hx => htail ⟨m, hx, hpm⟩)
        rw [hdone.clean (fun x hx => (hsame _).2.trans (hclean x hx)), hfsr, Core.loadedFlags, ← hhead, if_pos hpm]

/-! ### A block ends (07:R163). -/

/-- The queue after a block: the operation at the next block, or gone. -/
def UnitOp.afterBlock (u : UnitOp) (rest : List UnitOp) : List UnitOp :=
  if 4096 ≤ u.vstart / 8 * 8 + 8 then rest else { u with vstart := u.vstart / 8 * 8 + 8, busy := false } :: rest

theorem endBlock_ok {t : State} {u : UnitOp} {rest : List UnitOp} (hunits : t.core.units = u :: rest) (n : Nat) :
    State.endBlock u (u.vstart / 8 * 8 + 8) (n, .ok () t) = t.mapCore (fun c => { c with units := u.afterBlock rest }) := by
  unfold State.endBlock UnitOp.afterBlock
  dsimp only
  by_cases hend : 4096 ≤ u.vstart / 8 * 8 + 8
  · rw [if_pos (show cellCount ≤ _ from hend), if_pos hend]
    exact dropUnit_units hunits rfl
  · rw [if_neg (show ¬cellCount ≤ _ from hend), if_neg hend]
    exact setUnit_head hunits rfl

/-- The cells of the next block. -/
def UnitOp.blockCells (u : UnitOp) : List Nat := natRange u.vstart (u.vstart / 8 * 8 + 8 - u.vstart)

theorem mem_blockCells {u : UnitOp} {n : Nat} : n ∈ u.blockCells ↔ u.vstart ≤ n ∧ n < u.vstart / 8 * 8 + 8 := by
  rw [UnitOp.blockCells, mem_natRange]
  omega

theorem blockCells_nodup (u : UnitOp) : u.blockCells.Nodup :=
  List.nodup_range.map (fun _ _ h => Nat.add_left_cancel h)

theorem checkCells_of_none {s : State} (h : s.core.badCells = []) (ns : List Nat) : s.checkCells ns = s := by
  rw [State.checkCells, h]
  rfl

end Sys2Proof.Machine

namespace Sys2Proof
open Machine Claims

theorem frameSaveAndLoad : FrameSaveAndLoad := by
  intro a o u rest s hu hparked hsnap hlt hstores hwf top block after haccess
  have hblock (n : Nat) : n ∈ u.blockCells ↔ block n := mem_blockCells
  have hnot : ¬cellCount ≤ u.vstart := Nat.not_le.mpr hlt
  constructor
  · intro hi hyp hsuper hbench hpair hcount
    have hw : WritesPlainly s :=
      { stores := hstores
        captured := hsuper.captured
        shadows := hsuper.shadows
        inject := hu.inject
        bench := hbench.1
        invalid := hbench.2 }
    have hapart : u.blockCells.Pairwise (fun m n => o m + 8 ≤ o n ∨ o n + 8 ≤ o m) := by
      refine (blockCells_nodup u).imp_of_mem (fun {m n} hm hn hne => ?_)
      have hm' := mem_blockCells.mp hm
      have hn' := mem_blockCells.mp hn
      exact cell_words_apart (haccess m ((hblock m).mp hm)) (haccess n ((hblock n).mp hn)) hne (by omega)
    obtain ⟨t, ht, hdone⟩ := saveCells_eq hyp hw (fun n hn => haccess n ((hblock n).mp hn)) hapart
    have hunits : t.core.units = u :: rest := by
      rw [hdone.rest.core]
      exact hu.head
    have heff : s.frameEffect u = t.mapCore (fun c => { c with units := u.afterBlock rest }) := by
      have hsame : s.conclude.checkCells u.blockCells = s := by
        rw [conclude_of_closed hpair hcount, checkCells_of_none hu.cells]
      rw [← endBlock_ok hunits cellCount, ← ht]
      simp only [State.frameEffect, hi, State.frameBlock, if_neg hnot, if_true]
      exact congrArg (fun x => State.endBlock u _ (State.saveCells u u.blockCells x)) hsame
    refine ⟨_, (exec_frameKstep hu (by rw [hi]; rfl) hparked hsnap).trans (congrArg _ heff), ?_, ?_, ?_, ?_, rfl, ?_, hdone.rest.hart,
      hdone.rest.pkg⟩
    · exact fun n hn => hdone.saved n ((hblock n).mpr hn)
    · intro z hz
      have hbyte := hdone.beside z (fun n hn => hz n ((hblock n).mp hn))
      exact congrArg (fun b => ofBytes [b]) hbyte
    · intro z
      show t.peek z 1 = s.peek z 1
      unfold State.peek Core.owned
      rw [hdone.rest.core, hdone.rest.pkg]
    · exact hdone.rest.cell
    · show t.core.vrows = s.core.vrows
      rw [hdone.rest.core]
  · intro hi hchecked hclean
    have hr : ∀ n ∈ u.blockCells, WordReadable s.closeWindows u (o n) n := fun n hn =>
      { access := benchAccess_congr (s := s) (t := s.closeWindows) rfl rfl rfl (haccess n ((hblock n).mp hn))
        stores := hstores
        checked := hchecked
        valid := (hclean n ((hblock n).mp hn)).1
        sound := (hclean n ((hblock n).mp hn)).2 }
    obtain ⟨t, ht, hdone⟩ := loadCells_eq (s := s.closeWindows) hwf hr (blockCells_nodup u)
    have hunits : t.core.units = u :: rest := by
      rw [hdone.rest.core]
      exact hu.head
    have heff : s.frameEffect u = t.mapCore (fun c => { c with units := u.afterBlock rest }) := by
      rw [← endBlock_ok hunits cellCount, ← ht]
      simp only [State.frameEffect, hi, State.frameBlock, if_neg hnot, Bool.false_eq_true, if_false]
      rfl
    refine ⟨_, (exec_frameKstep hu (by rw [hi]; rfl) hparked hsnap).trans (congrArg _ heff), ?_, ?_, ?_, ?_, rfl, hdone.rest.hart, ?_,
      hdone.rest.pkg, ?_, ?_, ?_⟩
    · intro n
      have hcell := hdone.cells n
      simp only [hblock] at hcell
      exact hcell
    · intro n
      show chanOf t n = Chan.zero
      rw [chanOf, hdone.rest.core]
      rfl
    · show t.core.winCount = 0
      rw [hdone.rest.core]
      rfl
    · show t.core.winPair = .none
      rw [hdone.rest.core]
      rfl
    · show t.core.vrows = s.core.vrows
      rw [hdone.rest.core]
      rfl
    · refine sameBytes_of_eq ?_ ?_ (congrArg Pkg.mem hdone.rest.pkg :)
      · show t.core.lines = s.core.lines
        rw [hdone.rest.core]
        rfl
      · show t.core.bench = s.core.bench
        rw [hdone.rest.core]
        rfl
    · exact fun hnone => hdone.clean (fun n hn => hnone n ((hblock n).mp hn))
    · rintro ⟨n, hn, hp⟩
      exact hdone.poisoned ⟨n, (hblock n).mpr hn, hp⟩

/-- Settles O31: the conclusion takes the integer that the channels represent, a k-step of one depth value adds one product to every
cell, and a block moves its cells word by word. -/
theorem frameOperations : Obligations.FrameOperations := by
  unfold Obligations.FrameOperations
  exact ⟨frameClearAndConclude, matrixStep, frameSaveAndLoad⟩

end Sys2Proof
end

/-! fdrain and frowadd (07:R161, R162, log 55): the elements that an fdrain has drained when its next one comes, what they leave,
and the contribution of a frowadd to a cell; then the statement O29. -/

section
namespace Sys2Proof.Machine
open Claims

/-! ### Elements drained in order (07:R161). -/

/-- Element n takes its scale from the registers as they are. -/
def State.columnScale (t : State) (u : UnitOp) (vc : Option VReg) (n : Nat) : FVal :=
  vc.elim (.fin false 1 0) (fun k => Fmt.fp32.decode (t.vGet k 32 (n % Claims.frameCols u)))

/-- Cell n cleared, where z asks for it. -/
def State.clearCell (t : State) (z : Bool) (n : Nat) : State :=
  if z then t.mapCore (fun c => { c with cells := sparseSet 0#64 c.cells n 0#64 }) else t

/-- One element drained. -/
def State.drainOne (u : UnitOp) (d : VReg) (vc : Option VReg) (z : Bool) (t : State) (n : Nat) : State :=
  (t.vSet d u.sew n (drainElem u n (cellOf t n) (t.columnScale u vc n)).bits).clearCell z n

/-- The elements below top drained, in order. -/
def State.drainTo (s : State) (u : UnitOp) (d : VReg) (vc : Option VReg) (z : Bool) (top : Nat) : State :=
  ((natRange u.vstart (top - u.vstart)).filter (s.active u.mode)).foldl (State.drainOne u d vc z) s

/-- fdrain drains element n, if it lies below VL. -/
abbrev Drains (s : State) (u : UnitOp) (n : Nat) : Prop := u.vstart ≤ n ∧ s.active u.mode n = true

/-- What element n becomes: its scale is read after the lower elements have been drained (log 55). -/
def State.drainBits (s : State) (u : UnitOp) (d : VReg) (vc : Option VReg) (z : Bool) (n : Nat) : Nat :=
  (drainElem u n (cellOf s n) ((s.drainTo u d vc z n).columnScale u vc n)).bits

theorem natRange_filter_succ (p : Nat → Bool) (a n : Nat) : (natRange a (n + 1 - a)).filter p =
    (natRange a (n - a)).filter p ++ (if a ≤ n ∧ p n = true then [n] else []) := by
  by_cases ha : a ≤ n
  · have hlast : a + (n - a) = n := by omega
    rw [Nat.succ_sub ha, natRange, natRange, List.range_succ, List.map_append, List.map_singleton, List.filter_append,
      List.filter_singleton, hlast, Bool.cond_eq_ite]
    simp only [ha, true_and]
  · rw [if_neg (fun h => ha h.1), List.append_nil, show n + 1 - a = n - a by omega]

section
variable {s t : State} {u : UnitOp} {d : VReg} {vc : Option VReg} {z : Bool} {n top : Nat}

theorem drainTo_zero : s.drainTo u d vc z 0 = s := by
  rw [State.drainTo, Nat.zero_sub]
  rfl

theorem drainTo_succ : s.drainTo u d vc z (n + 1) =
    if Drains s u n then State.drainOne u d vc z (s.drainTo u d vc z n) n else s.drainTo u d vc z n := by
  rw [State.drainTo, natRange_filter_succ, List.foldl_append]
  split <;> rfl

/-- The elements of d below top are drained: their values, their cells, and nothing else. -/
structure DrainedTo (u : UnitOp) (d : VReg) (z : Bool) (v : Nat → Nat) (top : Nat) (s t : State) : Prop where
  hart : t.hart = s.hart
  pkg : t.pkg = s.pkg
  core : t.core = { s.core with vrows := t.core.vrows, cells := t.core.cells }
  lanes : LanesWf t
  wf : sparseWf 0#64 t.core.cells = true
  others : OtherRowsSame d u.sew s t
  elems : ∀ f < vlmaxFor s u.sew, t.vGet d u.sew f = if Drains s u f ∧ f < top then v f % 2 ^ u.sew else s.vGet d u.sew f
  cells : ∀ n, cellOf t n = if z = true ∧ Drains s u n ∧ n < top then 0#64 else cellOf s n

theorem clearCell_core (t : State) (z : Bool) (n : Nat) :
    (t.clearCell z n).core = { t.core with cells := (t.clearCell z n).core.cells } := by cases z <;> rfl
theorem clearCell_hart (t : State) (z : Bool) (n : Nat) : (t.clearCell z n).hart = t.hart := by cases z <;> rfl
theorem clearCell_pkg (t : State) (z : Bool) (n : Nat) : (t.clearCell z n).pkg = t.pkg := by cases z <;> rfl
theorem clearCell_vrows (t : State) (z : Bool) (n : Nat) : (t.clearCell z n).core.vrows = t.core.vrows := by
  rw [clearCell_core]
theorem clearCell_prows (t : State) (z : Bool) (n : Nat) : (t.clearCell z n).core.prows = t.core.prows := by
  rw [clearCell_core]

theorem clearCell_wf (hwf : sparseWf 0#64 t.core.cells = true) : sparseWf 0#64 (t.clearCell z n).core.cells = true := by
  cases z with
  | false => exact hwf
  | true => exact sparseWf_set _ _ _ _ hwf

theorem clearCell_cell (hwf : sparseWf 0#64 t.core.cells = true) (m : Nat) :
    cellOf (t.clearCell z n) m = if z = true ∧ m = n then 0#64 else cellOf t m := by
  cases z with
  | false => simp [State.clearCell]
  | true =>
    simp only [true_and]
    exact sparseGet_set hwf n m 0#64

/-- One element more. -/
theorem DrainedTo.next {v : Nat → Nat} (h : DrainedTo u d z v n s t) (hn : n < vlmaxFor s u.sew) (hd : Drains s u n) :
    DrainedTo u d z v (n + 1) s ((t.vSet d u.sew n (v n)).clearCell z n) := by
  have hcore := t.vSet_core d u.sew n (v n)
  have hput := lanesWf_vSet h.lanes d u.sew n (v n)
  have hmax := vlmaxFor_congr h.hart u.sew
  have hw : u.sew = 64 ∨ u.sew ∣ 32 := sew_cases u.et
  have hcells : (t.vSet d u.sew n (v n)).core.cells = t.core.cells := by rw [hcore]
  have hwf : sparseWf 0#64 (t.vSet d u.sew n (v n)).core.cells = true := by rw [hcells]; exact h.wf
  exact
    { hart := (clearCell_hart _ z n).trans h.hart
      pkg := (clearCell_pkg _ z n).trans h.pkg
      core := by rw [clearCell_core, hcore, h.core]
      lanes :=
        { grant := by rw [clearCell_hart]; exact hput.grant
          some := by rw [clearCell_hart]; exact hput.some
          rows := by rw [clearCell_vrows]; exact hput.rows
          preds := by rw [clearCell_prows]; exact hput.preds }
      wf := clearCell_wf hwf
      others := fun k hk hkd x hx => by
        rw [clearCell_vrows, sparseGet_vSet h.lanes d n (v n) hkd hx, h.others k hk hkd x hx]
      elems := fun f hf => by
        rw [State.vGet_congr (congrArg Hart.spot (clearCell_hart _ z n)) (clearCell_vrows _ z n),
          vGet_vSet h.lanes d (v n) hw (hmax ▸ hn) (hmax ▸ hf), h.elems f hf]
        by_cases hfn : f = n
        · rw [if_pos hfn, hfn, if_pos ⟨hd, by omega⟩]
        · rw [if_neg hfn]
          exact if_congr (and_congr_right fun _ => by omega) rfl rfl
      cells := fun m => by
        have hsame : cellOf (t.vSet d u.sew n (v n)) m = cellOf t m := by rw [cellOf, hcells]; rfl
        rw [clearCell_cell hwf, hsame, h.cells m]
        by_cases hmn : m = n
        · subst hmn
          cases z <;> simp [hd]
        · have hbelow : m < n + 1 ↔ m < n := by omega
          simp only [hmn, hbelow, and_false, if_false] }

theorem DrainedTo.skip {v : Nat → Nat} (h : DrainedTo u d z v n s t) (hd : ¬Drains s u n) : DrainedTo u d z v (n + 1) s t := by
  have hsame (f : Nat) : Drains s u f ∧ f < n + 1 ↔ Drains s u f ∧ f < n :=
    and_congr_right (fun hf => by have : f ≠ n := fun hfn => hd (hfn ▸ hf); omega)
  exact { h with
    elems := fun f hf => by simp only [h.elems f hf, hsame]
    cells := fun n => by simp only [h.cells n, hsame] }

theorem drainedTo_drainTo (hs : LanesWf s) (hwf : sparseWf 0#64 s.core.cells = true) (htop : top ≤ vlmaxFor s u.sew) :
    DrainedTo u d z (s.drainBits u d vc z) top s (s.drainTo u d vc z top) := by
  induction top with
  | zero =>
    rw [drainTo_zero]
    exact
      { hart := rfl, pkg := rfl, core := rfl, lanes := hs, wf := hwf
        others := fun _ _ _ _ _ => rfl
        elems := by simp
        cells := by simp }
  | succ n ih =>
    have h := ih (by omega)
    rw [drainTo_succ]
    split
    next hd =>
      have hcell : cellOf (s.drainTo u d vc z n) n = cellOf s n := by simp [h.cells n]
      rw [State.drainOne, hcell]
      exact h.next htop hd
    next hd => exact h.skip hd

/-! ### An fdrain (07:R161). -/

/-- A type that fdrain writes is an integer or has a format, and is at most 32 bits wide (07:R161). -/
theorem fmt_of_drained {m : ElemType} (h : m ∈ [ElemType.i8, .u8, .i16, .i32, .e4m3, .e5m2, .bf16, .fp16, .fp32]) :
    m.isInt = m.fmt.isNone ∧ m.sew ≠ 64 := by
  revert m
  decide

/-- A total converted once. -/
theorem drainElem_bits (h : u.et.isInt = u.et.fmt.isNone) (n : Nat) (c : BitVec 64) (x : FVal) :
    (drainElem u n c x).bits = drained u n c x := by
  have het : modeEt u.mode = u.et := rfl
  unfold drainElem drained
  dsimp only
  rw [het, h, show poisonCell = 0x8000000000000000#64 from rfl]
  by_cases hc : c = 0x8000000000000000#64
  · rw [if_pos hc, if_pos hc]
    cases u.et.fmt <;> rfl
  · rw [if_neg hc, if_neg hc]
    cases hf : u.et.fmt with
    | none => rfl
    | some f =>
      simp only [Option.isNone_some, Bool.false_eq_true, if_false, ElemType.roundTo, hf]
      rfl

/-- The flags of the conversions joined VFSR, and the operation left its queue. -/
def State.afterDrain (t : State) (fl : Flags) (rest : List UnitOp) : State :=
  (t.orVfsr fl).mapCore (fun c => { c with units := rest })

theorem afterDrain_vGet (t : State) (fl : Flags) (rest : List UnitOp) (k : VReg) (w e : Nat) :
    (t.afterDrain fl rest).vGet k w e = t.vGet k w e := State.vGet_congr rfl rfl k w e
theorem afterDrain_cell (t : State) (fl : Flags) (rest : List UnitOp) (n : Nat) :
    cellOf (t.afterDrain fl rest) n = cellOf t n := rfl
theorem afterDrain_hart (t : State) (fl : Flags) (rest : List UnitOp) :
    (t.afterDrain fl rest).hart = { t.hart with vfsr := (t.afterDrain fl rest).hart.vfsr } := rfl

/-- fdrain with no window open and no injected error drains its elements and leaves the queue. -/
theorem drain4_eq {rest : List UnitOp} (hu : UnitReady u rest s) (hpair : s.core.winPair = .none) (hcount : s.core.winCount = 0)
    (ht : DrainedTo u d z (s.drainBits u d vc z) u.vl s (s.drainTo u d vc z u.vl)) :
    ∃ fl, s.drain4 u d vc z = (s.drainTo u d vc z u.vl).afterDrain fl rest := by
  have hfold (es : List Nat) (g : State × Flags → Nat → Flags) :
      (es.foldl (fun acc n => (State.drainOne u d vc z acc.1 n, g acc n)) (s, 0#5)).1 =
        es.foldl (State.drainOne u d vc z) s :=
    (List.foldl_hom Prod.fst (fun _ _ => rfl)).symm
  have hdrained (es : List Nat) (fl : Flags) : (((s.drainTo u d vc z u.vl).orVfsr fl).noteRows es
      (es.head?.toList.flatMap (fun e => slotRows d u.sew s.hart.lanes e (u.vl - e)))).dropUnit u =
        (s.drainTo u d vc z u.vl).afterDrain fl rest := by
    have hcore : ((s.drainTo u d vc z u.vl).orVfsr fl).core = (s.drainTo u d vc z u.vl).core := rfl
    rw [noteRows_eq (by rw [hcore, ht.core]; exact hu.parity) (by rw [hcore, ht.core]; exact hu.inject),
      dropUnit_units (by rw [hcore, ht.core]; exact hu.head) rfl, State.afterDrain]
  unfold State.drain4
  dsimp only
  rw [conclude_of_closed hpair hcount, checkCells_of_none hu.cells]
  refine ⟨_, (congrArg (fun x => ((State.orVfsr x _).noteRows _ _).dropUnit u) ?_).trans (hdrained _ _)⟩
  rw [u.cols_eq]
  cases vc with
  | none => exact hfold _ _
  | some k => exact hfold _ _

/-- An fdrain whose element n reads the scale cs n, which the state it ends in may tell. -/
theorem fdrain_completes {rest : List UnitOp} {cs : State → Nat → FVal} (hs : LanesWf s) (hu : UnitReady u rest s)
    (hparked : u.parked = none) (hsnap : s.hart.snap = false) (hfits : u.vl ≤ vlmaxFor s u.sew)
    (hwf : sparseWf 0#64 s.core.cells = true) (hpair : s.core.winPair = .none) (hcount : s.core.winCount = 0)
    (hm : u.et.isInt = u.et.fmt.isNone) (hf : isFrame u.instr = true) (heff : s.frameEffect u = s.drain4 u d vc z)
    (hcs : ∀ n fl, n < u.vl → Drains s u n →
      (s.drainTo u d vc z n).columnScale u vc n = cs ((s.drainTo u d vc z u.vl).afterDrain fl rest) n) :
    Completes .frameKstep s (fun t =>
      (∀ n, u.vstart ≤ n ∧ n < u.vl ∧ s.active u.mode n = true →
        t.vGet d u.sew n = drained u n (cellOf s n) (cs t n) % 2 ^ u.sew) ∧
      (∀ n, n < vlmaxFor s u.sew → ¬(u.vstart ≤ n ∧ n < u.vl ∧ s.active u.mode n = true) →
        t.vGet d u.sew n = s.vGet d u.sew n) ∧ OtherRowsSame d u.sew s t ∧
      (∀ n, cellOf t n = if z = true ∧ u.vstart ≤ n ∧ n < u.vl ∧ s.active u.mode n = true then 0#64 else cellOf s n) ∧
      t.core.units = rest ∧ t.hart = { s.hart with vfsr := t.hart.vfsr } ∧ t.pkg = s.pkg ∧ SameBytes s t) := by
  have ht := drainedTo_drainTo (vc := vc) (d := d) (z := z) hs hwf hfits
  have hhit (n : Nat) : u.vstart ≤ n ∧ n < u.vl ∧ s.active u.mode n = true ↔ Drains s u n ∧ n < u.vl := by
    rw [Drains, and_assoc, and_comm (a := n < u.vl)]
  obtain ⟨fl, hdrain⟩ := drain4_eq hu hpair hcount ht
  refine ⟨_, (exec_frameKstep hu hf hparked hsnap).trans (congrArg _ (heff.trans hdrain)), ?_, ?_, ht.others, ?_, rfl, ?_, ht.pkg, ?_⟩
  · intro n hn
    obtain ⟨hd, hlt⟩ := (hhit n).mp hn
    rw [afterDrain_vGet, ht.elems n (by omega), if_pos ⟨hd, hlt⟩, State.drainBits, hcs n fl hlt hd, drainElem_bits hm]
  · intro n hn hnot
    rw [afterDrain_vGet, ht.elems n hn, if_neg (fun h => hnot ((hhit n).mpr h))]
  · intro n
    rw [afterDrain_cell, ht.cells n]
    simp only [hhit]
  · rw [afterDrain_hart, ht.hart]
  · have hlines : (s.drainTo u d vc z u.vl).core.lines = s.core.lines := by rw [ht.core]
    have hbench : (s.drainTo u d vc z u.vl).core.bench = s.core.bench := by rw [ht.core]
    exact sameBytes_of_eq hlines hbench (congrArg Pkg.mem ht.pkg)

/-- Elements of a register that is not written are as before. -/
theorem vGet_of_otherRows {w w' : Nat} {k : VReg} (hhart : t.hart = s.hart) (h : OtherRowsSame d w s t)
    (hk : k.toNat ∉ fieldOf d w) (hw' : w' ≠ 64) (e : Nat) : t.vGet k w' e = s.vGet k w' e := by
  have hlanes : lanesOf t = lanesOf s := by rw [lanesOf, hhart, lanesOf]
  rw [State.vGet_narrow t k e hw', State.vGet_narrow s k e hw', hlanes, State.vRow, State.vRow, hhart, rowKey_add,
    h k.toNat k.isLt hk _ (spot_row_lt s.hart e)]

/-- A scale of a register apart from d stays. -/
theorem columnScale_apart {v : Nat → Nat} {k : VReg} (h : DrainedTo u d z v top s t) (hk : k ≠ d) (hw : u.sew ≠ 64) (n : Nat) :
    t.columnScale u (some k) n = Fmt.fp32.decode (s.vGet k 32 (n % Claims.frameCols u)) := by
  have hout : k.toNat ∉ fieldOf d u.sew := by
    rw [fieldOf, if_neg hw, List.mem_singleton]
    exact fun h => hk (BitVec.eq_of_toNat_eq h)
  exact congrArg Fmt.fp32.decode (vGet_of_otherRows h.hart h.others hout (by decide) _)

/-- A scale of d itself is what the drain of the lower elements left, as the last state tells (log 55). -/
theorem columnScale_self {v : Nat → Nat} {t' : State} (h : DrainedTo u d z v n s t) (hw : u.sew = 32)
    (h' : ∀ f < vlmaxFor s u.sew, t'.vGet d u.sew f = if Drains s u f ∧ f < u.vl then v f % 2 ^ u.sew else s.vGet d u.sew f)
    (hfits : u.vl ≤ vlmaxFor s u.sew) (hn : n < u.vl) :
    t.columnScale u (some d) n = Fmt.fp32.decode ((if (u.vstart ≤ n % Claims.frameCols u ∧ n % Claims.frameCols u < u.vl ∧
      s.active u.mode (n % Claims.frameCols u) = true) ∧ n % Claims.frameCols u < n then t' else s).vGet d 32
        (n % Claims.frameCols u)) := by
  have hle : n % Claims.frameCols u ≤ n := Nat.mod_le _ _
  generalize hj : n % Claims.frameCols u = j at hle ⊢
  have hj' : j < vlmaxFor s u.sew := by omega
  have hread := h.elems j hj'
  have hlast := h' j hj'
  rw [hw] at hread hlast
  rw [State.columnScale, hj]
  refine congrArg Fmt.fp32.decode (hread.trans ?_)
  by_cases hlow : Drains s u j ∧ j < n
  · have hd : Drains s u j ∧ j < u.vl := ⟨hlow.1, by omega⟩
    rw [if_pos hlow, if_pos ⟨⟨hd.1.1, hd.2, hd.1.2⟩, hlow.2⟩, hlast, if_pos hd]
  · rw [if_neg hlow, if_neg (fun hc => hlow ⟨⟨hc.1.1, hc.1.2.2⟩, hc.2⟩)]

end

/-! ### A frowadd (07:R162). -/

section
variable (s : State) (u : UnitOp) (a : VReg) (col : Bool)

/-- The contributions of the elements of a. -/
def State.rowTerms : List Term :=
  (List.range (if col then u.rows else u.cols)).map (fun x => termOf u.et (if x < u.vl then s.vGet a u.sew x else 0) 127)

/-- A cell with the contribution of its row or column. -/
def rowAdded (terms : List Term) (n : Nat) (c : BitVec 64) : BitVec 64 × Flags :=
  let t := (terms[if col then n / u.cols else n % u.cols]?).getD (some (false, 0, 0))
  if u.et.isInt then
    match t with
    | some (neg, m, _) => cellAdd c (if neg then -(m : Int) else (m : Int))
    | none => (c, 0#5)
  else contribute c u.exp u.rnd (2 ^ 40 + n) t

theorem rowAdd_eq (h : s.core.productHit = none) :
    s.rowAdd u a col = (s.mapCells (rowAdded u col (s.rowTerms u a col))).dropUnit u := by
  unfold State.rowAdd
  rw [strike_none h]
  rfl

/-- The element that a cell takes; at or beyond VL it is zero. -/
def State.rowElem (n : Nat) : Nat :=
  let x := if col = true then n / Claims.frameCols u else n % Claims.frameCols u
  if x < u.vl then s.vGet a u.sew x else 0

theorem rowTerms_getElem? {n : Nat} (hn : n < 4096) :
    ((s.rowTerms u a col)[if col then n / u.cols else n % u.cols]?).getD (some (false, 0, 0)) =
      termOf u.et (s.rowElem u a col n) 127 := by
  have hlt : (if col then n / u.cols else n % u.cols) < if col then u.rows else u.cols := by
    rw [u.rows_eq, u.cols_eq]
    cases col with
    | true => exact div_frameCols_lt u hn
    | false => exact Nat.mod_lt _ (frameCols_pos u)
  rw [State.rowTerms, List.getElem?_map, List.getElem?_range hlt, u.cols_eq]
  rfl

variable {s u a col}

theorem rowAdded_int (hint : u.et.isInt = true) {n : Nat} (hn : n < 4096) (c : BitVec 64) :
    (rowAdded u col (s.rowTerms u a col) n c).1 = cellPlus c (elemInt u.et (s.rowElem u a col n)) := by
  unfold rowAdded
  dsimp only
  rw [if_pos hint, rowTerms_getElem? s u a col hn, termOf_int hint]
  generalize elemInt u.et (s.rowElem u a col n) = v
  have hsign : (if decide (v < 0) = true then -(v.natAbs : Int) else (v.natAbs : Int)) = v := by
    simp only [decide_eq_true_eq]
    omega
  exact (congrArg (fun x => (cellAdd c x).1) hsign).trans (cellAdd_fst c v)

theorem rowAdded_float (hint : u.et.isInt = false) {n : Nat} (hn : n < 4096) (c : BitVec 64) :
    rowAdded u col (s.rowTerms u a col) n c =
      contribute c u.fe.toInt u.rnd (2 ^ 40 + n) (factor u.et (s.rowElem u a col n) 127) := by
  unfold rowAdded
  dsimp only
  rw [hint, if_neg Bool.false_ne_true, rowTerms_getElem? s u a col hn, termOf_float hint]
  rfl

/-- An operation of the frame that gives every cell a value and ends. -/
theorem cells_complete {t : State} {rest : List UnitOp} {g : Nat → BitVec 64} (hu : UnitReady u rest s) (hparked : u.parked = none)
    (hsnap : s.hart.snap = false) (hf : isFrame u.instr = true) (heff : s.frameEffect u = t.dropUnit u) (hframe : FrameOnly s t)
    (hcells : ∀ n < 4096, cellOf t n = g n) :
    Completes .frameKstep s (fun t => FrameDone rest s t ∧ ∀ n, n < 4096 → cellOf t n = g n) :=
  frame_completes hu hf hparked hsnap heff hframe hcells

/-- A frowadd changes cells alone. -/
theorem frowadd_completes {rest : List UnitOp} {g : Nat → BitVec 64} (hu : UnitReady u rest s)
    (hparked : u.parked = none) (hsnap : s.hart.snap = false) (hf : isFrame u.instr = true)
    (heff : s.frameEffect u = s.rowAdd u a col)
    (hg : ∀ n < 4096, (rowAdded u col (s.rowTerms u a col) n (cellOf s n)).1 = g n) :
    Completes .frameKstep s (fun t => FrameDone rest s t ∧ ∀ n, n < 4096 → cellOf t n = g n) :=
  cells_complete hu hparked hsnap hf (heff.trans (rowAdd_eq s u a col (productHit_none hu))) (mapCells_frameOnly s _)
    (fun n hn => (mapCells_cell s _ hn).trans (hg n hn))

end

end Sys2Proof.Machine

namespace Sys2Proof
open Machine Claims

/-- Settles O29: fdrain's elements are drained one after another, each scale as the lower elements left it; frowadd is one change
of every cell. -/
theorem frameDrainAndRowAdd : Obligations.FrameDrainAndRowAdd := by
  intro d vc a u rest s hs hu hparked hsnap hfits hwf m hit one apart self drains adds
  have hdrain {z : Bool} {ks : Option VReg} {cs : State → Nat → FVal} (hf : isFrame u.instr = true)
      (heff : s.frameEffect u = s.drain4 u d ks z)
      (hcs : u.sew ≠ 64 → ∀ n fl, n < u.vl → Drains s u n → (s.drainTo u d ks z n).columnScale u ks n =
        cs ((s.drainTo u d ks z u.vl).afterDrain fl rest) n) : drains z cs :=
    fun hpair hcount _ hm => fdrain_completes hs hu hparked hsnap hfits hwf hpair hcount (fmt_of_drained hm).1 hf heff
      (hcs (fmt_of_drained hm).2)
  have hto (ks : Option VReg) (z : Bool) {top : Nat} (htop : top ≤ u.vl) := drainedTo_drainTo (d := d) (vc := ks) (z := z)
    hs hwf (htop.trans hfits)
  have hself {z : Bool} (hk : vc = d) (hw : m.sew = 32) (n : Nat) (fl : Flags) (hn : n < u.vl) :
      (s.drainTo u d (some d) z n).columnScale u (some d) n = self ((s.drainTo u d (some d) z u.vl).afterDrain fl rest) n := by
    subst hk
    exact columnScale_self (hto _ z hn.le) hw
      (fun f hf => (afterDrain_vGet _ fl rest _ _ f).trans ((hto (some vc) z le_rfl).elems f hf)) hfits hn
  have hadd {col : Bool} (hf : isFrame u.instr = true) (heff : s.frameEffect u = s.rowAdd u a col) : adds col := by
    refine ⟨fun hm => ?_, fun hm => ?_⟩
    · exact frowadd_completes hu hparked hsnap hf heff (fun n hn => rowAdded_int ((isInt_iff _).mpr hm) hn _)
    · have hint : u.et.isInt = false := by
        have h : ∀ m ∈ [ElemType.e4m3, .e5m2, .bf16, .fp16, .fp32], m.isInt = false := by decide
        exact h _ hm
      exact frowadd_completes hu hparked hsnap hf heff (fun n hn => congrArg Prod.fst (rowAdded_float hint hn _))
  refine ⟨fun hi => ?_, fun hi => ?_, fun hi hk => ?_, fun hi hk => ?_, fun hi hk hw => ?_, fun hi hk hw => ?_,
    fun hi => ?_, fun hi => ?_⟩
  · exact hdrain (ks := none) (by rw [hi]; rfl) (by simp only [State.frameEffect, hi]) (fun _ _ _ _ _ => rfl)
  · exact hdrain (ks := none) (by rw [hi]; rfl) (by simp only [State.frameEffect, hi]) (fun _ _ _ _ _ => rfl)
  · exact hdrain (ks := some vc) (by rw [hi]; rfl) (by simp only [State.frameEffect, hi])
      (fun hw n _ hn _ => columnScale_apart (hto _ _ hn.le) hk hw n)
  · exact hdrain (ks := some vc) (by rw [hi]; rfl) (by simp only [State.frameEffect, hi])
      (fun hw n _ hn _ => columnScale_apart (hto _ _ hn.le) hk hw n)
  · exact hdrain (ks := some d) (by rw [hi]; rfl) (by simp only [State.frameEffect, hi]) (fun _ n fl hn _ => hself hk hw n fl hn)
  · exact hdrain (ks := some d) (by rw [hi]; rfl) (by simp only [State.frameEffect, hi]) (fun _ n fl hn _ => hself hk hw n fl hn)
  · exact hadd (by rw [hi]; rfl) (by simp only [State.frameEffect, hi])
  · exact hadd (by rw [hi]; rfl) (by simp only [State.frameEffect, hi])

end Sys2Proof
end

/-! The canonical form of the maps of the core and of the package (log 84): what a change of a record leaves of it, for the outcomes of
an access and of an instruction, and for folds. -/

section
namespace Sys2Proof.Machine

/-! ### The maps of the core and of the package. -/

/-- The maps of a core stand in canonical form. -/
structure Core.MapsWf (c : Core) : Prop where
  bench : sparseWf (0 : Byte) c.bench = true
  invalid : sparseWf false c.benchInvalid = true
  engine : sparseWf false c.benchEngine = true
  vrows : sparseWf 0#32 c.vrows = true
  prows : sparseWf 0#4 c.prows = true
  cells : sparseWf 0#64 c.cells = true
  chans : sparseWf Chan.zero c.chans = true

/-- The maps of the package stand in canonical form. -/
structure Pkg.MapsWf (p : Pkg) : Prop where
  homes : sparseWf none p.homes = true
  hyps : sparseWf HypEntry.free p.hyps = true
  races : sparseWf RaceRec.empty p.races = true
  rhead : sparseWf 0#64 p.rhead = true
  rtail : sparseWf 0#64 p.rtail = true
  hostBias : sparseWf false p.hostBias = true
  memPoison : sparseWf false p.memPoison = true
  counters : sparseWf Counter.zero p.counters = true
  areas : sparseWf Area.none p.areas = true

theorem State.canonical_of {s : State} (hc : s.core.MapsWf) (hp : s.pkg.MapsWf) : s.Canonical := { hc, hp with }

theorem State.Canonical.core {s : State} (h : s.Canonical) : s.core.MapsWf := { h with }

theorem State.Canonical.pkg {s : State} (h : s.Canonical) : s.pkg.MapsWf := { h with }

section
variable {s t : State} (h : s.Canonical)
include h

/-- The canonical form is one of the core's and the package's maps alone. -/
theorem State.Canonical.congr (hc : t.core = s.core) (hp : t.pkg = s.pkg) : t.Canonical :=
  State.canonical_of (hc ▸ h.core) (hp ▸ h.pkg)

theorem State.Canonical.mapHart {f : Hart → Hart} : (s.mapHart f).Canonical := { h with }

theorem State.Canonical.mapCore {f : Core → Core} (hf : s.core.MapsWf → (f s.core).MapsWf) : (s.mapCore f).Canonical :=
  State.canonical_of (hf h.core) h.pkg

theorem State.Canonical.mapPkg {f : Pkg → Pkg} (hf : s.pkg.MapsWf → (f s.pkg).MapsWf) : (s.mapPkg f).Canonical :=
  State.canonical_of h.core (hf h.pkg)

theorem State.Canonical.foldl {α : Type} {f : State → α → State} {l : List α}
    (hf : ∀ t x, t.Canonical → (f t x).Canonical) : (l.foldl f s).Canonical := by
  induction l generalizing s with
  | nil => exact h
  | cons x l ih => exact ih (hf s x h)

theorem State.Canonical.ite {p : Prop} [Decidable p] (ht : t.Canonical) : (if p then s else t).Canonical := by
  split
  · exact h
  · exact ht

theorem State.Canonical.getD {o : Option State} (ho : ∀ t, o = some t → t.Canonical) : (o.getD s).Canonical := by
  cases o with
  | none => exact h
  | some t => exact ho t rfl

end

theorem State.Canonical.of_pair {α : Type} {r : State × α} {t : State} {a : α} (he : r = (t, a)) (h : r.1.Canonical) :
    t.Canonical := by
  subst he
  exact h

theorem Core.MapsWf.foldl {α : Type} {c : Core} {f : Core → α → Core} {l : List α} (h : c.MapsWf)
    (hf : ∀ c x, c.MapsWf → (f c x).MapsWf) : (l.foldl f c).MapsWf := by
  induction l generalizing c with
  | nil => exact h
  | cons x l ih => exact ih (hf c x h)

theorem Core.MapsWf.ite {p : Prop} [Decidable p] {c d : Core} (h : c.MapsWf) (hd : d.MapsWf) : (if p then c else d).MapsWf := by
  split
  · exact h
  · exact hd

theorem Pkg.MapsWf.foldl {α : Type} {p : Pkg} {f : Pkg → α → Pkg} {l : List α} (h : p.MapsWf)
    (hf : ∀ p x, p.MapsWf → (f p x).MapsWf) : (l.foldl f p).MapsWf := by
  induction l generalizing p with
  | nil => exact h
  | cons x l ih => exact ih (hf p x h)

theorem Pkg.MapsWf.ite {q : Prop} [Decidable q] {a b : Pkg} (h : a.MapsWf) (hb : b.MapsWf) : (if q then a else b).MapsWf := by
  split
  · exact h
  · exact hb

/-! ### Outcomes. -/

/-- If the machine goes on, its maps stand in canonical form. -/
def ResultCanonical (r : Result) : Prop := ∀ t, r = .next t → t.Canonical

theorem State.Canonical.next {s : State} (h : s.Canonical) : ResultCanonical (.next s) := by
  rintro t ⟨⟩
  exact h

theorem ResultCanonical.ite {p : Prop} [Decidable p] {r q : Result} (hr : ResultCanonical r) (hq : ResultCanonical q) :
    ResultCanonical (if p then r else q) := by
  split
  · exact hr
  · exact hq

/-- The state in which an access ends, however it ends. -/
def Res.state {α : Type} : Res α → State
  | .ok _ s => s
  | .trap _ _ _ s => s
  | .fault _ s => s
  | .wait s => s

/-- However the access ends, the maps stand in canonical form. -/
def Res.Canonical {α : Type} (r : Res α) : Prop := r.state.Canonical

theorem Res.Canonical.ok {α : Type} {a : α} {s : State} (h : s.Canonical) : (Res.ok a s).Canonical := h

theorem Res.Canonical.trap {α : Type} {c : BitVec 8} {v : Word} {n : Nat} {s : State} (h : s.Canonical) :
    (Res.trap c v n s : Res α).Canonical := h

theorem Res.Canonical.fault {α : Type} {f : PageFault} {s : State} (h : s.Canonical) : (Res.fault f s : Res α).Canonical := h

theorem Res.Canonical.wait {α : Type} {s : State} (h : s.Canonical) : (Res.wait s : Res α).Canonical := h

theorem Res.Canonical.andThen {α β : Type} {r : Res α} {k : α → State → Res β} (hr : r.Canonical)
    (hk : ∀ a s, s.Canonical → (k a s).Canonical) : (r.andThen k).Canonical := by
  cases r with
  | ok a s => exact hk a s hr
  | trap c v n s => exact hr
  | fault f s => exact hr
  | wait s => exact hr

theorem Res.Canonical.ite {α : Type} {p : Prop} [Decidable p] {r q : Res α} (hr : r.Canonical) (hq : q.Canonical) :
    (if p then r else q).Canonical := by
  split
  · exact hr
  · exact hq

end Sys2Proof.Machine
end

/-! Memory, versions, homes, recalls and the slots of the overflow area keep the canonical form of the maps (log 84). -/

section
namespace Sys2Proof.Machine

/-! ### Package memory and bench. -/

theorem Pkg.MapsWf.write {p : Pkg} {a : Nat} {bs : List Byte} (hp : p.MapsWf) : (p.write a bs).MapsWf :=
  { hp with memPoison := sparseWf_filter _ _ _ hp.memPoison }

theorem Pkg.MapsWf.writeNat {p : Pkg} {a n v : Nat} (hp : p.MapsWf) : (p.writeNat a n v).MapsWf := hp.write

theorem Pkg.MapsWf.writeOver {p : Pkg} {a v : Nat} (hp : p.MapsWf) : (p.writeOver a v).MapsWf := { hp with }

theorem Pkg.MapsWf.setPoison {p : Pkg} {a : Nat} {b : Bool} (hp : p.MapsWf) : (p.setPoison a b).MapsWf :=
  { hp with memPoison := natSetPut_wf _ _ _ hp.memPoison }

theorem Pkg.MapsWf.putLine {p : Pkg} {line : Nat} {d : BitVec 512} {q : BitVec 8} (hp : p.MapsWf) : (p.putLine line d q).MapsWf :=
  hp.writeNat.foldl fun _ _ hq => hq.setPoison.ite hq

theorem Core.MapsWf.shadow {c : Core} {g : Nat} (hc : c.MapsWf) : (c.shadow g).MapsWf := by
  unfold Core.shadow
  exact hc.ite { hc with }

theorem Core.MapsWf.injectBench {c : Core} {w : Nat} (hc : c.MapsWf) : (c.injectBench w).MapsWf := by
  unfold Core.injectBench
  exact .ite { hc with } (.ite { hc with } hc)

theorem Core.MapsWf.shadows {c : Core} {gs : List Nat} (hc : c.MapsWf) : (gs.foldl Core.shadow c).MapsWf :=
  hc.foldl fun _ _ hd => hd.shadow

theorem Core.MapsWf.benchWrite {c : Core} {o : Nat} {bs : List Byte} (hc : c.MapsWf) : (c.benchWrite o bs).MapsWf :=
  have hd := hc.shadows (gs := granules o bs.length)
  Core.MapsWf.injectBench { hd with
    bench := cellsSet_wf _ _ _ (sparseWf_foldl _ _ _ _ (fun _ _ hm => cellsSet_wf _ _ _ hm) hd.bench)
    invalid := sparseWf_foldl _ _ _ _ (fun _ _ hm => natSetPut_wf _ _ _ hm) hd.invalid }

/-! ### The hypothesis table, versions and areas. -/

theorem Pkg.MapsWf.setHyp {p : Pkg} {h : BitVec 12} {e : HypEntry} (hp : p.MapsWf) : (p.setHyp h e).MapsWf :=
  hp.ite { hp with hyps := sparseWf_set _ _ _ _ hp.hyps }

theorem Pkg.MapsWf.putVersion {p : Pkg} {v : Version} (hp : p.MapsWf) : (p.putVersion v).MapsWf := { hp with }

theorem Pkg.MapsWf.takeVersion {p : Pkg} {v : Version} (hp : p.MapsWf) : (p.takeVersion v).MapsWf := { hp with }

theorem Pkg.MapsWf.setArea {p : Pkg} {ctx : BitVec 8} {d : Area} (hp : p.MapsWf) : (p.setArea ctx d).MapsWf :=
  { hp with areas := sparseWf_set _ _ _ _ hp.areas }

/-! ### Errors and records. -/

theorem Pkg.MapsWf.post {p : Pkg} {r : RingRecord} (hp : p.MapsWf) : (p.post r).MapsWf := { hp with }

theorem State.Canonical.recordUe {s : State} {src : BitVec 4} {addr : Word} (hs : s.Canonical) :
    (s.recordUe src addr).Canonical := hs.mapCore fun hc => .ite { hc with } { hc with }

theorem Core.MapsWf.recordCe {c : Core} (hc : c.MapsWf) : c.recordCe.MapsWf := { hc with }

theorem State.Canonical.recordCe {s : State} (hs : s.Canonical) : s.recordCe.Canonical := hs.mapCore fun hc => hc.recordCe

theorem State.Canonical.forgetSource {s : State} {line : Nat} (hs : s.Canonical) : (s.forgetSource line).Canonical :=
  hs.mapPkg fun hp => { hp with }

theorem State.Canonical.consumePoison {s : State} {dpa : Nat} (hs : s.Canonical) : (s.consumePoison dpa).Canonical :=
  hs.recordUe.forgetSource

theorem Pkg.MapsWf.clearErrors {p : Pkg} {line : Nat} (hp : p.MapsWf) : (p.clearErrors line).MapsWf :=
  { hp with memPoison := sparseWf_foldl _ _ _ _ (fun _ _ hm => natSetPut_wf _ _ _ hm) hp.memPoison }

theorem State.Canonical.meetErrors {s : State} {line : Nat} {own : Bool} (hs : s.Canonical) : (s.meetErrors line own).Canonical :=
  hs.ite ((hs.mapPkg fun hp => hp.clearErrors).foldl fun _ _ ht => ht.recordCe)

/-! ### Copies that leave the core. -/

theorem Core.MapsWf.dropLines {c : Core} {q : Line → Bool} (hc : c.MapsWf) : (c.dropLines q).MapsWf := { hc with }

theorem State.Canonical.dropLines {s : State} {q : Line → Bool} (hs : s.Canonical) : (s.dropLines q).Canonical :=
  (hs.mapCore fun hc => hc.dropLines).foldl fun _ _ ht => ht.forgetSource

theorem State.Canonical.moveCopy {s : State} {l : Line} {t : BitVec 12} (hs : s.Canonical) : (s.moveCopy l t).Canonical :=
  .ite (hs.mapCore fun hc => { hc with })
    (.ite (hs.dropLines.mapPkg fun hp => { hp with })
      (.ite (hs.dropLines.mapCore fun hc => { hc with }) (hs.dropLines.mapCore fun hc => { hc with })))

theorem State.Canonical.refreshCopies {s : State} {q : Line → Bool} (hs : s.Canonical) : (s.refreshCopies q).Canonical :=
  hs.dropLines.foldl fun _ _ ht => ht.moveCopy

/-! ### The horizon and homes. -/

/-- A change of the times of the listed homes leaves their keys, and no entry becomes none. -/
theorem sparseWfFrom_mapSome {α : Type} [DecidableEq α] (f : α → α) (m : Sparse (Option α)) (a : Nat)
    (h : sparseWfFrom none a m = true) : sparseWfFrom none a (m.map fun e => (e.1, e.2.map f)) = true := by
  induction m generalizing a with
  | nil => rfl
  | cons e m ih =>
    simp only [sparseWfFrom, Bool.and_eq_true, decide_eq_true_eq, bne_iff_ne, List.map_cons, ne_eq, Option.map_eq_none_iff] at h ⊢
    exact ⟨h.1, ih _ h.2⟩

theorem State.Canonical.broadcast {s : State} (hs : s.Canonical) : s.broadcast.Canonical :=
  have ht := hs.dropLines
  { ht with homes := sparseWfFrom_mapSome _ _ 0 ht.homes }

theorem State.Canonical.assign {s : State} {w : BitVec 16} (hs : s.Canonical) : (s.assign w).Canonical :=
  have ht := hs.mapPkg fun hp => { hp with }
  ht.broadcast.ite ht

theorem Pkg.MapsWf.setHome {p : Pkg} {line : Nat} {h : HomeLine} (hp : p.MapsWf) : (p.setHome line h).MapsWf :=
  { hp with homes := sparseWf_set _ _ _ _ hp.homes }

theorem State.Canonical.throughMesh {s : State} {line : Nat} {q : BitVec 8} (hs : s.Canonical) :
    (s.throughMesh line q).1.Canonical := by
  unfold State.throughMesh
  split
  · exact { hs with }
  · exact hs

theorem State.Canonical.meshWrite {s : State} {dpa n v : Nat} (hs : s.Canonical) : (s.meshWrite dpa n v).Canonical :=
  .ite (hs.throughMesh.mapPkg fun hp => hp.writeNat.foldl fun _ _ hq => hq.setPoison).forgetSource (hs.mapPkg fun hp => hp.writeNat)

theorem State.Canonical.correctLine {s : State} {line : Nat} (hs : s.Canonical) : (s.correctLine line).Canonical :=
  hs.foldl fun _ _ ht => (ht.mapCore fun hc => { hc with }).recordCe

theorem State.Canonical.writeBack {s : State} {l : Line} {next : Option LineState} (hs : s.Canonical) :
    (s.writeBack l next).Canonical := by
  have hm : (if l.st = .d then (s.correctLine l.line).throughMesh l.line l.poison else (s, l.poison)).1.Canonical := by
    split
    · exact hs.correctLine.throughMesh
    · exact hs
  have hu := hm.assign (w := s.returnTime (s.pkg.home l.line).wts)
  unfold State.writeBack
  cases next with
  | none => exact (hu.mapPkg fun hp => (hp.putLine.ite hp).setHome).dropLines
  | some st => exact (hu.mapPkg fun hp => (hp.putLine.ite hp).setHome).mapCore fun hc => { hc with }

theorem State.Canonical.recall {s : State} {line : Nat} {own : Bool} {t : State} (hs : s.Canonical) (he : s.recall line own =
    some t) :
    t.Canonical := by
  unfold State.recall at he
  repeat' split at he
  all_goals cases he
  · exact hs.meetErrors
  · exact hs.writeBack.meetErrors
  · exact (hs.mapPkg fun hp => hp.setHome).meetErrors

theorem State.Canonical.recall_getD {s : State} {line : Nat} {own : Bool} (hs : s.Canonical) :
    ((s.recall line own).getD s).Canonical := hs.getD fun _ he => hs.recall he

/-! ### Slots of the overflow area. -/

theorem State.Canonical.slotStore {s : State} {a n v : Nat} (hs : s.Canonical) : (s.slotStore a n v).Canonical :=
  (hs.foldl fun _ _ ht => ht.recall_getD).mapPkg fun hp => hp.writeNat

theorem State.Canonical.putSlot {s : State} {d : Area} {n : Nat} {v : Version} (hs : s.Canonical) :
    (s.putSlot d n v).Canonical := by
  unfold State.putSlot
  exact hs.slotStore.slotStore.slotStore.slotStore.mapPkg fun hp => hp.foldl fun _ _ hq => hq.setPoison.ite hq

theorem State.Canonical.freeSlot {s : State} {d : Area} {n : Nat} (hs : s.Canonical) : (s.freeSlot d n).Canonical := hs.slotStore

theorem State.Canonical.spill {s : State} {v : Version} (hs : s.Canonical) : (s.spill v).Canonical := by
  unfold State.spill
  split
  · exact (hs.mapPkg fun hp => hp.takeVersion).putSlot
  · exact hs

theorem State.Canonical.unversion {s : State} {q : BitVec 12 → Bool} (hs : s.Canonical) : (s.unversion q).Canonical := by
  refine hs.foldl fun t v ht => ?_
  split
  · exact ht.mapCore fun hc => { hc with }
  · exact ht

theorem State.Canonical.dropVersions {s : State} {q : BitVec 12 → Bool} (hs : s.Canonical) : (s.dropVersions q).Canonical := by
  unfold State.dropVersions
  exact State.Canonical.foldl
    (((hs.unversion.mapPkg fun hp => { hp with }).refreshCopies).foldl fun _ _ ht => ht.forgetSource)
    fun _ _ ht => ht.foldl fun _ _ hu => hu.freeSlot.ite hu

theorem State.Canonical.retag {s : State} {h t : BitVec 12} (hs : s.Canonical) : (s.retag h t).Canonical := by
  unfold State.retag
  refine State.Canonical.foldl (.foldl (hs.mapPkg fun hp => by exact { hp with }) fun _ _ ht => ht.freeSlot) fun u v hu => ?_
  have hput {w : Version} : (u.mapPkg fun p => p.putVersion w).Canonical := hu.mapPkg fun hp => hp.putVersion
  split
  · exact hput
  · exact hput.ite hu.putSlot
  · refine hput.ite ?_
    split
    · exact hu.putSlot
    · exact hput

/-! ### Slices. -/

theorem State.Canonical.evictEntry {s : State} {e : SliceEntry} (hs : s.Canonical) : (s.evictEntry e).Canonical := by
  unfold State.evictEntry
  cases e with
  | version v => exact hs.spill
  | line l =>
    refine hs.mapPkg fun hp => ?_
    exact { hp with homes := sparseWf_set _ _ _ _ hp.homes, races := sparseWf_filter _ _ _ hp.races }

theorem State.Canonical.settleOnce {s : State} {line : Nat} {set : List SliceEntry} (hs : s.Canonical) :
    (s.settleOnce line set).Canonical := by
  unfold State.settleOnce
  dsimp only
  split
  · exact hs.evictEntry
  · exact hs

theorem State.Canonical.settleFrom {s : State} {line n : Nat} (hs : s.Canonical) : (s.settleFrom line n).Canonical := by
  induction n generalizing s with
  | zero => exact hs
  | succ n ih => exact hs.ite (hs.ite (ih hs.settleOnce))

theorem State.Canonical.settle {s : State} {line : Nat} (hs : s.Canonical) : (s.settle line).Canonical := hs.ite hs.settleFrom

/-! ### Times at a home. -/

theorem State.Canonical.takeIn {s : State} {line : Nat} (hs : s.Canonical) : (s.takeIn line).Canonical :=
  .ite (hs.ite (hs.assign.mapPkg fun hp => { hp.setHome with })) (hs.mapPkg fun hp => hp.setHome)

theorem Pkg.MapsWf.grantRts {p : Pkg} {line : Nat} {r : BitVec 16} (hp : p.MapsWf) : (p.grantRts line r).MapsWf :=
  .ite { hp with } hp

theorem State.Canonical.homeReadTimes {s : State} {line : Nat} {t : BitVec 16} {lease : BitVec 8} (hs : s.Canonical) :
    (s.homeReadTimes line t lease).1.Canonical := (hs.takeIn.mapPkg fun hp => hp.setHome.grantRts).settle

theorem State.Canonical.homeWriteTimes {s : State} {line : Nat} {t : BitVec 16} {owner : Option (BitVec 9)} (hs : s.Canonical) :
    (s.homeWriteTimes line t owner).1.Canonical := (hs.takeIn.assign.mapPkg fun hp => hp.setHome.grantRts).settle

theorem State.Canonical.wakeLine {s : State} {line : Nat} (hs : s.Canonical) : (s.wakeLine line).Canonical := by
  unfold State.wakeLine
  split
  · exact hs.mapHart.ite hs
  · exact hs

theorem State.Canonical.homeStore {s : State} {dpa n v : Nat} {t : State} (hs : s.Canonical) (he : s.homeStore dpa n v = some t) :
    t.Canonical := by
  obtain ⟨u, hu, rfl⟩ := Option.map_eq_some_iff.mp he
  exact (hs.recall hu).wakeLine.homeWriteTimes.mapPkg fun hp => hp.writeNat

theorem State.Canonical.poke {s : State} {dpa n v : Nat} (hs : s.Canonical) : (s.poke dpa n v).Canonical :=
  hs.getD fun _ he => hs.homeStore he

theorem State.Canonical.pokeOver {s : State} {a v : Nat} (hs : s.Canonical) : (s.pokeOver a v).Canonical :=
  .ite (hs.poke.mapPkg fun hp => { hp.setPoison with }) hs.poke

/-! ### Access counters. -/

theorem State.Canonical.countMark {s : State} {dpa : Nat} {m : CountMark} {write : Bool} {core : BitVec 9} (hs : s.Canonical) :
    (s.countMark dpa m write core).Canonical :=
  .ite (.ite (hs.mapPkg fun hp => .post (by exact { hp with counters := sparseWf_set _ _ _ _ hp.counters }))
    (hs.mapPkg fun hp => { hp with counters := sparseWf_set _ _ _ _ hp.counters })) hs

theorem State.Canonical.countAccess {s : State} {dpa : Nat} {cnt write : Bool} (hs : s.Canonical) :
    (s.countAccess dpa cnt write).Canonical := hs.countMark.ite hs

end Sys2Proof.Machine
end

/-! Lines and versions of the core, reads and writes of memory keep the canonical form of the maps (log 84). -/

section
namespace Sys2Proof.Machine

/-! ### Lines and versions of the core. -/

theorem Core.MapsWf.putLine {c : Core} {l : Line} (hc : c.MapsWf) : (c.putLine l).MapsWf := { hc with }

theorem State.Canonical.versionTime {s : State} {v : Version} (hs : s.Canonical) : (s.versionTime v).Canonical := by
  unfold State.versionTime
  exact hs.correctLine.assign.mapPkg fun hp => hp.setHome

theorem State.Canonical.sinkVersion {s : State} {v : Version} (hs : s.Canonical) : (s.sinkVersion v).Canonical :=
  have ht := hs.versionTime.throughMesh
  .ite ht.spill (.settle (ht.mapPkg fun hp => hp.putVersion))

theorem State.Canonical.evict {s : State} {w : BitVec 3} {set : Nat} (hs : s.Canonical) : (s.evict w set).Canonical := by
  unfold State.evict
  repeat' split
  · exact hs.dropLines
  · exact hs.writeBack
  · exact hs.sinkVersion
  · exact hs

theorem State.Canonical.placeLine {s : State} {l : Line} (hs : s.Canonical) : (s.placeLine l).Canonical := by
  unfold State.placeLine
  exact .ite (hs.mapCore fun hc => { hc with }) (.ite (by exact { hs with }) (hs.mapCore fun hc => hc.putLine))

theorem State.Canonical.fill {s : State} {l : Line} (hs : s.Canonical) : (s.fill l).1.Canonical := by
  unfold State.fill
  repeat' split
  · exact hs.placeLine
  · exact hs.evict.placeLine
  · exact hs

theorem State.Canonical.recallVersion {s : State} {v : Version} {t : State} (hs : s.Canonical) (he : s.recallVersion v = some t) :
    t.Canonical := by
  unfold State.recallVersion at he
  split at he
  · cases he
    exact hs
  · cases he
  · dsimp only at he
    split at he
    · cases he
      exact hs.sinkVersion
    · cases he
      exact hs.sinkVersion.mapCore fun hc => hc.putLine

/-- A chain of steps that may have to wait keeps what each step keeps. -/
theorem State.Canonical.foldl_bind {α : Type} {s t : State} {l : List α} {f : α → State → Option State} (hs : s.Canonical)
    (hf : ∀ x u v, u.Canonical → f x u = some v → v.Canonical)
    (he : l.foldl (fun o x => o.bind (f x)) (some s) = some t) : t.Canonical := by
  induction l generalizing s with
  | nil =>
    cases he
    exact hs
  | cons x l ih =>
    rw [List.foldl_cons, Option.bind_some] at he
    cases hx : f x s with
    | some u => exact ih (hf x s u hs hx) (hx ▸ he)
    | none =>
      have hnone : l.foldl (fun o x => o.bind (f x)) none = none := by
        clear ih he
        induction l with
        | nil => rfl
        | cons y l ih => exact ih
      rw [hx, hnone] at he
      cases he

theorem State.Canonical.recallVersions {s : State} {line : Nat} {h : BitVec 12} {t : State} (hs : s.Canonical) (he :
    s.recallVersions line h = some t) :
    t.Canonical := by
  unfold State.recallVersions at he
  split at he
  · cases he
    exact hs
  · exact hs.foldl_bind (fun _ _ _ hu hv => hu.recallVersion hv) he

theorem State.Canonical.recallFor {s : State} {line : Nat} {h : BitVec 12} {own : Bool} {t : State} (hs : s.Canonical) (he :
    s.recallFor line h own = some t) :
    t.Canonical := by
  obtain ⟨u, hu, hv⟩ := Option.bind_eq_some_iff.mp he
  exact (hs.recall hu).recallVersions hv

/-! ### Reads. -/

theorem Core.MapsWf.touchData {c : Core} {line : Nat} {h : BitVec 12} (hc : c.MapsWf) : (c.touchData line h).MapsWf :=
  .ite { hc with } hc

theorem State.Canonical.noteRead {s : State} {w : BitVec 16} (hs : s.Canonical) : (s.noteRead w).Canonical := hs.mapHart

theorem State.Canonical.acquireRow {s : State} {w : BitVec 16} (hs : s.Canonical) : (s.acquireRow w).Canonical := hs.mapHart

theorem State.Canonical.acquireAll {s : State} (hs : s.Canonical) : s.acquireAll.Canonical := hs.mapHart

theorem State.Canonical.serveRead {s : State} {line : Nat} {h : BitVec 12} {acq cache : Bool} {r : State × BitVec 512 × BitVec 8}
    (hs : s.Canonical) (he : s.serveRead line h acq cache = some r) :
    r.1.Canonical := by
  obtain ⟨u, hu, rfl⟩ := Option.map_eq_some_iff.mp he
  have ht := (hs.recallFor hu).homeReadTimes (line := line) (t := u.hart.ltime) (lease := u.hart.lease)
  have hv (a b : BitVec 16) : (if acq = true then ((u.homeReadTimes line u.hart.ltime u.hart.lease).1.noteRead a).acquireRow b
      else (u.homeReadTimes line u.hart.ltime u.hart.lease).1.noteRead a).Canonical := ht.noteRead.acquireRow.ite ht.noteRead
  exact .ite (hv _ _).throughMesh.fill (hv _ _).throughMesh

theorem State.Canonical.useVersion {s : State} {v : Version} (hs : s.Canonical) : (s.useVersion v).Canonical :=
  (hs.mapPkg fun hp => hp.putVersion).mapCore fun hc => { hc with }

theorem State.Canonical.cachedRead {s : State} {line : Nat} {h : BitVec 12} {m : BitVec 64} {dpa : Nat} {cnt : Bool} {r : State ×
    BitVec 512 × BitVec 8} (hs : s.Canonical) (he : s.cachedRead line h m dpa cnt = some r) :
    r.1.Canonical := by
  unfold State.cachedRead at he
  repeat' split at he
  · cases he
    exact hs.useVersion
  · cases he
    exact (hs.mapCore fun hc => hc.putLine).noteRead
  · exact hs.countAccess.serveRead he
  · exact hs.countAccess.serveRead he

theorem State.Canonical.noteOutside {s : State} (hs : s.Canonical) : s.noteOutside.Canonical := hs.ite hs.noteRead

theorem Pkg.MapsWf.takeReply {p : Pkg} {dpa n : Nat} {who : PeerAsker} (hp : p.MapsWf) : (p.takeReply dpa n who).MapsWf :=
  { hp with }

theorem Pkg.MapsWf.dropAsks {p : Pkg} {who : PeerAsker} (hp : p.MapsWf) : (p.dropAsks who).MapsWf := { hp with }

theorem State.Canonical.readMem {s : State} {dpa n : Nat} {mt : MemType} {cnt : Bool} {h : BitVec 12} {r : State × ReadVal} (hs :
    s.Canonical) (he : s.readMem dpa n mt cnt h = some r) :
    r.1.Canonical := by
  unfold State.readMem at he
  dsimp only at he
  split at he
  · obtain ⟨u, hu, rfl⟩ := Option.map_eq_some_iff.mp he
    exact (hs.cachedRead hu).mapCore fun hc => hc.touchData
  · obtain ⟨u, hu, rfl⟩ := Option.map_eq_some_iff.mp he
    exact hs.countAccess.serveRead hu
  · obtain ⟨u, hu, rfl⟩ := Option.map_eq_some_iff.mp he
    exact (hs.countAccess.recallFor hu).noteOutside.throughMesh
  · cases he

/-! ### Writes. -/

theorem State.Canonical.dropTagged {s : State} {line : Nat} (hs : s.Canonical) : (s.dropTagged line).Canonical := hs.refreshCopies

theorem State.Canonical.injectLine {s : State} {line o : Nat} {h : BitVec 12} (hs : s.Canonical) :
    (s.injectLine line o h).Canonical := .ite (hs.mapCore fun hc => { hc with }) (.ite (by exact { hs with }) hs)

theorem State.Canonical.freshWord {s : State} {line o n : Nat} (hs : s.Canonical) : (s.freshWord line o n).Canonical :=
  .ite (by exact { hs with }) hs

theorem State.Canonical.ownedWrite {s : State} {line o n v dpa : Nat} {cnt : Bool} {t : State} (hs : s.Canonical) (he :
    s.ownedWrite line o n v dpa cnt = some t) :
    t.Canonical := by
  unfold State.ownedWrite at he
  dsimp only at he
  split at he
  · cases he
    exact (hs.mapCore fun hc => hc.putLine).freshWord.dropTagged.injectLine
  · split at he
    · cases he
    next u hu =>
      have ht := ((hs.countAccess.recall hu).homeWriteTimes (line := line) (t := u.hart.ltime)
        (owner := some u.core.num)).mapHart (f := fun h => { h with ltime :=
          (u.homeWriteTimes line u.hart.ltime (some u.core.num)).2 })
      split at he
      · next hfill =>
        cases he
        exact (State.Canonical.of_pair hfill ht.throughMesh.fill).freshWord.dropTagged.injectLine
      · cases he
        exact State.Canonical.dropTagged (ht.meshWrite.mapPkg fun hp => hp.setHome)

theorem State.Canonical.storeInWay {s : State} {x : Version} {o n v : Nat} (hs : s.Canonical) :
    (s.storeInWay x o n v).Canonical := hs.useVersion.freshWord.dropTagged.injectLine

theorem State.Canonical.storeAtHome {s : State} {x : Version} {o n v : Nat} {t : State} (hs : s.Canonical) (he : s.storeAtHome x
    o n v = some t) :
    t.Canonical := by
  unfold State.storeAtHome at he
  split at he
  · obtain ⟨k, -, rfl⟩ := Option.map_eq_some_iff.mp he
    exact (State.Canonical.putSlot (hs.mapPkg fun hp => hp.takeVersion)).dropTagged
  · cases he
    exact (State.Canonical.settle (hs.mapPkg fun hp => hp.putVersion)).dropTagged

theorem State.Canonical.bringVersion {s : State} {x : Version} {r : State × Version} (hs : s.Canonical) (he : s.bringVersion x =
    some r) :
    r.1.Canonical := by
  unfold State.bringVersion at he
  split at he
  · cases he
    exact hs.dropLines
  · obtain ⟨w, -, rfl⟩ := Option.map_eq_some_iff.mp he
    exact hs.evict

theorem State.Canonical.tagTime {s : State} {line : Nat} (hs : s.Canonical) : (s.tagTime line).Canonical :=
  hs.ite hs.homeWriteTimes.mapHart

theorem State.Canonical.versionWrite {s : State} {line o n v : Nat} {h : BitVec 12} {cnt : Bool} {t : State} (hs : s.Canonical)
    (he : s.versionWrite line o n v h cnt = some t) :
    t.Canonical := by
  have ht := (hs.countAccess (dpa := line * 64) (cnt := cnt) (write := true)).tagTime (line := line)
  unfold State.versionWrite at he
  dsimp only at he
  split at he
  · cases he
  · cases he
    exact hs.storeInWay
  · split at he
    · exact ht.storeAtHome he
    · split at he
      · next hb =>
        cases he
        exact (ht.bringVersion hb).storeInWay
      · exact ht.storeAtHome he

theorem State.Canonical.versionAtomic {s : State} {line o n v : Nat} {h : BitVec 12} {cnt : Bool} {t : State} (hs : s.Canonical)
    (he : s.versionAtomic line o n v h cnt = some t) :
    t.Canonical := by
  obtain ⟨u, hu, hv⟩ := Option.bind_eq_some_iff.mp he
  have hc : u.Canonical := by
    split at hu
    · exact hs.recallVersion hu
    · cases hu
      exact hs
  have ht := (hc.countAccess (dpa := line * 64) (cnt := cnt) (write := true)).tagTime (line := line)
  dsimp only at hv
  split at hv
  · cases hv
  · cases hv
    exact ht.storeInWay
  · exact ht.storeAtHome hv

theorem State.Canonical.homeWrite {s : State} {line : Nat} {dpa n v : Nat} {timed cnt : Bool} {t : State} (hs : s.Canonical) (he
    : s.homeWrite line dpa n v timed cnt = some t) :
    t.Canonical := by
  obtain ⟨u, hu, rfl⟩ := Option.map_eq_some_iff.mp he
  have ht := hs.countAccess.recall hu
  exact (State.Canonical.ite ht.homeWriteTimes.mapHart ht).meshWrite.dropTagged

theorem State.Canonical.writeMem {s : State} {dpa n v : Nat} {mt : MemType} {cnt : Bool} {h : BitVec 12} {t : State} (hs :
    s.Canonical) (he : s.writeMem dpa n v mt cnt h = some t) :
    t.Canonical := by
  unfold State.writeMem at he
  dsimp only at he
  split at he
  · exact hs.versionWrite he
  · repeat' split at he
    · exact hs.homeWrite he
    · exact hs.ownedWrite he
    · exact hs.homeWrite he
    · exact hs.homeWrite he
    · cases he
      exact hs

end Sys2Proof.Machine
end

/-! Shadows, barriers, ports, the store queue, the end of a gang and traps keep the canonical form of the maps (log 84). -/

section
namespace Sys2Proof.Machine

/-! ### Shadows of a SNAP superstep. -/

theorem State.Canonical.putShadow {s : State} {n : Nat} {x : Shadow} (hs : s.Canonical) : (s.putShadow n x).Canonical := by
  unfold State.putShadow
  exact hs.slotStore.slotStore.slotStore.slotStore.mapCore fun hc => { hc with }

theorem State.Canonical.fitShadows {s : State} (hs : s.Canonical) : s.fitShadows.Canonical := by
  refine hs.foldl fun t x ht => ?_
  split
  · exact ht.putShadow
  · exact ht

theorem State.Canonical.takeShadows {s : State} {gs : List Nat} (hs : s.Canonical) : (s.takeShadows gs).Canonical :=
  .ite (State.Canonical.fitShadows (hs.mapCore fun hc => hc.shadows)) hs

theorem State.Canonical.benchStore {s : State} {o : Nat} {bs : List Byte} (hs : s.Canonical) : (s.benchStore o bs).Canonical :=
  (hs.mapCore fun hc => hc.benchWrite).fitShadows

theorem State.Canonical.dropShadows {s : State} (hs : s.Canonical) : s.dropShadows.Canonical := by
  unfold State.dropShadows
  refine State.Canonical.mapCore (hs.foldl fun t x ht => ?_) fun hc => { hc with }
  split
  · exact ht.freeSlot
  · exact ht

theorem State.Canonical.restoreShadows {s : State} (hs : s.Canonical) : s.restoreShadows.Canonical := by
  refine hs.foldl fun t x ht => ht.mapCore fun hc => ?_
  exact Core.MapsWf.injectBench { hc with
    bench := sparseWf_foldl _ _ _ _ (fun _ _ hm => cellSet_wf _ _ _ hm) (sparseWf_drop _ _ _ hc.bench)
    invalid := sparseWf_foldl _ _ _ _ (fun _ _ hm => natSetPut_wf _ _ _ hm) (sparseWf_drop _ _ _ hc.invalid)
    engine := natSetPut_wf _ _ _ hc.engine }

/-! ### Transaction barriers. -/

theorem Core.MapsWf.newTb {c : Core} {o : Nat} {t : Tb} (hc : c.MapsWf) : (c.newTb o t).MapsWf := hc.benchWrite

theorem Core.MapsWf.setTb {c : Core} {o : Nat} {t : Tb} (hc : c.MapsWf) : (c.setTb o t).MapsWf :=
  { (Core.MapsWf.foldl hc fun _ _ hd => hd.recordCe : Core.MapsWf _).newTb with }

theorem Core.MapsWf.setTrack {c : Core} {x : TbTrack} (hc : c.MapsWf) : (c.setTrack x).MapsWf := { hc with }

theorem Core.MapsWf.tbSettle {c : Core} {o : Nat} (hc : c.MapsWf) : (c.tbSettle o).MapsWf := hc.setTb.setTrack.ite hc

theorem Core.MapsWf.tbError {c : Core} {o : Nat} {code : BitVec 4} (hc : c.MapsWf) : (c.tbError o code).MapsWf :=
  hc.setTb.tbSettle

theorem Core.MapsWf.tbArrive {c : Core} {o : Nat} (hc : c.MapsWf) : (c.tbArrive o).MapsWf := hc.setTb.tbSettle

theorem Core.MapsWf.tbCount {c : Core} {o n : Nat} (hc : c.MapsWf) : (c.tbCount o n).1.MapsWf := by
  unfold Core.tbCount
  dsimp only
  split
  · exact hc.setTb.tbSettle
  · exact hc.setTb.setTrack.tbSettle

theorem Core.MapsWf.tbLanding {c : Core} {o : Nat} {idx : List Nat} {f : Tb → Tb} (hc : c.MapsWf) :
    (c.tbLanding o idx f).MapsWf := hc.setTb.setTrack.tbSettle

theorem Core.MapsWf.tbLand {c : Core} {o : Nat} {idx : List Nat} {err : Option (BitVec 4)} {arrives : Bool} (hc : c.MapsWf) :
    (c.tbLand o idx err arrives).MapsWf := hc.tbLanding

theorem Core.MapsWf.tbFinish {c : Core} {o left : Nat} {err : Option (BitVec 4)} (hc : c.MapsWf) :
    (c.tbFinish o left err).MapsWf := hc.setTb.tbSettle

/-! ### Ports. -/

theorem Pkg.MapsWf.setPort {p : Pkg} {k : Port} {r : PortRec} (hp : p.MapsWf) : (p.setPort k r).MapsWf := { hp with }

theorem Pkg.MapsWf.carry {p : Pkg} {k : Port} {nk : Bool} {fs : List SentFlit} (hp : p.MapsWf) : (p.carry k nk fs).MapsWf :=
  hp.setPort

theorem Pkg.MapsWf.askReplay {p : Pkg} {k : Port} (hp : p.MapsWf) : (p.askReplay k).MapsWf := hp.carry.ite hp

theorem Pkg.MapsWf.pump {p : Pkg} {k : Port} (hp : p.MapsWf) : (p.pump k).MapsWf := hp.setPort.carry.ite hp

theorem Pkg.MapsWf.send {p : Pkg} {k : Port} {fs : List SentFlit} (hp : p.MapsWf) : (p.send k fs).MapsWf := hp.ite hp.setPort.pump

theorem Pkg.MapsWf.quietLanes {p : Pkg} (hp : p.MapsWf) : p.quietLanes.MapsWf := { hp with }

theorem Pkg.MapsWf.refusedWrite {p : Pkg} {dpa : Nat} {ctx : BitVec 8} {cookie : Word} (hp : p.MapsWf) :
    (p.refusedWrite dpa ctx cookie).MapsWf := hp.post

theorem State.Canonical.peerWrite {s : State} {dpa : Nat} {bs : List Byte} {poison : Bool} (hs : s.Canonical) :
    (s.peerWrite dpa bs poison).Canonical := by
  unfold State.peerWrite
  refine State.Canonical.mapCore (hs.mapPkg fun hp => ?_) fun hc => { hc with }
  exact hp.refusedWrite.ite hp.send

theorem State.Canonical.peerAsk {s : State} {dpa n : Nat} {op : Option PeerAtomic} {who : PeerAsker} (hs : s.Canonical) :
    (s.peerAsk dpa n op who).Canonical := hs.ite (hs.mapPkg fun hp => .ite { hp with } (.send (by exact { hp with })))

theorem Pkg.MapsWf.acceptReply {p : Pkg} {src : BitVec 12} {far : Nat} {a : PeerReply} (hp : p.MapsWf) :
    (p.acceptReply src far a).MapsWf := { hp with }

/-! ### The store queue. -/

theorem State.Canonical.noteStale {s : State} {dpa n : Nat} (hs : s.Canonical) : (s.noteStale dpa n).Canonical := by
  unfold State.noteStale
  exact hs.mapHart

theorem State.Canonical.perform {s : State} {t : Target} {n v : Nat} {h : BitVec 12} {u : State} (hs : s.Canonical) (he :
    s.perform t n v h = some u) :
    u.Canonical := by
  unfold State.perform at he
  split at he
  · cases he
    exact hs.benchStore
  · split at he
    · cases he
      exact hs.peerWrite
    · exact hs.noteStale.writeMem he

theorem State.Canonical.performAtomic {s : State} {t : Target} {n v : Nat} {h : BitVec 12} {u : State} (hs : s.Canonical) (he :
    s.performAtomic t n v h = some u) :
    u.Canonical := by
  unfold State.performAtomic at he
  repeat' split at he
  · exact hs.noteStale.homeWrite he
  · exact hs.noteStale.versionAtomic he
  · exact hs.perform he

theorem State.Canonical.departHead {s : State} {t : State} (hs : s.Canonical) (he : s.departHead = some t) : t.Canonical := by
  unfold State.departHead at he
  split at he
  · cases he
  next q rest _ =>
    have ht := hs.mapCore (f := fun c => { c with storeQ := rest }) fun hc => { hc with }
    split at he
    · cases he
    · dsimp only at he
      repeat' split at he
      · cases he
        exact ht
      · exact ht.perform he
      · cases he
      · exact ht.performAtomic he

theorem State.Canonical.departAll {s : State} {n : Nat} (hs : s.Canonical) : (s.departAll n).Canonical := by
  induction n generalizing s with
  | zero => exact hs
  | succ n ih =>
    unfold State.departAll
    split
    · exact hs
    · next hd => exact ih (hs.departHead hd)

theorem State.Canonical.drain {s : State} (hs : s.Canonical) : s.drain.Canonical := hs.departAll

/-! ### Ways. -/

theorem Core.MapsWf.wipeWays {c : Core} {m : BitVec 8} (hc : c.MapsWf) : (c.wipeWays m).MapsWf :=
  { hc with
    bench := sparseWf_filter _ _ _ hc.bench
    invalid := sparseWf_filter _ _ _ hc.invalid
    engine := sparseWf_filter _ _ _ hc.engine
    vrows := sparseWf_filter _ _ _ hc.vrows
    prows := sparseWf_filter _ _ _ hc.prows }

theorem State.Canonical.releaseWays {s : State} {m : BitVec 8} (hs : s.Canonical) : (s.releaseWays m).Canonical := by
  have ht := hs.mapCore (f := fun c => c.wipeWays m) fun hc => hc.wipeWays
  exact .ite (by exact { ht with }) ht

/-! ### Hypotheses. -/

theorem State.Canonical.freeHyp {s : State} {h : BitVec 12} (hs : s.Canonical) : (s.freeHyp h).Canonical :=
  .ite (State.Canonical.mapHart (hs.mapPkg fun hp => hp.setHyp)) hs

theorem State.Canonical.setHypReg {s : State} {h : BitVec 12} (hs : s.Canonical) : (s.setHypReg h).Canonical := hs.mapHart

theorem State.Canonical.refuteIds {s : State} {ids : List (BitVec 12)} (hs : s.Canonical) : (s.refuteIds ids).Canonical := by
  unfold State.refuteIds
  refine State.Canonical.mapCore (State.Canonical.dropVersions (hs.mapPkg fun hp => ?_)) fun hc => { hc with }
  exact hp.foldl fun _ _ hq => hq.setHyp

/-! ### The peel engine's operations and pans. -/

theorem Core.MapsWf.endOp {c : Core} {o : PeelOp} {code : BitVec 4} (hc : c.MapsWf) : (c.endOp o code).MapsWf := by
  have hd := hc.ite (p := o.ended) (hc.tbFinish (o := o.tbAddr) (left := o.left) (err := some code))
  exact hd.tbFinish.ite hd

theorem Pkg.MapsWf.dropPrsv {p : Pkg} {gangid : BitVec 20} (hp : p.MapsWf) : (p.dropPrsv gangid).MapsWf := { hp with }

theorem Core.MapsWf.setPan {c : Core} {i : Nat} {p : Pan} (hc : c.MapsWf) : (c.setPan i p).MapsWf := { hc with }

theorem Core.MapsWf.poisonPan {c : Core} {i : Nat} {code : BitVec 4} (hc : c.MapsWf) : (c.poisonPan i code).MapsWf := by
  unfold Core.poisonPan
  repeat' split
  · exact hc
  · exact hc
  · exact hc.setTb.setPan.tbSettle
  · exact hc

theorem Core.MapsWf.discardPan {c : Core} {r : PanRef} (hc : c.MapsWf) : (c.discardPan r).MapsWf := by
  unfold Core.discardPan
  repeat' split
  · exact hc.poisonPan
  · exact hc
  · exact hc

theorem State.Canonical.endOps {s : State} {ops : List PeelOp} {code : BitVec 4} (hs : s.Canonical) :
    (s.endOps ops code).Canonical := hs.mapCore fun hc => hc.foldl fun _ _ hd => hd.endOp.discardPan.ite hd.endOp

theorem State.Canonical.endPeel {s : State} {code : BitVec 4} (hs : s.Canonical) : (s.endPeel code).Canonical :=
  hs.endOps.mapCore fun hc => { hc with }

theorem State.Canonical.undoPeel {s : State} {k : Captured} (hs : s.Canonical) : (s.undoPeel k).Canonical := by
  unfold State.undoPeel
  refine State.Canonical.mapCore (State.Canonical.foldl (hs.mapCore fun hc => ?_) fun t o ht => ?_) fun hc => { hc with }
  · exact { hc with }
  · exact .ite (ht.mapCore fun hc => hc.tbError) ht.endOps

/-! ### Rollback and discard. -/

theorem State.Canonical.freshStamp {s : State} (hs : s.Canonical) : s.freshStamp.Canonical := { hs with }

theorem State.Canonical.rollback {s : State} (hs : s.Canonical) : s.rollback.Canonical := by
  unfold State.rollback
  dsimp only
  split
  · exact hs
  · next k _ =>
    have hu := hs.mapCore (f := fun c => { c with units := [] }) fun hc => { hc with }
    generalize s.mapCore (fun c => { c with units := [] }) = u at hu ⊢
    have ht := State.Canonical.freshStamp ((hu.refuteIds (ids := [u.hart.hyp])).restoreShadows.dropShadows.undoPeel (k := k)
      |>.mapPkg (f := fun p => p.setHyp u.hart.hyp { u.pkg.hypEntry u.hart.hyp with st := .open }) fun hp => hp.setHyp)
    dsimp only at ht
    generalize State.freshStamp _ = v at ht ⊢
    exact State.canonical_of { ht.core with vrows := rfl, prows := rfl, cells := rfl, chans := rfl } { ht.pkg with }

theorem Core.MapsWf.abandonUnits {c : Core} (hc : c.MapsWf) : c.abandonUnits.MapsWf := { hc with }

theorem State.Canonical.discardFor {s : State} {core : BitVec 9} {cause : BitVec 8} {val pc : Word} (hs : s.Canonical) :
    (s.discardFor core cause val pc).Canonical := by
  unfold State.discardFor
  dsimp only
  have hu := (hs.mapCore fun hc => hc.abandonUnits).drain.endPeel (code := 3#4)
  generalize (s.mapCore Core.abandonUnits).drain.endPeel 3#4 = u at hu ⊢
  have hv : (if u.hart.snap then ((u.refuteIds [u.hart.hyp]).dropShadows.setHypReg 0#12).freeHyp u.hart.hyp else u).Canonical :=
    hu.refuteIds.dropShadows.setHypReg.freeHyp.ite hu
  exact { hv.releaseWays with }

theorem State.Canonical.discardGang {s : State} {cause : BitVec 8} {val pc : Word} (hs : s.Canonical) :
    (s.discardGang cause val pc).Canonical := hs.discardFor

theorem State.Canonical.triggerFor {s : State} {core : BitVec 9} {cause : BitVec 8} {val pc : Word} (hs : s.Canonical) :
    (s.triggerFor core cause val pc).Canonical := hs.ite (hs.discardFor.ite (State.Canonical.mapHart (by exact { hs with })))

theorem State.Canonical.triggerRollback {s : State} {cause : BitVec 8} {val : Word} (hs : s.Canonical) :
    (s.triggerRollback cause val).Canonical := hs.triggerFor

theorem State.Canonical.hartStateError {s : State} (hs : s.Canonical) : s.hartStateError.Canonical :=
  hs.triggerRollback.ite hs.discardGang

/-! ### Registers, traps and faults. -/

theorem State.Canonical.setG {s : State} {r : GReg} {v : Word} (hs : s.Canonical) : (s.setG r v).Canonical := hs.ite hs.mapHart

theorem State.Canonical.advance {s : State} (hs : s.Canonical) : s.advance.Canonical := hs.mapHart

theorem State.Canonical.countRetired {s : State} (hs : s.Canonical) : s.countRetired.Canonical := hs.mapHart

theorem State.Canonical.retire {s : State} (hs : s.Canonical) : s.retire.Canonical := hs.countRetired.advance

theorem State.Canonical.jump {s : State} {pc : Addr} (hs : s.Canonical) : (s.jump pc).Canonical := hs.countRetired.mapHart

theorem State.Canonical.result {s : State} {d : GReg} {v : Word} (hs : s.Canonical) : (s.result d v).Canonical := hs.setG.retire

theorem State.Canonical.enterTrap {s : State} {cause : BitVec 8} {val : Word} {pc : Addr} (hs : s.Canonical) :
    (s.enterTrap cause val pc).Canonical := by
  unfold State.enterTrap
  have ht := (hs.mapHart (f := fun h => { h with trapcause := cause, trapval := val, trappc := pc, arrival := none })).mapPkg
    (f := (·.dropAsks .hart)) fun hp => hp.dropAsks
  exact ht.discardGang.ite ht.mapHart

theorem State.Canonical.raise {s : State} {cause : BitVec 8} {val : Word} {pc : Addr} (hs : s.Canonical) :
    (s.raise cause val pc).Canonical := hs.triggerRollback.ite hs.enterTrap

theorem State.Canonical.trap {s : State} {cause : BitVec 8} {val : Word} (hs : s.Canonical) : (s.trap cause val).Canonical :=
  hs.raise

theorem State.Canonical.illegal {s : State} {w : IWord} (hs : s.Canonical) : (s.illegal w).Canonical := hs.trap

theorem State.Canonical.returnFromTrap {s : State} (hs : s.Canonical) : s.returnFromTrap.Canonical := hs.countRetired.mapHart

theorem State.Canonical.sendFault {s : State} {f : PageFault} {src : FaultSource} {hyp : BitVec 12} {pc : Addr} (hs :
    s.Canonical) :
    (s.sendFault f src hyp pc).1.Canonical := { hs with }

theorem State.Canonical.parkHart {s : State} {f : PageFault} {src : FaultSource} (hs : s.Canonical) :
    (s.parkHart f src).Canonical := by
  unfold State.parkHart
  exact State.Canonical.mapPkg hs.sendFault.mapHart fun hp => hp.dropAsks

theorem Res.Canonical.finish {α : Type} {r : Res α} {k : α → State → State} (hr : r.Canonical)
    (hk : ∀ a s, s.Canonical → (k a s).Canonical) : ResultCanonical (r.finish k) := by
  cases r with
  | ok a s => exact (hk a s hr).next
  | trap c v n s => exact State.Canonical.next (State.Canonical.trap hr)
  | fault f s => exact State.Canonical.next (State.Canonical.parkHart hr)
  | wait s => exact State.Canonical.next hr

theorem State.Canonical.waitHere {s : State} (hs : s.Canonical) : ResultCanonical (s.waitHere) := hs.next

end Sys2Proof.Machine
end

/-! Translation, the accesses of the hart and of its units, registers of the units and scalar memory instructions keep the canonical
form of the maps (log 84). -/

section
namespace Sys2Proof.Machine

/-! ### Translation. -/

theorem State.Canonical.walkRead {s : State} {a : Nat} {r : State × Word × Bool} (hs : s.Canonical) (he : s.walkRead a = some r) :
    r.1.Canonical := by
  obtain ⟨u, hu, rfl⟩ := Option.map_eq_some_iff.mp he
  have ht := hs.recall hu
  have hv := ht.ite (p := u.hart.maint) (ht.homeReadTimes (line := a / 64) (t := u.hart.ltime) (lease := u.hart.lease))
  exact hv.consumePoison.ite hv

theorem State.Canonical.walkFrom {va level table : Nat} {s : State} (hs : s.Canonical) :
    (State.walkFrom va level table s).1.Canonical := by
  induction level generalizing table s with
  | zero => exact hs
  | succ level ih =>
    unfold State.walkFrom
    dsimp only
    generalize (if level = 0 then s.levelOneAt va table else table + 8 * walkIndex va (level + 1)) = a
    split
    · exact hs
    split
    · exact hs
    · next hw =>
      have ht := hs.walkRead hw
      repeat' split
      · exact ht
      · exact ht
      · exact ht
      · exact ht
      · exact ht
      · exact ih ht

theorem State.Canonical.walk {s : State} {va : Nat} (hs : s.Canonical) : (s.walk va).1.Canonical := hs.walkFrom

theorem State.Canonical.tlbFill {s : State} {e : TlbEntry} {unit : Bool} (hs : s.Canonical) : (s.tlbFill e unit).Canonical :=
  hs.mapCore fun hc => { hc with }

theorem State.Canonical.tlbTouch {s : State} {e : TlbEntry} (hs : s.Canonical) : (s.tlbTouch e).Canonical :=
  hs.ite (hs.mapCore fun hc => { hc with })

theorem State.Canonical.setLeafBits {s : State} {a : Nat} {m : Nat} {t : State} (hs : s.Canonical) (he : s.setLeafBits a m = some
    t) :
    t.Canonical := by
  obtain ⟨u, hu, rfl⟩ := Option.map_eq_some_iff.mp he
  have ht := hs.recall hu
  exact ht.ite ((ht.wakeLine.ite ht.wakeLine.homeWriteTimes).mapPkg fun hp => hp.writeOver)

theorem State.Canonical.markLeaf {s : State} {e : TlbEntry} {acc : FaultAccess} {unit : Bool} {t : State} (hs : s.Canonical) (he
    : s.markLeaf e acc unit = some t) :
    t.Canonical := by
  unfold State.markLeaf at he
  split at he
  · obtain ⟨u, hu, rfl⟩ := Option.map_eq_some_iff.mp he
    exact (hs.setLeafBits hu).tlbFill
  · cases he
    exact hs.tlbTouch

theorem State.Canonical.translateWalk {s : State} {va : Addr} {acc : FaultAccess} {unit : Bool} (hs : s.Canonical) :
    (s.translateWalk va acc unit).Canonical := by
  have ht := hs.walk (va := va.toNat)
  unfold State.translateWalk
  split
  · next hw => exact .wait (.of_pair hw ht)
  · next hw => exact .fault (.of_pair hw ht)
  · next hw => exact .fault (.of_pair hw ht)
  · next hw => exact .trap (.of_pair hw ht)
  · next hw =>
    replace ht := State.Canonical.of_pair hw ht
    refine .ite (.trap ht) ?_
    split
    · exact .trap ht
    · split
      · exact .wait ht
      · next hb => exact .ok (ht.setLeafBits hb).tlbFill

theorem State.Canonical.translate {s : State} {va : Addr} {acc : FaultAccess} {unit : Bool} (hs : s.Canonical) :
    (s.translate va acc unit).Canonical := by
  unfold State.translate
  split
  · refine .ite ?_ hs.translateWalk
    split
    · split
      · next hm => exact hs.markLeaf hm
      · exact hs
    · exact hs
  · exact hs.translateWalk

/-! ### Checks. -/

theorem State.Canonical.benchCheck {s : State} {ea : Word} {o n : Nat} (hs : s.Canonical) : (s.benchCheck ea o n).Canonical :=
  .ite (.trap hs) (.ite (.trap hs) (.ok hs))

theorem State.Canonical.locate {s : State} {ea : Word} {n : Nat} {acc : FaultAccess} {unit : Bool} (hs : s.Canonical) :
    (s.locate ea n acc unit).Canonical :=
  .ite (.trap hs) (.ite (.trap hs) (.ite hs.benchCheck (hs.translate.andThen fun _ _ ht => .ok ht)))

theorem Pkg.MapsWf.raceCheck {p : Pkg} {core : BitVec 9} {stamp : BitVec 20} {h : BitVec 12} {dpa n : Nat} {write : Bool} {q :
    Pkg} (hp : p.MapsWf) (he : p.raceCheck core stamp h dpa n write = some q) :
    q.MapsWf := by
  simp only [Pkg.raceCheck, Option.ite_none_left_eq_some, Option.some.injEq] at he
  obtain ⟨-, rfl⟩ := he
  exact { hp with races := sparseWf_set _ _ _ _ hp.races }

theorem State.Canonical.race {s : State} {t : Target} {n : Nat} {write : Bool} {h : BitVec 12} {u : State} (hs : s.Canonical) (he
    : s.race t n write h = some u) :
    u.Canonical := by
  unfold State.race at he
  split at he
  · split at he
    · obtain ⟨p, hq, rfl⟩ := Option.map_eq_some_iff.mp he
      exact State.canonical_of hs.core (hs.pkg.raceCheck hq)
    · cases he
      exact hs
  · cases he
    exact hs

/-! ### Reads. -/

theorem State.Canonical.countInvalid {s : State} {k : ReadOf} {bad : List Nat} (hs : s.Canonical) :
    (s.countInvalid k bad).Canonical := by
  unfold State.countInvalid
  split
  · exact hs.mapHart
  · exact hs.mapHart.mapCore fun hc => { hc with }

theorem State.Canonical.correct {s : State} {t : Target} {n : Nat} (hs : s.Canonical) : (s.correct t n).Canonical := by
  unfold State.correct
  split
  · exact hs.foldl fun _ _ ht => State.Canonical.recordCe (ht.mapCore fun hc => { hc with })
  · exact .ite (State.Canonical.recordCe (hs.mapCore fun hc => { hc with })) hs

theorem State.Canonical.readTarget {s : State} {t : Target} {ea : Word} {n : Nat} {h : BitVec 12} {k : ReadOf} (hs : s.Canonical)
    :
    (s.readTarget t ea n h k).Canonical := by
  unfold State.readTarget
  split
  · dsimp only
    split
    · exact .trap hs
    · exact .ite (.trap hs.recordUe) (.ok (hs.countInvalid.ite hs).correct)
  · split
    · exact .trap hs
    have htake {n : Nat} {dpa : Nat} : (s.mapPkg (·.takeReply dpa n k.asker)).Canonical := hs.mapPkg fun hp => hp.takeReply
    split
    · split
      · exact .ok htake.noteOutside
      · exact .trap htake
      · exact .trap htake.consumePoison
      · exact .wait hs.peerAsk
    · split
      · exact .wait hs
      · next r v hr =>
        have ht : r.Canonical := hs.readMem hr
        exact .ite (.trap ht.consumePoison) (.ok (ht.getD fun _ he => ht.race he).correct)

theorem State.Canonical.load {s : State} {ea : Word} {n : Nat} (hs : s.Canonical) : (s.load ea n).Canonical := by
  refine .ite (.wait hs) (hs.locate.andThen fun t u hu => ?_)
  split
  · exact .wait hu
  · split
    · exact .trap hu
    · next hr => exact .ok (hu.race hr)
  · exact hu.readTarget

theorem State.Canonical.unitRead {s : State} {ea : Word} {n : Nat} {h : BitVec 12} {k : ReadOf} (hs : s.Canonical) :
    (s.unitRead ea n h k).Canonical := by
  refine hs.locate.andThen fun t u hu => ?_
  split
  · exact hu.readTarget
  · exact .wait hu

/-! ### Writes. -/

theorem State.Canonical.writeChecks {s : State} {ea : Word} {n : Nat} {acc : FaultAccess} {atomic : Bool} {h : BitVec 12} {unit :
    Bool} (hs : s.Canonical) :
    (s.writeChecks ea n acc atomic h unit).Canonical := by
  refine hs.locate.andThen fun t u hu => ?_
  split
  · exact .trap hu
  · refine .ite (.ok hu.takeShadows) ?_
    split
    · exact .trap hu
    · next hr => exact .ok (hu.race hr).takeShadows

theorem State.Canonical.enqueueStore {s : State} {ea : Word} {n : Nat} {v : Word} {atomic : Option (MemOrd × Scope)} (hs :
    s.Canonical) :
    (s.enqueueStore ea n v atomic).Canonical :=
  .ite (.wait hs) (hs.writeChecks.andThen fun _ _ hu => .ok (hu.mapCore fun hc => { hc with }))

theorem State.Canonical.performTagged {s : State} {t : Target} {n v : Nat} {h : BitVec 12} {u : State} (hs : s.Canonical) (he :
    s.performTagged t n v h = some u) :
    u.Canonical := by
  unfold State.performTagged at he
  split at he
  · cases he
    exact hs
  · exact hs.perform he

theorem State.Canonical.unitWrite {s : State} {ea : Word} {n v : Nat} {h : BitVec 12} (hs : s.Canonical) :
    (s.unitWrite ea n v h).Canonical := by
  unfold State.unitWrite
  refine .ite ?_ (.wait hs.drain)
  split
  · exact .ok hs
  · refine hs.writeChecks.andThen fun t u hu => ?_
    split
    · next hp => exact .ok (hu.perform hp)
    · exact .wait hu

/-! ### Flags and the registers of the units. -/

theorem State.Canonical.orVfsr {s : State} {f : Flags} (hs : s.Canonical) : (s.orVfsr f).Canonical := hs.mapHart

theorem State.Canonical.orFsr {s : State} {f : Flags} (hs : s.Canonical) : (s.orFsr f).Canonical := hs.mapHart

theorem State.Canonical.setMode {s : State} {m : BitVec 21} (hs : s.Canonical) : (s.setMode m).Canonical := hs.mapHart

theorem State.Canonical.clearVstart {s : State} (hs : s.Canonical) : s.clearVstart.Canonical := hs.mapHart

theorem State.Canonical.armVstart {s : State} {e : Nat} (hs : s.Canonical) : (s.armVstart e).Canonical := hs.mapHart

theorem State.Canonical.vSet {s : State} {k : VReg} {sew e v : Nat} (hs : s.Canonical) : (s.vSet k sew e v).Canonical := by
  unfold State.vSet
  refine hs.mapCore fun hc => ?_
  split
  · exact { hc with vrows := sparseWf_set _ _ _ _ (sparseWf_set _ _ _ _ hc.vrows) }
  · exact { hc with vrows := sparseWf_set _ _ _ _ hc.vrows }

theorem State.Canonical.pSet {s : State} {k : PReg} {e : Nat} {b : Bool} (hs : s.Canonical) : (s.pSet k e b).Canonical :=
  hs.ite (hs.mapCore fun hc => { hc with prows := sparseWf_set _ _ _ _ hc.prows })

theorem State.Canonical.countRounding {s : State} {rounds : Bool} (hs : s.Canonical) : (s.countRounding rounds).Canonical :=
  hs.mapHart.ite hs

theorem State.Canonical.markDirty {s : State} {start : Nat} {v : BitVec 16} {p : BitVec 32} (hs : s.Canonical) :
    (s.markDirty start v p).Canonical := hs.mapHart.ite hs

/-! ### Scalar instructions. -/

theorem State.Canonical.alu {s : State} {d a b : GReg} {f : Word → Word → Word} (hs : s.Canonical) :
    ResultCanonical (s.alu d a b f) := hs.result.next

theorem State.Canonical.alu1 {s : State} {d a : GReg} {f : Word → Word} (hs : s.Canonical) : ResultCanonical (s.alu1 d a f) :=
  hs.result.next

theorem State.Canonical.scalarLoad {s : State} {d a : GReg} {imm : BitVec 16} {n : Nat} {ext : Nat → Word} (hs : s.Canonical) :
    ResultCanonical (s.scalarLoad d a imm n ext) := hs.load.finish fun _ _ ht => ht.result

theorem State.Canonical.scalarStore {s : State} {y a : GReg} {imm : BitVec 16} {n : Nat} (hs : s.Canonical) :
    ResultCanonical (s.scalarStore y a imm n) := hs.enqueueStore.finish fun _ _ ht => ht.retire

theorem State.Canonical.branch {s : State} {y a : GReg} {imm : BitVec 16} {taken : Word → Word → Bool} (hs : s.Canonical) :
    ResultCanonical (s.branch y a imm taken) := hs.jump.next.ite hs.retire.next

theorem State.Canonical.execJalr {d a : GReg} {imm : BitVec 16} {s : State} (hs : s.Canonical) :
    ResultCanonical (execJalr d a imm s) := by
  unfold Machine.execJalr
  exact hs.trap.next.ite hs.setG.jump.next

/-! ### Atomics. -/

theorem State.Canonical.returned {s : State} {wts : Option (BitVec 16)} {o : MemOrd} (hs : s.Canonical) :
    (s.returned wts o).Canonical := by
  unfold State.returned
  split
  · exact hs.noteRead.acquireRow.ite hs.noteRead
  · exact hs.acquireRow.ite hs.noteOutside

theorem State.Canonical.atomicWith {s : State} {dpa n : Nat} {mt : MemType} {cnt : Bool} {h : BitVec 12} {ea : Word} {f : Nat →
    Option Nat} {o : MemOrd} (hs : s.Canonical) :
    (s.atomicWith dpa n mt cnt h ea f o).Canonical := by
  unfold State.atomicWith
  dsimp only
  generalize (if mt = .wb then h else 0#12) = x
  split
  · exact .wait hs
  · next t hr =>
    have ht := (hs.recallFor hr).throughMesh (line := dpa / 64) (q := (t.compose (dpa / 64) x (t.homeImage (dpa / 64))).2)
    refine .ite (.trap ht.countAccess.consumePoison) ?_
    split
    · have hv := ht.countAccess (dpa := dpa) (cnt := cnt) (write := false)
      exact .ite (.ok (hv.homeReadTimes.fill.ite hv.homeReadTimes).returned) (.ok hv.returned)
    · split
      · exact .wait hs
      · next u hw =>
        split at hw
        · exact .ok (ht.noteStale.homeWrite hw).returned
        · exact .ok (ht.noteStale.versionAtomic hw).returned

theorem State.Canonical.atomicHome {s : State} {dpa n : Nat} {mt : MemType} {cnt : Bool} {h : BitVec 12} {ea : Word} {op : AmoOp}
    {o : MemOrd} {v cmp : Nat} (hs : s.Canonical) :
    (s.atomicHome dpa n mt cnt h ea op o v cmp).Canonical := hs.atomicWith

theorem State.Canonical.atomicPeer {s : State} {dpa n : Nat} {ea : Word} {op : AmoOp} {o : MemOrd} {v cmp : Nat} (hs :
    s.Canonical) :
    (s.atomicPeer dpa n ea op o v cmp).Canonical := by
  have htake : (s.mapPkg (·.takeReply dpa n .hart)).Canonical := hs.mapPkg fun hp => hp.takeReply
  unfold State.atomicPeer
  split
  · exact .wait hs.peerAsk
  · exact .trap htake
  · exact .trap htake.consumePoison
  · exact .ok htake.returned

theorem State.Canonical.atomicBench {s : State} {off n : Nat} {ea : Word} {op : AmoOp} {v cmp : Nat} (hs : s.Canonical) :
    (s.atomicBench off n ea op v cmp).Canonical := by
  refine hs.readTarget.andThen fun old u hu => ?_
  split
  · exact .ok hu
  · exact .ok hu.benchStore

theorem State.Canonical.atomicAt {s : State} {t : Target} {n : Nat} {ea : Word} {op : AmoOp} {o : MemOrd} {v cmp : Nat} (hs :
    s.Canonical) :
    (s.atomicAt t n ea op o v cmp).Canonical := by
  unfold State.atomicAt
  refine .ite (.wait hs) ?_
  split
  · exact hs.atomicBench
  · refine .ite hs.atomicPeer (.ite ?_ hs.atomicHome)
    split
    · exact .wait hs
    · next t r hr =>
      have ht : t.Canonical := hs.readMem hr
      exact .ite (.trap ht.consumePoison) (.ok ht.correct)

theorem State.Canonical.amo {s : State} {d a b : GReg} {o : MemOrd} {sc : Scope} {w4 : Bool} {op : AmoOp} (hs : s.Canonical) :
    ResultCanonical (s.amo d a b o sc w4 op) := by
  refine hs.waitHere.ite (Res.Canonical.finish (hs.locate.andThen fun t u hu => ?_) fun _ _ ht => ht.result)
  split
  · exact .trap hu
  · exact .ite (.wait hu) hu.atomicAt

theorem State.Canonical.execAst {a b : GReg} {ord : MemOrd} {sc : Scope} {w4 : Bool} {s : State} (hs : s.Canonical) :
    ResultCanonical (execAst a b ord sc w4 s) := hs.enqueueStore.finish fun _ _ ht => ht.retire

theorem State.Canonical.execFence {sc : Scope} {ord : MemOrd} {s : State} (hs : s.Canonical) :
    ResultCanonical (execFence sc ord s) := hs.waitHere.ite (hs.waitHere.ite (hs.acquireAll.retire.next.ite hs.retire.next))

/-! ### Queues of the units. -/

theorem Core.MapsWf.freshWalks {c : Core} (hc : c.MapsWf) : c.freshWalks.MapsWf := .ite { hc with } hc

theorem State.Canonical.joinQueue {s : State} {u : UnitOp} (hs : s.Canonical) : (s.joinQueue u).Canonical :=
  hs.mapCore fun hc => { hc.freshWalks with }

theorem State.Canonical.issueKeep {s : State} {i : Instr} {start : Nat} {gd gd1 ga gb : Word} {rounds : Bool} {vd : BitVec 16}
    {pd : BitVec 32} (hs : s.Canonical) :
    ResultCanonical (s.issueKeep i start gd gd1 ga gb rounds vd pd) :=
  hs.waitHere.ite hs.joinQueue.markDirty.countRounding.retire.next

theorem State.Canonical.issue {s : State} {i : Instr} {start : Nat} {gd gd1 ga gb : Word} {rounds : Bool} {vd : BitVec 16} {pd :
    BitVec 32} (hs : s.Canonical) :
    ResultCanonical (s.issue i start gd gd1 ga gb rounds vd pd) :=
  hs.waitHere.ite hs.joinQueue.markDirty.countRounding.clearVstart.retire.next

theorem State.Canonical.dropUnit {s : State} {u : UnitOp} (hs : s.Canonical) : (s.dropUnit u).Canonical :=
  hs.mapCore fun hc => { hc with }

theorem State.Canonical.setUnit {s : State} {u : UnitOp} (hs : s.Canonical) : (s.setUnit u).Canonical :=
  hs.mapCore fun hc => { hc with }

theorem State.Canonical.unitResult {s : State} {u : UnitOp} {g : GReg} {v : Word} (hs : s.Canonical) :
    (s.unitResult u g v).Canonical := hs.setG.dropUnit

end Sys2Proof.Machine
end

/-! Every step keeps the canonical forms: system registers, issue to the units, the kneader and the rod tree (the functions of
Machine/System.lean, Rows.lean, Kneader.lean and RodTree.lean). -/

section
namespace Sys2Proof.Machine

/-! ### System registers. -/

theorem Core.MapsWf.writeErrstat {c : Core} {v : Word} (hc : c.MapsWf) : (c.writeErrstat v).MapsWf := by
  unfold Core.writeErrstat
  exact .ite { hc with } { hc with }

theorem State.Canonical.sysWrite {s : State} {r : SysReg} {v : Word} (hs : s.Canonical) : (s.sysWrite r v).Canonical := by
  unfold State.sysWrite
  cases r with
  | errstat => exact .ite (hs.mapCore fun hc => hc.writeErrstat) hs
  | _ => exact { hs with }

theorem State.Canonical.execMfs {d : GReg} {r : SysReg} {s : State} (hs : s.Canonical) : ResultCanonical (execMfs d r s) :=
  hs.waitHere.ite hs.result.next

theorem State.Canonical.execMts {r : SysReg} {a : GReg} {s : State} (hs : s.Canonical) : ResultCanonical (execMts r a s) :=
  hs.waitHere.ite hs.sysWrite.retire.next

theorem State.Canonical.execMtsMode {a : GReg} {s : State} (hs : s.Canonical) : ResultCanonical (execMtsMode a s) := by
  unfold Machine.execMtsMode
  dsimp only
  exact hs.setMode.retire.next.ite hs.illegal.next

theorem State.Canonical.execMtsVl {a : GReg} {s : State} (hs : s.Canonical) : ResultCanonical (execMtsVl a s) :=
  hs.mapHart.retire.next

theorem State.Canonical.execMtsVstart {a : GReg} {s : State} (hs : s.Canonical) : ResultCanonical (execMtsVstart a s) :=
  hs.waitHere.ite hs.mapHart.retire.next

theorem State.Canonical.writeFcr {s : State} {v : Word} {w : IWord} (hs : s.Canonical) : ResultCanonical (s.writeFcr v w) :=
  hs.waitHere.ite (hs.illegal.next.ite hs.mapHart.retire.next)

theorem State.Canonical.execMtsLtime {a : GReg} {s : State} (hs : s.Canonical) : ResultCanonical (execMtsLtime a s) := by
  unfold Machine.execMtsLtime
  dsimp only
  exact State.Canonical.next (State.Canonical.retire (hs.mapHart.ite hs))

theorem State.Canonical.execMtsBenchchk {a : GReg} {s : State} (hs : s.Canonical) : ResultCanonical (execMtsBenchchk a s) := by
  unfold Machine.execMtsBenchchk
  dsimp only
  exact hs.illegal.next.ite hs.mapHart.retire.next

theorem State.Canonical.execMtsChkctl {a : GReg} {s : State} (hs : s.Canonical) : ResultCanonical (execMtsChkctl a s) := by
  unfold Machine.execMtsChkctl
  dsimp only
  exact hs.retire.next.ite (hs.illegal.next.ite (hs.mapCore fun hc => { hc with }).retire.next)

theorem State.Canonical.execGmode {m : BitVec 21} {s : State} (hs : s.Canonical) : ResultCanonical (execGmode m s) := by
  unfold Machine.execGmode
  exact hs.setMode.retire.next.ite hs.illegal.next

theorem State.Canonical.execVsetl {d a : GReg} {s : State} (hs : s.Canonical) : ResultCanonical (execVsetl d a s) :=
  hs.mapHart.clearVstart.result.next

theorem State.Canonical.execSvc {imm : BitVec 12} {s : State} (hs : s.Canonical) : ResultCanonical (execSvc imm s) :=
  hs.countRetired.raise.next

theorem State.Canonical.execBrk {imm : BitVec 12} {s : State} (hs : s.Canonical) : ResultCanonical (execBrk imm s) :=
  hs.mapHart.next.ite hs.countRetired.raise.next

theorem State.Canonical.execEret {s : State} (hs : s.Canonical) : ResultCanonical (execEret s) := hs.returnFromTrap.next

theorem State.Canonical.idleCheck {s : State} {t : Target} {ea : Word} (hs : s.Canonical) : (s.idleCheck t ea).Canonical := by
  unfold State.idleCheck
  split
  · exact .ite (.trap hs) (.ite (.trap hs.recordUe) (.ok hs))
  · exact .ite (.trap hs) (.ite (.trap hs.consumePoison) (.ok hs))

theorem State.Canonical.execIdle {a : GReg} {s : State} (hs : s.Canonical) : ResultCanonical (execIdle a s) :=
  Res.Canonical.finish (hs.locate.andThen fun _ _ ht => ht.idleCheck) fun _ _ ht => ht.retire.mapHart

theorem State.Canonical.execIfence {s : State} (hs : s.Canonical) : ResultCanonical (execIfence s) := by
  unfold Machine.execIfence
  exact ResultCanonical.ite (State.Canonical.next (State.Canonical.retire (hs.mapHart.mapCore fun hc => by exact { hc with })))
    hs.waitHere

theorem State.Canonical.dropTranslations {s : State} {q : TlbEntry → Bool} (hs : s.Canonical) :
    (s.dropTranslations q).Canonical := by
  unfold State.dropTranslations
  dsimp only
  exact hs.mapCore fun hc => { hc with }

theorem State.Canonical.tlbi {s : State} {pkg : Bool} {q : TlbEntry → Bool} (hs : s.Canonical) : ResultCanonical (s.tlbi pkg q) :=
  hs.trap.next.ite (hs.dropTranslations.retire.next.ite hs.waitHere)

/-! ### Issue to the units. -/

theorem State.Canonical.illegalInstr {s : State} {i : Instr} (hs : s.Canonical) : (s.illegalInstr i).Canonical := hs.illegal

theorem State.Canonical.issueArray {s : State} {i : Instr} {ok : Bool} {d : VReg} {dsew : Nat} {y : VSrc} {rounds : Bool} (hs :
    s.Canonical) :
    ResultCanonical (s.issueArray i ok d dsew y rounds) := hs.issue.ite hs.illegalInstr.next

theorem State.Canonical.issueV {s : State} {i : Instr} {types : ElemType → Bool} {d a : VReg} {y : VSrc} {rounds : Bool} (hs :
    s.Canonical) :
    ResultCanonical (s.issueV i types d a y rounds) := hs.issueArray

theorem State.Canonical.issueWd {s : State} {i : Instr} {types : ElemType → Bool} {wides : ElemType → Bool} {d a : VReg} {y :
    VSrc} {rounds : Bool} (hs : s.Canonical) :
    ResultCanonical (s.issueWd i types wides d a y rounds) := by
  unfold State.issueWd
  dsimp only
  refine ResultCanonical.ite ?_ hs.issueV
  split
  · exact hs.illegalInstr.next
  · exact hs.issueArray

theorem State.Canonical.issueCmp {s : State} {i : Instr} {types : ElemType → Bool} {p : PReg} {a : VReg} {y : VSrc} (hs :
    s.Canonical) :
    ResultCanonical (s.issueCmp i types p a y) := hs.issue.ite hs.illegalInstr.next

theorem State.Canonical.issuePred {s : State} {i : Instr} {p : PReg} {ga : Word} (hs : s.Canonical) :
    ResultCanonical (s.issuePred i p ga) := hs.issue.ite hs.illegalInstr.next

theorem State.Canonical.execVloop {d : PReg} {a : VReg} {off : BitVec 9} {s : State} (hs : s.Canonical) :
    ResultCanonical (execVloop d a off s) := by
  unfold Machine.execVloop
  dsimp only
  exact hs.issue.ite hs.illegalInstr.next

theorem State.Canonical.issueRod {s : State} {i : Instr} {types : ElemType → Bool} {regs : List VReg} {d : Option VReg} {gs gs1 :
    Word} {rounds anyStart : Bool} (hs : s.Canonical) :
    ResultCanonical (s.issueRod i types regs d gs gs1 rounds anyStart) := hs.issue.ite hs.illegalInstr.next

/-! ### Rows and array data errors. -/

theorem Core.MapsWf.writeRows {c : Core} {subs : List (Nat × Nat)} {rows : List Nat} (hc : c.MapsWf) :
    (c.writeRows subs rows).MapsWf := by
  unfold Core.writeRows
  split
  · exact hc.ite { hc with }
  · exact hc

theorem State.Canonical.noteRows {s : State} {es rows : List Nat} (hs : s.Canonical) : (s.noteRows es rows).Canonical :=
  hs.mapCore fun hc => hc.writeRows

theorem State.Canonical.arrayErrorTaken {s : State} {pc : Addr} {keep : List UnitOp} (hs : s.Canonical) :
    (s.arrayErrorTaken pc keep).Canonical :=
  hs.triggerRollback.ite (State.canonical_of { hs.core with vrows := rfl, prows := rfl } { hs.pkg with })

theorem State.Canonical.arrayErrorAt {s : State} {pc : Addr} {src : BitVec 4} {loc : Word} {keep : List UnitOp} (hs :
    s.Canonical) :
    (s.arrayErrorAt pc src loc keep).Canonical := hs.recordUe.arrayErrorTaken

theorem State.Canonical.arrayDataError {s : State} {u : UnitOp} {src : BitVec 4} {loc : Word} (hs : s.Canonical) :
    (s.arrayDataError u src loc).Canonical := hs.arrayErrorAt

theorem State.Canonical.parityError {s : State} {u : UnitOp} {id : Nat} (hs : s.Canonical) : (s.parityError u id).Canonical :=
  hs.arrayDataError

theorem State.Canonical.startUnit {s : State} {u : UnitOp} {runs : Bool} (hs : s.Canonical) :
    (s.startUnit u runs).1.Canonical := by
  unfold State.startUnit
  exact hs.mapCore (f := fun c => { c with
    arrayCount := if !u.started then c.arrayCount + 1#8 else c.arrayCount
    injArm := c.injArm && !(runs && !u.started && s.core.injArm && s.core.inj = 4#4)
    columnFault := c.columnFault && !runs }) fun hc => { hc with }

theorem State.Canonical.columnError {s : State} {u : UnitOp} {row : Option Nat} (hs : s.Canonical) :
    (s.columnError u row).Canonical := hs.arrayDataError

/-! ### The kneader. -/

theorem State.Canonical.foldl_fst {α β : Type} {s : State} {b : β} {f : State × β → α → State × β} {l : List α}
    (hs : s.Canonical) (hf : ∀ r x, r.1.Canonical → (f r x).1.Canonical) : (l.foldl f (s, b)).1.Canonical := by
  induction l generalizing s b with
  | nil => exact hs
  | cons x l ih =>
    have h : (f (s, b) x).1.Canonical := hf (s, b) x hs
    exact ih h

theorem State.Canonical.slotV {s : State} {u : UnitOp} {d : VReg} {dsew : Nat} {all : Bool} {es : List Nat} {f : Nat → FRes}
    {other : Nat → Nat} (hs : s.Canonical) :
    (s.slotV u d dsew all es f other).Canonical := by
  refine State.Canonical.orVfsr (hs.foldl_fst fun r e hr => ?_)
  split
  · exact hr.vSet
  · split
    · exact hr.vSet
    · exact hr

theorem State.Canonical.slotEffect {s : State} {u : UnitOp} {es : List Nat} (hs : s.Canonical) :
    (s.slotEffect u es).Canonical := by
  unfold State.slotEffect
  split
  · exact hs.slotV
  · refine State.Canonical.orVfsr (hs.foldl_fst fun r e hr => ?_)
    split
    · exact hr.pSet
    · exact hr.pSet
  · exact hs.slotV
  · exact hs.foldl fun t e ht => ht.vSet.pSet.ite ht
  · exact hs

theorem State.Canonical.endVloop {s : State} {u : UnitOp} {p : PReg} {off : BitVec 9} (hs : s.Canonical) :
    (s.endVloop u p off).Canonical := by
  unfold State.endVloop
  dsimp only
  exact hs.dropUnit.mapHart.ite hs.dropUnit

theorem State.Canonical.endKneader {s : State} {u : UnitOp} (hs : s.Canonical) : (s.endKneader u).Canonical := by
  unfold State.endKneader
  split
  · exact hs.endVloop
  · exact hs.dropUnit

theorem State.Canonical.runPred {s : State} {u : UnitOp} (hs : s.Canonical) : (s.runPred u).Canonical := by
  unfold State.runPred
  split
  · exact hs.unitResult
  · split
    · exact State.Canonical.dropUnit (hs.foldl_fst fun r b hr => hr.pSet)
    · exact hs.dropUnit

theorem State.Canonical.kneadPred {s : State} {u : UnitOp} (hs : s.Canonical) : (s.kneadPred u).Canonical := by
  unfold State.kneadPred
  split
  · exact hs.parityError
  · exact hs.runPred.noteRows

theorem State.Canonical.kneadOne {s : State} {u : UnitOp} (hs : s.Canonical) : (s.kneadOne u).Canonical := by
  unfold State.kneadOne
  have ht := hs.startUnit (u := u) (runs := if isPred u.instr then 0 < u.vl else u.vstart < u.vl)
  dsimp only
  generalize s.startUnit u _ = r at ht ⊢
  obtain ⟨t, v, miss⟩ := r
  refine State.Canonical.ite ht.columnError (State.Canonical.ite ht.kneadPred (State.Canonical.ite ht.endKneader ?_))
  split
  · exact ht.parityError
  · exact State.Canonical.ite ht.slotEffect.noteRows.endKneader ht.slotEffect.noteRows.setUnit

/-! ### The rod tree. -/

theorem State.Canonical.scan {s : State} {u : UnitOp} {d a : VReg} (hs : s.Canonical) : (s.scan u d a).Canonical := by
  unfold State.scan
  dsimp only
  split
  · exact hs.foldl fun t e ht => ht.vSet
  · exact State.Canonical.orVfsr (hs.foldl_fst fun r e hr => hr.vSet)

theorem State.Canonical.shuffle {s : State} {u : UnitOp} {d : VReg} {w : Nat → Bool} {f : Nat → Nat} (hs : s.Canonical) :
    (s.shuffle u d w f).Canonical := hs.foldl fun _ _ ht => ht.vSet.ite ht

theorem State.Canonical.runShuffle {s : State} {u : UnitOp} (hs : s.Canonical) : (s.runShuffle u).Canonical := by
  unfold State.runShuffle
  split
  case h_7 => exact State.Canonical.unitResult (hs.foldl_fst fun r e hr => hr.vSet)
  case h_8 => exact hs.unitResult
  case h_9 => exact State.Canonical.dropUnit (hs.vSet.ite hs)
  case h_10 => exact hs.dropUnit
  all_goals exact hs.shuffle.dropUnit

theorem State.Canonical.osumStep {s : State} {u : UnitOp} {g : GReg} {a : VReg} (hs : s.Canonical) :
    (s.osumStep u g a).Canonical := by
  unfold State.osumStep
  dsimp only
  exact hs.unitResult.ite hs.orVfsr.mapHart.setUnit

theorem State.Canonical.rodEffect {s : State} {u : UnitOp} (hs : s.Canonical) : (s.rodEffect u).Canonical := by
  unfold State.rodEffect
  split
  · exact hs.osumStep
  · exact hs.scan.dropUnit
  case h_9 => exact hs.runShuffle
  all_goals exact hs.orVfsr.unitResult

theorem State.Canonical.rodOne {s : State} {u : UnitOp} (hs : s.Canonical) : (s.rodOne u).Canonical := by
  unfold State.rodOne
  have ht := hs.startUnit (u := u) (runs := u.rodRuns)
  dsimp only
  generalize s.startUnit u _ = r at ht ⊢
  obtain ⟨t, v, miss⟩ := r
  refine State.Canonical.ite ht.columnError ?_
  split
  · exact ht.parityError
  · exact ht.rodEffect.noteRows

theorem State.Canonical.execRodTreeComplete {s : State} (hs : s.Canonical) : ResultCanonical (execRodTreeComplete s) := by
  unfold Machine.execRodTreeComplete
  split
  · exact hs.rodOne.next.ite hs.next
  · exact hs.next

end Sys2Proof.Machine
end

/-! Every step keeps the canonical forms: the elements of vector memory instructions and the frame (the functions of
Machine/VecMem.lean and Frame.lean). -/

section
namespace Sys2Proof.Machine

/-! ### Vector memory. -/

theorem Res.Canonical.of_eq {α : Type} {r q : Res α} (h : r.Canonical) (he : r = q) : q.state.Canonical := he ▸ h

theorem Res.Canonical.of_pair {α β : Type} {r : β × Res α} {b : β} {q : Res α} (h : r.2.Canonical) (he : r = (b, q)) :
    q.state.Canonical := by
  subst he
  exact h

theorem State.Canonical.issueVecMem {s : State} {i : Instr} {regs : List VReg} {base : Word} {stride : Option Word} {dst : Option
    VReg} (hs : s.Canonical) :
    ResultCanonical (s.issueVecMem i regs base stride dst) := by
  unfold State.issueVecMem
  dsimp only
  exact hs.illegalInstr.next.ite (hs.trap.next.ite (hs.trap.next.ite hs.issue))

theorem State.Canonical.vecElem {s : State} {u : UnitOp} {e : Nat} (hs : s.Canonical) : (s.vecElem u e).Canonical := by
  unfold State.vecElem
  split
  · exact hs.unitWrite
  · exact hs.unitRead.andThen fun _ _ ht => .ok ht.vSet
  · exact .ok hs

theorem State.Canonical.vecLoop {u : UnitOp} {es : List Nat} {s : State} (hs : s.Canonical) :
    (State.vecLoop u es s).2.Canonical := by
  induction es generalizing s with
  | nil => exact .ok hs
  | cons e es ih =>
    unfold State.vecLoop
    have he := hs.vecElem (u := u) (e := e)
    split
    · split
      · next t h =>
        rw [h] at he
        exact ih he
      · exact he
    · exact ih hs

theorem State.Canonical.probeElem {s : State} {u : UnitOp} {x : VReg} {e : Nat} (hs : s.Canonical) :
    (s.probeElem u x e).Canonical := by
  unfold State.probeElem
  have ht := hs.locate (ea := s.elemAddr u e) (n := u.sew / 8) (acc := .read) (unit := true)
  split
  · next t s1 h =>
    have h1 : s1.Canonical := ht.of_eq h
    have hr := h1.readTarget (t := t) (ea := s.elemAddr u e) (n := u.sew / 8) (h := u.hyp) (k := .part 0)
    split
    · split
      · next h2 => exact .ok (hr.of_eq h2).vSet
      · exact .trap (h1.mapPkg fun hp => hp.dropAsks)
      · next h2 => exact .fault (hr.of_eq h2)
      · next h2 => exact .wait (hr.of_eq h2)
    · exact .wait hs
  · exact .trap hs
  · exact .fault hs
  · next h => exact .wait (ht.of_eq h)

theorem State.Canonical.probeLoop {u : UnitOp} {x : VReg} {es : List Nat} {s : State} (hs : s.Canonical) :
    (State.probeLoop u x es s).2.Canonical := by
  induction es generalizing s with
  | nil => exact .ok hs
  | cons e es ih =>
    unfold State.probeLoop
    have he := hs.probeElem (u := u) (x := x) (e := e)
    split
    · split
      · next t h =>
        rw [h] at he
        exact ih he
      · exact he
    · exact ih hs

theorem State.Canonical.unitTrap {s : State} {u : UnitOp} {e : Nat} {cause : BitVec 8} {val : Word} (hs : s.Canonical) :
    (s.unitTrap u e cause val).Canonical := by
  unfold State.unitTrap
  exact State.Canonical.raise (State.Canonical.mapPkg hs.dropUnit.mapHart.mapHart fun hp => hp.dropAsks)

theorem State.Canonical.parkUnit {s : State} {u : UnitOp} {f : PageFault} {src : FaultSource} (hs : s.Canonical) :
    (s.parkUnit u f src).Canonical := by
  unfold State.parkUnit
  dsimp only
  exact hs.sendFault.setUnit.mapPkg fun hp => hp.dropAsks

theorem State.Canonical.noteLoaded {s : State} {u : UnitOp} {x : VReg} {stop : Nat} (hs : s.Canonical) :
    (s.noteLoaded u x stop).Canonical := hs.noteRows

theorem State.Canonical.probeSlot {s : State} {u : UnitOp} {d : GReg} {x : VReg} (hs : s.Canonical) :
    (s.probeSlot u d x).Canonical := by
  unfold State.probeSlot
  refine hs.unitResult.ite ?_
  have hr := hs.probeLoop (u := u) (x := x) (es := u.slotElems s.hart.lanes (u.vstart / s.hart.lanes))
  split
  · next h => exact State.Canonical.ite (hr.of_pair h).noteLoaded.unitResult (hr.of_pair h).noteLoaded.setUnit
  · next h => exact (hr.of_pair h).noteLoaded.setUnit
  · next h => exact (hr.of_pair h).noteLoaded.unitResult
  · next h => exact (hr.of_pair h).noteLoaded.unitResult

theorem State.Canonical.vecSlot {s : State} {u : UnitOp} {x : VReg} {store : Bool} (hs : s.Canonical) :
    (s.vecSlot u x store).Canonical := by
  unfold State.vecSlot
  have hr := hs.vecLoop (u := u) (es := u.slotElems s.hart.lanes (u.vstart / s.hart.lanes))
  have hn {t : State} {e : Nat} (ht : t.Canonical) : (if store then t else t.noteLoaded u x e).Canonical := ht.ite ht.noteLoaded
  dsimp only
  split
  · next h => exact State.Canonical.ite (hn (hr.of_pair h)).dropUnit (hn (hr.of_pair h)).setUnit
  · next h => exact (hn (hr.of_pair h)).setUnit
  · next h => exact (hn (hr.of_pair h)).parkUnit
  · next h => exact (hn (hr.of_pair h)).unitTrap

theorem State.Canonical.checkElems {u : UnitOp} {x : VReg} {h : BitVec 12} {es : List Nat} {s : State}
    {r : State × List (Nat × QStore)} (hs : s.Canonical) (he : State.checkElems u x h es s = some r) : r.1.Canonical := by
  induction es generalizing s r with
  | nil =>
    cases he
    exact hs
  | cons e es ih =>
    unfold State.checkElems at he
    split at he
    · split at he
      · next t s1 hw =>
        have hs1 : s1.Canonical := hs.writeChecks.of_eq hw
        obtain ⟨q, hq, rfl⟩ := Option.map_eq_some_iff.mp he
        exact ih (r := q) hs1 hq
      · cases he
    · exact ih hs he

theorem State.Canonical.checkAhead {s : State} {u : UnitOp} {x : VReg} {r : State × List (Nat × QStore)} (hs : s.Canonical) (he :
    s.checkAhead u x = some r) :
    r.1.Canonical := by
  unfold State.checkAhead at he
  split at he
  · cases he
  · split at he
    · exact hs.checkElems he
    · cases he

theorem State.Canonical.storeLoop {n : Nat} {l : List (Nat × QStore)} {s : State} (hs : s.Canonical) :
    (State.storeLoop n l s).1.Canonical := by
  induction l generalizing s with
  | nil => exact hs
  | cons q l ih =>
    unfold State.storeLoop
    split
    · exact hs
    · split
      · next h => exact ih (hs.performTagged h)
      · exact hs

theorem State.Canonical.storeSlot {s : State} {u : UnitOp} {l : List (Nat × QStore)} (hs : s.Canonical) :
    (s.storeSlot u l).Canonical := by
  unfold State.storeSlot
  have hr := hs.storeLoop (n := (u.vstart / s.hart.lanes + 1) * s.hart.lanes) (l := l)
  dsimp only
  split
  · next h => exact (State.Canonical.of_pair h hr).setUnit
  · next h => exact (State.Canonical.of_pair h hr).dropUnit.ite (State.Canonical.of_pair h hr).setUnit

theorem State.Canonical.moveSlot {s : State} {u : UnitOp} {x : VReg} {store : Bool} (hs : s.Canonical) :
    (s.moveSlot u x store).Canonical := by
  unfold State.moveSlot
  refine hs.dropUnit.ite ?_
  split
  · exact hs.storeSlot
  · next h =>
    split at h
    · exact State.Canonical.storeSlot (hs.checkAhead h)
    · cases h
  · exact hs.vecSlot

theorem State.Canonical.vecOne {s : State} {u : UnitOp} (hs : s.Canonical) : (s.vecOne u).Canonical := by
  unfold State.vecOne
  dsimp only
  split
  · exact hs.unitTrap.ite hs
  · exact hs.parityError
  · split
    · exact hs.probeSlot
    · exact hs.moveSlot
    · exact hs

theorem State.Canonical.execKneaderSlot {s : State} (hs : s.Canonical) : ResultCanonical (execKneaderSlot s) := by
  unfold Machine.execKneaderSlot
  split
  · exact hs.next.ite (hs.vecOne.next.ite (hs.kneadOne.next.ite hs.next))
  · exact hs.next

/-! ### Cells and channels. -/

theorem sparseWfFrom_tabulateFrom {α : Type} [DecidableEq α] (d : α) (a : Nat) (vs : List α) :
    sparseWfFrom d a (tabulateFrom d a vs) = true := by
  induction vs generalizing a with
  | nil => rfl
  | cons v vs ih =>
    rw [tabulateFrom_cons]
    split
    · exact sparseWfFrom_mono d _ (Nat.le_succ a) (ih (a + 1))
    · next hv => simp [sparseWfFrom, hv, ih (a + 1)]

theorem sparseWf_tabulate {α : Type} [DecidableEq α] (d : α) (vs : List α) : sparseWf d (tabulate d vs) = true := by
  have h := sparseWfFrom_tabulateFrom d 0 vs
  simp only [tabulateFrom, Nat.zero_add] at h
  exact h

theorem State.Canonical.withCells {s : State} {m : Sparse (BitVec 64)} {fl : Flags} (hs : s.Canonical)
    (hm : sparseWf 0#64 m = true) : (s.withCells m fl).Canonical :=
  State.Canonical.orFsr (hs.mapCore fun hc => { hc with cells := hm })

theorem State.Canonical.mapCells {s : State} {f : Nat → BitVec 64 → BitVec 64 × Flags} (hs : s.Canonical) :
    (s.mapCells f).Canonical := by
  rw [mapCells_eq]
  exact hs.withCells (sparseWf_tabulate 0#64 _)

theorem State.Canonical.conclude {s : State} (hs : s.Canonical) : s.conclude.Canonical := by
  unfold State.conclude
  dsimp only
  refine hs.ite ?_
  generalize hu : s.mapCells (fun n c => cellAdd c (sparseGet Chan.zero s.core.chans n).value) = u
  have hu : u.Canonical := hu ▸ hs.mapCells
  exact hu.mapCore fun hc => { hc with chans := rfl }

theorem State.Canonical.issueMatrix {s : State} {i : Instr} {xb sparse : Bool} (hs : s.Canonical) :
    ResultCanonical (s.issueMatrix i xb sparse) := hs.issue.ite hs.illegalInstr.next

theorem State.Canonical.execMmoSt {d : VReg} {a b : GReg} {v : VReg} {s24 xb : Bool} {s : State} (hs : s.Canonical) :
    ResultCanonical (execMmoSt d a b v s24 xb s) := by
  unfold Machine.execMmoSt
  dsimp only
  exact hs.illegalInstr.next.ite (hs.trap.next.ite (hs.trap.next.ite hs.issue))

theorem State.Canonical.issueDrain {s : State} {i : Instr} {d : VReg} (hs : s.Canonical) : ResultCanonical (s.issueDrain i d) :=
  hs.issue.ite hs.illegalInstr.next

theorem State.Canonical.cellEvent {s : State} {src : BitVec 4} {n : Nat} (hs : s.Canonical) : (s.cellEvent src n).Canonical :=
  State.Canonical.recordUe (State.Canonical.orFsr (hs.mapCore fun hc => { hc with cells := sparseWf_set _ _ _ _ hc.cells }))

theorem State.Canonical.strike {s : State} {cells : List Nat} (hs : s.Canonical) : (s.strike cells).1.Canonical := by
  unfold State.strike
  split
  · exact State.Canonical.cellEvent (hs.mapCore fun hc => .ite { hc with } { hc with })
  · exact hs

theorem State.Canonical.applyRows {s : State} {u : UnitOp} {rows : List (List Kept)} {b : Nat → Nat → Term} (hs : s.Canonical) :
    (s.applyRows u rows b).Canonical := by
  unfold State.applyRows
  dsimp only
  split
  · refine hs.strike.mapCore fun hc => ?_
    generalize List.mapIdx _ _ = r
    exact { hc with chans := sparseWf_tabulate _ _ }
  · exact hs.strike.mapCells

theorem State.Canonical.frameSpan {s : State} {u : UnitOp} {rows : List (List Kept)} {b : Nat → Nat → Term} {cnt : Nat} (hs :
    s.Canonical) :
    (s.frameSpan u rows b cnt).Canonical := by
  unfold State.frameSpan
  dsimp only
  have ht (p : Prop) [Decidable p] {t : State} (ht : t.Canonical) : (if p then t.conclude else t).Canonical := ht.conclude.ite ht
  split
  · exact ht _ ((ht _ (ht _ hs)).applyRows.mapCore fun hc => { hc with })
  · exact (ht _ hs).applyRows

/-! ### The frame's instructions. -/

theorem State.Canonical.fetchElems {u : UnitOp} {es : List (Nat × Nat)} {got : List Nat} {s : State} (hs : s.Canonical) :
    (State.fetchElems u es got s).2.Canonical := by
  induction es generalizing got s with
  | nil => exact .ok hs
  | cons e es ih =>
    unfold State.fetchElems
    dsimp only
    split
    · next h => exact ih (hs.unitRead.of_eq h)
    · next h => exact .trap (hs.unitRead.of_eq h)
    · next h => exact .fault (hs.unitRead.of_eq h)
    · next h => exact .wait (hs.unitRead.of_eq h)

theorem State.Canonical.applyKsteps {s : State} {u : UnitOp} {lo hi : Nat} {pats : List (Nat × List Nat)} (hs : s.Canonical) :
    (s.applyKsteps u lo hi pats).Canonical := hs.frameSpan

theorem State.Canonical.afterKsteps {s : State} {u : UnitOp} {k : Nat} (hs : s.Canonical) : (s.afterKsteps u k).Canonical := by
  unfold State.afterKsteps
  dsimp only
  exact hs.dropUnit.ite hs.setUnit

theorem State.Canonical.matrixStep {s : State} {u : UnitOp} (hs : s.Canonical) : (s.matrixStep u).Canonical := by
  unfold State.matrixStep
  split
  · exact hs.dropUnit
  · dsimp only
    split
    · exact hs.applyKsteps.afterKsteps
    · split
      · next h => exact (hs.fetchElems.of_pair h).applyKsteps.afterKsteps
      · next h => exact (hs.fetchElems.of_pair h).setUnit
      · next h => exact (hs.fetchElems.of_pair h).parkUnit
      · next h => exact (hs.fetchElems.of_pair h).unitTrap

theorem State.Canonical.checkCells {s : State} {ns : List Nat} (hs : s.Canonical) : (s.checkCells ns).Canonical :=
  hs.ite (hs.foldl fun _ _ ht => ht.cellEvent)

theorem State.Canonical.drain4 {s : State} {u : UnitOp} {d : VReg} {vc : Option VReg} {z : Bool} (hs : s.Canonical) :
    (s.drain4 u d vc z).Canonical := by
  unfold State.drain4
  dsimp only
  refine State.Canonical.dropUnit (State.Canonical.noteRows (State.Canonical.orVfsr (hs.conclude.checkCells.foldl_fst ?_)))
  intro r n hr
  exact State.Canonical.ite (hr.vSet.mapCore fun hc => { hc with cells := sparseWf_set _ _ _ _ hc.cells }) hr.vSet

theorem State.Canonical.rowAdd {s : State} {u : UnitOp} {a : VReg} {col : Bool} (hs : s.Canonical) :
    (s.rowAdd u a col).Canonical := hs.strike.mapCells.dropUnit

theorem State.Canonical.saveCells {u : UnitOp} {ns : List Nat} {s : State} (hs : s.Canonical) :
    (State.saveCells u ns s).2.Canonical := by
  induction ns generalizing s with
  | nil => exact .ok hs
  | cons n ns ih =>
    unfold State.saveCells
    split
    · next h => exact ih (hs.unitWrite.of_eq h)
    · exact hs.unitWrite

theorem State.Canonical.loadCell {s : State} {u : UnitOp} {n : Nat} (hs : s.Canonical) : (s.loadCell u n).Canonical := by
  unfold State.loadCell
  have hput {t : State} {v : BitVec 64} (ht : t.Canonical) : (t.mapCore fun c =>
      { c with cells := sparseSet 0#64 c.cells n v, badCells := natSetPut c.badCells n false }).Canonical :=
    ht.mapCore fun hc => { hc with cells := sparseWf_set _ _ _ _ hc.cells }
  dsimp only
  split
  · next h => exact .ok (hput (hs.unitRead.of_eq h))
  · next h => exact .ite (.ok (State.Canonical.orFsr (hput (hs.unitRead.of_eq h)))) (.trap (hs.unitRead.of_eq h))
  · next h => exact .fault (hs.unitRead.of_eq h)
  · next h => exact .wait (hs.unitRead.of_eq h)

theorem State.Canonical.loadCells {u : UnitOp} {ns : List Nat} {s : State} (hs : s.Canonical) :
    (State.loadCells u ns s).2.Canonical := by
  induction ns generalizing s with
  | nil => exact .ok hs
  | cons n ns ih =>
    unfold State.loadCells
    split
    · next h => exact ih (hs.loadCell.of_eq h)
    · exact hs.loadCell

theorem State.Canonical.endBlock {u : UnitOp} {top : Nat} {r : Nat × Res Unit} (hr : r.2.Canonical) :
    (State.endBlock u top r).Canonical := by
  unfold State.endBlock
  split
  · exact State.Canonical.ite (State.Canonical.dropUnit hr) (State.Canonical.setUnit hr)
  · exact State.Canonical.setUnit hr
  · exact State.Canonical.parkUnit hr
  · exact State.Canonical.unitTrap hr

theorem State.Canonical.frameBlock {s : State} {u : UnitOp} {store : Bool} (hs : s.Canonical) :
    (s.frameBlock u store).Canonical := by
  unfold State.frameBlock
  dsimp only
  exact hs.dropUnit.ite (State.Canonical.ite (.endBlock hs.conclude.checkCells.saveCells)
      (.endBlock (.loadCells (hs.mapCore fun hc => by exact { hc with chans := rfl }))))

theorem Core.MapsWf.zeroFrame {c : Core} (hc : c.MapsWf) : c.zeroFrame.MapsWf := { hc with cells := rfl, chans := rfl }

theorem State.Canonical.frameEffect {s : State} {u : UnitOp} (hs : s.Canonical) : (s.frameEffect u).Canonical := by
  unfold State.frameEffect
  have hz : (s.mapCore Core.zeroFrame).Canonical := hs.mapCore fun hc => hc.zeroFrame
  split
  · exact hz.dropUnit
  · exact hz.mapHart.dropUnit
  · exact hs.conclude.dropUnit
  · exact hs.drain4
  · exact hs.drain4
  · exact hs.drain4
  · exact hs.drain4
  · exact hs.rowAdd
  · exact hs.rowAdd
  · exact hs.frameBlock
  · exact hs.frameBlock
  · exact hs.matrixStep

theorem State.Canonical.frameOne {s : State} {u : UnitOp} (hs : s.Canonical) : (s.frameOne u).Canonical := by
  unfold State.frameOne
  split
  · exact hs.parityError
  · exact hs.frameEffect

theorem State.Canonical.frameTurn {s : State} {u : UnitOp} (hs : s.Canonical) : (s.frameTurn u).Canonical := by
  unfold State.frameTurn
  split
  · exact hs.unitTrap.ite hs
  · have hr : (s.fmcRaised (·.frameOne u)).1.Canonical := by
      unfold State.fmcRaised
      dsimp only
      exact State.Canonical.mapHart hs.mapHart.frameOne
    exact State.Canonical.ite (hr.triggerRollback.ite hr) hs.frameOne

theorem State.Canonical.execFrameKstep {s : State} (hs : s.Canonical) : ResultCanonical (execFrameKstep s) := by
  unfold Machine.execFrameKstep
  split
  · exact hs.next.ite hs.frameTurn.next
  · exact hs.next

end Sys2Proof.Machine
end

/-! Every step keeps the canonical forms: the peel engine, racks and puts (the functions of Machine/Peel.lean and Puts.lean). -/

section
namespace Sys2Proof.Machine

/-! ### Issue to the peel engine. -/

theorem State.Canonical.peelDone {s : State} (hs : s.Canonical) : s.peelDone.Canonical := hs.clearVstart.retire

theorem State.Canonical.peelResult {s : State} {d : GReg} {v : Word} (hs : s.Canonical) : (s.peelResult d v).Canonical :=
  hs.clearVstart.result

theorem State.Canonical.issuePeel {s : State} {i : Instr} {gd gd1 ga gb : Word} {vec : Bool} (hs : s.Canonical) :
    ResultCanonical (s.issuePeel i gd gd1 ga gb vec) := by
  unfold State.issuePeel
  refine hs.waitHere.ite ?_
  dsimp only
  generalize (if isRrot i = true then 2 * s.peelCount else s.peelCount) = n
  have hc := hs.core.tbCount (o := benchOff gb) (n := n)
  split
  · exact State.Canonical.next (State.Canonical.peelDone (State.Canonical.fitShadows (State.canonical_of hc hs.pkg)))
  · exact State.Canonical.next (State.Canonical.peelDone (State.Canonical.fitShadows
      (State.canonical_of { hc.freshWalks with } hs.pkg)))

theorem State.Canonical.peelChecked {s : State} {cs : List (Bool × BitVec 8 × Word)} {k : Result} (hs : s.Canonical)
    (hk : ResultCanonical k) : ResultCanonical (s.peelChecked cs k) := by
  unfold State.peelChecked
  split
  · exact hs.trap.next
  · exact hk

theorem State.Canonical.execPcopy {d a b : GReg} {s : State} (hs : s.Canonical) : ResultCanonical (execPcopy d a b s) :=
  hs.peelChecked hs.issuePeel

theorem State.Canonical.execPcopyX {d a b : GReg} {x : VReg} {s : State} (hs : s.Canonical) :
    ResultCanonical (execPcopyX d a b x s) := hs.illegalInstr.next.ite (hs.peelChecked hs.issuePeel)

theorem State.Canonical.execRrot {d a b : GReg} {s : State} (hs : s.Canonical) : ResultCanonical (execRrot d a b s) :=
  hs.peelChecked hs.issuePeel

theorem natSetPut_foldl_wf {l : List Nat} {b : Bool} (m : NatSet) (w : sparseWf false m = true) :
    sparseWf false (l.foldl (fun m g => natSetPut m g b) m) = true :=
  sparseWf_foldl false _ l m (fun m g hm => natSetPut_wf m g b hm) w

theorem Core.MapsWf.flip {c : Core} {o n : Nat} {engine : Bool} (hc : c.MapsWf) : (c.flip o n engine).MapsWf := by
  unfold Core.flip
  dsimp only
  exact have hd : (((granules o n).filter (fun g => c.engineOwned g != engine)).foldl Core.shadow c).MapsWf := hc.shadows
    { hd with engine := natSetPut_foldl_wf _ hd.engine }

theorem State.Canonical.flip {s : State} {o n : Nat} {engine : Bool} (hs : s.Canonical) : (s.flip o n engine).Canonical :=
  (hs.mapCore fun hc => hc.flip).fitShadows

theorem State.Canonical.execOwnE {a b : GReg} {s : State} (hs : s.Canonical) : ResultCanonical (execOwnE a b s) :=
  hs.peelChecked (hs.flip.peelDone.next.ite hs.waitHere)

theorem State.Canonical.execOwnH {d a b : GReg} {s : State} (hs : s.Canonical) : ResultCanonical (execOwnH d a b s) :=
  hs.peelChecked (hs.peelResult.next.ite (hs.waitHere.ite (hs.peelResult.next.ite hs.flip.peelResult.next)))

theorem State.Canonical.execTbi {a b : GReg} {s : State} (hs : s.Canonical) : ResultCanonical (execTbi a b s) :=
  hs.peelChecked (hs.waitHere.ite (State.Canonical.next (State.Canonical.peelDone (State.Canonical.fitShadows
  (hs.mapCore fun hc => hc.newTb.setTrack)))))

theorem State.Canonical.execTbarr {a : GReg} {s : State} (hs : s.Canonical) : ResultCanonical (execTbarr a s) :=
  hs.peelChecked ((hs.mapCore fun hc => hc.tbArrive).fitShadows.peelDone.next.ite hs.waitHere)

theorem State.Canonical.readTb {s : State} {a : Word} {k : State → Tb → Result} (hs : s.Canonical)
    (hk : ∀ t b, t.Canonical → ResultCanonical (k t b)) : ResultCanonical (s.readTb a k) :=
  hs.recordUe.trap.next.ite (hk _ _ hs.correct)

theorem State.Canonical.execTbtest {d a : GReg} {s : State} (hs : s.Canonical) : ResultCanonical (execTbtest d a s) :=
  hs.peelChecked (hs.readTb fun _ _ ht => ht.peelResult.next)

theorem State.Canonical.execTbwait {d a b : GReg} {s : State} (hs : s.Canonical) : ResultCanonical (execTbwait d a b s) :=
  hs.peelChecked (hs.readTb fun _ _ ht => ht.peelResult.next.ite ht.mapHart.next)

theorem State.Canonical.execTbwaitAnswer {s : State} (hs : s.Canonical) : ResultCanonical (execTbwaitAnswer s) := by
  unfold Machine.execTbwaitAnswer
  split
  · exact State.Canonical.readTb hs.mapHart fun _ _ ht => ht.peelResult.next.ite hs.next
  · exact hs.next

/-! ### Accesses of the engine. -/

theorem Core.MapsWf.setPeel {c : Core} {o : PeelOp} (hc : c.MapsWf) : (c.setPeel o).MapsWf := { hc with }

theorem Core.MapsWf.dropPeel {c : Core} {o : PeelOp} (hc : c.MapsWf) : (c.dropPeel o).MapsWf := { hc with }

theorem Core.MapsWf.closeSide {c : Core} {o : PeelOp} (hc : c.MapsWf) : (c.closeSide o).MapsWf := hc.setPeel.ite hc.dropPeel

theorem State.Canonical.endSide {s : State} {o : PeelOp} {code : BitVec 4} (hs : s.Canonical) : (s.endSide o code).Canonical :=
  (hs.mapCore fun hc => hc.tbFinish.closeSide).fitShadows

theorem State.Canonical.afterPoison {s : State} {poison : Bool} (hs : s.Canonical) : (s.afterPoison poison).Canonical :=
  hs.triggerRollback.ite hs

theorem State.Canonical.engineTarget {s : State} {a : Word} {n : Nat} {acc : FaultAccess} (hs : s.Canonical) :
    (s.engineTarget a n acc).Canonical :=
  .ite (.trap hs) (.ite (.ite (.ok hs) (.trap hs)) (hs.translate.andThen fun _ _ ht => .ok ht))

theorem State.Canonical.engineRead {s : State} {a : Word} {n : Nat} {h : BitVec 12} (hs : s.Canonical) :
    (s.engineRead a n h).Canonical := by
  refine hs.engineTarget.andThen fun t u hu => ?_
  split
  · exact .ok (State.Canonical.correct (hu.recordUe.ite hu))
  · split
    · split
      · exact .ok (hu.mapPkg fun hp => hp.takeReply)
      · exact .trap (hu.mapPkg fun hp => hp.takeReply)
      · exact .ok (State.Canonical.consumePoison (hu.mapPkg fun hp => hp.takeReply))
      · exact .wait hu.peerAsk
    · split
      · exact .wait hu
      · next h => exact .ok (State.Canonical.correct ((hu.readMem h).mapHart.consumePoison.ite (hu.readMem h).mapHart))

theorem State.Canonical.poisonTarget {s : State} {t : Target} {h : BitVec 12} (hs : s.Canonical) :
    (s.poisonTarget t h).Canonical := by
  unfold State.poisonTarget
  split
  · exact hs.mapCore fun hc => { hc with }
  · dsimp only
    split
    · exact hs.mapPkg fun hp => { hp with }
    · split
      · exact hs.mapCore fun hc => hc.putLine
      · exact hs.mapPkg fun hp => hp.setPoison

theorem State.Canonical.engineWrite {s : State} {a : Word} {n v : Nat} {poison : Bool} {h : BitVec 12} (hs : s.Canonical) :
    (s.engineWrite a n v poison h).Canonical := by
  refine hs.engineTarget.andThen fun t u hu => ?_
  have hw {v : State} (hv : v.Canonical) : (match t with
      | .mem dpa _ _ => v.wakeLine (dpa / 64)
      | .bench _ => v).Canonical := by
    cases t with
    | mem => exact hv.wakeLine
    | bench => exact hv
  split
  · exact .trap hu
  · exact .ok hu.peerWrite
  · split
    · exact .wait hu
    · next hp => exact .ok ((hw (hu.perform hp)).poisonTarget.ite (hw (hu.perform hp)))

theorem State.Canonical.parkPeel {s : State} {o : PeelOp} {f : PageFault} (hs : s.Canonical) : (s.parkPeel o f).Canonical := by
  unfold State.parkPeel
  dsimp only
  exact hs.sendFault.mapCore fun hc => hc.setPeel

theorem State.Canonical.landElement {s : State} {o : PeelOp} {e : Nat} {poison : Bool} (hs : s.Canonical) :
    (s.landElement o e poison).Canonical := by
  unfold State.landElement
  dsimp only
  exact State.Canonical.afterPoison (State.Canonical.fitShadows (hs.mapCore fun hc => hc.tbLand.closeSide.ite hc.tbLand.setPeel))

theorem State.Canonical.endElement {o : PeelOp} {e : Nat} {s : State} {r : Res Bool} (hs : s.Canonical) (hr : r.Canonical) :
    (o.endElement e s r).Canonical := by
  unfold PeelOp.endElement
  split
  · exact State.Canonical.landElement hr
  · exact State.Canonical.endSide hr
  · exact State.Canonical.ite (State.Canonical.parkPeel hr) hs
  · exact hr

theorem State.Canonical.copyElement {s : State} {o : PeelOp} {e : Nat} (hs : s.Canonical) : (s.copyElement o e).Canonical := by
  unfold State.copyElement
  dsimp only
  split
  · next h => exact hs.endElement ((hs.engineRead.of_eq h).engineWrite.andThen fun _ _ ht => .ok ht)
  · next h => exact hs.endElement (.trap (hs.engineRead.of_eq h))
  · next h => exact hs.endElement (.fault (hs.engineRead.of_eq h))
  · next h => exact hs.engineRead.of_eq h

/-! ### Racks and reservations. -/

theorem Core.MapsWf.defineRack {c : Core} {r : Rack} (hc : c.MapsWf) : (c.defineRack r).MapsWf := by
  unfold Core.defineRack
  dsimp only
  refine Core.MapsWf.foldl (Core.MapsWf.flip ?_) fun c i hc => hc.newTb.setTrack
  exact { hc with }

theorem State.Canonical.execRkdef {d a b : GReg} {s : State} (hs : s.Canonical) : ResultCanonical (execRkdef d a b s) := by
  unfold Machine.execRkdef
  dsimp only
  refine ResultCanonical.ite (State.Canonical.next (State.Canonical.peelResult ?_))
    (State.Canonical.next (State.Canonical.peelResult ((hs.mapCore fun hc => hc.defineRack).fitShadows.ite hs)))
  split
  · split
    · exact (hs.mapCore fun hc => by exact { hc.flip with }).fitShadows
    · exact hs
  · exact hs

theorem State.Canonical.execPstat {d a : GReg} {s : State} (hs : s.Canonical) : ResultCanonical (execPstat d a s) :=
  hs.setG.setG.peelDone.next

theorem Core.MapsWf.freePan {c : Core} {r : Rack} {i : Nat} {p : Pan} (hc : c.MapsWf) : (c.freePan r i p).MapsWf := hc.flip.setPan

theorem State.Canonical.execPrel {d a : GReg} {s : State} (hs : s.Canonical) : ResultCanonical (execPrel d a s) := by
  unfold Machine.execPrel
  split
  · exact (hs.mapCore fun hc => hc.freePan).fitShadows.peelResult.next.ite hs.waitHere
  · exact hs.peelResult.next

theorem State.Canonical.reserve {s : State} {q : Reservation} (hs : s.Canonical) : (s.reserve q).1.Canonical := by
  unfold State.reserve
  split
  · exact hs
  · split
    · exact hs
    · split
      · exact hs
      · split
        · exact hs
        · split
          · exact hs
          · split
            · exact hs
            · exact State.Canonical.fitShadows (State.canonical_of hs.core.setPan.newTb.setTrack hs.pkg)

theorem State.Canonical.answerPrsv {s : State} {port : Option Port} {pkg : BitVec 12} {v : Word} (hs : s.Canonical) :
    (s.answerPrsv port pkg v).Canonical := by
  unfold State.answerPrsv
  split
  · exact hs
  · next x _ =>
    have ht : (s.mapPkg fun p => { p with
        prsvOut := p.prsvOut.eraseP (fun x => x.port = port && x.pkg = pkg) }).Canonical := hs.mapPkg fun hp => { hp with }
    generalize (s.mapPkg fun p => { p with prsvOut := p.prsvOut.eraseP (fun x => x.port = port && x.pkg = pkg) }) = t at ht ⊢
    dsimp only
    split
    · exact ht.setG.mapHart
    · split
      · split
        · exact State.Canonical.mapPkg ht.pokeOver.poke fun hp => { hp with }
        · exact ht
      · exact ht

theorem State.Canonical.waitPrsv {s : State} {p : PrsvOp} {port : Option Port} {pkg : BitVec 12} (hs : s.Canonical) :
    (s.waitPrsv p port pkg).Canonical := by
  unfold State.waitPrsv
  dsimp only
  exact State.canonical_of { hs.clearVstart.retire.core with } { hs.clearVstart.retire.pkg with }

theorem State.Canonical.execPrsv {d a b : GReg} {s : State} (hs : s.Canonical) : ResultCanonical (execPrsv d a b s) := by
  unfold Machine.execPrsv
  dsimp only
  refine hs.waitHere.ite (hs.peelResult.next.ite (ResultCanonical.ite (hs.reserve.peelResult.next.ite hs.waitPrsv.next)
    (hs.peelResult.next.ite ?_)))
  exact State.Canonical.next (State.Canonical.waitPrsv (hs.mapPkg fun hp => hp.send))

theorem State.Canonical.execReservationRequest {q : Reservation} {s : State} (hs : s.Canonical) :
    ResultCanonical (execReservationRequest q s) := by
  unfold Machine.execReservationRequest
  dsimp only
  refine ResultCanonical.ite (State.Canonical.next ?_) hs.next
  split
  · exact hs.reserve.mapPkg fun hp => hp.send
  · exact hs.reserve

theorem State.Canonical.execReservationAnswer {v : Word} {s : State} (hs : s.Canonical) :
    ResultCanonical (execReservationAnswer v s) := hs.answerPrsv.next

/-! ### Puts that arrive. -/

theorem State.Canonical.issueBput {s : State} {i : Instr} {d a b : GReg} (hs : s.Canonical) :
    ResultCanonical (s.issueBput i d a b) := hs.peelChecked hs.issuePeel

theorem State.Canonical.issueVput {s : State} {i : Instr} {d : GReg} {x : VReg} {b : GReg} (hs : s.Canonical) :
    ResultCanonical (s.issueVput i d x b) := hs.illegalInstr.next.ite (hs.peelChecked hs.issuePeel)

theorem Core.MapsWf.countPut {c : Core} {r : Rack} {i n : Nat} (hc : c.MapsWf) : (c.countPut r i n).MapsWf := by
  unfold Core.countPut
  split
  · exact hc
  · exact hc.setTb.tbSettle.setPan

theorem Core.MapsWf.landBytes {c : Core} {r : Rack} {f : PutFlit} (hc : c.MapsWf) : (c.landBytes r f).MapsWf := by
  unfold Core.landBytes
  dsimp only
  have hd := hc.ite (p := f.data.isEmpty)
    (hc.benchWrite (o := r.base + f.ref.pan.toNat * r.panSize + f.base + f.start) (bs := f.data))
  exact { hd with }

theorem Core.MapsWf.landPiece {c : Core} {r : Rack} {f : PutFlit} {err : Option (BitVec 4)} {ends : Bool} (hc : c.MapsWf) :
    (c.landPiece r f err ends).MapsWf := by
  unfold Core.landPiece
  dsimp only
  split
  · exact hc.landBytes
  · split
    · exact hc.landBytes.tbLanding.setPan
    · exact hc.landBytes.tbLand.setPan

theorem Core.MapsWf.landing {c : Core} {l : List Landing} (hc : c.MapsWf) : ({ c with landing := l } : Core).MapsWf := { hc with }

theorem Core.MapsWf.dropLanding {c : Core} {f : PutFlit} (hc : c.MapsWf) : (c.dropLanding f).MapsWf := hc.landing

theorem State.Canonical.ite_fst {α : Type} {p : Prop} [Decidable p] {a b : State × α} (ha : a.1.Canonical)
    (hb : b.1.Canonical) : (if p then a else b).1.Canonical := by
  split
  · exact ha
  · exact hb

theorem State.Canonical.landFlit {s : State} {f : PutFlit} {first : Bool} (hs : s.Canonical) :
    (s.landFlit f first).1.Canonical := by
  unfold State.landFlit
  dsimp only
  split
  · exact hs
  · next l _ =>
    split
    · exact State.Canonical.ite (hs.mapCore fun hc => hc.dropLanding) hs
    · split
      · have hd := hs.core.dropLanding (f := f)
        exact State.canonical_of (hd.ite { hd with }) hs.pkg
      · exact hs
      · next r _ _ =>
        have hd {e : Option (BitVec 4)} {b : Bool} : (((if first then s.core.countPut r f.ref.pan.toNat l.count
            else s.core).landPiece r f e b).dropLanding f).MapsWf := (hs.core.countPut.ite hs.core).landPiece.dropLanding
        refine State.Canonical.ite_fst (State.Canonical.recordUe (State.Canonical.fitShadows ?_)) (State.Canonical.fitShadows ?_)
        all_goals exact State.canonical_of (hd.ite hd.landing) hs.pkg

theorem State.Canonical.tellSender {s : State} {f : PutFlit} {e : Option (BitVec 4 × Nat)} (hs : s.Canonical) :
    (s.tellSender f e).Canonical := by
  unfold State.tellSender
  split
  · exact hs.mapPkg fun hp => hp.send
  · exact hs

theorem State.Canonical.receivePut {s : State} {f : PutFlit} {first : Bool} (hs : s.Canonical) :
    (s.receivePut f first).Canonical := hs.landFlit.tellSender.ite hs

theorem State.Canonical.execPutFirstFlit {p : PutFlit} {s : State} (hs : s.Canonical) : ResultCanonical (execPutFirstFlit p s) :=
  hs.receivePut.next

theorem State.Canonical.execPutContinuationFlit {p : PutFlit} {s : State} (hs : s.Canonical) :
    ResultCanonical (execPutContinuationFlit p s) := hs.receivePut.next

theorem State.Canonical.execPanDiscardNotice {r : PanRef} {s : State} (hs : s.Canonical) :
    ResultCanonical (execPanDiscardNotice r s) := (hs.mapCore fun hc => hc.discardPan).next.ite hs.next

/-! ### Puts that leave. -/

theorem State.Canonical.landSent {s : State} {id : Nat} {idx : List Nat} (hs : s.Canonical) : (s.landSent id idx).Canonical := by
  unfold State.landSent
  split
  · exact hs
  · refine State.Canonical.fitShadows (hs.mapCore fun hc => ?_)
    exact hc.tbLand.closeSide.ite hc.tbLand.setPeel

theorem State.Canonical.refusePut {s : State} {o : PeelOp} {ec : BitVec 4} {done : Nat} (hs : s.Canonical) :
    (s.refusePut o ec done).Canonical := by
  unfold State.refusePut
  dsimp only
  exact State.Canonical.endSide (hs.mapCore fun hc => hc.tbLand)

theorem State.Canonical.execPutStatus {p : PutStatusMsg} {s : State} (hs : s.Canonical) :
    ResultCanonical (execPutStatus p s) := by
  unfold Machine.execPutStatus
  split
  · exact hs.refusePut.next
  · exact hs.next

theorem State.Canonical.landAll {id : Nat} {l : List (PutFlit × List Nat)} {first : Bool} {s : State} (hs : s.Canonical) :
    (s.landAll id l first).Canonical := by
  induction l generalizing s first with
  | nil => exact hs
  | cons x l ih =>
    unfold State.landAll
    dsimp only
    split
    · exact hs.landFlit.refusePut
    · exact ih hs.landFlit.landSent

theorem State.Canonical.readSource {s : State} {o : PeelOp} (hs : s.Canonical) : (s.readSource o).Canonical := by
  unfold State.readSource
  split
  · exact hs
  · exact hs
  · dsimp only
    split
    · exact hs.ite hs.correct
    · exact (hs.ite hs.correct).recordUe.mapCore fun hc => hc.tbError

theorem State.Canonical.meshPut {s : State} {fs : List (PutFlit × List Nat)} (hs : s.Canonical) : (s.meshPut fs).1.Canonical := by
  unfold State.meshPut
  split
  · exact hs.mapCore (f := fun c => { c with meshFault := false }) fun hc => { hc with }
  · exact hs

theorem State.Canonical.sendPut {s : State} {o : PeelOp} (hs : s.Canonical) : (s.sendPut o).Canonical := by
  unfold State.sendPut
  dsimp only
  refine State.Canonical.ite (State.Canonical.landAll ?_) (State.Canonical.ite (State.Canonical.meshPut ?_)
    (State.Canonical.mapPkg (State.Canonical.meshPut ?_) fun hp => hp.send))
  all_goals exact hs.readSource.mapCore fun hc => hc.setPeel

theorem State.Canonical.movePut {s : State} {o : PeelOp} (hs : s.Canonical) : (s.movePut o).Canonical := by
  unfold State.movePut
  refine hs.ite (hs.endSide.ite (hs.endSide.ite ?_))
  split
  · exact hs.endSide.arrayErrorAt
  · exact hs.sendPut

/-! ### The ring rotation. -/

theorem State.Canonical.endRotation {s : State} {o : PeelOp} {code : BitVec 4} (hs : s.Canonical) :
    (s.endRotation o code).Canonical := (hs.mapCore fun hc => hc.endOp.dropPeel).fitShadows

theorem State.Canonical.rotateHere {s : State} {o : PeelOp} {e : Nat} {v : Nat} {poison : Bool} (hs : s.Canonical) :
    (s.rotateHere o e v poison).Canonical := by
  unfold State.rotateHere
  dsimp only
  split
  · next h =>
    exact State.Canonical.afterPoison (State.Canonical.fitShadows (State.Canonical.mapCore (hs.engineWrite.of_eq h)
      fun hc => hc.tbLand.tbLand.dropPeel.ite hc.tbLand.tbLand.setPeel))
  · next h => exact (hs.engineWrite.of_eq h).endRotation
  · next h => exact (hs.engineWrite.of_eq h).parkPeel
  · next h => exact hs.engineWrite.of_eq h

theorem State.Canonical.rrotOut {s : State} {o : PeelOp} {e : Nat} {refused : Option (BitVec 4)} (hs : s.Canonical) :
    (s.rrotOut o e refused).Canonical := by
  unfold State.rrotOut
  split
  · next h =>
    refine (hs.engineRead.of_eq h).rotateHere.ite ?_
    split
    · exact (hs.engineRead.of_eq h).endSide
    · exact (hs.engineRead.of_eq h).landElement
  · next h => exact (hs.engineRead.of_eq h).endRotation.ite (hs.endElement (.trap (hs.engineRead.of_eq h)))
  · next h => exact hs.endElement (.fault (hs.engineRead.of_eq h))
  · next h => exact hs.engineRead.of_eq h

theorem State.Canonical.rrotIn {s : State} {o : PeelOp} {k : Nat} {v : Word} {poison : Bool} (hs : s.Canonical) :
    (s.rrotIn o k v poison).Canonical := by
  unfold State.rrotIn
  dsimp only
  split
  · next h =>
    exact State.Canonical.afterPoison (State.Canonical.fitShadows (State.Canonical.mapCore (hs.engineWrite.of_eq h)
      fun hc => hc.tbLand.dropPeel.ite hc.tbLand.setPeel))
  · exact hs

/-! ### The steps of the engine. -/

theorem State.Canonical.execPeelOpStart {s : State} (hs : s.Canonical) : ResultCanonical (execPeelOpStart s) := by
  unfold Machine.execPeelOpStart
  refine hs.next.ite ?_
  split
  · exact hs.next
  · next o _ =>
    have ht : (s.mapCore fun c => c.setPeel { o with active := true }).Canonical := hs.mapCore fun hc => hc.setPeel
    refine ht.endSide.next.ite (ht.next.ite (ht.movePut.next.ite (ResultCanonical.ite (ResultCanonical.ite ?_ ht.next) ?_)))
    · exact State.Canonical.next (State.Canonical.fitShadows (ht.mapCore fun hc => hc.tbFinish.tbFinish.dropPeel))
    · exact State.Canonical.next (State.Canonical.fitShadows (ht.mapCore fun hc => hc.tbFinish.dropPeel))

theorem State.Canonical.peelStep {s : State} {o : PeelOp} {m : PeelMove} (hs : s.Canonical) : (s.peelStep o m).Canonical := by
  unfold State.peelStep
  split
  · exact hs.endSide.ite hs
  · refine State.Canonical.ite (hs.movePut.ite (hs.landSent.ite hs)) (State.Canonical.ite ?_ ?_)
    · split
      · split
        · exact hs.rrotIn
        · exact hs
      · split
        · exact hs.rrotOut
        · exact hs
    · split
      · split
        · exact hs.copyElement
        · exact hs
      · exact hs

theorem State.Canonical.execPeelElement {k : Nat} {m : PeelMove} {s : State} (hs : s.Canonical) :
    ResultCanonical (execPeelElement k m s) := by
  unfold Machine.execPeelElement
  refine hs.next.ite ?_
  split
  · exact hs.next
  · exact hs.peelStep.next

end Sys2Proof.Machine
end

/-! Every step keeps the canonical forms: ways and cache instructions, and hypotheses (the functions of Machine/Ways.lean and
Hyp.lean). -/

section
namespace Sys2Proof.Machine

/-! ### Ways. -/

theorem State.Canonical.convertLine {s : State} {l : Line} (hs : s.Canonical) : (s.convertLine l).Canonical :=
  hs.dropLines.ite hs.writeBack

theorem State.Canonical.convertSet {s : State} {k set : Nat} (hs : s.Canonical) : (s.convertSet k set).Canonical := by
  unfold State.convertSet
  split
  · exact hs.convertLine
  · split
    · exact hs.versionTime.throughMesh.spill.settle
    · exact hs

theorem State.Canonical.emptyWay {s : State} {k : Nat} (hs : s.Canonical) : (s.emptyWay k).Canonical := by
  unfold State.emptyWay
  dsimp only
  refine State.Canonical.mapPkg (hs.foldl fun t set ht => ht.convertSet) fun hp => ?_
  exact { hp with races := sparseWf_filter _ _ _ hp.races }

theorem State.Canonical.enterMode {s : State} {m : BitVec 8} {target : WayMode} (hs : s.Canonical) :
    (s.enterMode m target).Canonical := by
  unfold State.enterMode
  dsimp only
  refine hs.mapCore fun hc => ?_
  exact { hc with
    vrows := sparseWf_filter _ _ _ hc.vrows
    prows := sparseWf_filter _ _ _ hc.prows
    bench := sparseWf_filter _ _ _ hc.bench
    invalid := sparseWf_filter _ _ _ hc.invalid
    engine := sparseWf_filter _ _ _ hc.engine }

theorem State.Canonical.convertDirty {s : State} {before : Bool} (hs : s.Canonical) : (s.convertDirty before).Canonical :=
  hs.mapHart.ite (State.canonical_of { hs.core with } hs.pkg)

theorem State.Canonical.wconv {s : State} {d a : GReg} {target : WayMode} (hs : s.Canonical) :
    ResultCanonical (s.wconv d a target) := by
  unfold State.wconv
  refine hs.waitHere.ite (hs.result.next.ite (State.Canonical.next (State.Canonical.result ?_)))
  have he : (((natRange 1 7).foldl (fun t k => if ((s.g a).setWidth 8 : BitVec 8).getLsbD k then t.emptyWay k else t) s).enterMode
      ((s.g a).setWidth 8) target).Canonical := State.Canonical.enterMode (hs.foldl fun t k ht => ht.emptyWay.ite ht)
  exact he.convertDirty.ite he

theorem State.Canonical.execWrel {d a : GReg} {s : State} (hs : s.Canonical) : ResultCanonical (execWrel d a s) :=
  hs.waitHere.ite (hs.result.next.ite hs.releaseWays.result.next)

/-! ### Cache instructions. -/

theorem State.Canonical.cacheOp {s : State} {a : GReg} {acc : FaultAccess} {act : State → Line → State} (hs : s.Canonical)
    (hact : ∀ t l, t.Canonical → (act t l).Canonical) : ResultCanonical (s.cacheOp a acc act) := by
  refine Res.Canonical.finish (hs.locate.andThen fun t u hu => ?_) fun _ _ ht => ht.retire
  split
  · exact .ok hu
  · split
    · exact .wait hu
    · split
      · exact .ok (hact _ _ hu)
      · exact .ok hu

theorem State.Canonical.execCflush {a : GReg} {s : State} (hs : s.Canonical) : ResultCanonical (execCflush a s) :=
  hs.cacheOp fun _ _ ht => ht.convertLine

theorem State.Canonical.execCclean {a : GReg} {s : State} (hs : s.Canonical) : ResultCanonical (execCclean a s) :=
  hs.cacheOp fun _ _ ht => ht.writeBack.ite ht

theorem State.Canonical.execCinv {a : GReg} {s : State} (hs : s.Canonical) : ResultCanonical (execCinv a s) :=
  hs.cacheOp fun _ _ ht => ht.convertLine

theorem State.Canonical.lockLine {s : State} {line : Nat} {h : BitVec 12} (hs : s.Canonical) : (s.lockLine line h).Canonical :=
  hs.mapCore fun hc => { hc with }

theorem State.Canonical.unlockFor {s : State} {ctx : BitVec 8} {q : Nat → Bool} (hs : s.Canonical) :
    (s.unlockFor ctx q).Canonical := State.canonical_of { hs.core with } { hs.pkg with }

theorem State.Canonical.bringLine {s : State} {line : Nat} {h : BitVec 12} {dpa : Nat} {cnt : Bool} {t : State} (hs :
    s.Canonical) (he : s.bringLine line h dpa cnt = some t) :
    t.Canonical := by
  unfold State.bringLine at he
  split at he
  · obtain ⟨r, hr, rfl⟩ := Option.map_eq_some_iff.mp he
    exact hs.cachedRead hr
  · obtain ⟨r, hr, rfl⟩ := Option.map_eq_some_iff.mp he
    exact hs.countAccess.serveRead hr

theorem State.Canonical.execLock {d a : GReg} {s : State} (hs : s.Canonical) : ResultCanonical (execLock d a s) := by
  refine Res.Canonical.finish (hs.locate.andThen fun t u hu => ?_) fun _ _ ht => ht.result
  refine .ite (.ok hu) (.ite (.ok hu) (.ite (.ok hu) ?_))
  split
  · refine .ite (.ok hu) (.ite (.wait hu) ?_)
    split
    · exact .wait hu
    · next h => exact .ite (.ok (hu.bringLine h).lockLine) (.ok (hu.bringLine h))
  · exact .ok hu

theorem State.Canonical.execUnlock {d a : GReg} {s : State} (hs : s.Canonical) : ResultCanonical (execUnlock d a s) := by
  refine Res.Canonical.finish (hs.locate.andThen fun t u hu => ?_) fun _ _ ht => ht.result
  split
  · exact .ite (.ok hu.unlockFor) (.ok hu)
  · exact .ok hu

/-! ### bclr. -/

theorem Core.MapsWf.clearBench {c : Core} {o n : Nat} (hc : c.MapsWf) : (c.clearBench o n).MapsWf := by
  unfold Core.clearBench
  dsimp only
  have hd := hc.shadows (gs := granules o n)
  refine Core.MapsWf.injectBench ?_
  exact { hd with
    bench := sparseWf_filter _ _ _ hd.bench
    invalid := natSetPut_foldl_wf _ hd.invalid }

theorem State.Canonical.execBclr {a b : GReg} {s : State} (hs : s.Canonical) : ResultCanonical (execBclr a b s) := by
  unfold Machine.execBclr
  refine hs.trap.next.ite (hs.trap.next.ite (hs.retire.next.ite (hs.trap.next.ite (hs.trap.next.ite ?_))))
  split
  · exact hs.trap.next
  · exact hs.waitHere.ite (hs.mapCore fun hc => hc.clearBench).fitShadows.retire.next

/-! ### Hypotheses. -/

theorem State.Canonical.hypInstr {s : State} {k : Result} (hs : s.Canonical) (hk : ResultCanonical k) :
    ResultCanonical (s.hypInstr k) := hs.trap.next.ite hk

theorem State.Canonical.execHopen {d : GReg} {s : State} (hs : s.Canonical) : ResultCanonical (execHopen d s) := by
  refine hs.hypInstr (hs.result.next.ite ?_)
  split
  · exact hs.result.next
  · exact (hs.mapPkg fun hp => hp.setHyp).result.next

theorem State.Canonical.execHenter {d a : GReg} {s : State} (hs : s.Canonical) : ResultCanonical (execHenter d a s) :=
  hs.hypInstr (State.Canonical.next (State.Canonical.result (hs.setHypReg.ite hs)))

theorem State.Canonical.execHleave {d : GReg} {s : State} (hs : s.Canonical) : ResultCanonical (execHleave d s) :=
  hs.hypInstr hs.setHypReg.result.next

theorem State.Canonical.dropServed {s : State} (hs : s.Canonical) : s.dropServed.Canonical := hs.refreshCopies

theorem State.Canonical.moveHart {s : State} {h p : BitVec 12} (hs : s.Canonical) : (s.moveHart h p).Canonical :=
  State.Canonical.ite (hs.setHypReg.foldl fun _ _ ht => ht.mapHart) hs

theorem State.Canonical.confirmParent {s : State} {h p : BitVec 12} (hs : s.Canonical) : (s.confirmParent h p).Canonical := by
  unfold State.confirmParent
  dsimp only
  refine State.Canonical.dropServed (State.Canonical.moveHart (State.Canonical.retag (State.Canonical.mapPkg
    (hs.foldl fun t line ht => ht.noteStale) fun hp => hp.setHyp)))

theorem Pkg.MapsWf.putMasked {p : Pkg} {line : Nat} {d : BitVec 512} {q : BitVec 8} {m : BitVec 64} (hp : p.MapsWf) :
    (p.putMasked line d q m).MapsWf := by
  unfold Pkg.putMasked
  dsimp only
  exact (hp.foldl fun _ _ hq => hq.writeNat).foldl fun _ _ hq => hq.setPoison.ite hq

theorem State.Canonical.performLine {s : State} {line : Nat} {h : BitVec 12} {time : Option (BitVec 16)} {top : BitVec 16} {own :
    Bool} (hs : s.Canonical) :
    (s.performLine line h time top own).1.Canonical := by
  unfold State.performLine
  have hr : ((s.recall line own).getD s).Canonical := hs.recall_getD
  dsimp only
  generalize (s.recall line own).getD s = u at hr ⊢
  refine State.Canonical.dropTagged (State.Canonical.mapPkg (State.Canonical.wakeLine (State.Canonical.noteStale ?_))
    fun hp => hp.putMasked)
  have hq : (if (u.versionsOf line h).all (fun v => v.place = .home) then (u, (u.compose line h (u.homeImage line)).2)
      else u.throughMesh line (u.compose line h (u.homeImage line)).2).1.Canonical := .ite_fst hr hr.throughMesh
  split
  · exact hq
  · exact hq.homeWriteTimes

theorem State.Canonical.confirmRoot {s : State} {h : BitVec 12} {time : Option (BitVec 16)} {own : Bool} (hs : s.Canonical) :
    (s.confirmRoot h time own).1.Canonical := by
  unfold State.confirmRoot
  dsimp only
  refine State.Canonical.freeHyp (State.Canonical.dropServed (State.Canonical.moveHart (State.Canonical.dropVersions
    (State.Canonical.mapPkg (hs.foldl_fst fun r line hr => hr.performLine) fun hp => hp.setHyp))))

theorem State.Canonical.confirmOwn {s : State} {h : BitVec 12} (hs : s.Canonical) : (s.confirmOwn h).Canonical := by
  unfold State.confirmOwn
  dsimp only
  exact hs.confirmRoot.mapHart

theorem State.Canonical.markSaved {s : State} {ids : List (BitVec 12)} {h : BitVec 12} (hs : s.Canonical) :
    (s.markSaved ids h).Canonical := hs.mapPkg fun hp => { hp with }

theorem State.Canonical.refuteTree {s : State} {h : BitVec 12} (hs : s.Canonical) : (s.refuteTree h).Canonical := by
  unfold State.refuteTree
  dsimp only
  exact hs.refuteIds.markSaved.mapHart.ite hs.refuteIds.markSaved

theorem State.Canonical.hres {s : State} {d a : GReg} {confirm : Bool} {act : BitVec 12 → State} (hs : s.Canonical)
    (hact : ∀ h, (act h).Canonical) : ResultCanonical (s.hres d a confirm act) :=
  hs.hypInstr (hs.result.next.ite (hs.waitHere.ite (hs.result.next.ite (hs.waitHere.ite (hact _).result.next))))

theorem State.Canonical.execHresConfirm {d a : GReg} {s : State} (hs : s.Canonical) : ResultCanonical (execHresConfirm d a s) :=
  hs.hres fun _ => hs.confirmOwn.ite hs.confirmParent

theorem State.Canonical.execHresRefute {d a : GReg} {s : State} (hs : s.Canonical) : ResultCanonical (execHresRefute d a s) :=
  hs.hres fun _ => hs.refuteTree

theorem State.Canonical.execHstat {d a : GReg} {s : State} (hs : s.Canonical) : ResultCanonical (execHstat d a s) :=
  hs.hypInstr hs.result.next

theorem State.Canonical.execHypothesisFree {id : BitVec 12} {s : State} (hs : s.Canonical) :
    ResultCanonical (execHypothesisFree id s) := State.Canonical.next (hs.ite hs.freeHyp)

theorem State.Canonical.orphanMoved {s : State} {h : BitVec 12} (hs : s.Canonical) : (s.orphanMoved h).Canonical :=
  hs.setHypReg.mapHart

theorem State.Canonical.orphanTrap {s : State} {h : BitVec 12} (hs : s.Canonical) : (s.orphanTrap h).Canonical := by
  unfold State.orphanTrap
  dsimp only
  split
  · exact hs.orphanMoved.unitTrap
  · exact hs.orphanMoved.trap

theorem State.Canonical.execOrphanTrap {s : State} (hs : s.Canonical) : ResultCanonical (execOrphanTrap s) := by
  unfold Machine.execOrphanTrap
  split
  · exact hs.next
  · exact hs.orphanTrap.next.ite hs.next

theorem State.Canonical.otherHopen {s : State} {ctx : BitVec 8} {under : BitVec 12} (hs : s.Canonical) :
    (s.otherHopen ctx under).Canonical := by
  unfold State.otherHopen
  refine hs.ite ?_
  split
  · exact hs
  · exact hs.mapPkg fun hp => (hp.setArea.ite hp).setHyp

theorem State.Canonical.otherConfirm {s : State} {ctx : BitVec 8} {h : BitVec 12} {t : BitVec 16} (hs : s.Canonical) :
    (s.otherConfirm ctx h t).Canonical := hs.ite (hs.ite (hs.confirmParent.ite hs.confirmRoot))

theorem State.Canonical.otherRefute {s : State} {ctx : BitVec 8} {own h : BitVec 12} (hs : s.Canonical) :
    (s.otherRefute ctx own h).Canonical := hs.ite hs.refuteTree

theorem State.Canonical.otherAct {s : State} {a : OtherAct} (hs : s.Canonical) : (s.otherAct a).Canonical := by
  unfold State.otherAct
  cases a with
  | hopen => exact hs.otherHopen
  | confirm => exact hs.ite hs.otherConfirm
  | refute => exact hs.otherRefute
  | drawStamp => exact hs.mapPkg fun hp => { hp with }
  | dropStamp => exact hs.mapPkg fun hp => { hp with }
  | trigger => exact hs.triggerFor.ite hs
  | discard => exact hs.discardFor.ite hs
  | start => exact hs.mapPkg fun hp => hp.setArea
  | tlbi => exact hs.dropTranslations

end Sys2Proof.Machine
end

/-! Every step keeps the canonical forms: tasks, queues and the gang barrier, dispatchers and the lane allocator (the functions of
Machine/Task.lean and Sched.lean). -/

section
namespace Sys2Proof.Machine

/-! ### Queues. -/

theorem State.Canonical.setTail {s : State} {q : BitVec 12} {v : Nat} (hs : s.Canonical) : (s.setTail q v).Canonical := hs.poke

theorem State.Canonical.setHead {s : State} {q : BitVec 12} {v : Nat} (hs : s.Canonical) : (s.setHead q v).Canonical := hs.poke

theorem State.Canonical.putRecord {s : State} {q : BitVec 12} {ws : List Word} (hs : s.Canonical) :
    (s.putRecord q ws).Canonical := by
  unfold State.putRecord
  dsimp only
  exact hs.poke.setTail

theorem State.Canonical.enqueue {s : State} {q : BitVec 12} {ws : List Word} (hs : s.Canonical) : (s.enqueue q ws).Canonical :=
  State.Canonical.ite (hs.mapCore fun hc => { hc with }) hs.putRecord

theorem Res.Canonical.foldl {α β : Type} {r : Res α} {f : Res α → β → Res α} {l : List β} (hr : r.Canonical)
    (hf : ∀ q x, q.Canonical → (f q x).Canonical) : (l.foldl f r).Canonical := by
  induction l generalizing r with
  | nil => exact hr
  | cons x l ih => exact ih (hf r x hr)

theorem State.Canonical.readRecord {s : State} {a : Word} (hs : s.Canonical) : (s.readRecord a).Canonical := by
  have ho : (Res.ok ([] : List Word) s).Canonical := .ok hs
  exact ho.foldl fun r k hr => hr.andThen fun ws t ht => ht.load.andThen fun v u hu => .ok hu

theorem State.Canonical.enqueueAt {s : State} {d a : GReg} {bad : Bool} {q : BitVec 12} (hs : s.Canonical) :
    ResultCanonical (s.enqueueAt d a bad q) := by
  refine hs.trap.next.ite (hs.trap.next.ite (hs.waitHere.ite (hs.waitHere.ite ?_)))
  exact hs.readRecord.finish fun ws t ht => State.Canonical.result (ht.enqueue.ite ht)

/-! ### Join counters. -/

theorem State.Canonical.checkRecord {s : State} {a : Word} (hs : s.Canonical) : (s.checkRecord a).Canonical := by
  have ho : (Res.ok (([], false) : List Word × Bool) s).Canonical := .ok hs
  refine ho.foldl fun r k hr => hr.andThen fun x t ht => ?_
  split
  · next h => exact .ok (ht.load.of_eq h)
  · next h => exact .ite (.ok ht) (.trap (ht.load.of_eq h))
  · next h => exact .fault (ht.load.of_eq h)
  · next h => exact .wait (ht.load.of_eq h)

theorem State.Canonical.continuation {s : State} {ea : Word} {t : Target} {first : List Word × Bool} (hs : s.Canonical) :
    (s.continuation ea t first).1.Canonical := by
  unfold State.continuation
  have hr : (match s.checkRecord (ea + 64#64) with
      | .ok x s => (x, s)
      | _ => (first, s)).2.Canonical := by
    split
    · next h => exact hs.checkRecord.of_eq h
    · exact hs
  dsimp only
  split
  · next h => exact .ite_fst (State.Canonical.enqueue (hr.readTarget.of_eq h)) (hr.readTarget.of_eq h)
  · exact hr

theorem State.Canonical.execJoin {d a : GReg} {s : State} (hs : s.Canonical) : ResultCanonical (execJoin d a s) := by
  refine hs.trap.next.ite (hs.trap.next.ite (Res.Canonical.finish (hs.locate.andThen fun t u hu => ?_) fun _ _ ht => ht.result))
  split
  · exact .trap hu
  · refine .ite (.trap hu) (.ite (.trap hu) ?_)
    split
    · exact .trap hu
    · refine hu.checkRecord.andThen fun first v hv => .ite (.wait hv) (hv.atomicWith.andThen fun old w hw => ?_)
      exact .ite (.ok hw.continuation) (.ok hw)

/-! ### The gang barrier. -/

theorem Pkg.MapsWf.nextPairing {p : Pkg} (hp : p.MapsWf) : p.nextPairing.MapsWf := { hp with }

theorem State.Canonical.releaseTime {s : State} (hs : s.Canonical) : s.releaseTime.Canonical := hs.ite hs.mapHart

theorem State.Canonical.closeSuperstep {s : State} (hs : s.Canonical) : s.closeSuperstep.Canonical := by
  unfold State.closeSuperstep
  dsimp only
  exact State.Canonical.foldl (State.Canonical.mapCore hs.confirmOwn.dropShadows fun hc => by exact { hc with })
      fun t r ht => ht.putRecord

theorem State.Canonical.openSuperstep {s : State} {id : BitVec 12} (hs : s.Canonical) : (s.openSuperstep id).Canonical :=
  State.Canonical.setHypReg (hs.mapPkg fun hp => hp.setHyp)

theorem State.Canonical.captureState {s : State} (hs : s.Canonical) : s.captureState.Canonical := hs.mapCore fun hc => { hc with }

theorem State.Canonical.releaseGbar {s : State} (hs : s.Canonical) : s.releaseGbar.Canonical := by
  unfold State.releaseGbar
  dsimp only
  have ht : (if s.releaseTime.hart.snap then s.releaseTime.closeSuperstep.openSuperstep s.releaseTime.hart.hyp
      else s.releaseTime).Canonical := hs.releaseTime.closeSuperstep.openSuperstep.ite hs.releaseTime
  have hu := (ht.freshStamp.mapPkg fun hp => hp.nextPairing).mapHart
    (f := fun h => { h with arrival := none, run := .running, rbCur := 0 })
  exact State.Canonical.ite hu.retire.captureState hu.retire

theorem State.Canonical.releaseGred {s : State} {op : GredOp} {rm : Rm} {p : Pending} (hs : s.Canonical) :
    (s.releaseGred op rm p).Canonical := by
  unfold State.releaseGred
  dsimp only
  exact State.Canonical.result (State.Canonical.mapHart (hs.orVfsr.mapPkg fun hp => hp.nextPairing))

theorem State.Canonical.endTask {s : State} (hs : s.Canonical) : s.endTask.Canonical := by
  unfold State.endTask
  dsimp only
  refine State.Canonical.mapHart (State.Canonical.countRetired (State.Canonical.mapPkg (hs.releaseWays.mapCore fun hc => ?_)
    fun hp => ?_))
  · exact { hc with }
  · exact { hp with }

theorem State.Canonical.releaseTend {s : State} (hs : s.Canonical) : s.releaseTend.Canonical := by
  unfold State.releaseTend
  dsimp only
  exact State.Canonical.endTask (hs.releaseTime.closeSuperstep.ite hs.releaseTime.closeSuperstep.openSuperstep)

theorem State.Canonical.mismatch {s : State} (hs : s.Canonical) : s.mismatch.Canonical := by
  unfold State.mismatch
  have ht := hs.mapPkg (f := fun p => { p with arrivals := p.arrivals.filter (fun a => a.kind.isNone) }) fun hp => { hp with }
  dsimp only
  split
  · exact ht.mapHart.illegal
  · exact ht

theorem State.Canonical.tryRelease {s : State} (hs : s.Canonical) : s.tryRelease.Canonical := by
  unfold State.tryRelease
  split
  · exact hs
  · refine hs.ite (hs.mismatch.ite (hs.ite ?_))
    split
    · exact hs.recordUe.triggerRollback
    · split
      · exact hs.releaseTend
      · exact hs.releaseGred
      · exact hs.releaseGbar
      · exact hs

theorem State.Canonical.arrive {s : State} {k : SyncKind} {d : GReg} {v : Word} {i : Instr} (hs : s.Canonical) :
    (s.arrive k d v i).Canonical := hs.mapHart.tryRelease

theorem State.Canonical.execGbar {s : State} (hs : s.Canonical) : ResultCanonical (execGbar s) :=
  hs.waitHere.ite (State.Canonical.next (State.Canonical.arrive (hs.ite hs.acquireAll)))

theorem State.Canonical.execGred {d a : GReg} {op : GredOp} {rm : Rm} {s : State} (hs : s.Canonical) :
    ResultCanonical (execGred d a op rm s) := hs.arrive.next

theorem State.Canonical.execBarrierArrival {m : Arrival} {s : State} (hs : s.Canonical) :
    ResultCanonical (execBarrierArrival m s) := (hs.mapPkg fun hp => { hp with }).next.ite hs.next

theorem State.Canonical.execBarrierRelease {s : State} (hs : s.Canonical) : ResultCanonical (execBarrierRelease s) :=
  State.Canonical.next (hs.ite hs.tryRelease)

theorem State.Canonical.execTend {s : State} (hs : s.Canonical) : ResultCanonical (execTend s) :=
  hs.waitHere.ite (hs.mapHart.tryRelease.next.ite hs.endTask.next)

/-! ### Areas. -/

theorem State.Canonical.asSystem {s : State} {ctx : BitVec 8} {root : Addr} (hs : s.Canonical) :
    (s.asSystem ctx root).Canonical := hs.mapHart

theorem State.Canonical.backFrom {s t : State} (hs : s.Canonical) : (s.backFrom t).Canonical :=
  State.canonical_of { hs.core with } hs.pkg

theorem State.Canonical.areaAt {s : State} {va : Nat} {acc : FaultAccess} {r : State × Nat} (hs : s.Canonical)
    (he : s.areaAt va acc = .ok r) : r.1.Canonical := by
  unfold State.areaAt at he
  split at he
  · cases he
  · split at he
    · next h =>
      split at he
      · cases he
      · split at he
        · cases he
        · cases he
          exact hs.translate.of_eq h
    · cases he
    · cases he

theorem State.Canonical.areaWrite {s t : State} {va n v : Nat} {poison : Bool} (hs : s.Canonical)
    (he : s.areaWrite va n v poison = .ok t) : t.Canonical := by
  unfold State.areaWrite at he
  split at he
  · next h =>
    have hu := hs.areaAt h
    cases he
    exact State.Canonical.ite (hu.poke.mapPkg fun hp => hp.setPoison) hu.poke
  · cases he

theorem State.Canonical.areaRead {s : State} {va : Nat} {r : State × Word × Bool} (hs : s.Canonical)
    (he : s.areaRead va = .ok r) : r.1.Canonical := by
  unfold State.areaRead at he
  split at he
  · next h =>
    have hu := hs.areaAt h
    cases he
    exact State.Canonical.ite hu.recall_getD.consumePoison hu.recall_getD
  · cases he

/-- The kernel does not get through the equations of copyRecord with the number of bytes in them, so it is named first. -/
theorem State.Canonical.copyRecord {csa : Nat} {ws : List Word} {is : List Nat} {s : State} (hs : s.Canonical) :
    (s.copyRecord csa ws is).1.Canonical := by
  obtain ⟨size, hsize⟩ : ∃ n, n = areaBytes := ⟨_, rfl⟩
  delta State.copyRecord State.copyRecord._f
  simp only [← hsize]
  induction is generalizing s with
  | nil => exact hs
  | cons i is ih =>
    dsimp only
    split
    · exact hs
    · next hw => exact ih (hs.areaWrite hw)

/-! ### Dispatchers. -/

theorem State.Canonical.acquireHead {s : State} {d : QueueDesc} (hs : s.Canonical) : (s.acquireHead d).Canonical := by
  unfold State.acquireHead
  dsimp only
  have ht {l : Nat} : (if s.pkg.atAdapter l then s.takeIn l else s).Canonical := hs.takeIn.ite hs
  split
  · exact ht.consumePoison
  · exact ht

theorem State.Canonical.freeHead {s : State} {q : BitVec 12} (hs : s.Canonical) : (s.freeHead q).Canonical := by
  unfold State.freeHead
  dsimp only
  exact hs.setHead.mapPkg fun hp => { hp with }

theorem State.Canonical.discardRecord {s : State} {q : BitVec 12} {r : TaskRec} (hs : s.Canonical) :
    (s.discardRecord q r).Canonical := by
  unfold State.discardRecord
  dsimp only
  exact hs.freeHead.mapPkg fun hp => hp.post

theorem State.Canonical.popQueue {s : State} {k : Nat} {p : BitVec 3} {q : BitVec 12} (hs : s.Canonical) :
    (s.popQueue k p q).Canonical := by
  unfold State.popQueue
  dsimp only
  have ht := (hs.acquireHead (d := s.queueDesc q)).mapPkg (f := fun t => { t with
    lastPop := sparseSet 1024 t.lastPop (k * 8 + p.toNat) (q.toNat % 1024) }) fun hp => { hp with }
  refine ht.discardRecord.ite (ht.mapPkg fun hp => ?_)
  exact { hp with }

theorem State.Canonical.popNow {s : State} {k : Nat} {t : State} (hs : s.Canonical) (he : s.popNow k = some t) : t.Canonical := by
  unfold State.popNow at he
  split at he
  · cases he
  · split at he
    · cases he
    · cases he
      exact hs.popQueue

theorem State.Canonical.execQueuePop {disp : Nat} {s : State} (hs : s.Canonical) : ResultCanonical (execQueuePop disp s) :=
  State.Canonical.next (hs.getD fun _ he => hs.popNow he)

theorem State.Canonical.execAgingTick {req : Nat} {s : State} (hs : s.Canonical) : ResultCanonical (execAgingTick req s) := by
  unfold Machine.execAgingTick
  dsimp only
  refine ResultCanonical.ite (State.Canonical.next (State.Canonical.ite (hs.mapPkg fun hp => ?_) hs))
    (State.Canonical.next (hs.mapPkg fun hp => ?_))
  all_goals exact { hp with }

/-! ### The lane allocator. -/

theorem Pkg.MapsWf.dropRequest {p : Pkg} {r : GrantReq} (hp : p.MapsWf) : (p.dropRequest r).MapsWf := { hp with }

theorem State.Canonical.reportDiscard {s : State} {queue : BitVec 12} {ctx : BitVec 8} {cause : BitVec 8} {val pc cookie : Word}
    (hs : s.Canonical) :
    (s.reportDiscard queue ctx cause val pc cookie).Canonical := by
  unfold State.reportDiscard
  dsimp only
  exact hs.mapPkg fun hp => hp.post

theorem Core.MapsWf.startTask {c : Core} (hc : c.MapsWf) : c.startTask.MapsWf :=
  { hc with vrows := rfl, prows := rfl, cells := rfl, chans := rfl }

theorem State.Canonical.startHyp {s : State} {id : BitVec 12} {ctx : BitVec 8} (hs : s.Canonical) :
    (s.startHyp id ctx).Canonical := by
  unfold State.startHyp
  dsimp only
  exact hs.setHypReg.ite (hs.setHypReg.mapHart.ite hs.setHypReg)

theorem State.Canonical.startTask {s : State} {r : TaskRec} {c : Context} {g : GrantChoice} {q : BitVec 12} {level : BitVec 3}
    (hs : s.Canonical) :
    (s.startTask r c g q level).Canonical := by
  unfold State.startTask
  have ht : State.Canonical { s.broadcast with
      hart := startHart s.broadcast.hart r c g (choiceIdx g s.broadcast.core.num) q level s.broadcast.pkg.horizon
      core := s.broadcast.core.startTask } := State.canonical_of hs.broadcast.core.startTask hs.broadcast.pkg
  have hu := ht.freshStamp.mapPkg (f := fun p => { (p.setArea r.ctxid c.area) with arrivals := [], ended := [] })
    fun hp => { hp.setArea with }
  dsimp only
  split
  · split
    · exact hu.openSuperstep.captureState
    · exact hu
  · exact hu.startHyp

theorem State.Canonical.grantRecord {s : State} {req : GrantReq} {q : BitVec 12} {ws : List Word} {g : GrantChoice} (hs :
    s.Canonical) :
    (s.grantRecord req q ws g).Canonical := by
  unfold State.grantRecord
  have hl {t : State} (ht : t.Canonical) : ((t.freeHead q).mapPkg fun p => p.dropRequest req).Canonical :=
    ht.freeHead.mapPkg fun hp => hp.dropRequest
  dsimp only
  refine State.Canonical.ite (hl hs).reportDiscard ?_
  have hb {c : Context} : ((((s.asSystem (taskRec ws).ctxid c.root).copyRecord (taskRec ws).csa.toNat ws
      (List.range (taskRec ws).gang.toNat)).1).backFrom s).Canonical := hs.asSystem.copyRecord.backFrom
  split
  · exact hs
  · exact (hl hb).reportDiscard
  · exact (hl hb).startTask.ite (hl hb)

theorem State.Canonical.grant {s : State} {req : GrantReq} {g : GrantChoice} (hs : s.Canonical) : (s.grant req g).Canonical := by
  unfold State.grant
  split
  · exact hs.grantRecord
  · exact hs.mapPkg fun hp => { hp with }

theorem State.Canonical.execLaneGrant {g : GrantChoice} {s : State} (hs : s.Canonical) : ResultCanonical (execLaneGrant g s) := by
  unfold Machine.execLaneGrant
  split
  · exact hs.next
  · exact State.Canonical.next (hs.grant.ite hs)

end Sys2Proof.Machine
end

/-! Every step keeps the canonical forms: a save and a resume (the functions of Machine/Save.lean and Resume.lean). -/

section
namespace Sys2Proof.Machine

/-! ### Save. -/

theorem State.Canonical.asOwner {s : State} (hs : s.Canonical) : s.asOwner.Canonical := hs.asSystem

theorem State.Canonical.writeImage {area : Nat} {ws : List AreaWord} {s : State} (hs : s.Canonical) :
    (s.writeImage area ws).1.Canonical := by
  induction ws generalizing s with
  | nil => exact hs
  | cons w ws ih =>
    unfold State.writeImage
    split
    · exact hs
    · next h => exact ih (hs.areaWrite h)

theorem State.Canonical.leaveCore {s : State} {g : SavedGang} (hs : s.Canonical) : (s.leaveCore g).Canonical := by
  unfold State.leaveCore
  dsimp only
  refine State.Canonical.mapPkg (State.Canonical.mapHart (State.Canonical.releaseWays (hs.mapCore fun hc => ?_))) fun hp => ?_
  · exact { hc with }
  · exact { hp with }

theorem State.Canonical.finishFrame {n : Nat} {s : State} (hs : s.Canonical) : (s.finishFrame n).Canonical := by
  induction n generalizing s with
  | zero => exact hs
  | succ n ih =>
    unfold State.finishFrame
    split
    · exact .ite (ih hs.frameTurn) hs
    · exact hs

theorem State.Canonical.recordSaved {s : State} (hs : s.Canonical) : s.recordSaved.Canonical := by
  unfold State.recordSaved
  split
  · exact hs.recordUe
  · exact hs

theorem State.Canonical.fmcTrigger {s : State} {f : State → State} (hs : s.Canonical)
    (hf : ∀ t, t.Canonical → (f t).Canonical) : (s.fmcTrigger f).Canonical := by
  unfold State.fmcTrigger
  have hr : (s.fmcRaised f).1.Canonical := by
    unfold State.fmcRaised
    dsimp only
    exact State.Canonical.mapHart (hf _ hs.mapHart)
  exact State.Canonical.ite (hr.triggerRollback.ite hr) (hf s hs)

theorem State.Canonical.saveChecks {s : State} (hs : s.Canonical) : s.saveChecks.Canonical := by
  unfold State.saveChecks
  have ht : (s.fmcTrigger (·.checkCells (List.range cellCount))).Canonical := hs.fmcTrigger fun _ ht => ht.checkCells
  generalize s.fmcTrigger (·.checkCells (List.range cellCount)) = t at ht ⊢
  dsimp only
  have hu : ((t.core.softBench.filter (fun e => (t.benchWays false).getLsbD (e.1 / 2 ^ 17 + 1))).foldl (fun s e =>
      (s.mapCore (fun c => { c with softBench := natSetPut c.softBench e.1 false })).recordCe) t).Canonical :=
    ht.foldl fun _ _ hv => State.Canonical.recordCe (hv.mapCore fun hc => { hc with })
  exact hu.recordSaved.triggerRollback.ite hu

theorem State.Canonical.save {s : State} (hs : s.Canonical) : s.save.Canonical := by
  unfold State.save
  dsimp only
  have ht {ws : List AreaWord} : ((s.asOwner.writeImage s.hart.csaptr.toNat ws).1.backFrom s).Canonical :=
    hs.asOwner.writeImage.backFrom
  split
  · exact ht.discardGang
  · exact hs
  · exact ht.recordSaved.leaveCore

theorem State.Canonical.preempt {s : State} (hs : s.Canonical) : s.preempt.Canonical := by
  unfold State.preempt
  dsimp only
  have hf := hs.drain.finishFrame (n := queueDepth)
  exact hs.drain.ite (hf.ite (hf.saveChecks.ite hf.saveChecks.save))

theorem State.Canonical.execPreemption {s : State} (hs : s.Canonical) : ResultCanonical (execPreemption s) := by
  unfold Machine.execPreemption
  split
  · exact hs.next
  · exact State.Canonical.next (hs.preempt.ite hs)

theorem State.Canonical.execGangSaved {s : State} (hs : s.Canonical) : ResultCanonical (execGangSaved s) :=
  State.Canonical.next (hs.mapPkg fun hp => { hp with })

/-! ### What a resume reads. -/

theorem Except.exists_of_bind {ε α β : Type} {x : Except ε α} {f : α → Except ε β} {b : β} (h : (x >>= f) = .ok b) :
    ∃ a, x = .ok a ∧ f a = .ok b := by
  cases x with
  | error e => cases h
  | ok a => exact ⟨a, rfl, h⟩

theorem State.Canonical.readImage {area : Nat} {os : List Nat} {s : State} {r : State × List AreaWord} (hs : s.Canonical)
    (he : State.readImage area os s = .ok r) : r.1.Canonical := by
  induction os generalizing s r with
  | nil =>
    cases he
    exact hs
  | cons o os ih =>
    unfold State.readImage at he
    obtain ⟨x, hx, he⟩ := Except.exists_of_bind he
    obtain ⟨y, hy, he⟩ := Except.exists_of_bind he
    cases he
    exact ih (r := y) (hs.areaRead hx) hy

theorem State.Canonical.readQueue {area off n : Nat} {s : State} {r : State × List AreaWord} (hs : s.Canonical)
    (he : State.readQueue area off n s = .ok r) : r.1.Canonical := by
  induction n generalizing off s r with
  | zero =>
    cases he
    exact hs
  | succ n ih =>
    unfold State.readQueue at he
    obtain ⟨x, hx, he⟩ := Except.exists_of_bind he
    split at he
    · obtain ⟨y, hy, he⟩ := Except.exists_of_bind he
      obtain ⟨z, hz, he⟩ := Except.exists_of_bind he
      cases he
      exact ih (r := z) ((hs.readImage hx).readImage hy) hz
    · cases he
      exact hs.readImage hx

theorem State.Canonical.readHead {s : State} {area : Nat} {r : State × HeadImage} (hs : s.Canonical)
    (he : s.readHead area = .ok r) : r.1.Canonical := by
  unfold State.readHead at he
  obtain ⟨h, hh, he⟩ := Except.exists_of_bind he
  obtain ⟨k, hk, he⟩ := Except.exists_of_bind he
  obtain ⟨f, hf, he⟩ := Except.exists_of_bind he
  obtain ⟨p, hp, he⟩ := Except.exists_of_bind he
  cases he
  exact (((hs.readImage hh).readQueue hk).readQueue hf).readQueue hp

theorem State.Canonical.readRegs {area : Nat} {l : List (Bool × Nat × Nat × Nat × Nat)} {s : State}
    {r : State × List RegImage} (hs : s.Canonical) (he : State.readRegs area l s = .ok r) : r.1.Canonical := by
  induction l generalizing s r with
  | nil =>
    cases he
    exact hs
  | cons x l ih =>
    unfold State.readRegs at he
    obtain ⟨y, hy, he⟩ := Except.exists_of_bind he
    obtain ⟨z, hz, he⟩ := Except.exists_of_bind he
    cases he
    exact ih (r := z) (hs.readImage hy) hz

theorem State.Canonical.readBenches {area : Nat} {l : List (Nat × Nat)} {s : State} {r : State × List BenchImage}
    (hs : s.Canonical) (he : State.readBenches area l s = .ok r) : r.1.Canonical := by
  induction l generalizing s r with
  | nil =>
    cases he
    exact hs
  | cons x l ih =>
    unfold State.readBenches at he
    obtain ⟨v, hv, he⟩ := Except.exists_of_bind he
    obtain ⟨o, ho, he⟩ := Except.exists_of_bind he
    obtain ⟨d, hd, he⟩ := Except.exists_of_bind he
    obtain ⟨z, hz, he⟩ := Except.exists_of_bind he
    cases he
    exact ih (r := z) (((hs.readImage hv).readImage ho).readImage hd) hz

theorem State.Canonical.readBody {s : State} {area : Nat} {h : HeadImage} {ways bways : BitVec 8} {r : State × BodyImage}
    (hs : s.Canonical) (he : s.readBody area h ways bways = .ok r) : r.1.Canonical := by
  unfold State.readBody at he
  obtain ⟨c, hc, he⟩ := Except.exists_of_bind he
  obtain ⟨d, hd, he⟩ := Except.exists_of_bind he
  obtain ⟨x, hx, he⟩ := Except.exists_of_bind he
  obtain ⟨b, hb, he⟩ := Except.exists_of_bind he
  cases he
  exact (((hs.readImage hc).readImage hd).readRegs hx).readBenches hb

/-! ### What a resume restores. -/

theorem State.Canonical.refill {s : State} {g : SavedGang} {h : HeadImage} (hs : s.Canonical) : (s.refill g h).Canonical := by
  unfold State.refill
  dsimp only
  refine State.Canonical.mapCore (hs.foldl fun t u ht => ht.mapHart) fun hc => ?_
  exact { hc with }

theorem State.Canonical.refillPrsv {s : State} {h : HeadImage} (hs : s.Canonical) : (s.refillPrsv h).Canonical := by
  unfold State.refillPrsv
  split
  · exact hs
  · exact hs.setG.ite hs.mapHart

theorem State.Canonical.discardSaved {s : State} {g : SavedGang} {cause : BitVec 8} {val : Word} (hs : s.Canonical) :
    (s.discardSaved g cause val).Canonical := by
  unfold State.discardSaved
  dsimp only
  generalize List.filter _ g.peel = ops
  have ht := hs.endOps (ops := ops) (code := 3#4)
  generalize s.endOps ops 3#4 = t at ht ⊢
  have hu : (if g.snap then g.shadows.foldl (fun s x => match x.slot with
        | some n => s.freeSlot (s.pkg.areaOf g.ctxid) n
        | none => s)
          ((t.mapPkg (fun p => p.setHyp g.hyp { p.hypEntry g.hyp with st := .refuted })).dropVersions (fun h => h = g.hyp))
      else t).Canonical := by
    refine State.Canonical.ite (State.Canonical.foldl (State.Canonical.dropVersions (ht.mapPkg fun hp => hp.setHyp)) ?_) ht
    intro v x hv
    split
    · exact hv.freeSlot
    · exact hv
  have hv := hu.mapPkg (f := fun p => { p.dropPrsv g.gangid with
    saved := p.saved.filter (fun x => x.gangid != g.gangid)
    requests := p.requests.filter (fun r => r.kind != .resume g.gangid) }) fun hp => { hp.dropPrsv (gangid := g.gangid) with }
  exact State.Canonical.mapCore (hv.freeHyp.ite hv) fun hc => by exact { hc with }

theorem Core.MapsWf.loadVImage {c : Core} {k way : Nat} {ws : List AreaWord} (hc : c.MapsWf) :
    (c.loadVImage k way ws).MapsWf := by
  unfold Core.loadVImage
  dsimp only
  generalize List.range 16384 = lanes
  exact { hc with vrows := sparseWf_foldl _ _ lanes _ (fun m x hm => sparseWf_set _ _ _ _ hm) hc.vrows }

theorem Core.MapsWf.loadPImage {c : Core} {k way : Nat} {ws : List AreaWord} (hc : c.MapsWf) :
    (c.loadPImage k way ws).MapsWf := by
  unfold Core.loadPImage
  dsimp only
  generalize List.range 16384 = lanes
  exact { hc with prows := sparseWf_foldl _ _ lanes _ (fun m x hm => sparseWf_set _ _ _ _ hm) hc.prows }

theorem Core.MapsWf.loadReg {c : Core} {x : RegImage} (hc : c.MapsWf) : (c.loadReg x).MapsWf := by
  unfold Core.loadReg
  dsimp only
  exact hc.loadVImage.writeRows.ite hc.loadPImage.writeRows

theorem Core.MapsWf.loadBench {c : Core} {x : BenchImage} (hc : c.MapsWf) : (c.loadBench x).MapsWf := by
  unfold Core.loadBench
  dsimp only
  generalize List.range 131072 = words
  generalize List.range 256 = grans
  refine Core.MapsWf.injectBench ?_
  exact { hc with
    bench := sparseWf_foldl _ _ words _ (fun m x hm => cellsSet_wf _ _ _ hm) hc.bench
    invalid := sparseWf_foldl _ _ words _ (fun m x hm => natSetPut_wf _ _ _ hm) hc.invalid
    engine := sparseWf_foldl _ _ grans _ (fun m x hm => natSetPut_wf _ _ _ hm) hc.engine }

theorem Core.MapsWf.loadFrame {c : Core} {b : BodyImage} {w : Word} (hc : c.MapsWf) : (c.loadFrame b w).MapsWf := by
  unfold Core.loadFrame
  dsimp only
  generalize List.range 4096 = keys
  exact { hc with
    cells := sparseWf_foldl _ _ keys _ (fun m x hm => sparseWf_set _ _ _ _ hm) rfl
    chans := sparseWf_foldl _ _ keys _ (fun m x hm => sparseWf_set _ _ _ _ hm) rfl }

theorem State.Canonical.resumeTime {s : State} (hs : s.Canonical) : s.resumeTime.Canonical := hs.mapHart.ite hs

theorem State.Canonical.resumeStamp {s : State} (hs : s.Canonical) : s.resumeStamp.Canonical := hs.freshStamp.ite hs

theorem State.Canonical.convertWays {s : State} {arr bench : BitVec 8} (hs : s.Canonical) :
    (s.convertWays arr bench).Canonical := by
  unfold State.convertWays
  dsimp only
  exact State.Canonical.enterMode (State.Canonical.enterMode (hs.foldl fun t k ht => ht.emptyWay.ite ht))

theorem State.Canonical.resumeHyp {s : State} {id : BitVec 12} {g : SavedGang} (hs : s.Canonical) :
    (s.resumeHyp id g).Canonical := by
  unfold State.resumeHyp
  dsimp only
  exact hs.startHyp.mapHart.ite hs.startHyp

theorem State.Canonical.resumePoison {s : State} {b : BodyImage} (hs : s.Canonical) : (s.resumePoison b).Canonical := by
  unfold State.resumePoison
  have ht : (if (List.range 4096).any b.cellBad then s.fmcTrigger (·.orFsr Flags.fmc) else s).Canonical :=
    (hs.fmcTrigger fun _ ht => ht.orFsr).ite hs
  generalize (if (List.range 4096).any b.cellBad then s.fmcTrigger (·.orFsr Flags.fmc) else s) = t at ht ⊢
  exact ht.arrayErrorTaken.ite ht

theorem State.Canonical.resumeOrphan {s : State} (hs : s.Canonical) : s.resumeOrphan.Canonical := by
  unfold State.resumeOrphan
  split
  · exact State.Canonical.ite (State.Canonical.trap (State.Canonical.orphanMoved (hs.mapCore fun hc => by exact { hc with }))) hs
  · exact hs

theorem Core.MapsWf.withGangState {k : Core} {vv : BitVec 16} {pv : BitVec 32} {fv : Bool} {captured : Option Captured}
    {shadows : List Shadow} {tbs : List TbTrack} (hk : k.MapsWf) : ({ k with
      vv := vv, pv := pv, fv := fv, captured := captured, shadows := shadows, tbs := tbs, gated := false, walks := [] } :
      Core).MapsWf :=
  { hk with }

theorem State.Canonical.restore {s : State} {g : SavedGang} {c : Context} {h : HeadImage} {b : BodyImage} {ways : BitVec 8} {area
    : Addr} (hs : s.Canonical) :
    (s.restore g c h b ways area).Canonical := by
  unfold State.restore
  dsimp only
  refine State.Canonical.resumeOrphan (State.Canonical.resumePoison (State.Canonical.refillPrsv (State.Canonical.refill
    (State.Canonical.resumeStamp (State.Canonical.resumeTime (State.Canonical.mapCore (State.Canonical.mapCore
    (State.Canonical.convertWays (State.Canonical.resumeHyp (State.Canonical.mapPkg (s := { s with hart := _ }) ?_ ?_)))
    ?_) ?_))))))
  · exact { hs with }
  · intro hp
    exact { hp.setArea with }
  · intro hc
    exact (hc.foldl fun _ _ hd => hd.loadReg).foldl fun _ _ hd => hd.loadBench
  · intro hc
    exact hc.loadFrame.withGangState

theorem State.Canonical.resumeStopped {s : State} {g : SavedGang} {e : AreaStop} (hs : s.Canonical) :
    (s.resumeStopped g e).Canonical := by
  unfold State.resumeStopped
  cases e with
  | busy => exact hs
  | failed va => exact hs.discardSaved

theorem State.Canonical.resumeGang {s : State} {g : SavedGang} {ways : BitVec 8} (hs : s.Canonical) :
    (s.resumeGang g ways).Canonical := by
  obtain ⟨area, harea⟩ : ∃ a, a = g.csa + BitVec.ofNat 48 (g.gidx.toNat * areaBytes) := ⟨_, rfl⟩
  rw [State.resumeGang, ← harea]
  refine hs.discardSaved.ite ?_
  split
  · exact hs.resumeStopped
  · next h =>
    have ht := hs.asSystem.readHead h
    split
    · exact ht.backFrom.discardSaved
    · split
      · exact hs.resumeStopped
      · next h => exact (ht.readBody h).backFrom.restore

theorem State.Canonical.execResume {ways : BitVec 8} {s : State} (hs : s.Canonical) : ResultCanonical (execResume ways s) := by
  unfold Machine.execResume
  split
  · exact hs.next
  · exact State.Canonical.next (hs.resumeGang.ite hs)

end Sys2Proof.Machine
end

/-! Every step keeps the canonical forms: requests at homes, race sweeps, report rings and the asynchronous steps of the hart (the
functions of Machine/Home.lean). -/

section
namespace Sys2Proof.Machine

/-! ### Requests at a home. -/

theorem State.Canonical.atHome {s : State} {line : Nat} {h : BitVec 12} {own : Bool} {k : State → State} (hs : s.Canonical)
    (hk : ∀ t, t.Canonical → (k t).Canonical) : ResultCanonical (s.atHome line h own k) := by
  unfold State.atHome
  refine hs.next.ite ?_
  split
  · exact hs.next
  · next h => exact (hk _ (hs.recallFor h)).next

theorem State.Canonical.enterMark {s : State} {r : CoreRequest} {line : Nat} {write : Bool} {t : State} (hs : s.Canonical) (he :
    s.enterMark r line write = some t) :
    t.Canonical := by
  unfold State.enterMark at he
  split at he
  · cases he
    exact hs
  · split at he
    · obtain ⟨p, hp, rfl⟩ := Option.map_eq_some_iff.mp he
      exact State.canonical_of hs.core (hs.pkg.raceCheck hp)
    · cases he
      exact hs

theorem State.Canonical.countRequest {s : State} {r : CoreRequest} {line : Nat} {write : Bool} (hs : s.Canonical) :
    (s.countRequest r line write).Canonical := by
  unfold State.countRequest
  split
  · exact hs
  · exact hs.countMark

theorem State.Canonical.markOnly {s : State} {r : CoreRequest} {line : Nat} {write : Bool} (hs : s.Canonical) :
    (s.markOnly r line write).Canonical := hs.getD fun _ he => hs.enterMark he

theorem State.Canonical.otherRead {s : State} {r : CoreRequest} {line : Nat} (hs : s.Canonical) :
    ResultCanonical (s.otherRead r line) := by
  refine hs.markOnly.next.ite (hs.atHome fun t ht => ?_)
  split
  · exact ht
  · next h => exact (ht.enterMark h).countRequest.ite (ht.enterMark h).countRequest.homeReadTimes

theorem State.Canonical.ownRead {s : State} {line : Nat} {o : MemOrd} (hs : s.Canonical) : ResultCanonical (s.ownRead line o) :=
  hs.next.ite (hs.atHome fun _ ht => ht.returned.ite ht.homeReadTimes.returned)

theorem State.Canonical.execHomeRead {who : Requester} {line : Nat} {s : State} (hs : s.Canonical) :
    ResultCanonical (execHomeRead who line s) := by
  unfold Machine.execHomeRead
  split
  · exact hs.ownRead
  · exact hs.next.ite hs.otherRead

theorem State.Canonical.execHomeAcquireRead {who : Requester} {line : Nat} {s : State} (hs : s.Canonical) :
    ResultCanonical (execHomeAcquireRead who line s) := by
  unfold Machine.execHomeAcquireRead
  split
  · exact hs.ownRead
  · exact hs.next.ite hs.otherRead

theorem State.Canonical.takeLine {s : State} {line : Nat} (hs : s.Canonical) : (s.takeLine line).Canonical := by
  unfold State.takeLine
  dsimp only
  have ht {l t} : (((s.homeWriteTimes line s.hart.ltime (some s.core.num)).1.mapHart
      fun h => { h with ltime := t }).fill l).1.Canonical := hs.homeWriteTimes.mapHart.fill
  exact State.Canonical.ite ht (ht.mapPkg fun hp => hp.setHome)

theorem State.Canonical.otherOwns {s : State} {r : CoreRequest} {line : Nat} (hs : s.Canonical) :
    (s.otherOwns r line).Canonical := by
  unfold State.otherOwns
  split
  · exact hs
  · next h =>
    have ht := hs.enterMark h
    exact State.Canonical.ite ht.countRequest.homeWriteTimes.wakeLine
      (ht.countRequest.homeWriteTimes.mapPkg fun hp => hp.putVersion)

theorem State.Canonical.execHomeOwnership {who : Requester} {line : Nat} {s : State} (hs : s.Canonical) :
    ResultCanonical (execHomeOwnership who line s) := by
  unfold Machine.execHomeOwnership
  refine hs.next.ite ?_
  split
  · exact hs.next.ite (hs.atHome fun _ ht => ht.takeLine)
  · exact hs.next.ite (hs.markOnly.next.ite (hs.atHome fun _ ht => ht.otherOwns))

theorem State.Canonical.storeAtHome_getD {s : State} {x : Version} {o n v : Nat} (hs : s.Canonical) :
    ((s.storeAtHome x o n v).getD s).Canonical := hs.getD fun _ he => hs.storeAtHome he

theorem State.Canonical.otherAtomic {s : State} {r : CoreRequest} {dpa n : Nat} {op : AmoOp} {v cmp : Nat} (hs : s.Canonical) :
    (s.otherAtomic r dpa n op v cmp).Canonical := by
  unfold State.otherAtomic
  dsimp only
  refine hs.ite ?_
  split
  · exact hs
  · next h =>
    have hu := hs.enterMark h
    split
    · exact hu.countRequest.homeReadTimes.ite hu.countRequest
    · refine State.Canonical.ite (State.Canonical.wakeLine (State.Canonical.mapPkg
        (hu.countRequest.noteStale.homeWriteTimes.ite hu.countRequest.noteStale) fun hp => hp.writeNat)) ?_
      exact hu.countRequest.noteStale.homeWriteTimes.storeAtHome_getD

theorem State.Canonical.execHomeAtomic {who : Requester} {dpa : Nat} {op : AmoOp} {w4 : Bool} {v cmp : Word} {s : State} (hs :
    s.Canonical) :
    ResultCanonical (execHomeAtomic who dpa op w4 v cmp s) := by
  unfold Machine.execHomeAtomic
  refine hs.next.ite ?_
  split
  · refine hs.atHome fun t ht => ?_
    split
    · next h => exact ht.atomicHome.of_eq h
    · exact ht
  · exact hs.next.ite (hs.atHome fun _ ht => ht.otherAtomic)

theorem State.Canonical.otherReturns {s : State} {r : CoreRequest} {line : Nat} {data : Option LineImage} (hs : s.Canonical) :
    (s.otherReturns r line data).Canonical := by
  unfold State.otherReturns
  dsimp only
  split
  · exact hs.assign.mapPkg fun hp => hp.setHome
  · exact State.Canonical.wakeLine (hs.noteStale.assign.mapPkg fun hp => hp.putLine.setHome)

theorem State.Canonical.otherSinks {s : State} {r : CoreRequest} {v : Version} {data : Option LineImage} (hs : s.Canonical) :
    (s.otherSinks r v data).Canonical := by
  unfold State.otherSinks
  dsimp only
  have ht {a n w p} : (((s.noteStale a n).assign w).mapPkg (fun q => q.setHome v.line p)).Canonical :=
    hs.noteStale.assign.mapPkg fun hp => hp.setHome
  refine hs.ite (State.Canonical.ite (State.Canonical.spill (ht.mapPkg fun hp => hp.putVersion))
    (State.Canonical.settle (ht.mapPkg fun hp => hp.putVersion)))

theorem State.Canonical.execHomeWriteBack {who : Requester} {line : Nat} {data : Option LineImage} {s : State} (hs : s.Canonical)
    :
    ResultCanonical (execHomeWriteBack who line data s) := by
  unfold Machine.execHomeWriteBack
  split
  · split
    · exact hs.writeBack.next.ite hs.next
    · exact hs.next
  · refine ResultCanonical.ite (hs.markOnly.otherReturns.next.ite hs.next) ?_
    split
    · exact hs.markOnly.otherSinks.next
    · exact hs.next

theorem State.Canonical.execLineFill {line : Nat} {s : State} (hs : s.Canonical) : ResultCanonical (execLineFill line s) := by
  unfold Machine.execLineFill
  dsimp only
  exact hs.next.ite (State.Canonical.next (State.Canonical.fill (hs.meetErrors.homeReadTimes.ite hs.meetErrors)))

theorem State.Canonical.execOwnerRecall {line : Nat} {s : State} (hs : s.Canonical) :
    ResultCanonical (execOwnerRecall line s) := by
  unfold Machine.execOwnerRecall
  split
  · exact hs.writeBack.next
  · exact hs.next

theorem State.Canonical.execHorizonBroadcast {s : State} (hs : s.Canonical) : ResultCanonical (execHorizonBroadcast s) :=
  hs.broadcast.next

/-! ### Race sweeps and the scrub. -/

theorem sparseWfFrom_mapFilter {α : Type} [DecidableEq α] (d : α) (f : Nat → α → α) (m : Sparse α) (a : Nat)
    (h : sparseWfFrom d a m = true) :
    sparseWfFrom d a ((m.map fun e => (e.1, f e.1 e.2)).filter fun e => e.2 != d) = true := by
  induction m generalizing a with
  | nil => rfl
  | cons e m ih =>
    simp only [sparseWfFrom, Bool.and_eq_true, decide_eq_true_eq] at h
    obtain ⟨⟨hk, -⟩, hm⟩ := h
    rw [List.map_cons, List.filter_cons]
    split
    · next hv =>
      simp only [sparseWfFrom, Bool.and_eq_true, decide_eq_true_eq]
      exact ⟨⟨hk, hv⟩, ih (e.1 + 1) hm⟩
    · exact sparseWfFrom_mono d _ (Nat.le_succ_of_le hk) (ih (e.1 + 1) hm)

theorem Pkg.MapsWf.sweep {p : Pkg} {q : Nat → Bool} (hp : p.MapsWf) : (p.sweep q).MapsWf := by
  have hr := sparseWfFrom_mapFilter RaceRec.empty (fun w r => if q w then r.sweep p.stamp else r) p.races 0 hp.races
  have hf : (fun e : Nat × RaceRec => if q e.1 then (e.1, e.2.sweep p.stamp) else e) =
      fun e => (e.1, if q e.1 then e.2.sweep p.stamp else e.2) := by
    funext e
    split <;> rfl
  unfold Pkg.sweep
  rw [hf]
  exact { hp with races := hr }

theorem State.Canonical.execSliceRaceSweep {line : Nat} {s : State} (hs : s.Canonical) :
    ResultCanonical (execSliceRaceSweep line s) := State.Canonical.next (hs.mapPkg fun hp => hp.sweep)

theorem State.Canonical.execCoreRaceSweep {s : State} (hs : s.Canonical) : ResultCanonical (execCoreRaceSweep s) :=
  State.Canonical.next (hs.mapPkg fun hp => hp.sweep)

theorem State.Canonical.execHbmScrub {block : Nat} {s : State} (hs : s.Canonical) : ResultCanonical (execHbmScrub block s) :=
  State.Canonical.next (hs.mapPkg fun hp => hp.clearErrors) |>.ite hs.next

/-! ### Asynchronous steps of the hart. -/

theorem State.Canonical.execStoreDepart {s : State} (hs : s.Canonical) : ResultCanonical (execStoreDepart s) := by
  unfold Machine.execStoreDepart
  split
  · next h => exact State.Canonical.next (hs.departHead h)
  · exact hs.next

theorem State.Canonical.execIllegalInstruction {w : IWord} {s : State} (hs : s.Canonical) :
    ResultCanonical (execIllegalInstruction w s) := hs.illegal.next

theorem State.Canonical.execIdleWake {s : State} (hs : s.Canonical) : ResultCanonical (execIdleWake s) := by
  unfold Machine.execIdleWake
  split
  · exact hs.mapHart.next
  · exact hs.next

theorem State.Canonical.execIdleTimeout {s : State} (hs : s.Canonical) : ResultCanonical (execIdleTimeout s) := by
  unfold Machine.execIdleTimeout
  split
  · exact hs.mapHart.next
  · exact hs.next

theorem State.Canonical.execArrayDataErrorTrap {s : State} (hs : s.Canonical) : ResultCanonical (execArrayDataErrorTrap s) := by
  unfold Machine.execArrayDataErrorTrap
  split
  · exact hs.next
  · exact hs.mapHart.trap.next.ite hs.next

theorem State.Canonical.lostHart {s : State} {src : BitVec 4} (hs : s.Canonical) : (s.lostHart src).Canonical :=
  hs.ite hs.recordUe.hartStateError

theorem State.Canonical.execHartStateError {s : State} (hs : s.Canonical) : ResultCanonical (execHartStateError s) :=
  hs.lostHart.next

theorem State.Canonical.execRollbackComplete {s : State} (hs : s.Canonical) : ResultCanonical (execRollbackComplete s) := by
  unfold Machine.execRollbackComplete
  refine hs.next.ite ?_
  split
  · exact hs.recordUe.discardGang.next
  · exact hs.rollback.next

/-! ### Report rings. -/

theorem State.Canonical.writeRing {s : State} {x : RingRecord} (hs : s.Canonical) : (s.writeRing x).Canonical := by
  unfold State.writeRing
  dsimp only
  exact hs.poke.mapPkg fun hp => { hp with rtail := sparseWf_set _ _ _ _ hp.rtail }

theorem State.Canonical.execFaultRecordPost {s : State} (hs : s.Canonical) : ResultCanonical (execFaultRecordPost s) := by
  unfold Machine.execFaultRecordPost
  split
  · exact hs.next
  · exact State.Canonical.next (State.Canonical.writeRing (hs.mapCore fun hc => by exact { hc with })) |>.ite hs.next

theorem State.Canonical.releaseReports {s : State} (hs : s.Canonical) : s.releaseReports.Canonical := by
  unfold State.releaseReports
  refine State.Canonical.ite ?_ hs
  exact State.canonical_of { hs.core with } { hs.pkg with }

theorem State.Canonical.execRingRecordWrite {ring : Nat} {s : State} (hs : s.Canonical) :
    ResultCanonical (execRingRecordWrite ring s) := by
  unfold Machine.execRingRecordWrite
  dsimp only
  split
  · exact hs.releaseReports.next
  · exact State.Canonical.next (State.Canonical.writeRing (hs.releaseReports.mapPkg fun hp => by exact { hp with }))
      |>.ite hs.releaseReports.next

end Sys2Proof.Machine
end

/-! Every step keeps the canonical forms: the adapter, natural errors and ports (the functions of Machine/Adapter.lean, Errors.lean
and Links.lean). -/

section
namespace Sys2Proof.Machine

/-! ### Queue tails and fault answers. -/

theorem State.Canonical.moveTail {s : State} {q : BitVec 12} {v : Word} (hs : s.Canonical) : (s.moveTail q v).Canonical := by
  unfold State.moveTail
  dsimp only
  exact hs.ite (hs.ite hs.setTail)

theorem State.Canonical.moveTails {l : List (BitVec 12 × Word)} {s : State} (hs : s.Canonical) : (s.moveTails l).Canonical := by
  induction l generalizing s with
  | nil => exact hs.mapPkg fun hp => { hp with }
  | cons x l ih =>
    unfold State.moveTails
    exact State.Canonical.ite (hs.mapPkg fun hp => by exact { hp with }) (ih hs.moveTail)

theorem State.Canonical.execQtailWrite {q : BitVec 12} {v : Word} {s : State} (hs : s.Canonical) :
    ResultCanonical (execQtailWrite q v s) := by
  unfold Machine.execQtailWrite
  dsimp only
  exact State.Canonical.next (State.Canonical.ite (hs.mapPkg fun hp => by exact { hp with }) hs.moveTails)

theorem State.Canonical.markEntry {s : State} {f : SavedFault} {g : Nat → Nat} (hs : s.Canonical) : (s.markEntry f g).Canonical :=
  hs.pokeOver

theorem State.Canonical.execFansReplay {fid : BitVec 32} {s : State} (hs : s.Canonical) :
    ResultCanonical (execFansReplay fid s) := by
  unfold Machine.execFansReplay
  dsimp only
  refine State.Canonical.next (State.Canonical.mapPkg (State.Canonical.foldl (State.Canonical.mapCore (hs.mapHart.ite hs)
    fun hc => ?_) fun t f ht => ht.markEntry) fun hp => ?_)
  · exact { hc with }
  · exact { hp with }

theorem State.Canonical.markUnresolved {s : State} {fid : BitVec 32} (hs : s.Canonical) : (s.markUnresolved fid).Canonical := by
  unfold State.markUnresolved
  dsimp only
  refine State.Canonical.mapPkg (hs.foldl fun t f ht => ht.markEntry) fun hp => ?_
  exact { hp with }

theorem State.Canonical.execFansUnresolved {fid : BitVec 32} {s : State} (hs : s.Canonical) :
    ResultCanonical (execFansUnresolved fid s) := by
  unfold Machine.execFansUnresolved
  dsimp only
  have ht := (hs.mapCore (f := fun c => { c with
    units := c.units.map (fun u => if parkedAs fid u.parked then { u with unresolved := true } else u)
    peel := c.peel.map (fun o => if parkedAs fid o.parked then { o with unresolved := true } else o) })
    fun hc => { hc with }).markUnresolved (fid := fid)
  exact State.Canonical.next (ht.trap.ite ht)

/-! ### The end of a context. -/

theorem State.Canonical.dropRecords {s : State} {c : BitVec 8} (hs : s.Canonical) : (s.dropRecords c).Canonical := by
  unfold State.dropRecords
  refine hs.foldl fun t r ht => ?_
  split
  · exact State.Canonical.ite (State.Canonical.discardRecord (ht.mapPkg fun hp => hp.dropRequest)) ht
  · exact ht

theorem State.Canonical.refuteContext {s : State} {c : BitVec 8} (hs : s.Canonical) : (s.refuteContext c).Canonical := by
  unfold State.refuteContext
  dsimp only
  exact hs.refuteIds.foldl fun t _ ht => ht.foldl fun _ _ hu => hu.freeHyp

theorem Core.MapsWf.dropRack {k : Core} {c : BitVec 8} (hc : k.MapsWf) : (k.dropRack c).MapsWf :=
  Core.MapsWf.ite (by exact { hc with }) hc

theorem State.Canonical.discardRunning {c : BitVec 8} {s : State} (hs : s.Canonical) :
    (if s.hart.run != .idle && s.hart.ctxid = c then
      s.discardGang (Config.discardCause s.tick) (Config.discardVal s.tick) (s.hart.pc.setWidth 64)
    else s).Canonical :=
  State.Canonical.ite hs.discardGang hs

theorem State.Canonical.discardSavedOf {c : BitVec 8} {s : State} (hs : s.Canonical) :
    ((s.pkg.saved.filter (fun g => g.ctxid = c)).foldl
      (fun s g => s.discardSaved g (Config.discardCause s.tick) (Config.discardVal s.tick)) s).Canonical :=
  hs.foldl fun _ _ ht => ht.discardSaved

theorem State.Canonical.killContext {s : State} {c : BitVec 8} (hs : s.Canonical) : (s.killContext c).Canonical := by
  unfold State.killContext
  have ht := (hs.mapPkg (f := fun p => { p with killed := natSetPut p.killed c.toNat true }) fun hp => { hp with }).dropRecords
    (c := c)
  have hu := (ht.discardRunning (c := c)).discardSavedOf (c := c) |>.refuteContext (c := c)
  exact State.Canonical.mapPkg (State.Canonical.unlockFor (hu.mapCore fun hc => hc.wipeWays.dropRack)) fun hp => hp.post

theorem State.Canonical.execCtxkill {v : Word} {s : State} (hs : s.Canonical) : ResultCanonical (execCtxkill v s) :=
  hs.killContext.next.ite hs.next

/-! ### Bias. -/

theorem Pkg.MapsWf.hostPage {p : Pkg} {page : Nat} {r : BitVec 16} {q : Nat → Bool} {l : List Nat} (hp : p.MapsWf) :
    ({ p with hr := r, races := sparseDrop q p.races, hostBias := natSetPut p.hostBias page true, hostHeld := l } : Pkg).MapsWf :=
  { hp with
    races := sparseWf_filter _ _ _ hp.races
    hostBias := natSetPut_wf _ _ _ hp.hostBias }

theorem State.Canonical.toHostBias {s : State} {page : Nat} (hs : s.Canonical) : (s.toHostBias page).Canonical := by
  unfold State.toHostBias
  have ht : ((pageLines page).foldl (fun s l => (s.recall l false).getD s) s).Canonical := hs.foldl fun t l ht => ht.recall_getD
  generalize (pageLines page).foldl (fun s l => (s.recall l false).getD s) s = t at ht ⊢
  exact State.Canonical.mapPkg ht.dropLines fun hp => hp.hostPage

theorem State.Canonical.toDeviceBias {s : State} {page : Nat} (hs : s.Canonical) : (s.toDeviceBias page).Canonical := by
  unfold State.toDeviceBias
  refine State.Canonical.foldl (hs.mapPkg fun hp => ?_) fun t l ht => ht.settle
  exact { hp with hostBias := natSetPut_wf _ _ _ hp.hostBias }

theorem State.Canonical.startFlip {s : State} {page : Nat} {cmd : BitVec 2} (hs : s.Canonical) :
    (s.startFlip page cmd).Canonical := State.Canonical.ite hs (hs.mapPkg fun hp => { hp with })

theorem State.Canonical.execBiasToHost {page : Nat} {s : State} (hs : s.Canonical) : ResultCanonical (execBiasToHost page s) :=
  hs.startFlip.next

theorem State.Canonical.execBiasToDevice {page : Nat} {s : State} (hs : s.Canonical) :
    ResultCanonical (execBiasToDevice page s) := hs.startFlip.next

/-! ### Host accesses. -/

theorem Pkg.MapsWf.loseLine {p : Pkg} {line : Nat} (hp : p.MapsWf) : (p.loseLine line).MapsWf := { hp with }

theorem State.Canonical.hostWrite {s : State} {dpa : Nat} {bs : List Byte} (hs : s.Canonical) : (s.hostWrite dpa bs).Canonical :=
  State.Canonical.wakeLine (hs.noteStale.mapPkg fun hp => hp.write.loseLine)

theorem State.Canonical.hostMem {s : State} {dpa : Nat} {data : Option (List Byte)} (hs : s.Canonical) :
    (s.hostMem dpa data).Canonical := by
  unfold State.hostMem
  dsimp only
  refine hs.ite ?_
  have ht : (if natSetHas s.pkg.hostBias (dpa / 4096) then s else s.toHostBias (dpa / 4096)).Canonical := hs.ite hs.toHostBias
  split
  · exact ht.mapPkg fun hp => hp.clearErrors
  · exact ht.hostWrite

theorem State.Canonical.serveHost {l : List (Nat × Option (List Byte))} {s : State} (hs : s.Canonical) :
    (s.serveHost l).Canonical := by
  induction l generalizing s with
  | nil => exact hs.mapPkg fun hp => { hp with }
  | cons x l ih =>
    unfold State.serveHost
    exact State.Canonical.ite (hs.mapPkg fun hp => by exact { hp with }) (ih hs.hostMem)

theorem State.Canonical.execHostCxlMemRequest {dpa : Nat} {data : Option (List Byte)} {s : State} (hs : s.Canonical) :
    ResultCanonical (execHostCxlMemRequest dpa data s) := by
  unfold Machine.execHostCxlMemRequest
  dsimp only
  exact State.Canonical.next (State.Canonical.ite (hs.mapPkg fun hp => by exact { hp with }) hs.serveHost)

theorem State.Canonical.endFlip {s : State} (hs : s.Canonical) : s.endFlip.Canonical := by
  unfold State.endFlip
  dsimp only
  refine State.Canonical.mapPkg (hs.toHostBias.ite hs.toDeviceBias) fun hp => ?_
  exact { hp with }

theorem State.Canonical.execBiasFlipComplete {s : State} (hs : s.Canonical) : ResultCanonical (execBiasFlipComplete s) := by
  unfold Machine.execBiasFlipComplete
  dsimp only
  exact hs.next.ite (State.Canonical.next (State.Canonical.ite (hs.endFlip.ite hs) (hs.endFlip.ite hs).serveHost))

theorem State.Canonical.execHostSnoop {line : Nat} {data : Option (BitVec 512)} {s : State} (hs : s.Canonical) :
    ResultCanonical (execHostSnoop line data s) := by
  unfold Machine.execHostSnoop
  refine hs.next.ite ?_
  split
  · exact hs.hostWrite.next
  · exact State.Canonical.next (hs.mapPkg fun hp => hp.loseLine)

theorem State.Canonical.execHostRegisterWrite {off : Nat} {v : Word} {s : State} (hs : s.Canonical) :
    ResultCanonical (execHostRegisterWrite off v s) := by
  unfold Machine.execHostRegisterWrite
  iterate 6 refine ResultCanonical.ite (State.Canonical.next (hs.mapPkg fun hp => by exact { hp with })) ?_
  exact ResultCanonical.ite (State.Canonical.next
    (hs.mapPkg fun hp => by exact { hp with rhead := sparseWf_set _ _ _ _ hp.rhead })) hs.next

theorem State.Canonical.execAttestationRequest {nonce : BitVec 256} {s : State} (hs : s.Canonical) :
    ResultCanonical (execAttestationRequest nonce s) := State.Canonical.next (hs.mapPkg fun hp => { hp with })

/-! ### Peers. -/

theorem State.Canonical.servePeerRead {s : State} {src : BitVec 12} {dpa n : Nat} {op : Option PeerAtomic} (hs : s.Canonical) :
    (s.servePeerRead src dpa n op).1.Canonical := by
  unfold State.servePeerRead
  dsimp only
  refine .ite_fst hs (.ite_fst hs.recall_getD ?_)
  split
  · exact hs.recall_getD
  · exact hs.recall_getD.noteStale.poke

theorem State.Canonical.servePeerWrite {s : State} {src : BitVec 12} {dpa : Nat} {bs : List Byte} {poison : Bool} (hs :
    s.Canonical) :
    (s.servePeerWrite src dpa bs poison).1.Canonical := by
  unfold State.servePeerWrite
  dsimp only
  exact .ite_fst hs (State.Canonical.ite (hs.noteStale.poke.mapPkg fun hp => hp.setPoison) hs.noteStale.poke)

theorem State.Canonical.execPeerRead {src : BitVec 12} {dpa : Nat} {ask : PeerAsk} {s : State} (hs : s.Canonical) :
    ResultCanonical (execPeerRead src dpa ask s) := by
  unfold Machine.execPeerRead
  dsimp only
  exact hs.next.ite (State.Canonical.next (hs.servePeerRead.mapPkg fun hp => hp.send))

theorem State.Canonical.execPeerWrite {src : BitVec 12} {dpa : Nat} {data : PeerBytes} {s : State} (hs : s.Canonical) :
    ResultCanonical (execPeerWrite src dpa data s) := hs.next.ite hs.servePeerWrite.next

theorem State.Canonical.execPeerReadReply {place : PeerPlace} {answer : PeerReply} {s : State} (hs : s.Canonical) :
    ResultCanonical (execPeerReadReply place answer s) := State.Canonical.next (hs.mapPkg fun hp => hp.acceptReply)

theorem State.Canonical.execPeerWriteRefusal {n : PeerNotice} {s : State} (hs : s.Canonical) :
    ResultCanonical (execPeerWriteRefusal n s) := State.Canonical.next (hs.mapPkg fun hp => hp.refusedWrite)

/-! ### Natural errors. -/

theorem Pkg.MapsWf.spoilLine {p : Pkg} {line : Nat} (hp : p.MapsWf) : (p.spoilLine line).MapsWf := by
  unfold Pkg.spoilLine
  refine hp.foldl fun q w hq => ?_
  have hr := hq.setPoison (a := w * 8) (b := true)
  exact { hr with }

theorem State.Canonical.strikeLine {s : State} {line : Nat} {h : BitVec 12} {word : BitVec 3} {double : Bool} (hs : s.Canonical) :
    (s.strikeLine line h word double).Canonical := by
  unfold State.strikeLine
  dsimp only
  refine hs.ite (State.Canonical.ite (State.Canonical.ite (hs.mapPkg fun hp => ?_) (hs.mapCore fun hc => ?_)) ?_)
  · exact { hp with }
  · exact { hc with }
  · exact State.canonical_of { hs.core with } { hs.pkg with }

theorem State.Canonical.strikeTag {s : State} {line : Nat} {h : BitVec 12} (hs : s.Canonical) :
    (s.strikeTag line h).Canonical := by
  unfold State.strikeTag
  dsimp only
  split
  · have ht := (hs.recordUe (src := 1#4) (addr := BitVec.ofNat 64 (line * 64))).mapPkg (f := fun p => { p with
      poisonSrc := (natRange (line * 8) 8).foldl (fun m w => sparseSet 0#4 m w 1#4) p.poisonSrc }) fun hp => { hp with }
    exact State.Canonical.ite (State.Canonical.spill (ht.mapPkg fun hp => hp.putVersion))
      (State.Canonical.settle (ht.mapPkg fun hp => hp.putVersion))
  · exact State.Canonical.mapPkg (hs.recordUe.mapCore fun hc => hc.dropLines) fun hp => (hp.ite hp.setHome).spoilLine
  · exact hs

theorem State.Canonical.strikeBench {s : State} {w : Nat} {double : Bool} (hs : s.Canonical) :
    (s.strikeBench w double).Canonical := by
  unfold State.strikeBench
  refine hs.ite (State.Canonical.ite (hs.mapCore fun hc => ?_) (hs.mapCore fun hc => ?_))
  all_goals exact { hc with }

theorem State.Canonical.strikeMemory {s : State} {w : Nat} {double : Bool} (hs : s.Canonical) :
    (s.strikeMemory w double).Canonical := by
  unfold State.strikeMemory
  refine hs.ite (State.Canonical.ite (hs.mapPkg fun hp => ?_) (hs.mapPkg fun hp => ?_))
  all_goals exact { hp with }

theorem State.Canonical.hwError {s : State} {e : HwError} (hs : s.Canonical) : (s.hwError e).Canonical := by
  cases e with
  | l1 => exact hs.recordCe
  | meshRetry => exact hs.recordCe
  | line => exact hs.strikeLine
  | tag => exact hs.strikeTag
  | bench => exact hs.strikeBench
  | memory => exact hs.strikeMemory
  | row way sub row =>
    unfold State.hwError
    exact State.Canonical.ite (hs.mapCore fun hc => by exact { hc with }) hs
  | register => exact hs.lostHart
  | meshLost => exact hs.lostHart
  | column | product | cell | captured | meshData =>
    unfold State.hwError
    exact hs.mapCore fun hc => { hc with }

/-! ### Ports. -/

theorem Pkg.MapsWf.resend {p : Pkg} {k : Port} {q : SentFlit → Bool} (hp : p.MapsWf) : (p.resend k q).MapsWf := by
  unfold Pkg.resend
  exact Pkg.MapsWf.ite (hp.setPort.carry.setPort.ite hp.setPort.carry) hp

theorem State.Canonical.takeAck {s : State} {k : Port} {a : BitVec 12} {refused : List (BitVec 12)} (hs : s.Canonical) :
    (s.takeAck k a refused).Canonical := by
  unfold State.takeAck
  dsimp only
  refine State.Canonical.mapPkg (State.Canonical.foldl (hs.mapPkg fun hp => hp.setPort) fun t f ht => ?_) fun hp => hp.pump
  split
  · exact ht.landSent
  · exact ht

theorem State.Canonical.takeNk {s : State} {k : Port} {n : BitVec 12} (hs : s.Canonical) : (s.takeNk k n).Canonical := by
  unfold State.takeNk
  dsimp only
  split
  · exact hs
  · exact hs.mapPkg fun hp => hp.resend

theorem State.Canonical.takeHeader {s : State} {k : Port} {f : Flit} (hs : s.Canonical) : (s.takeHeader k f).Canonical := by
  unfold State.takeHeader
  have ht : (match flitAck f with
      | some a => s.takeAck k a f.refused
      | none => s).Canonical := by
    split
    · exact hs.takeAck
    · exact hs
  dsimp only
  split
  · exact State.Canonical.takeNk ht
  · exact ht

theorem State.Canonical.deliver {s : State} {k : Port} {f : Flit} {t : State} (hs : s.Canonical) (he : s.deliver k f = some t) :
    t.Canonical := by
  unfold State.deliver at he
  split at he
  · cases he
    exact hs
  · cases he
    exact hs.receivePut
  · cases he
    exact hs.receivePut
  · split at he
    · cases he
      exact hs.reserve.mapPkg fun hp => hp.send
    · cases he
      exact hs
  · cases he
    exact hs.answerPrsv.ite hs
  · cases he
    split
    · exact hs.refusePut
    · exact hs
  · split at he
    · cases he
    · cases he
      exact hs.servePeerRead.mapPkg fun hp => hp.send
  · cases he
    exact hs.mapPkg fun hp => hp.acceptReply
  · split at he
    · cases he
    · cases he
      exact hs.servePeerWrite
  · cases he
    exact hs

theorem State.Canonical.performHeld {k : Port} {n : Nat} {s : State} (hs : s.Canonical) : (s.performHeld k n).Canonical := by
  induction n generalizing s with
  | zero => exact hs
  | succ n ih =>
    unfold State.performHeld
    split
    · exact hs
    · split
      · exact hs
      · next h => exact ih ((hs.deliver h).mapPkg fun hp => hp.setPort)

theorem State.Canonical.performFlits {s : State} {k : Port} (hs : s.Canonical) : (s.performFlits k).Canonical := hs.performHeld

theorem State.Canonical.acceptFlit {s : State} {k : Port} {f : Flit} (hs : s.Canonical) : (s.acceptFlit k f).Canonical := by
  unfold State.acceptFlit
  dsimp only
  exact State.Canonical.performFlits (State.Canonical.takeHeader (hs.mapPkg fun hp => hp.setPort))

theorem Pkg.MapsWf.discardFlit {p : Pkg} {k : Port} (hp : p.MapsWf) : (p.discardFlit k).MapsWf := hp.ite hp.askReplay.setPort

theorem State.Canonical.execFlitReceive {port : Port} {f : Flit} {s : State} (hs : s.Canonical) :
    ResultCanonical (execFlitReceive port f s) :=
  hs.next.ite (ResultCanonical.ite (State.Canonical.next (hs.takeHeader.performFlits.ite hs))
    (hs.acceptFlit.next.ite (State.Canonical.next (hs.mapPkg fun hp => hp.discardFlit))))

theorem State.Canonical.execNkResendTimeout {port : Port} {s : State} (hs : s.Canonical) :
    ResultCanonical (execNkResendTimeout port s) :=
  State.Canonical.next (State.Canonical.ite (hs.mapPkg fun hp => hp.askReplay) hs)

theorem State.Canonical.execReplayTimeout {port : Port} {s : State} (hs : s.Canonical) :
    ResultCanonical (execReplayTimeout port s) := State.Canonical.next (hs.mapPkg fun hp => hp.resend)

theorem State.Canonical.execAckIdleFlit {port : Port} {s : State} (hs : s.Canonical) :
    ResultCanonical (execAckIdleFlit port s) := by
  unfold Machine.execAckIdleFlit
  dsimp only
  exact State.Canonical.next (State.Canonical.ite (hs.performFlits.mapPkg fun hp => hp.carry) hs.performFlits)

/-! ### Loss. -/

theorem Core.MapsWf.losePans {c : Core} {k : Port} (hc : c.MapsWf) : (c.losePans k).MapsWf := by
  unfold Core.losePans
  split
  · exact hc
  · refine hc.foldl fun d i hd => ?_
    split
    · exact hd.poisonPan.ite hd
    · exact hd

theorem State.Canonical.losePort {s : State} {k : Port} (hs : s.Canonical) : (s.losePort k).Canonical := by
  unfold State.losePort
  dsimp only
  refine hs.ite (State.Canonical.mapPkg (State.Canonical.foldl (State.Canonical.foldl (State.Canonical.mapCore
    (hs.mapPkg fun hp => hp.setPort) fun hc => ?_) fun _ _ ht => ht.endSide) fun _ _ ht => ht.answerPrsv) fun hp => ?_)
  · have hd := hc.losePans (k := k)
    exact { hd with }
  · refine Pkg.MapsWf.foldl ?_ fun q f hq => ?_
    · exact { hp with }
    · split
      · exact hq.refusedWrite
      · exact hq

theorem State.Canonical.execLaneFail {port : Port} {lane : BitVec 4} {s : State} (hs : s.Canonical) :
    ResultCanonical (execLaneFail port lane s) := by
  unfold Machine.execLaneFail
  dsimp only
  refine hs.next.ite ?_
  split
  · exact hs.next
  · exact hs.losePort.next
  · exact State.Canonical.next (hs.mapPkg fun hp => hp.setPort)

theorem State.Canonical.execRetrainSuccess {port : Port} {s : State} (hs : s.Canonical) :
    ResultCanonical (execRetrainSuccess port s) := by
  unfold Machine.execRetrainSuccess
  dsimp only
  exact ResultCanonical.ite (State.Canonical.next (hs.mapPkg fun hp => hp.setPort.resend.pump)) hs.next

theorem State.Canonical.execLinkLost {port : Port} {s : State} (hs : s.Canonical) : ResultCanonical (execLinkLost port s) :=
  hs.losePort.next.ite hs.next

theorem State.Canonical.execNewSession {port : Port} {g : LaneGroup} {s : State} (hs : s.Canonical) :
    ResultCanonical (execNewSession port g s) :=
  ResultCanonical.ite (State.Canonical.next (hs.mapPkg fun hp => hp.setPort))
    (ResultCanonical.ite (State.Canonical.next (hs.mapPkg fun hp => hp.setPort)) hs.next)

end Sys2Proof.Machine
end

/-! Every step keeps the canonical forms: the scan chains, freezes, resets and limits (the functions of Machine/Debug.lean). -/

section
namespace Sys2Proof.Machine

/-! ### Freeze and thaw. -/

theorem State.Canonical.execFrz {s : State} (hs : s.Canonical) : ResultCanonical (execFrz s) :=
  State.Canonical.next (hs.mapPkg fun hp => { hp with })

theorem State.Canonical.execFreezeComplete {s : State} (hs : s.Canonical) : ResultCanonical (execFreezeComplete s) := by
  unfold Machine.execFreezeComplete
  dsimp only
  refine hs.next.ite (hs.drain.next.ite (hs.drain.finishFrame.next.ite
    (State.Canonical.next (hs.drain.finishFrame.mapPkg fun hp => ?_))))
  exact { hp with }

theorem State.Canonical.execAdapterHoldTimeout {s : State} (hs : s.Canonical) : ResultCanonical (execAdapterHoldTimeout s) :=
  State.Canonical.next (State.Canonical.ite (hs.mapPkg fun hp => { hp with }) hs)

theorem State.Canonical.execFrzh {s : State} (hs : s.Canonical) : ResultCanonical (execFrzh s) :=
  State.Canonical.next (hs.mapPkg fun hp => { hp with })

theorem State.Canonical.loseFar {s : State} (hs : s.Canonical) : s.loseFar.Canonical := hs.foldl fun _ _ ht => ht.losePort

theorem State.Canonical.execThaw {s : State} (hs : s.Canonical) : ResultCanonical (execThaw s) := by
  unfold Machine.execThaw
  have ht := (hs.mapPkg (f := fun p => { p with frozen := false, freezing := false, ports := p.ports.map PortRec.goDown })
    fun hp => { hp with }).loseFar
  exact hs.next.ite ht.moveTails.serveHost.next

/-! ### Scan chains and status. -/

theorem State.Canonical.execSelch {v : BitVec 16} {s : State} (hs : s.Canonical) : ResultCanonical (execSelch v s) :=
  State.Canonical.next (hs.mapPkg fun hp => { hp with })

theorem sparseWf_splice {α : Type} [DecidableEq α] {d : α} {q : Nat → Bool} {old new : Sparse α} (h : sparseWf d old = true) :
    sparseWf d (splice d q old new) = true :=
  sparseWf_foldl d _ _ _ (fun m e hm => sparseWf_set d m e.1 e.2 hm) (sparseWf_filter d _ _ h)

theorem State.Canonical.scanHart {s f : State} (hs : s.Canonical) : (s.scanHart f).Canonical :=
  State.canonical_of { hs.core with } hs.pkg

theorem State.Canonical.scanWay {s f : State} {w : BitVec 3} (hs : s.Canonical) : (s.scanWay f w).Canonical :=
  State.canonical_of
    { hs.core with
      vrows := sparseWf_splice hs.core.vrows
      prows := sparseWf_splice hs.core.prows
      bench := sparseWf_splice hs.core.bench
      invalid := sparseWf_splice hs.core.invalid
      engine := sparseWf_splice hs.core.engine }
    { hs.pkg with }

theorem State.Canonical.scanFrame {s f : State} (hs : s.Canonical) : (s.scanFrame f).Canonical :=
  hs.mapCore fun hc => { hc with cells := sparseWf_splice hc.cells, chans := sparseWf_splice hc.chans }

theorem State.Canonical.scanSlice {s f : State} {k : Nat} (hs : s.Canonical) : (s.scanSlice f k).Canonical := by
  unfold State.scanSlice
  dsimp only
  refine State.Canonical.foldl (hs.mapPkg fun hp => ?_) fun t e ht => ht.mapPkg fun hp => hp.putLine
  exact { hp with homes := sparseWf_splice hp.homes, races := sparseWf_splice hp.races }

theorem State.Canonical.scanAllocator {s f : State} (hs : s.Canonical) : (s.scanAllocator f).Canonical :=
  hs.mapPkg fun hp => { hp with hyps := sparseWf_splice hp.hyps }

theorem State.Canonical.scanWrite {s f : State} (hs : s.Canonical) : (s.scanWrite f).Canonical := by
  unfold State.scanWrite
  dsimp only
  split
  · exact hs.scanHart.ite hs
  · exact hs.scanWay.ite hs
  · exact hs.scanFrame.ite hs
  · exact hs.scanSlice
  · exact hs.mapPkg fun hp => hp.setPort
  · exact hs.scanAllocator

theorem State.Canonical.execWrch {image : List Byte} {s : State} (hs : s.Canonical) : ResultCanonical (execWrch image s) := by
  unfold Machine.execWrch
  dsimp only
  refine hs.next.ite (State.Canonical.next (State.Canonical.mapPkg (hs.ite hs.scanWrite) fun hp => ?_))
  exact { hp with }

theorem State.Canonical.execStat {s : State} (hs : s.Canonical) : ResultCanonical (execStat s) :=
  State.Canonical.next (hs.mapPkg fun hp => { hp with })

theorem State.Canonical.execDbgauth {verified : Bool} {s : State} (hs : s.Canonical) : ResultCanonical (execDbgauth verified s) :=
  State.Canonical.next (State.Canonical.ite (hs.mapPkg fun hp => { hp with }) hs)

/-! ### Halts. -/

theorem State.Canonical.execHalt {core : BitVec 9} {s : State} (hs : s.Canonical) : ResultCanonical (execHalt core s) :=
  State.Canonical.next (hs.mapHart.ite hs)

theorem State.Canonical.execGo {core : BitVec 9} {s : State} (hs : s.Canonical) : ResultCanonical (execGo core s) :=
  State.Canonical.next (hs.mapHart.ite hs)

theorem State.Canonical.execArmbrk {core : BitVec 9} {arm : Bool} {s : State} (hs : s.Canonical) :
    ResultCanonical (execArmbrk core arm s) := State.Canonical.next (hs.mapHart.ite hs)

/-! ### Resets. -/

theorem Core.MapsWf.reset {c : BitVec 9} : ({ Core.reset with num := c } : Core).MapsWf := by constructor <;> rfl

theorem Pkg.MapsWf.resetOver {mem : Sparse Byte} {poison : Sparse Bool} {id : BitVec 12} (h : sparseWf false poison = true) :
    (Pkg.resetOver mem poison id).MapsWf where
  homes := rfl
  hyps := rfl
  races := rfl
  rhead := rfl
  rtail := rfl
  hostBias := rfl
  memPoison := h
  counters := rfl
  areas := rfl

theorem State.Canonical.packageReset {s : State} (hs : s.Canonical) : s.packageReset.Canonical :=
  State.canonical_of Core.MapsWf.reset { Pkg.MapsWf.resetOver (mem := s.pkg.mem) (id := s.pkg.mypkg) hs.pkg.memPoison with }

/-- The lines and the versions of the core have left it, whichever way. -/
theorem State.Canonical.emptyWays {s : State} {f : State → Version → State} (hs : s.Canonical)
    (hf : ∀ t v, t.Canonical → (f t v).Canonical) :
    (((s.dropLines fun _ => true).mapCore fun c => { c with softLine := [], l1d := [], l1i := [] }).pkg.coreVersions.foldl f
      ((s.dropLines fun _ => true).mapCore fun c => { c with softLine := [], l1d := [], l1i := [] })).Canonical :=
  (hs.dropLines.mapCore fun hc => { hc with }).foldl hf

theorem State.Canonical.flushCore {s : State} (hs : s.Canonical) : s.flushCore.Canonical := by
  unfold State.flushCore
  have ht : (s.core.lines.foldl (fun s l => if l.st = .v then s else s.writeBack l none) s).Canonical :=
    hs.foldl fun t l ht => ht.ite ht.writeBack
  exact ht.emptyWays fun t v ht => ht.sinkVersion

theorem State.Canonical.loseCore {s : State} (hs : s.Canonical) : s.loseCore.Canonical := by
  unfold State.loseCore
  refine State.Canonical.emptyWays (hs.foldl fun t l ht => ht.mapPkg fun hp => ?_) fun t v ht => ht.sinkVersion
  exact Pkg.MapsWf.ite hp.setHome.spoilLine hp.setHome

theorem Core.MapsWf.afterReset {c : Core} {saved : List SavedGang} : (c.afterReset saved).MapsWf :=
  { Core.MapsWf.reset (c := c.num) with }

theorem State.Canonical.coreReset {s : State} (hs : s.Canonical) : s.coreReset.Canonical := by
  unfold State.coreReset
  have ht : (if s.hart.run = .idle then s
      else s.discardGang (Config.discardCause s.tick) (Config.discardVal s.tick) (s.hart.pc.setWidth 64)).Canonical :=
    hs.ite hs.discardGang
  have hu := ht.flushCore.ite (p := (Config.coreAnswers (if s.hart.run = .idle then s
      else s.discardGang (Config.discardCause s.tick) (Config.discardVal s.tick) (s.hart.pc.setWidth 64)).tick) = true) ht.loseCore
  exact State.canonical_of Core.MapsWf.afterReset hu.pkg

theorem State.Canonical.execCoreReset {core : BitVec 9} {s : State} (hs : s.Canonical) : ResultCanonical (execCoreReset core s) :=
  State.Canonical.next (hs.coreReset.ite hs)

theorem State.Canonical.execCoreResetComplete {core : BitVec 9} {s : State} (hs : s.Canonical) :
    ResultCanonical (execCoreResetComplete core s) :=
  State.Canonical.next (State.Canonical.ite (hs.mapCore fun hc => by exact { hc with }) hs)

theorem State.Canonical.execRstcore {core : BitVec 9} {s : State} (hs : s.Canonical) : ResultCanonical (execRstcore core s) :=
  State.Canonical.next (hs.coreReset.ite hs)

theorem State.Canonical.execRstport {port : Port} {s : State} (hs : s.Canonical) : ResultCanonical (execRstport port s) :=
  hs.losePort.next

theorem State.Canonical.execRstpkg {s : State} (hs : s.Canonical) : ResultCanonical (execRstpkg s) := hs.packageReset.next

theorem State.Canonical.execPackageReset {s : State} (hs : s.Canonical) : ResultCanonical (execPackageReset s) :=
  hs.packageReset.next

/-! ### Power and cooling. -/

theorem State.Canonical.execCorePowerGate {core : BitVec 9} {s : State} (hs : s.Canonical) :
    ResultCanonical (execCorePowerGate core s) := by
  unfold Machine.execCorePowerGate
  exact State.Canonical.next (State.Canonical.ite (hs.flushCore.mapCore fun hc => by exact { hc with }) hs)

theorem State.Canonical.limit {s : State} (hs : s.Canonical) : s.limit.Canonical := by
  unfold State.limit
  dsimp only
  refine State.Canonical.mapPkg (State.Canonical.ite hs.writeRing (hs.mapPkg fun hp => hp.post)) fun hp => ?_
  exact { hp with }

theorem State.Canonical.execThermalLimit {s : State} (hs : s.Canonical) : ResultCanonical (execThermalLimit s) := hs.limit.next

theorem State.Canonical.execPowerLimit {s : State} (hs : s.Canonical) : ResultCanonical (execPowerLimit s) := hs.limit.next

theorem State.Canonical.execThermalResetTimer {s : State} (hs : s.Canonical) : ResultCanonical (execThermalResetTimer s) :=
  State.Canonical.next (hs.packageReset.ite hs)

end Sys2Proof.Machine
end

/-! Every step keeps the canonical forms: scalar floats, the instructions and events, the fetch and the step (the functions of
Machine/ScalarFloat.lean, Dispatch.lean, Fetch.lean and Step.lean). -/

section
namespace Sys2Proof.Machine

/-! ### Scalar floats. -/

theorem State.Canonical.floatDone {s : State} {d : GReg} {rm : Rm} {r : FRes} (hs : s.Canonical) :
    ResultCanonical (s.floatDone d rm r) := by
  unfold State.floatDone
  dsimp only
  exact State.Canonical.next (State.Canonical.result (hs.orVfsr.mapHart.ite hs.orVfsr))

theorem State.Canonical.floatRound {s : State} {f : FFmt} {d : GReg} {rm : Rm} {x : XRes} (hs : s.Canonical) :
    ResultCanonical (s.floatRound f d rm x) := hs.floatDone

theorem State.Canonical.floatCompare {s : State} {f : FFmt} {d a b : GReg} {ordered : Bool} {c : FVal → FVal → Bool} (hs :
    s.Canonical) :
    ResultCanonical (s.floatCompare f d a b ordered c) := hs.floatDone

/-! ### Instructions and events. -/

theorem State.Canonical.issueRowAdd {s : State} {i : Instr} (hs : s.Canonical) : ResultCanonical (s.issueRowAdd i) :=
  hs.issueKeep.ite hs.illegalInstr.next

theorem State.Canonical.issueFrameMem {s : State} {i : Instr} {base : Word} (hs : s.Canonical) :
    ResultCanonical (s.issueFrameMem i base) := hs.trap.next.ite hs.issue

theorem State.Canonical.execVclip {d a : VReg} {y : VSrc} {s : State} (hs : s.Canonical) :
    ResultCanonical (execVclip d a y s) := by
  unfold Machine.execVclip
  dsimp only
  exact ResultCanonical.ite hs.issue hs.illegalInstr.next

theorem State.Canonical.execVcvt {d a : VReg} {t : ElemType} {s : State} (hs : s.Canonical) :
    ResultCanonical (execVcvt d a t s) := by
  unfold Machine.execVcvt
  dsimp only
  exact ResultCanonical.ite hs.issue hs.illegalInstr.next

theorem State.Canonical.execFle {f : FFmt} {d a b : GReg} {s : State} (hs : s.Canonical) : ResultCanonical (execFle f d a b s) :=
  hs.floatCompare

theorem State.Canonical.execBge {y a : GReg} {imm : BitVec 16} {s : State} (hs : s.Canonical) :
    ResultCanonical (execBge y a imm s) := hs.branch

theorem State.Canonical.execBgeu {y a : GReg} {imm : BitVec 16} {s : State} (hs : s.Canonical) :
    ResultCanonical (execBgeu y a imm s) := hs.branch

theorem State.Canonical.exec {i : Instr} {s : State} (hs : s.Canonical) : ResultCanonical (exec i s) := by
  cases i with
  | add | sub | addw | subw | and_ | or_ | xor_ | andn | orn | sll | srl | sra | rol | ror | slt | sltu | min_ | max_ | minu
    | maxu | mul | mulh | mulhu | mulhsu | mulw | div | divu | rem | remu => exact hs.result.next
  | clz | ctz | popc | sextB | sextH | sextW | zextB | zextH | zextW | addi | andi | ori | xori | slti | sltiu | slli | srli
    | srai | rori => exact hs.result.next
  | ldhi | pcrel | fclass => exact hs.result.next
  | fadd | fsub | fmul | fdiv | fsqrt | fma | fcvtIf | fcvtFf => exact hs.floatRound
  | fmin | fmax | fcvtFi => exact hs.floatDone
  | feq | flt => exact hs.floatCompare
  | fle => exact hs.execFle
  | vclip => exact hs.execVclip
  | vcvt => exact hs.execVcvt
  | ldb | ldh | ldw | ldd | ldbu | ldhu | ldwu => exact hs.scalarLoad
  | stb | sth | stw | std => exact hs.scalarStore
  | beq | bne | blt | bltu => exact hs.branch
  | bge => exact hs.execBge
  | bgeu => exact hs.execBgeu
  | jal => exact State.Canonical.next hs.setG.jump
  | rdch | bypass | thermalWarning => exact hs.next
  | jalr => exact hs.execJalr
  | ald | amoadd | amoswap | amoand | amoor | amoxor | amomin | amomax | amominu | amomaxu | cas => exact hs.amo
  | ast => exact hs.execAst
  | fence => exact hs.execFence
  | gbar => exact hs.execGbar
  | gred => exact hs.execGred
  | mfs => exact hs.execMfs
  | mts => exact hs.execMts
  | mtsMode => exact hs.execMtsMode
  | mtsVl => exact hs.execMtsVl
  | mtsVstart => exact hs.execMtsVstart
  | mtsFcr | fcfg => exact hs.writeFcr
  | mtsLtime => exact hs.execMtsLtime
  | mtsBenchchk => exact hs.execMtsBenchchk
  | mtsChkctl => exact hs.execMtsChkctl
  | svc => exact hs.execSvc
  | brk => exact hs.execBrk
  | eret => exact hs.execEret
  | idle => exact hs.execIdle
  | ifence => exact hs.execIfence
  | tlbiVa | tlbiCtx | tlbiAll => exact hs.tlbi
  | tend => exact hs.execTend
  | spawn | qput => exact hs.enqueueAt
  | join => exact hs.execJoin
  | gmode => exact hs.execGmode
  | vsetl => exact hs.execVsetl
  | wconvArray | wconvBench => exact hs.wconv
  | wrel => exact hs.execWrel
  | vadd | vsub | vrsub | vmul | vmacc | vnmsac | vfadd | vfsub | vfmul | vfma | vfnma => exact hs.issueWd
  | vmulh | vdiv | vdivu | vrem | vmin | vmax | vminu | vmaxu | vand | vor | vxor | vandn | vsll | vsrl | vsra | vabs | vabsd
    | vmerge | vmv | vid | vfdiv | vfsqrt | vfmin | vfmax | vfsgn | vfsgnN | vfsgnX | vfexp2 | vflog2 | vfrecip
    | vfrsqrt => exact hs.issueV
  | vcmpeq | vcmpne | vcmplt | vcmple | vcmpltu | vcmpleu | vfcmpeq | vfcmplt | vfcmple | vfcmpun => exact hs.issueCmp
  | pand | por | pxor | pandn | pmov | psbf | psif | pfirst | pcount | pset => exact hs.issuePred
  | vloop => exact hs.execVloop
  | vredsum | vredosum | vredmin | vredmax | vredbitAnd | vredbitOr | vredbitXor => exact hs.issueRod
  | vscan | vslideup | vslidedn | vslide1up | vslide1dn | vpick | vsqueeze | vbcast | vextr | vinsr => exact hs.issueRod
  | vld | vlds | vldx | vldff | vst | vsts | vstx => exact hs.issueVecMem
  | pcopy => exact hs.execPcopy
  | pcopyX => exact hs.execPcopyX
  | ownE => exact hs.execOwnE
  | ownH => exact hs.execOwnH
  | tbi => exact hs.execTbi
  | tbarr => exact hs.execTbarr
  | tbwait => exact hs.execTbwait
  | tbtest => exact hs.execTbtest
  | rkdef => exact hs.execRkdef
  | prsv => exact hs.execPrsv
  | prel => exact hs.execPrel
  | pstat => exact hs.execPstat
  | bput | bputF => exact hs.issueBput
  | vput | vputF => exact hs.issueVput
  | rrot => exact hs.execRrot
  | fzero | fzeroC | frc => exact hs.issueKeep
  | mmo | mmoSp => exact hs.issueMatrix
  | mmoSt => exact hs.execMmoSt
  | fdrain | fdrainNcs | fdrainZ | fdrainZNcs => exact hs.issueDrain
  | frowadd | frowaddC => exact hs.issueRowAdd
  | fsave | fload => exact hs.issueFrameMem
  | hopen d =>
    change ResultCanonical (Machine.execHopen d s)
    exact hs.execHopen
  | henter => exact hs.execHenter
  | hleave => exact hs.execHleave
  | hresConfirm => exact hs.execHresConfirm
  | hresRefute => exact hs.execHresRefute
  | hstat => exact hs.execHstat
  | cflush => exact hs.execCflush
  | cclean => exact hs.execCclean
  | cinv => exact hs.execCinv
  | lock => exact hs.execLock
  | unlock => exact hs.execUnlock
  | bclr => exact hs.execBclr
  | hint => exact hs.retire.next
  | illegalInstruction => exact hs.execIllegalInstruction
  | faultRecordPost => exact hs.execFaultRecordPost
  | storeDepart => exact hs.execStoreDepart
  | lineFill => exact hs.execLineFill
  | ownerRecall => exact hs.execOwnerRecall
  | homeRead => exact hs.execHomeRead
  | homeAcquireRead => exact hs.execHomeAcquireRead
  | homeOwnership => exact hs.execHomeOwnership
  | homeAtomic => exact hs.execHomeAtomic
  | homeWriteBack => exact hs.execHomeWriteBack
  | horizonBroadcast => exact hs.execHorizonBroadcast
  | sliceRaceSweep => exact hs.execSliceRaceSweep
  | coreRaceSweep => exact hs.execCoreRaceSweep
  | hbmScrub => exact hs.execHbmScrub
  | idleWake => exact hs.execIdleWake
  | idleTimeout => exact hs.execIdleTimeout
  | kneaderSlot => exact hs.execKneaderSlot
  | arrayDataErrorTrap => exact hs.execArrayDataErrorTrap
  | frameKstep => exact hs.execFrameKstep
  | peelOpStart => exact hs.execPeelOpStart
  | peelElement => exact hs.execPeelElement
  | tbwaitAnswer => exact hs.execTbwaitAnswer
  | reservationRequest => exact hs.execReservationRequest
  | reservationAnswer => exact hs.execReservationAnswer
  | putFirstFlit => exact hs.execPutFirstFlit
  | putContinuationFlit => exact hs.execPutContinuationFlit
  | putStatus => exact hs.execPutStatus
  | barrierArrival => exact hs.execBarrierArrival
  | barrierRelease => exact hs.execBarrierRelease
  | queuePop => exact hs.execQueuePop
  | agingTick => exact hs.execAgingTick
  | laneGrant => exact hs.execLaneGrant
  | preemption => exact hs.execPreemption
  | gangSaved => exact hs.execGangSaved
  | resume => exact hs.execResume
  | orphanTrap => exact hs.execOrphanTrap
  | hypothesisFree => exact hs.execHypothesisFree
  | hartStateError => exact hs.execHartStateError
  | rollbackComplete => exact hs.execRollbackComplete
  | ringRecordWrite => exact hs.execRingRecordWrite
  | qtailWrite => exact hs.execQtailWrite
  | fansReplay => exact hs.execFansReplay
  | fansUnresolved => exact hs.execFansUnresolved
  | ctxkill => exact hs.execCtxkill
  | biasToHost => exact hs.execBiasToHost
  | biasToDevice => exact hs.execBiasToDevice
  | biasFlipComplete => exact hs.execBiasFlipComplete
  | hostCxlMemRequest => exact hs.execHostCxlMemRequest
  | hostSnoop => exact hs.execHostSnoop
  | hostRegisterWrite => exact hs.execHostRegisterWrite
  | attestationRequest => exact hs.execAttestationRequest
  | peerRead => exact hs.execPeerRead
  | peerWrite => exact hs.execPeerWrite
  | peerReadReply => exact hs.execPeerReadReply
  | flitReceive => exact hs.execFlitReceive
  | nkResendTimeout => exact hs.execNkResendTimeout
  | replayTimeout => exact hs.execReplayTimeout
  | ackIdleFlit => exact hs.execAckIdleFlit
  | laneFail => exact hs.execLaneFail
  | retrainSuccess => exact hs.execRetrainSuccess
  | linkLost => exact hs.execLinkLost
  | newSession => exact hs.execNewSession
  | frz => exact hs.execFrz
  | freezeComplete => exact hs.execFreezeComplete
  | adapterHoldTimeout => exact hs.execAdapterHoldTimeout
  | frzh => exact hs.execFrzh
  | thaw => exact hs.execThaw
  | selch => exact hs.execSelch
  | wrch => exact hs.execWrch
  | halt => exact hs.execHalt
  | go => exact hs.execGo
  | armbrk => exact hs.execArmbrk
  | rstcore => exact hs.execRstcore
  | rstport => exact hs.execRstport
  | rstpkg => exact hs.execRstpkg
  | dbgauth => exact hs.execDbgauth
  | stat => exact hs.execStat
  | packageReset => exact hs.execPackageReset
  | coreReset => exact hs.execCoreReset
  | coreResetComplete => exact hs.execCoreResetComplete
  | corePowerGate => exact hs.execCorePowerGate
  | thermalLimit => exact hs.execThermalLimit
  | powerLimit => exact hs.execPowerLimit
  | thermalResetTimer => exact hs.execThermalResetTimer
  | rodTreeComplete => exact hs.execRodTreeComplete
  | panDiscardNotice => exact hs.execPanDiscardNotice
  | peerWriteRefusal => exact hs.execPeerWriteRefusal

/-! ### The fetch. -/

/-- The state in which a fetch ends, with or without a word. -/
def Fetched.state : Fetched → State
  | .word _ s => s
  | .stop s => s

theorem Core.MapsWf.touchCode {c : Core} {line : Nat} {h : BitVec 12} (hc : c.MapsWf) : (c.touchCode line h).MapsWf :=
  Core.MapsWf.ite { hc with } hc

theorem State.Canonical.fetchRead {s : State} {dpa : Nat} {mt : MemType} {cnt : Bool} {h : BitVec 12} {r : State × ReadVal} (hs :
    s.Canonical) (he : s.fetchRead dpa mt cnt h = some r) :
    r.1.Canonical := by
  unfold State.fetchRead at he
  dsimp only at he
  split at he
  · cases he
    exact hs
  · obtain ⟨x, hx, rfl⟩ := Option.map_eq_some_iff.mp he
    suffices h : x.1.Canonical from h.congr rfl rfl
    split at hx
    · obtain ⟨y, hy, rfl⟩ := Option.map_eq_some_iff.mp hx
      exact hs.cachedRead hy
    · exact hs.readMem hx

theorem State.Canonical.fetchMem {s : State} {dpa : Nat} {mt : MemType} {cnt : Bool} (hs : s.Canonical) :
    (s.fetchMem dpa mt cnt).state.Canonical := by
  unfold State.fetchMem
  dsimp only
  split
  next => exact hs
  next t v he =>
    have hu : t.Canonical := hs.fetchRead he
    have ht := hu.mapCore (f := fun c => c.touchCode (dpa / 64) (if mt = .wb then s.hart.hyp else 0#12)) fun hc => hc.touchCode
    split
    · exact ht.consumePoison.trap
    · exact ht.correct (t := .mem dpa mt cnt) (n := 4)

theorem State.Canonical.fetch {s : State} (hs : s.Canonical) : s.fetch.state.Canonical := by
  unfold State.fetch
  dsimp only
  split
  · exact hs.trap
  · have ht := hs.translate (va := s.hart.pc) (acc := .fetch) (unit := false)
    generalize s.translate s.hart.pc .fetch = r at ht ⊢
    cases r with
    | trap => exact State.Canonical.trap ht
    | fault => exact State.Canonical.parkHart ht
    | wait => exact ht
    | ok a t =>
      obtain ⟨dpa, mt, cnt⟩ := a
      replace ht : t.Canonical := ht
      dsimp only
      split
      · have hu := ht.mapPkg (f := fun p => p.takeReply dpa 4 .hart) fun hp => hp.takeReply
        split
        · exact hu.congr rfl rfl
        · exact hu.trap
        · exact hu.consumePoison.trap
        · exact ht.peerAsk
      · exact ht.fetchMem

/-! ### The step. -/

theorem State.Canonical.runOp {o : Op} {s : State} (hs : s.Canonical) : ResultCanonical (runOp o s) := by
  cases o with
  | instr i => exact hs.exec
  | hint h => exact hs.retire.next
  | mtsRow r a =>
    cases r with
    | mode => exact hs.execMtsMode
    | vl => exact hs.execMtsVl
    | vstart => exact hs.execMtsVstart
    | fcr => exact hs.writeFcr
    | ltime => exact hs.execMtsLtime
    | benchchk => exact hs.execMtsBenchchk
    | chkctl => exact hs.execMtsChkctl

theorem State.Canonical.runWord {w : IWord} {s : State} (hs : s.Canonical) : ResultCanonical (runWord w s) := by
  unfold Machine.runWord
  split
  · exact hs.runOp
  · exact hs.execIllegalInstruction

theorem State.Canonical.hartStep {s : State} (hs : s.Canonical) : ResultCanonical (hartStep s) := by
  unfold Machine.hartStep
  refine ResultCanonical.ite ?_ hs.next
  have ht := hs.fetch
  generalize s.fetch = r at ht ⊢
  cases r with
  | word w t => exact State.Canonical.runWord ht
  | stop t => exact State.Canonical.next ht

theorem State.Canonical.autoStep {a : Auto} {s : State} (hs : s.Canonical) : ResultCanonical (autoStep a s) := by
  cases a with
  | rollback => exact hs.execRollbackComplete
  | saved => exact hs.execGangSaved
  | freeze => exact hs.execFreezeComplete
  | orphan => exact hs.execOrphanTrap
  | arrayTrap => exact hs.execArrayDataErrorTrap
  | store => exact hs.execStoreDepart
  | kneader => exact hs.execKneaderSlot
  | rodTree => exact hs.execRodTreeComplete
  | frame => exact hs.execFrameKstep
  | peelStart => exact hs.execPeelOpStart
  | peelElement => exact hs.execPeelElement
  | tbwait => exact hs.execTbwaitAnswer
  | barrier => exact hs.execBarrierRelease
  | wake => exact hs.execIdleWake
  | timeout => exact hs.execIdleTimeout
  | faultPost => exact hs.execFaultRecordPost
  | ring => exact hs.execRingRecordWrite
  | pop => exact hs.execQueuePop
  | grant => exact hs.execLaneGrant
  | preempt => exact hs.execPreemption
  | resume => exact hs.execResume
  | free => exact hs.execHypothesisFree
  | hart => exact hs.hartStep

theorem State.Canonical.beginTurn {s : State} (hs : s.Canonical) : s.beginTurn.Canonical :=
  State.canonical_of hs.core (hs.pkg.ite hs.pkg.quietLanes)

theorem State.Canonical.runTurn {t : Turn} {s : State} (hs : s.Canonical) : ResultCanonical (runTurn t s) := by
  cases t with
  | hart => exact hs.next.ite hs.hartStep
  | other a => exact State.Canonical.next (hs.ite hs.otherAct)
  | error e => exact State.Canonical.next (hs.ite hs.hwError)
  | event i => exact hs.next.ite hs.exec

theorem State.Canonical.step {s : State} (hs : s.Canonical) : ResultCanonical (step s) := by
  unfold Machine.step
  split
  · exact hs.beginTurn.runTurn
  · exact hs.next.ite hs.beginTurn.autoStep

end Sys2Proof.Machine
end

/-! A step keeps the canonical forms (O58). -/

section
namespace Sys2Proof
open Machine Claims

/-- Settles O58: every function of a step keeps the canonical forms, from the sparse maps up to the turn. -/
theorem stepKeepsCanonicalForms : Obligations.StepKeepsCanonicalForms := by
  unfold Obligations.StepKeepsCanonicalForms
  intro s t hs ht
  exact hs.step t ht

end Sys2Proof
end


/-! Loads and the checks of an access (10:R213 to R215, 08:R173, R175): a scalar load of bench, an access that fails a check, and
invalid words of bench; then the statement O13. -/

section
namespace Sys2Proof.Machine
open Claims

/-! ### A scalar load of bench (08:R173, R175). -/

theorem load_of_located {s u : State} {ea : Word} {n : Nat} {t : Target} (hunits : s.memBusy = false)
    (hplace : s.locate ea n .read = .ok t u) (hstores : NoStoreOver u t n) :
    s.load ea n = u.readTarget t ea n u.hart.hyp := by
  rw [State.load, if_neg (by simp [hunits]), hplace, Res.andThen_ok]
  simp only [State.forward_memory u t n u.hart.hyp hstores.1 hstores.2]

theorem load_bench {s : State} {ea : Word} {o n : Nat} (h : BenchAccess s ea o n) (hw : NoWait s (.bench o) n) :
    s.load ea n = s.readTarget (.bench o) ea n s.hart.hyp :=
  load_of_located hw.units (locate_of_benchAccess h .read false) hw.stores

/-- What a scalar read of bench words without poison answers, by ACT, when it meets no single-bit error. -/
theorem readTarget_bench {s : State} {ea : Word} {o n : Nat} {h : BitVec 12} (hact : s.core.invalidWords o n = [] ∨ s.hart.act ≠ 2#2)
    (hpoison : s.core.benchPoisoned o n = false)
    (hsoft : (natRange (o / 8) ((o + n + 7) / 8 - o / 8)).any (natSetHas s.core.softBench) = false) :
    s.readTarget (.bench o) ea n h = .ok (s.core.benchNat o n)
      (if s.hart.act = 1#2 then s.mapHart (·.countInvalid (s.core.invalidWords o n).length) else s) := by
  have hcorrect : (if s.hart.act = 1#2 then s.countInvalid .scalar (s.core.invalidWords o n) else s).correct (.bench o) n =
      if s.hart.act = 1#2 then s.mapHart (·.countInvalid (s.core.invalidWords o n).length) else s := by
    split
    · exact correct_of_sound hsoft
    · exact correct_of_sound hsoft
  simp only [State.readTarget, hpoison, hcorrect, Bool.false_eq_true, if_false]
  rcases hact with hvalid | hact
  · simp only [hvalid]
  · simp only [hact, decide_false]
    split
    · contradiction
    · rfl

theorem Hart.countInvalid_zero (h : Hart) : h.countInvalid 0 = h := by
  unfold Hart.countInvalid
  rw [Nat.add_zero, if_pos h.wcount.isLt, BitVec.add_zero]

/-- A load that meets neither an earlier store, an invalid word nor an error answers the bytes and changes nothing. -/
theorem load_of_benchLoad {s : State} {ea : Word} {o n : Nat} (h : BenchLoad s ea o n) : s.load ea n = .ok (s.core.benchNat o n) s := by
  rw [load_bench h.access h.nowait, readTarget_bench (.inl h.clean.valid) h.clean.poison h.clean.soft, h.clean.valid]
  simp only [List.length_nil, Hart.countInvalid_zero, State.mapHart, ite_self]

theorem gives_of_benchLoad {s : State} {i : Instr} {d : GReg} {ea : Word} {o n : Nat} {ext : Nat → Word} (h : BenchLoad s ea o n)
    (hexec : exec i s = (s.load ea n).finish (fun v s => s.result d (ext v))) : Gives i d (ext (s.core.benchNat o n)) s := by
  rw [load_of_benchLoad h] at hexec
  exact gives_of_result hexec rfl

/-! ### An access that fails a check (10:R213, 16:R308). -/

/-- A load and a store whose address fails a check trap alike. -/
theorem accesses_trap {s : State} {d y a : GReg} {imm : BitVec 16} {c : BitVec 8} {v : Word} {k : Nat} (hunits : s.memBusy = false)
    (hqueue : s.core.storeQ = []) (hc : c ≠ 0x0A#8 ∧ c ≠ 0x0B#8)
    (h : ∀ acc, s.locate (s.g a + imm.signExtend 64) 8 acc = .trap c v k s) :
    Traps (.ldd d a imm) c v s ∧ Traps (.std y a imm) c v s := by
  constructor
  · refine traps_of_trap hc ?_
    change ((s.load (s.g a + imm.signExtend 64) 8).finish _) = _
    rw [State.load, if_neg (by simp [hunits]), h, Res.andThen_trap]
    rfl
  · refine traps_of_trap hc ?_
    change ((s.enqueueStore (s.g a + imm.signExtend 64) 8 (s.g y) none).finish _) = _
    rw [State.enqueueStore, if_neg (by simp [hunits, hqueue]), State.writeChecks, h, Res.andThen_trap, Res.andThen_trap]
    rfl

theorem high_eq_zero_iff (ea : Word) : ea.extractLsb' 48 16 = 0#16 ↔ uv ea < 2 ^ 48 := by
  rw [← BitVec.toNat_inj, BitVec.extractLsb'_toNat, Nat.shiftRight_eq_div_pow]
  have hea := ea.isLt
  simp only [uv, BitVec.toNat_ofNat]
  omega

/-- An aligned address of the window goes to the bench checks. -/
theorem locate_of_window {s : State} {ea : Word} {o n : Nat} (haddr : uv ea = 0xFF00_0000_0000 + o) (ho : o < 2 ^ 32)
    (haligned : uv ea % n = 0) (acc : FaultAccess) : s.locate ea n acc = s.benchCheck ea o n := by
  have hwindow : inBenchWindow ea.toNat = true := by
    simp only [inBenchWindow, Bool.and_eq_true, decide_eq_true_eq]
    simp only [uv] at haddr
    omega
  have hoffset : ea.toNat - 0xFF00_0000_0000 = o := by
    simp only [uv] at haddr
    omega
  rw [State.locate_bench s ea n acc ((high_eq_zero_iff ea).mpr (by omega)) haligned hwindow, hoffset]

/-- Eight aligned bytes lie in one granule. -/
theorem granules_word {o : Nat} (h : o % 8 = 0) : granules o 8 = [o / 4096] := by
  have hone : (o + 8 - 1) / 4096 + 1 - o / 4096 = 1 := by omega
  rw [granules, if_neg (by decide), hone]
  rfl

end Sys2Proof.Machine
end

section
namespace Sys2Proof
open Machine Claims

theorem addressChecksInOrder : AddressChecksInOrder := by
  intro d y a imm s ea hunits hqueue
  refine ⟨fun hhigh => ?_, fun hlow halign => ?_, fun o haddr ho halign hways => ?_, fun o haddr ho halign hways hengine => ?_⟩
  · refine accesses_trap hunits hqueue (k := 1) (by decide) fun acc => State.locate_high s ea 8 acc ?_
    exact fun h => absurd ((high_eq_zero_iff ea).mp h) (by omega)
  · exact accesses_trap hunits hqueue (k := 2) (by decide) fun acc =>
      State.locate_misaligned s ea 8 acc ((high_eq_zero_iff ea).mpr hlow) halign
  · refine accesses_trap hunits hqueue (k := 3) (by decide) fun acc => ?_
    rw [locate_of_window haddr ho halign, State.benchCheck_cases, if_pos hways]
  · refine accesses_trap hunits hqueue (k := 4) (by decide) fun acc => ?_
    rw [locate_of_window haddr ho halign, State.benchCheck_cases, if_neg (by simp [hways]), granules_word (by omega),
      if_pos (by simp [hengine])]

theorem invalidBenchWordsAreChecked : InvalidBenchWordsAreChecked := by
  intro d a imm o s ea haccess hnowait hinvalid hpoison hsoft
  have haligned := benchAccess_aligned haccess
  have hwords : natRange (o / 8) ((o + 8 + 7) / 8 - o / 8) = [o / 8] := by
    have hone : (o + 8 + 7) / 8 - o / 8 = 1 := by omega
    rw [hone]
    rfl
  have hbad : s.core.invalidWords o 8 = [o / 8] := by
    rw [Core.invalidWords, hwords, List.filter_singleton, hinvalid, cond_true]
  have hsound : (natRange (o / 8) ((o + 8 + 7) / 8 - o / 8)).any (natSetHas s.core.softBench) = false := by
    rw [hwords, List.any_cons, List.any_nil, hsoft, Bool.or_self]
  have hexec : exec (.ldd d a imm) s =
      (s.readTarget (.bench o) ea 8 s.hart.hyp).finish (fun v s => s.result d (BitVec.ofNat 64 v)) := by
    rw [← load_bench haccess hnowait]
    rfl
  refine ⟨fun hact => ?_, fun hact hcount => ?_, fun hact => ?_⟩
  · have hea : BitVec.ofNat 64 (0xFF00_0000_0000 + max (o / 8 * 8) o) = ea := by
      have haddr := haccess.address
      rw [show max (o / 8 * 8) o = o by omega, ← haddr, ofNat_uv]
    refine traps_of_trap (by decide) ?_
    rw [hexec, State.readTarget]
    simp only [hbad, hact, decide_true, hea, Res.finish]
  · have hone : s.hart.countInvalid 1 = { s.hart with wcount := s.hart.wcount + 1#32 } := by
      unfold Hart.countInvalid
      rw [if_pos hcount]
    rw [readTarget_bench (.inr (by rw [hact]; decide)) hpoison hsound, hbad, if_pos hact] at hexec
    refine ⟨_, hexec, fun r => ?_, ?_⟩
    · rw [State.g_result]
      rfl
    · rw [State.result_hart]
      change (s.hart.countInvalid 1).wcount = _
      rw [hone]
  · rw [readTarget_bench (.inr (by rw [hact]; decide)) hpoison hsound, if_neg (by rw [hact]; decide)] at hexec
    exact gives_of_result hexec rfl

/-- Settles O13: each check stops the access before the next, and an aligned word of bench is one word to be counted. -/
theorem accessChecks : Obligations.AccessChecks :=
  ⟨addressChecksInOrder, invalidBenchWordsAreChecked⟩

end Sys2Proof
end

/-! Copies of a line in the core (08:R169, 09:R204, R205): a copy put back leaves memory as its owner holds it, and a read of the
core's own copy; then the statement O7. -/

section
namespace Sys2Proof.Machine
open Claims

/-! ### A copy of a line is used (08:R167). -/

theorem find?_upsert {α : Type} {p : α → Bool} {f : α → α} {new x : α} {xs : List α} (hx : xs.find? p = some x) (q : α → Bool)
    (hq : q (f x) = q x) : (upsert p f new xs).find? q = xs.find? q ∨
      (xs.find? q = some x ∧ (upsert p f new xs).find? q = some (f x)) := by
  induction xs with
  | nil => cases hx
  | cons y ys ih =>
    rw [upsert]
    by_cases hp : p y = true
    · rw [List.find?_cons_of_pos hp, Option.some.injEq] at hx
      subst hx
      rw [if_pos hp]
      cases hy : q y with
      | true => exact .inr ⟨List.find?_cons_of_pos hy, List.find?_cons_of_pos (hq.trans hy)⟩
      | false => exact .inl (by rw [List.find?_cons_of_neg (by simp [hq, hy]), List.find?_cons_of_neg (by simp [hy])])
    · rw [List.find?_cons_of_neg hp] at hx
      rw [if_neg hp]
      cases hy : q y with
      | true => exact .inl (by rw [List.find?_cons_of_pos hy, List.find?_cons_of_pos hy])
      | false =>
        rw [List.find?_cons_of_neg (by simp [hy]), List.find?_cons_of_neg (by simp [hy])]
        exact ih hx

theorem Core.findLine_key {c : Core} {line : Nat} {h : BitVec 12} {l : Line} (hl : c.findLine line h = some l) :
    l.line = line ∧ l.hyp = h := by
  simpa using List.find?_some hl

/-- A copy put back as it was, but for its last use, is the owned copy that it was. -/
theorem Core.owned_putLine {c : Core} {line : Nat} {h : BitVec 12} {l : Line} (hl : c.findLine line h = some l) (x : Nat) :
    (c.putLine l).owned x = c.owned x ∨
      (c.owned x = some l ∧ (c.putLine l).owned x = some { l with use := c.useClock + 1 }) := by
  obtain ⟨hline, hhyp⟩ := Core.findLine_key hl
  subst hline hhyp
  exact find?_upsert hl _ rfl

/-- The bytes of memory do not depend on the last use of a copy. -/
theorem peek_putLine {s t : State} {line : Nat} {h : BitVec 12} {l : Line} (hl : s.core.findLine line h = some l)
    (hlines : t.core.lines = (s.core.putLine l).lines) (hmem : t.pkg.mem = s.pkg.mem) (a n : Nat) : t.peek a n = s.peek a n := by
  have howned : t.core.owned (a / 64) = (s.core.putLine l).owned (a / 64) := by rw [Core.owned, hlines]; rfl
  unfold State.peek Pkg.read
  rw [howned, hmem]
  rcases Core.owned_putLine hl (a / 64) with hsame | ⟨hold, hnew⟩
  · rw [hsame]
  · rw [hold, hnew]

/-! ### A read of the core's own copy (09:R204). -/

/-- No version in a way comes before the copy. -/
theorem ownVersion_none {s : State} {line : Nat} {h : BitVec 12}
    (hver : ∀ v ∈ s.pkg.versions, v.line = line → v.id = h → ∀ w, v.place ≠ .way w) : s.ownVersion line h = none := by
  rw [State.ownVersion, Option.filter_eq_none_iff]
  intro v hv
  have hfound := List.find?_some hv
  rw [Bool.and_eq_true, decide_eq_true_eq, decide_eq_true_eq] at hfound
  have hplace := hver v (List.mem_of_find?_eq_some hv) hfound.1 hfound.2
  cases hp : v.place with
  | way w => exact absurd hp (hplace w)
  | _ => simp

/-- The core's copy may be read: it is owned, or its lease covers LTIME (09:R204). -/
def State.Readable (s : State) (l : Line) : Prop := l.st ≠ .v ∨ serLe s.hart.ltime l.rts = true

/-- The state after a read of the core's own copy. -/
def State.afterOwnRead (s : State) (l : Line) (line : Nat) (h : BitVec 12) : State :=
  ((s.mapCore (fun c => c.putLine l)).noteRead l.wts).mapCore (·.touchData line h)

theorem cachedRead_own {s : State} {line : Nat} {h : BitVec 12} {l : Line} (m : BitVec 64) (dpa : Nat) (cnt : Bool)
    (hl : s.core.findLine line h = some l) (hread : s.Readable l)
    (hver : ∀ v ∈ s.pkg.versions, v.line = line → v.id = h → ∀ w, v.place ≠ .way w) :
    s.cachedRead line h m dpa cnt = some ((s.mapCore (fun c => c.putLine l)).noteRead l.wts, l.data, l.poison) := by
  have hok : (l.st != .v || serLe s.hart.ltime l.rts) = true := by
    rwa [Bool.or_eq_true, bne_iff_ne]
  simp only [State.cachedRead, ownVersion_none hver, Option.filter_none, hl, hok, if_true]

theorem readMem_own {s : State} {dpa : Nat} {h : BitVec 12} {l : Line} (n : Nat) (cnt : Bool) (hmaint : s.hart.maint = false)
    (hbias : s.inHostBias dpa = false) (hl : s.core.findLine (dpa / 64) h = some l) (hread : s.Readable l)
    (hver : ∀ v ∈ s.pkg.versions, v.line = dpa / 64 → v.id = h → ∀ w, v.place ≠ .way w) :
    s.readMem dpa n .wb cnt h = some (s.afterOwnRead l (dpa / 64) h,
      { val := lineNat l.data (dpa % 64) n, poison := poisonHit l.poison (dpa % 64) n }) := by
  have hroute : s.route dpa .wb = .cached := by simp [State.route, hmaint, hbias]
  simp only [State.readMem, hroute, if_true, cachedRead_own _ dpa cnt hl hread hver, Option.map_some]
  rfl

theorem Core.touchData_eq (c : Core) (line : Nat) (h : BitVec 12) :
    c.touchData line h = { c with l1d := (c.touchData line h).l1d } := by
  unfold Core.touchData
  split <;> rfl

theorem afterOwnRead_core (s : State) (l : Line) (line : Nat) (h : BitVec 12) : (s.afterOwnRead l line h).core =
    { s.core with
      lines := (s.core.putLine l).lines, useClock := s.core.useClock + 1, l1d := (s.afterOwnRead l line h).core.l1d } :=
  Core.touchData_eq _ line h

theorem afterOwnRead_softLine (s : State) (l : Line) (line : Nat) (h : BitVec 12) :
    (s.afterOwnRead l line h).core.softLine = s.core.softLine := by
  rw [afterOwnRead_core]

theorem afterOwnRead_bytes {s : State} {line : Nat} {h : BitVec 12} {l : Line} (hl : s.core.findLine line h = some l) :
    SameBytes s (s.afterOwnRead l line h) where
  memory a := peek_putLine (t := s.afterOwnRead l line h) hl (by rw [afterOwnRead_core]) rfl a 1
  bench o := by rw [Core.benchNat, afterOwnRead_core]; rfl

theorem poisonHit_zero (o n : Nat) : poisonHit 0#8 o n = false := by
  simp [poisonHit]

/-- A read by the hart of a copy without an error. -/
theorem readTarget_own {s : State} {ea : Word} {dpa n : Nat} {h : BitVec 12} {l : Line} {cnt : Bool} {k : ReadOf}
    (hrace : s.hart.racechk = false) (hmaint : s.hart.maint = false) (hbias : s.inHostBias dpa = false)
    (hl : s.core.findLine (dpa / 64) h = some l) (hread : s.Readable l) (hpoison : l.poison = 0#8)
    (hsoft : natSetHas s.core.softLine (dpa / 8) = false)
    (hver : ∀ v ∈ s.pkg.versions, v.line = dpa / 64 → v.id = h → ∀ w, v.place ≠ .way w) :
    s.readTarget (.mem dpa .wb cnt) ea n h k = .ok (lineNat l.data (dpa % 64) n) (s.afterOwnRead l (dpa / 64) h) := by
  have hrace' : (s.afterOwnRead l (dpa / 64) h).race (.mem dpa .wb cnt) n false h = some (s.afterOwnRead l (dpa / 64) h) :=
    State.race_off _ _ _ _ _ hrace
  have hcorrect : (s.afterOwnRead l (dpa / 64) h).correct (.mem dpa .wb cnt) n = s.afterOwnRead l (dpa / 64) h := by
    rw [State.correct, afterOwnRead_softLine, if_neg (by simp [hsoft])]
  simp only [State.readTarget, State.race_off _ _ _ _ _ hrace, readMem_own n cnt hmaint hbias hl hread hver, hpoison, poisonHit_zero,
    Bool.false_eq_true, reduceCtorEq, if_false, hrace', Option.getD_some, hcorrect]

end Sys2Proof.Machine
end

section
namespace Sys2Proof
open Machine Claims

theorem loadsReadBench : LoadsReadBench := fun _ _ _ _ _ =>
  ⟨fun h => ⟨gives_of_benchLoad (ext := fun v => sext64 v 8) h rfl, gives_of_benchLoad (ext := fun v => BitVec.ofNat 64 v) h rfl⟩,
    fun h => ⟨gives_of_benchLoad (ext := fun v => sext64 v 16) h rfl, gives_of_benchLoad (ext := fun v => BitVec.ofNat 64 v) h rfl⟩,
    fun h => ⟨gives_of_benchLoad (ext := fun v => sext64 v 32) h rfl, gives_of_benchLoad (ext := fun v => BitVec.ofNat 64 v) h rfl⟩,
    fun h => gives_of_benchLoad (ext := fun v => BitVec.ofNat 64 v) h rfl⟩

theorem loadsReadOwnCopies : LoadsReadOwnCopies := by
  intro d a imm s u l dpa cnt ea hunits hplace hstores hrace hmaint hbias hl hread hpoison hsoft hver
  have hload : s.load ea 8 = .ok (lineNat l.data (dpa % 64) 8) (u.afterOwnRead l (dpa / 64) u.hart.hyp) := by
    rw [load_of_located hunits hplace hstores, readTarget_own hrace hmaint hbias hl hread hpoison hsoft hver]
  have hbytes := afterOwnRead_bytes hl
  refine ⟨(u.afterOwnRead l (dpa / 64) u.hart.hyp).result d (BitVec.ofNat 64 (lineNat l.data (dpa % 64) 8)), ?_, ?_, ?_, ?_, ?_, ?_⟩
  · change (s.load ea 8).finish _ = _
    rw [hload]
    rfl
  · exact fun r => State.g_result _ d r _
  · exact ⟨(State.result_retired _ d _).pc, (State.result_retired _ d _).instret⟩
  · rw [State.result_hart]
    rfl
  · rw [State.result_pkg]
    rfl
  · have hsame := (State.result_outside (u.afterOwnRead l (dpa / 64) u.hart.hyp) d
      (BitVec.ofNat 64 (lineNat l.data (dpa % 64) 8))).bytes
    exact ⟨fun x => (hsame.memory x).trans (hbytes.memory x), fun o => (hsame.bench o).trans (hbytes.bench o)⟩

/-- Settles O7: a load of clean bench answers the bytes in the state as it was, and one of the core's own copy changes only the last
use of the copy and what was read last. -/
theorem loads : Obligations.Loads :=
  ⟨loadsReadBench, loadsReadOwnCopies⟩

end Sys2Proof
end

/-! Bytes of bench written (08:R174): what a write leaves in every byte and in the valid bits, and the oldest store performed in
bench (10:R215). -/

section
namespace Sys2Proof.Machine
open Claims

/-! ### Words made valid and zeroed. -/

theorem natSetHas_putAll {m : NatSet} (ws : List Nat) (b : Bool) (hwf : sparseWf false m = true) (w : Nat) :
    natSetHas (ws.foldl (fun m w => natSetPut m w b) m) w = if w ∈ ws then b else natSetHas m w := by
  induction ws generalizing m with
  | nil => simp
  | cons x ws ih =>
    rw [List.foldl_cons, ih (natSetPut_wf m x b hwf), natSetHas_put m x w b hwf]
    by_cases hws : w ∈ ws
    · simp [hws]
    · by_cases hx : w = x
      · simp [hx]
      · simp [hws, hx]

/-- The bytes of words are zero, and every other byte is as before. -/
theorem cellGet_zeroWords {m : List Host.Cell} (ws : List Nat) (hwf : Memory.wf m = true) (x : Nat) :
    cellGet (ws.foldl (fun m w => cellsSet m (w * 8) (List.replicate 8 0)) m) x = if x / 8 ∈ ws then 0 else cellGet m x := by
  induction ws generalizing m with
  | nil => simp
  | cons w ws ih =>
    rw [List.foldl_cons, ih (cellsSet_wf _ _ _ hwf)]
    by_cases hws : x / 8 ∈ ws
    · simp [hws]
    · rw [if_neg hws]
      by_cases hx : x / 8 = w
      · have hin := cellGet_cellsSet_inside m (w * 8) (x - w * 8) (List.replicate 8 0) hwf (by rw [List.length_replicate]; omega)
        rw [show w * 8 + (x - w * 8) = x by omega, List.getElem_replicate] at hin
        rw [hin, if_pos (by simp [hx])]
      · rw [cellGet_cellsSet_outside _ _ _ _ hwf (by rw [List.length_replicate]; omega), if_neg (by simp [hx, hws])]

/-! ### A write of bench (08:R174). -/

/-- A byte of bench is known by the cell that holds it. -/
theorem benchNat_congr {c c' : Core} {x : Nat} (h : cellGet c'.bench x = cellGet c.bench x) : c'.benchNat x 1 = c.benchNat x 1 := by
  simp only [Core.benchNat, cellsNat, cellsGet, h]

theorem benchNat_byte (c : Core) (x : Nat) : c.benchNat x 1 = (cellGet c.bench x).toNat := by
  simp [Core.benchNat, cellsNat, cellsGet, ofBytes]

/-- The words that n bytes at o touch. -/
def wordsOf (o n : Nat) : List Nat := natRange (o / 8) ((o + n + 7) / 8 - o / 8)

theorem mem_wordsOf {o n w : Nat} : w ∈ wordsOf o n ↔ o / 8 ≤ w ∧ w < (o + n + 7) / 8 := by
  rw [wordsOf, mem_natRange]
  omega

theorem benchWrite_plain {c : Core} {o : Nat} {bs : List Byte} (hcap : c.captured = none) (hinj : c.injArm = false) :
    c.benchWrite o bs = { c with
      bench := cellsSet (((wordsOf o bs.length).filter (natSetHas c.benchInvalid)).foldl
        (fun m w => cellsSet m (w * 8) (List.replicate 8 0)) c.bench) o bs
      benchInvalid := (wordsOf o bs.length).foldl (fun m w => natSetPut m w false) c.benchInvalid
      benchPoison := (c.benchWrite o bs).benchPoison
      softBench := (c.benchWrite o bs).softBench } := by
  unfold Core.benchWrite
  simp only [foldl_shadow_of_free hcap]
  rw [injectBench_of_unarmed]
  · rfl
  · exact hinj

/-- What a write of bench leaves: the written bytes, zero beside them in a word that was invalid, every other byte as before; the
words it touches are valid and no other word is changed. -/
structure BenchBytes (c c' : Core) (o : Nat) (bs : List Byte) : Prop where
  written : cellsGet c'.bench o bs.length = bs
  beside : ∀ x, (x < o ∨ o + bs.length ≤ x) → ¬(x / 8 ∈ wordsOf o bs.length ∧ natSetHas c.benchInvalid (x / 8) = true) →
    c'.benchNat x 1 = c.benchNat x 1
  invalid : ∀ w, natSetHas c'.benchInvalid w = if w ∈ wordsOf o bs.length then false else natSetHas c.benchInvalid w

theorem benchWrite_bytes {c : Core} {o : Nat} {bs : List Byte} (hcap : c.captured = none) (hinj : c.injArm = false)
    (hbench : Memory.wf c.bench = true) (hvalid : sparseWf false c.benchInvalid = true) :
    BenchBytes c (c.benchWrite o bs) o bs := by
  have hzero : Memory.wf (((wordsOf o bs.length).filter (natSetHas c.benchInvalid)).foldl
      (fun m w => cellsSet m (w * 8) (List.replicate 8 0)) c.bench) = true :=
    sparseWf_foldl _ _ _ _ (fun _ _ h => cellsSet_wf _ _ _ h) hbench
  rw [benchWrite_plain hcap hinj]
  constructor
  · exact cellsGet_cellsSet _ o bs hzero
  · intro x hx hword
    refine benchNat_congr ?_
    rw [cellGet_cellsSet_outside _ _ _ _ hzero hx, cellGet_zeroWords _ hbench, if_neg (by rwa [List.mem_filter])]
  · exact natSetHas_putAll _ false hvalid

theorem benchStore_plain {s : State} {o : Nat} {bs : List Byte} (hsuper : NoSuperstep s) (hinj : NoInjection s) :
    s.benchStore o bs = s.mapCore (fun c => c.benchWrite o bs) := by
  refine fitShadows_of_none ?_
  rw [State.mapCore_core, benchWrite_plain hsuper.captured hinj]
  exact hsuper.shadows

theorem benchStore_written {s : State} {o n v : Nat} (hsuper : NoSuperstep s) (hinj : NoInjection s) (hwf : BenchWf s) :
    BenchWritten s (s.benchStore o (leBytes n v)) o n v ∧ BesideKept s (s.benchStore o (leBytes n v)) o n := by
  obtain ⟨written, beside, invalid⟩ := benchWrite_bytes (o := o) (bs := leBytes n v) hsuper.captured hinj hwf.1 hwf.2
  rw [leBytes_length] at written beside invalid
  have hlines : (s.core.benchWrite o (leBytes n v)).lines = s.core.lines := by rw [benchWrite_plain hsuper.captured hinj]
  rw [benchStore_plain hsuper hinj]
  refine ⟨⟨?_, fun x hx => ?_, fun a => ?_, ?_⟩, fun x hx hword => ?_⟩
  · rw [Core.benchNat, cellsNat, State.mapCore_core, written, ofBytes_leBytes]
  · refine beside x (by omega) fun hmem => ?_
    have hword := mem_wordsOf.mp hmem.1
    omega
  · unfold State.peek Core.owned
    rw [State.mapCore_core, hlines]
    rfl
  · refine List.filter_eq_nil_iff.mpr fun w hw => ?_
    rw [State.mapCore_core, invalid, if_pos (show w ∈ wordsOf o n from hw)]
    exact Bool.false_ne_true
  · exact beside x hx fun hmem => absurd hmem.2 (by simp [hword])

/-! ### The oldest store (10:R215). -/

/-- The state with this store queue. -/
def State.withQueue (s : State) (rest : List QStore) : State := s.mapCore (fun c => { c with storeQ := rest })

theorem storeDepart_plain {s t : State} {q : QStore} {rest : List QStore} (hqueue : s.core.storeQ = q :: rest)
    (hpending : s.core.storePending = false) (hhyp : q.hyp = 0#12) (hatomic : q.atomic = none)
    (hperform : (s.withQueue rest).perform q.target q.size q.value.toNat 0#12 = some t) : exec .storeDepart s = .next t := by
  have htag : (s.withQueue rest).storeTag 0#12 = some 0#12 := if_pos rfl
  have hdepart : s.departHead = some t := by
    rw [← hperform]
    simp only [State.withQueue] at htag ⊢
    simp only [State.departHead, hqueue, hpending, hhyp, htag, hatomic, Bool.false_eq_true, if_false]
  change execStoreDepart s = _
  simp only [execStoreDepart, hdepart]

end Sys2Proof.Machine
end

/-! The oldest store is performed in bench (10:R215). -/

section
namespace Sys2Proof
open Machine Claims

theorem queuedBenchStoreIsPerformed : QueuedBenchStoreIsPerformed := by
  intro s q rest o n hqueue htarget hsize _ _ _ hhyp hatomic hpending hsuper hwf hinj
  have hsuper' : NoSuperstep (s.withQueue rest) := ⟨hsuper.captured, hsuper.shadows⟩
  have hinj' : NoInjection (s.withQueue rest) := hinj
  have hperform : (s.withQueue rest).perform q.target q.size q.value.toNat 0#12 =
      some ((s.withQueue rest).benchStore o (leBytes n q.value.toNat)) := by
    rw [htarget, hsize]
    rfl
  obtain ⟨hwritten, hbeside⟩ := benchStore_written (o := o) (n := n) (v := q.value.toNat) hsuper' hinj' hwf
  refine ⟨_, storeDepart_plain hqueue hpending hhyp hatomic hperform,
    ⟨hwritten.here, hwritten.elsewhere, hwritten.memory, hwritten.valid⟩, hbeside, ?_⟩
  rw [benchStore_plain hsuper' hinj', State.mapCore_core, benchWrite_plain hsuper'.captured hinj']
  exact ⟨rfl, rfl, rfl⟩

end Sys2Proof
end

/-! Stores to a line that the core owns (08:R169, 10:R215, R216): copies under hypotheses that move or leave change no byte of memory
as its owner holds it, and a store into the owned copy; then the statement O9. -/

section
namespace Sys2Proof.Machine
open Claims

/-! ### Copies that move or leave (17:R324). -/

/-- Only copies of lines may have moved or left, with their locks and what is known of their errors: every owned copy holds the data
it held. -/
structure CopiesMoved (s t : State) : Prop where
  hart : t.hart = s.hart
  core : t.core = { s.core with lines := t.core.lines, softLine := t.core.softLine, l1d := t.core.l1d }
  pkg : t.pkg = { s.pkg with poisonSrc := t.pkg.poisonSrc, versions := t.pkg.versions }
  versions : t.pkg.versions.map (fun v => { v with lock := [] }) = s.pkg.versions.map (fun v => { v with lock := [] })
  owned : ∀ x, (t.core.owned x).map (·.data) = (s.core.owned x).map (·.data)

theorem CopiesMoved.refl (s : State) : CopiesMoved s s := ⟨rfl, rfl, rfl, rfl, fun _ => rfl⟩

theorem CopiesMoved.trans {s t u : State} (h : CopiesMoved s t) (h' : CopiesMoved t u) : CopiesMoved s u where
  hart := h'.hart.trans h.hart
  core := h'.core.trans (by rw [h.core])
  pkg := h'.pkg.trans (by rw [h.pkg])
  versions := h'.versions.trans h.versions
  owned x := (h'.owned x).trans (h.owned x)

theorem CopiesMoved.foldl {α : Type} {f : State → α → State} {xs : List α} (hf : ∀ t, ∀ x ∈ xs, CopiesMoved t (f t x)) (s : State) :
    CopiesMoved s (xs.foldl f s) := by
  induction xs generalizing s with
  | nil => exact .refl s
  | cons x xs ih =>
    exact (hf s x List.mem_cons_self).trans (ih (fun t y hy => hf t y (List.mem_cons_of_mem x hy)) (f s x))

/-- The bytes of memory are those of the owned copies and of the package. -/
theorem peek_of_owned {s t : State} (howned : ∀ x, (t.core.owned x).map (·.data) = (s.core.owned x).map (·.data))
    (hmem : t.pkg.mem = s.pkg.mem) (a n : Nat) : t.peek a n = s.peek a n := by
  have h := howned (a / 64)
  unfold State.peek Pkg.read
  rw [hmem]
  cases hs : s.core.owned (a / 64) <;> cases ht : t.core.owned (a / 64) <;> simp_all

theorem CopiesMoved.peek {s t : State} (h : CopiesMoved s t) (a n : Nat) : t.peek a n = s.peek a n :=
  peek_of_owned h.owned (by rw [h.pkg]) a n

/-- What an owned copy is found by. -/
def isOwned (x : Nat) (l : Line) : Bool := l.line = x && l.hyp = 0#12 && l.st != .v

/-- Copies that no line is owned by may leave. -/
theorem find?_filter_owned {ls : List Line} {q : Line → Bool} (x : Nat) (hq : ∀ l ∈ ls, q l = true → l.hyp ≠ 0#12) :
    (ls.filter (fun l => !q l)).find? (isOwned x) = ls.find? (isOwned x) := by
  rw [List.find?_filter]
  refine List.find?_congr fun l hl => ?_
  cases hql : q l with
  | false => simp
  | true => simp [isOwned, hq l hl hql]

/-- A change of the copies that keeps the line, the hypothesis, the state and the data of each. -/
theorem find?_map_owned (ls : List Line) {f : Line → Line} (x : Nat) (hf : ∀ l, isOwned x (f l) = isOwned x l)
    (hdata : ∀ l, (f l).data = l.data) :
    ((ls.map f).find? (isOwned x)).map (·.data) = (ls.find? (isOwned x)).map (·.data) := by
  have hsame : isOwned x ∘ f = isOwned x := funext hf
  rw [List.find?_map, hsame, Option.map_map]
  exact congrArg (Option.map · _) (funext hdata)

theorem dropLines_moved {s : State} {q : Line → Bool} (hq : ∀ l, q l = true → l.hyp ≠ 0#12) : CopiesMoved s (s.dropLines q) := by
  have hcore : CopiesMoved s (s.mapCore (·.dropLines q)) :=
    ⟨rfl, rfl, rfl, rfl, fun x => congrArg _ (find?_filter_owned x fun l _ hl => hq l hl)⟩
  exact hcore.trans (.foldl (f := State.forgetSource) (fun _ _ _ => ⟨rfl, rfl, rfl, rfl, fun _ => rfl⟩) _)

theorem moveCopy_moved {s : State} {l : Line} (t : BitVec 12) (hl : l.hyp ≠ 0#12) : CopiesMoved s (s.moveCopy l t) := by
  have hdrop : CopiesMoved s (s.dropLines fun x => x.line = l.line && x.hyp = l.hyp) :=
    dropLines_moved fun x hx => by
      rw [Bool.and_eq_true, decide_eq_true_eq, decide_eq_true_eq] at hx
      rwa [hx.2]
  unfold State.moveCopy
  dsimp only
  split
  · refine ⟨rfl, rfl, rfl, rfl, fun x => find?_map_owned _ x (fun y => ?_) fun y => ?_⟩ <;> split <;> rfl
  · split
    · refine hdrop.trans ⟨rfl, rfl, rfl, ?_, fun _ => rfl⟩
      rw [State.mapPkg_pkg, List.map_map]
      refine List.map_congr_left fun v _ => ?_
      rw [Function.comp_apply]
      split <;> rfl
    · split
      · refine hdrop.trans ⟨rfl, rfl, rfl, rfl, fun x => find?_map_owned _ x (fun y => ?_) fun y => ?_⟩ <;> split <;> rfl
      · refine hdrop.trans ⟨rfl, rfl, rfl, rfl, fun x => congrArg _ ?_⟩
        rw [State.mapCore_core, Core.owned, List.find?_append, List.find?_singleton]
        simp [Core.owned]

/-- Copies under hypotheses that are read anew leave memory as its owner holds it. -/
theorem refreshCopies_moved {s : State} {q : Line → Bool} (hq : ∀ l, q l = true → l.hyp ≠ 0#12) :
    CopiesMoved s (s.refreshCopies q) := by
  refine (dropLines_moved fun l hl => hq l ?_).trans (CopiesMoved.foldl (fun t l hl => moveCopy_moved _ (hq l ?_)) _)
  · exact (Bool.and_eq_true _ _ ▸ hl).1
  · exact (Bool.and_eq_true _ _ ▸ (List.mem_filter.mp hl).2).1

theorem dropTagged_moved (s : State) (line : Nat) : CopiesMoved s (s.dropTagged line) :=
  refreshCopies_moved fun _ hl => bne_iff_ne.mp (Bool.and_eq_true _ _ ▸ hl).2

/-! ### Bytes of a line (08:R167). -/

theorem testBit_lineNat (d : BitVec 512) (o n i : Nat) :
    (lineNat d o n).testBit i = (decide (i < 8 * n) && d.getLsbD (8 * o + i)) := by
  rw [lineNat, Nat.testBit_mod_two_pow, Nat.testBit_div_two_pow, BitVec.testBit_toNat, Nat.add_comm]

theorem getLsbD_lineSet (d : BitVec 512) {o n : Nat} (v : Nat) {i : Nat} (hi : i < 512) : (lineSet d o n v).getLsbD i =
    if 8 * o ≤ i ∧ i < 8 * o + 8 * n then v.testBit (i - 8 * o) else d.getLsbD i := by
  have hmask : ((2 ^ (8 * n) - 1) * 2 ^ (8 * o)).testBit i = decide (8 * o ≤ i ∧ i < 8 * o + 8 * n) := by
    rw [Nat.testBit_mul_two_pow, Nat.testBit_two_pow_sub_one, Bool.decide_and]
    by_cases h : 8 * o ≤ i
    · simp only [h, decide_true, Bool.true_and]
      exact decide_eq_decide.mpr (by omega)
    · simp [h]
  have hval : (v % 2 ^ (8 * n) * 2 ^ (8 * o)).testBit i =
      (decide (8 * o ≤ i ∧ i < 8 * o + 8 * n) && v.testBit (i - 8 * o)) := by
    rw [Nat.testBit_mul_two_pow, Nat.testBit_mod_two_pow, Bool.decide_and]
    by_cases h : 8 * o ≤ i
    · simp only [h, decide_true, Bool.true_and]
      exact congrArg (· && _) (decide_eq_decide.mpr (by omega))
    · simp [h]
  simp only [lineSet, BitVec.getLsbD_or, BitVec.getLsbD_and, BitVec.getLsbD_not, BitVec.getLsbD_ofNat, hi, hmask, hval, decide_true,
    Bool.true_and]
  split
  next h => rw [decide_eq_true h, Bool.not_true, Bool.and_false, Bool.true_and, Bool.false_or]
  next h => rw [decide_eq_false h, Bool.not_false, Bool.and_true, Bool.false_and, Bool.or_false]

/-- The bytes stored in a line read back. -/
theorem lineNat_lineSet_self (d : BitVec 512) {o n : Nat} (v : Nat) (hfit : o + n ≤ 64) :
    lineNat (lineSet d o n v) o n = v % 2 ^ (8 * n) := by
  refine Nat.eq_of_testBit_eq fun i => ?_
  rw [testBit_lineNat, Nat.testBit_mod_two_pow]
  by_cases hi : i < 8 * n
  · rw [getLsbD_lineSet d v (by omega), if_pos (by omega), Nat.add_sub_cancel_left]
  · simp [hi]

/-- Bytes beside the stored ones are as before. -/
theorem lineNat_lineSet_apart (d : BitVec 512) {o n : Nat} (v : Nat) {x k : Nat} (hfit : x + k ≤ 64) (h : x + k ≤ o ∨ o + n ≤ x) :
    lineNat (lineSet d o n v) x k = lineNat d x k := by
  refine Nat.eq_of_testBit_eq fun i => ?_
  rw [testBit_lineNat, testBit_lineNat]
  by_cases hi : i < 8 * k
  · rw [getLsbD_lineSet d v (by omega), if_neg (by omega)]
  · simp [hi]

/-! ### A store into the owned copy (08:R169, 10:R215). -/

theorem find?_upsert_of_matches {α : Type} {p q : α → Bool} {new : α} {xs : List α} (hq : ∀ y, q y = true → p y = true)
    (hnew : q new = true) : (upsert p (fun _ => new) new xs).find? q = some new := by
  induction xs with
  | nil => exact List.find?_cons_of_pos hnew
  | cons y ys ih =>
    rw [upsert]
    by_cases hp : p y = true
    · rw [if_pos hp, List.find?_cons_of_pos hnew]
    · rw [if_neg hp, List.find?_cons_of_neg fun hy => hp (hq y hy), ih]

theorem find?_upsert_of_apart {α : Type} {p q : α → Bool} {new : α} {xs : List α} (hq : ∀ y, p y = true → q y = false)
    (hnew : q new = false) : (upsert p (fun _ => new) new xs).find? q = xs.find? q := by
  induction xs with
  | nil => exact List.find?_cons_of_neg (by simp [hnew])
  | cons y ys ih =>
    rw [upsert]
    by_cases hp : p y = true
    · rw [if_pos hp, List.find?_cons_of_neg (by simp [hnew]), List.find?_cons_of_neg (by simp [hq y hp])]
    · rw [if_neg hp, List.find?_cons, List.find?_cons, ih]

/-- A committed copy put in place is the owned copy of its line, and that of no other. -/
theorem owned_putLine {c : Core} {l : Line} (hhyp : l.hyp = 0#12) (hst : l.st ≠ .v) (x : Nat) :
    (c.putLine l).owned x = if x = l.line then some { l with use := c.useClock + 1 } else c.owned x := by
  split
  next h =>
    subst h
    refine find?_upsert_of_matches (fun y hy => ?_) (by simp [hhyp, hst])
    rw [Bool.and_eq_true, Bool.and_eq_true, decide_eq_true_eq, decide_eq_true_eq] at hy
    simp [hy.1.1, hy.1.2, hhyp]
  next h =>
    refine find?_upsert_of_apart (fun y hy => ?_) (by simp [Ne.symm h])
    rw [Bool.and_eq_true, decide_eq_true_eq] at hy
    simp [hy.1, Ne.symm h]

/-- The copy with n bytes at offset o stored. -/
def Line.store (l : Line) (o n v : Nat) : Line :=
  { l with st := .d, data := lineSet l.data o n v, poison := poisonAfter l.poison o n }

theorem freshWord_moved (s : State) (line o n : Nat) : CopiesMoved s (s.freshWord line o n) := by
  unfold State.freshWord
  split
  · exact ⟨rfl, rfl, rfl, rfl, fun _ => rfl⟩
  · exact .refl s

/-- What a store into the owned copy leaves. -/
structure StoredOwned (line o n v : Nat) (s t : State) : Prop where
  hart : t.hart = s.hart
  core : t.core = { s.core with
    lines := t.core.lines, useClock := s.core.useClock + 1, softLine := t.core.softLine, l1d := t.core.l1d }
  pkg : t.pkg = { s.pkg with poisonSrc := t.pkg.poisonSrc, versions := t.pkg.versions }
  versions : t.pkg.versions.map (fun v => { v with lock := [] }) = s.pkg.versions.map (fun v => { v with lock := [] })
  owned : ∀ x, (t.core.owned x).map (·.data) =
    (s.core.owned x).map (fun l => if x = line then lineSet l.data o n v else l.data)

theorem ownedWrite_owned {s : State} {line : Nat} {l : Line} (o n v dpa : Nat) (cnt : Bool) (hl : s.core.owned line = some l)
    (hinj : NoInjection s) : ∃ t, s.ownedWrite line o n v dpa cnt = some t ∧ StoredOwned line o n v s t := by
  have hkey : isOwned line l = true := List.find?_some hl
  simp only [isOwned, Bool.and_eq_true, decide_eq_true_eq] at hkey
  obtain ⟨⟨hline, hhyp⟩, -⟩ := hkey
  have hput : ∀ x, (s.core.putLine (l.store o n v)).owned x =
      if x = line then some { l.store o n v with use := s.core.useClock + 1 } else s.core.owned x := by
    intro x
    rw [owned_putLine (by exact hhyp) (by simp [Line.store]) x, ← hline]
    rfl
  have hmoved : CopiesMoved (s.mapCore fun c => c.putLine (l.store o n v))
      (((s.mapCore fun c => c.putLine (l.store o n v)).freshWord line o n).dropTagged line) :=
    (freshWord_moved _ line o n).trans (dropTagged_moved _ line)
  generalize htrans : ((s.mapCore fun c => c.putLine (l.store o n v)).freshWord line o n).dropTagged line = t at hmoved
  have harm : t.core.injArm = false := by rw [hmoved.core]; exact hinj
  refine ⟨t, ?_, hmoved.hart, hmoved.core, hmoved.pkg, hmoved.versions, fun x => ?_⟩
  · simp only [State.ownedWrite, hl]
    refine congrArg some ?_
    change (((s.mapCore fun c => c.putLine (l.store o n v)).freshWord line o n).dropTagged line).injectLine line o 0#12 = t
    rw [htrans]
    simp only [State.injectLine, harm, Bool.false_and, Bool.false_eq_true, if_false]
  · rw [hmoved.owned, State.mapCore_core, hput]
    by_cases hx : x = line
    · rw [if_pos hx, hx, hl]
      simp [Line.store]
    · simp [hx]

/-- Memory, as its owner holds it, after a store into the owned copy: the new bytes, and every other byte as before. -/
theorem StoredOwned.bytes {s t : State} {dpa n v : Nat} {l : Line} (h : StoredOwned (dpa / 64) (dpa % 64) n v s t)
    (hl : s.core.owned (dpa / 64) = some l) (hfit : dpa % 64 + n ≤ 64) :
    t.peek dpa n = v % 2 ^ (8 * n) ∧ ∀ a, (a < dpa ∨ dpa + n ≤ a) → t.peek a 1 = s.peek a 1 := by
  have hread (x k : Nat) : t.pkg.read x k = s.pkg.read x k := by rw [h.pkg]; rfl
  have howned := h.owned
  constructor
  · have hx := howned (dpa / 64)
    rw [hl, Option.map_some, if_pos rfl, Option.map_eq_some_iff] at hx
    obtain ⟨l', hl', hdata⟩ := hx
    simp only [State.peek, hl', hdata, lineNat_lineSet_self _ v hfit]
  · intro a ha
    have hx := howned (a / 64)
    unfold State.peek
    rw [hread]
    cases hs : s.core.owned (a / 64) with
    | none =>
      rw [hs, Option.map_none, Option.map_eq_none_iff] at hx
      rw [hx]
    | some y =>
      rw [hs, Option.map_some, Option.map_eq_some_iff] at hx
      obtain ⟨l', hl', hdata⟩ := hx
      simp only [hl', hdata]
      split
      · exact lineNat_lineSet_apart _ v (by omega) (by omega)
      · rfl

/-! ### The old words of the instruction fetch (02:R33). -/

theorem Hart.keepOld_eq (t : Hart) (w : Nat) (h : BitVec 12) (olds : List IWord) (v : IWord) :
    t.keepOld w h olds v = { t with stale := (t.keepOld w h olds v).stale } := rfl

theorem noteStale_hart (s : State) (dpa n : Nat) :
    (s.noteStale dpa n).hart = { s.hart with stale := (s.noteStale dpa n).hart.stale } := by
  have hinner (t : Hart) (ws : List Nat) (h : BitVec 12) :
      { ws.foldl (fun t w => t.keepOld w h (s.oldWords w h) (s.codeWord (w * 4) h)) t with stale := [] } = { t with stale := [] } := by
    induction ws generalizing t with
    | nil => rfl
    | cons w ws ih => rw [List.foldl_cons, ih]; rfl
  have houter (t : Hart) (hs : List (BitVec 12)) (ws : List Nat) :
      { hs.foldl (fun t h => ws.foldl (fun t w => t.keepOld w h (s.oldWords w h) (s.codeWord (w * 4) h)) t) t with stale := [] } =
        { t with stale := [] } := by
    induction hs generalizing t with
    | nil => rfl
    | cons h hs ih => rw [List.foldl_cons, ih, hinner]
  exact congrArg (fun t : Hart => { t with stale := (s.noteStale dpa n).hart.stale }) (houter s.hart s.views _)

/-- A store of the hart to WB-device memory that the core owns, with the old words kept for the fetch. -/
theorem perform_owned {s : State} {dpa : Nat} {cnt : Bool} {l : Line} (n v : Nat) (hmaint : s.hart.maint = false)
    (hbias : s.inHostBias dpa = false) (hl : s.core.owned (dpa / 64) = some l) (hinj : NoInjection s) :
    ∃ t, s.perform (.mem dpa .wb cnt) n v 0#12 = some t ∧ StoredOwned (dpa / 64) (dpa % 64) n v (s.noteStale dpa n) t := by
  have hroute : (s.noteStale dpa n).route dpa .wb = .cached := by
    have hmaint' : (s.noteStale dpa n).hart.maint = false := by rw [noteStale_hart]; exact hmaint
    have hbias' : (s.noteStale dpa n).inHostBias dpa = false := hbias
    simp [State.route, hmaint', hbias']
  obtain ⟨t, ht, hstored⟩ := ownedWrite_owned (s := s.noteStale dpa n) (dpa % 64) n v dpa cnt hl hinj
  refine ⟨t, ?_, hstored⟩
  simp only [State.perform, State.writeMem, hroute, ht, reduceCtorEq, if_false, bne_self_eq_false, Bool.false_and, Bool.false_eq_true]

end Sys2Proof.Machine
end

/-! The oldest store is performed in the owned line; then the statement O9. -/

section
namespace Sys2Proof
open Machine Claims

theorem queuedStoreEntersOwnedLine : QueuedStoreEntersOwnedLine := by
  intro s q rest dpa n l hqueue htarget hsize hn haligned hhyp hatomic hmaint hbias hl hpending hinj
  obtain ⟨t, hperform, hstored⟩ := perform_owned (s := s.withQueue rest) (cnt := false) n q.value.toNat hmaint hbias hl hinj
  have hfit : dpa % 64 + n ≤ 64 := by rcases hn with rfl | rfl | rfl | rfl <;> omega
  obtain ⟨hhere, hothers⟩ := hstored.bytes hl hfit
  refine ⟨t, storeDepart_plain hqueue hpending hhyp hatomic (by rw [htarget, hsize]; exact hperform), ?_, hhere, hothers, fun o => ?_,
    fun r => ?_, hstored.pkg, hstored.versions⟩
  · rw [hstored.core]
    rfl
  · rw [hstored.core]
    rfl
  · refine State.g_congr s t ?_ r
    rw [hstored.hart, noteStale_hart]
    rfl

/-- Settles O9: a bench write is bounded by its words, and a store into the owned copy changes the data of that copy alone. -/
theorem queuedStoresArePerformed : Obligations.QueuedStoresArePerformed :=
  ⟨queuedBenchStoreIsPerformed, queuedStoreEntersOwnedLine⟩

end Sys2Proof
end

/-! A range of bench cleared (08:R186): its bytes and valid bits; then the statement O38. -/

section
namespace Sys2Proof.Machine
open Claims

/-! ### Entries dropped (log 84). -/

theorem sparseGet_drop {α : Type} [DecidableEq α] {d : α} {m : Sparse α} (q : Nat → Bool) (hwf : sparseWf d m = true) (k : Nat) :
    sparseGet d (sparseDrop q m) k = if q k = true then d else sparseGet d m k := by
  unfold sparseWf at hwf
  generalize 0 = a at hwf
  induction m generalizing a with
  | nil => simp [sparseDrop, sparseGet]
  | cons e m ih =>
    simp only [sparseWfFrom, Bool.and_eq_true, decide_eq_true_eq] at hwf
    have hrest := ih (e.1 + 1) hwf.2
    have hbelow : k < e.1 + 1 → sparseGet d m k = d := sparseGet_below d m hwf.2
    simp only [sparseDrop, List.filter_cons] at hrest ⊢
    cases hq : q e.1 <;> simp only [Bool.not_true, Bool.not_false, if_true, if_false, Bool.false_eq_true, sparseGet, hrest]
    · rcases Nat.lt_trichotomy e.1 k with h | h | h
      · simp [h]
      · simp [← h, hq]
      · simp [Nat.lt_asymm h, Nat.ne_of_gt h]
    · rcases Nat.lt_trichotomy e.1 k with h | h | h
      · simp [h]
      · simp [← h, hq]
      · simp [Nat.lt_asymm h, Nat.ne_of_gt h, hbelow (by omega)]

/-! ### A range of bench (08:R186). -/

theorem injectBench_bench (c : Core) (w : Nat) : (c.injectBench w).bench = c.bench := by
  unfold Core.injectBench
  repeat' split
  all_goals rfl

theorem injectBench_invalid (c : Core) (w : Nat) : (c.injectBench w).benchInvalid = c.benchInvalid := by
  unfold Core.injectBench
  repeat' split
  all_goals rfl

theorem injectBench_shadows (c : Core) (w : Nat) : (c.injectBench w).shadows = c.shadows := by
  unfold Core.injectBench
  repeat' split
  all_goals rfl

/-- What clearing the range of n bytes at o leaves. -/
structure BenchCleared (c c' : Core) (o n : Nat) : Prop where
  shadows : c'.shadows = c.shadows
  byte : ∀ x, c'.benchNat x 1 = if o ≤ x ∧ x < o + n then 0 else c.benchNat x 1
  invalid : ∀ w, natSetHas c'.benchInvalid w = if w ∈ natRange (o / 8) (n / 8) then true else natSetHas c.benchInvalid w

theorem clearBench_cleared {c : Core} (o n : Nat) (hcap : c.captured = none) (hbench : sparseWf (0 : Byte) c.bench = true)
    (hvalid : sparseWf false c.benchInvalid = true) : BenchCleared c (c.clearBench o n) o n := by
  unfold Core.clearBench
  simp only [foldl_shadow_of_free hcap]
  constructor
  · rw [injectBench_shadows]
  · intro x
    rw [benchNat_byte, benchNat_byte, injectBench_bench, cellGet, sparseGet_drop _ hbench]
    simp only [Bool.and_eq_true, decide_eq_true_eq]
    split <;> rfl
  · intro w
    rw [injectBench_invalid]
    exact natSetHas_putAll _ true hvalid w

theorem inBench_iff (s : State) (va : Word) {n : Nat} (hn : n ≠ 0) : s.inBench va n = true ↔
    (0xFF00_0000_0000 ≤ uv va ∧ uv va < 0xFF01_0000_0000) ∧ s.core.benchIn s.hart.ctxid (uv va - 0xFF00_0000_0000) n = true := by
  simp only [State.inBench, inBenchWindow, benchOff, benchBase, uv, Bool.and_eq_true, decide_eq_true_eq, decide_eq_false hn,
    Bool.false_or]

end Sys2Proof.Machine
end

section
namespace Sys2Proof
open Machine Claims

/-- Settles O38: the checks come one after the other, and the cleared range is a drop of its bytes and a mark on its words. -/
theorem benchRangesAreCleared : Obligations.BenchRangesAreCleared := by
  unfold Obligations.BenchRangesAreCleared
  intro a b s va n o window i
  have hexec : exec i s =
      if (uv va % 8 != 0) = true then .next (s.trap 0x02#8 va)
      else if (n % 8 != 0) = true then .next (s.trap 0x02#8 (s.g b))
      else if n = 0 then .next s.retire
      else if (!s.inBench va n) = true then .next (s.trap 0x03#8 va)
      else if (granules o n).any s.core.engineOwned = true then .next (s.trap 0x09#8 va)
      else match s.writeCheck (.bench o) n false s.hart.hyp with
        | some (c, _) => .next (s.trap c va)
        | none => if (!s.quiet) = true then s.waitHere else .next (s.mapCore (fun c => c.clearBench o n)).fitShadows.retire := rfl
  refine ⟨fun hva => ?_, fun hva hn => ?_, fun hva hn => ?_, fun hva hn hpos => ⟨fun hout => ?_, fun hin hways hengine => ?_,
    fun hin hways hengine hhyp hsnap => ?_, fun hin hways hengine hhyp hsuper hquiet hwf => ?_⟩⟩
  · refine traps_of_trap (by decide) ?_
    rw [hexec, if_pos (bne_iff_ne.mpr hva)]
  · refine traps_of_trap (by decide) ?_
    rw [hexec, if_neg (by simpa using hva), if_pos (bne_iff_ne.mpr hn)]
  · refine ⟨s.retire, ?_, fun _ => rfl, ⟨rfl, rfl⟩, rfl, outsideSame_of_eq rfl rfl⟩
    have hmult : n % 8 = 0 := by omega
    rw [hexec, if_neg (by simpa using hva), if_neg (by simpa using hmult), if_pos hn]
  all_goals
    rw [if_neg (by simpa using hva), if_neg (by simpa using hn), if_neg hpos] at hexec
  · refine traps_of_trap (by decide) ?_
    have hcheck : s.inBench va n = false := Bool.eq_false_iff.mpr fun h => hout ((inBench_iff s va hpos).mp h)
    rw [hexec, hcheck]
    rfl
  all_goals
    have hcheck : s.inBench va n = true := (inBench_iff s va hpos).mpr ⟨hin, hways⟩
    rw [hcheck, hengine] at hexec
  · exact traps_of_trap (by decide) hexec
  · refine traps_of_trap (by decide) ?_
    have hwrite : s.writeCheck (.bench o) n false s.hart.hyp = some (0x07#8, 6) := by
      simp [State.writeCheck, hhyp, State.explicitHyp, hsnap]
    rw [hexec, hwrite]
    rfl
  · obtain ⟨shadows, byte, invalid⟩ := clearBench_cleared o n hsuper.captured hwf.1 hwf.2
    have hfit : (s.mapCore fun c => c.clearBench o n).fitShadows = s.mapCore fun c => c.clearBench o n :=
      fitShadows_of_none (shadows.trans hsuper.shadows)
    refine ⟨(s.mapCore fun c => c.clearBench o n).retire, ?_, fun _ => rfl, ⟨rfl, rfl⟩, rfl, rfl, fun x hlo hhi => ?_, fun x hx => ?_⟩
    · have hquiet' : s.quiet = true := hquiet
      rw [hexec, hhyp, State.writeCheck_root, hquiet', hfit]
      rfl
    all_goals rw [State.retire_core, State.mapCore_core]
    · refine ⟨by rw [byte, if_pos ⟨hlo, hhi⟩], ?_⟩
      rw [invalid, if_pos (mem_natRange.mpr (by omega))]
    · refine ⟨by rw [byte, if_neg (by omega)], ?_⟩
      rw [invalid, if_neg fun h => ?_]
      have hword := mem_natRange.mp h
      omega

end Sys2Proof
end

/-! Homes and their times (09:R203, R206): what a home reads after it was set, what a broadcast and an assigned time leave, and a line
that is written back (08:R169). -/

section
namespace Sys2Proof.Machine
open Claims

/-! ### The record of a home (09:R399). -/

/-- An entry that is not the default is found again, whatever the form of the list. -/
theorem sparseGet_set_present {α : Type} [DecidableEq α] {d v : α} (m : Sparse α) (k j : Nat) (hv : v ≠ d) :
    sparseGet d (sparseSet d m k v) j = if j = k then v else sparseGet d m j := by
  induction m with
  | nil =>
    rw [sparseSet, if_neg hv]
    rcases Nat.lt_trichotomy k j with h | h | h
    · simp [sparseGet, h, Nat.ne_of_gt h]
    · simp [sparseGet, h]
    · simp [sparseGet, Nat.lt_asymm h, Nat.ne_of_gt h, Nat.ne_of_lt h]
  | cons e m ih =>
    rw [sparseSet]
    split
    next hlt =>
      simp only [sparseGet, ih]
      by_cases hj : j = k
      · simp [hj, hlt]
      · simp [hj]
    next hge =>
      split
      next heq =>
        subst heq
        simp only [sparseGet]
        by_cases hj : j = e.1
        · simp [hj]
        · simp [hj, Ne.symm hj]
      next hne =>
        simp only [sparseGet]
        rcases Nat.lt_trichotomy k j with h | h | h
        · simp [h, Nat.ne_of_gt h]
        · simp [h]
        · simp [Nat.lt_asymm h, Nat.ne_of_gt h, Nat.ne_of_lt h, show ¬e.1 < j by omega, show ¬e.1 = j by omega]

theorem home_setHome (p : Pkg) (line : Nat) (h : HomeLine) (x : Nat) :
    (p.setHome line h).home x = if x = line then h else p.home x := by
  unfold Pkg.home Pkg.setHome
  rw [sparseGet_set_present _ _ _ (Option.some_ne_none h)]
  split <;> rfl

/-! ### What the traffic of lines leaves alone. -/

/-- Of a core, only its copies of lines, what is known of their errors, and the mesh on the way to their homes may differ. -/
def OnlyCopies (c d : Core) : Prop :=
  d = { c with
    lines := d.lines, useClock := d.useClock, softLine := d.softLine, l1d := d.l1d, ce := d.ce, cecnt := d.cecnt
    meshFault := d.meshFault, injArm := d.injArm }

theorem OnlyCopies.refl (c : Core) : OnlyCopies c c := rfl

theorem OnlyCopies.trans {c d e : Core} (h : OnlyCopies c d) (h' : OnlyCopies d e) : OnlyCopies c e := by
  unfold OnlyCopies at h h' ⊢
  rw [h', h]

/-- Of a hart, only LTIME and the largest wts returned may differ. -/
def OnlyTimes (h k : Hart) : Prop := k = { h with ltime := k.ltime, maxRead := k.maxRead }

theorem OnlyTimes.refl (h : Hart) : OnlyTimes h h := rfl

theorem OnlyTimes.trans {h k m : Hart} (hk : OnlyTimes h k) (hm : OnlyTimes k m) : OnlyTimes h m := by
  unfold OnlyTimes at hk hm ⊢
  rw [hm, hk]

/-- Lines have moved between the core and their homes and times have risen; memory and versions are as before. -/
structure LinesMoved (s t : State) : Prop where
  hart : OnlyTimes s.hart t.hart
  core : OnlyCopies s.core t.core
  mem : t.pkg.mem = s.pkg.mem
  versions : t.pkg.versions = s.pkg.versions

theorem LinesMoved.refl (s : State) : LinesMoved s s := ⟨.refl _, .refl _, rfl, rfl⟩

theorem LinesMoved.trans {s t u : State} (h : LinesMoved s t) (h' : LinesMoved t u) : LinesMoved s u :=
  ⟨h.hart.trans h'.hart, h.core.trans h'.core, h'.mem.trans h.mem, h'.versions.trans h.versions⟩

theorem LinesMoved.foldl {α : Type} {f : State → α → State} (hf : ∀ t x, LinesMoved t (f t x)) (xs : List α) (s : State) :
    LinesMoved s (xs.foldl f s) := by
  induction xs generalizing s with
  | nil => exact .refl s
  | cons x xs ih => exact (hf s x).trans (ih (f s x))

theorem dropLines_linesMoved (s : State) (q : Line → Bool) : LinesMoved s (s.dropLines q) :=
  LinesMoved.trans (t := s.mapCore (·.dropLines q)) ⟨rfl, rfl, rfl, rfl⟩
    (.foldl (f := State.forgetSource) (fun _ _ => ⟨rfl, rfl, rfl, rfl⟩) _ _)

theorem broadcast_linesMoved (s : State) : LinesMoved s s.broadcast :=
  (dropLines_linesMoved s _).trans ⟨rfl, rfl, rfl, rfl⟩

theorem assign_linesMoved (s : State) (w : BitVec 16) : LinesMoved s (s.assign w) := by
  have hmax : LinesMoved s (s.mapPkg fun p => { p with maxWts := serMax p.maxWts w }) := ⟨rfl, rfl, rfl, rfl⟩
  unfold State.assign
  dsimp only
  split
  · exact hmax.trans (broadcast_linesMoved _)
  · exact hmax

theorem correctLine_linesMoved (s : State) (line : Nat) : LinesMoved s (s.correctLine line) :=
  .foldl (f := fun s (e : Nat × Bool) => (s.mapCore (fun c => { c with softLine := natSetPut c.softLine e.1 false })).recordCe)
    (fun _ _ => ⟨rfl, rfl, rfl, rfl⟩) _ _

theorem throughMesh_linesMoved (s : State) (line : Nat) (q : BitVec 8) : LinesMoved s (s.throughMesh line q).1 := by
  unfold State.throughMesh
  split
  · exact ⟨rfl, rfl, rfl, rfl⟩
  · exact .refl s

/-- The state and the poison of a dirty line as it has crossed the mesh (21:R357). -/
def State.sendLine (s : State) (l : Line) : State × BitVec 8 := (s.correctLine l.line).throughMesh l.line l.poison

theorem sendLine_linesMoved (s : State) (l : Line) : LinesMoved s (s.sendLine l).1 :=
  (correctLine_linesMoved s l.line).trans (throughMesh_linesMoved _ _ _)

theorem sendLine_hart (s : State) (l : Line) : (s.sendLine l).1.hart = s.hart := by
  have hcorrect : (s.correctLine l.line).hart = s.hart :=
    foldl_keeps State.hart
      (fun s (e : Nat × Bool) => (s.mapCore (fun c => { c with softLine := natSetPut c.softLine e.1 false })).recordCe)
      (fun _ _ => rfl) _ _
  unfold State.sendLine State.throughMesh
  split <;> exact hcorrect

theorem sendLine_lines (s : State) (l : Line) : (s.sendLine l).1.core.lines = s.core.lines := by
  have hcorrect : (s.correctLine l.line).core.lines = s.core.lines :=
    foldl_keeps (fun s : State => s.core.lines)
      (fun s (e : Nat × Bool) => (s.mapCore (fun c => { c with softLine := natSetPut c.softLine e.1 false })).recordCe)
      (fun _ _ => rfl) _ _
  unfold State.sendLine State.throughMesh
  split <;> exact hcorrect

theorem sendLine_pkg (s : State) (l : Line) :
    (s.sendLine l).1.pkg = { s.pkg with poisonSrc := (s.sendLine l).1.pkg.poisonSrc } := by
  unfold State.sendLine State.throughMesh
  split
  all_goals
    dsimp only
    rw [State.correctLine_pkg]

/-! ### A broadcast and an assigned time (09:R206). -/

theorem Line.lift_key (l : Line) (p low : BitVec 16) :
    (l.lift p low).line = l.line ∧ (l.lift p low).hyp = l.hyp ∧ (l.lift p low).st = l.st ∧ (l.lift p low).data = l.data := by
  unfold Line.lift
  repeat' split
  all_goals exact ⟨rfl, rfl, rfl, rfl⟩

theorem assign_near {s : State} {w : BitVec 16} (h : Near s w) :
    s.assign w = s.mapPkg (fun p => { p with maxWts := serMax p.maxWts w }) := by
  have hnear : serBehind w s.pkg.horizon 0x1000 = false := h
  unfold State.assign
  dsimp only
  rw [State.mapPkg_pkg, if_neg (by simp [hnear])]

/-- The copies that an assigned time leaves are copies that were there. -/
theorem assign_lines (s : State) (w : BitVec 16) :
    ∀ y ∈ (s.assign w).core.lines, ∃ x ∈ s.core.lines, y.line = x.line ∧ y.hyp = x.hyp := by
  unfold State.assign
  dsimp only
  split
  · intro y hy
    obtain ⟨x, hx, rfl⟩ := List.mem_map.mp hy
    rw [State.dropLines_core] at hx
    obtain ⟨hline, hhyp, -, -⟩ := x.lift_key _ _
    exact ⟨x, (List.mem_filter.mp hx).1, hline, hhyp⟩
  · exact fun y hy => ⟨y, hy, rfl, rfl⟩

/-! ### A line written back (08:R169, 09:R203). -/

/-- Poison is set after the data of a line has been put in memory. -/
theorem putLine_mem (p : Pkg) (line : Nat) (d : BitVec 512) (q : BitVec 8) :
    (p.putLine line d q).mem = (p.writeNat (line * 64) 64 d.toNat).mem := by
  unfold Pkg.putLine
  refine foldl_mem _ _ _ fun p i => ?_
  split <;> rfl

theorem home_writeNat (p : Pkg) (a n v x : Nat) : (p.writeNat a n v).home x = p.home x := rfl

theorem versions_writeNat (p : Pkg) (a n v : Nat) : (p.writeNat a n v).versions = p.versions := rfl

theorem putLine_homes (p : Pkg) (line : Nat) (d : BitVec 512) (q : BitVec 8) (x : Nat) : (p.putLine line d q).home x = p.home x := by
  unfold Pkg.putLine
  refine (foldl_keeps (fun p : Pkg => p.home x) _ (fun p i => ?_) _ _).trans (home_writeNat p _ _ _ x)
  split <;> rfl

theorem putLine_versions (p : Pkg) (line : Nat) (d : BitVec 512) (q : BitVec 8) : (p.putLine line d q).versions = p.versions := by
  unfold Pkg.putLine
  refine (foldl_keeps (fun p : Pkg => p.versions) _ (fun p i => ?_) _ _).trans (versions_writeNat p _ _ _)
  split <;> rfl

/-- A read depends on memory alone. -/
theorem read_congr {p q : Pkg} (h : q.mem = p.mem) (x n : Nat) : q.read x n = p.read x n := by
  unfold Pkg.read
  rw [h]

theorem lineData_putLine (p : Pkg) (line : Nat) (d : BitVec 512) (q : BitVec 8) (hwf : Memory.wf p.mem = true) :
    (p.putLine line d q).lineData line = d := by
  rw [Pkg.lineData, read_congr (putLine_mem p line d q), Pkg.read_writeNat_self _ _ _ _ hwf, Nat.mod_eq_of_lt d.isLt,
    BitVec.ofNat_toNat, BitVec.setWidth_eq]

theorem read_putLine_apart (p : Pkg) (line : Nat) (d : BitVec 512) (q : BitVec 8) {x : Nat} (hwf : Memory.wf p.mem = true)
    (hx : x / 64 ≠ line) : (p.putLine line d q).read x 1 = p.read x 1 := by
  rw [read_congr (putLine_mem p line d q), Pkg.read_writeNat_apart _ _ _ _ _ _ hwf (by omega)]

/-- The home's record after a line has come back. -/
def backHome (w : BitVec 16) (owner : Option (BitVec 9)) : HomeLine := { wts := w, rts := w, owner := owner }

/-- The state after the data of a dirty line has reached its home, before the core's copy changes. -/
def State.homeTakes (s : State) (l : Line) (owner : Option (BitVec 9)) : State :=
  ((s.sendLine l).1.assign (s.returnTime (s.pkg.home l.line).wts)).mapPkg (fun p =>
    (p.putLine l.line l.data (s.sendLine l).2).setHome l.line (backHome (s.returnTime (s.pkg.home l.line).wts) owner))

theorem writeBack_dirty {s : State} {l : Line} (hst : l.st = .d) : s.writeBack l none =
    (s.homeTakes l none).dropLines (fun x => x.line = l.line && x.hyp = l.hyp) := by
  unfold State.writeBack
  simp only [hst, if_true]
  rfl

/-- What the home's taking of a dirty line leaves. -/
structure LineTaken (l : Line) (owner : Option (BitVec 9)) (s t : State) : Prop where
  hart : OnlyTimes s.hart t.hart
  core : OnlyCopies s.core t.core
  versions : t.pkg.versions = s.pkg.versions
  data : t.pkg.lineData l.line = l.data
  others : ∀ x, x / 64 ≠ l.line → t.pkg.read x 1 = s.pkg.read x 1
  home : t.pkg.home l.line = backHome (s.returnTime (s.pkg.home l.line).wts) owner
  lines : ∀ y ∈ t.core.lines, ∃ x ∈ s.core.lines, y.line = x.line ∧ y.hyp = x.hyp

theorem homeTakes_taken {s : State} (l : Line) (owner : Option (BitVec 9)) (hwf : s.MemWf) :
    LineTaken l owner s (s.homeTakes l owner) := by
  have hmoved := (sendLine_linesMoved s l).trans (assign_linesMoved (s.sendLine l).1 (s.returnTime (s.pkg.home l.line).wts))
  have hlines := assign_lines (s.sendLine l).1 (s.returnTime (s.pkg.home l.line).wts)
  unfold State.homeTakes
  generalize (s.sendLine l).1.assign (s.returnTime (s.pkg.home l.line).wts) = t at hmoved hlines
  have hwf' : Memory.wf t.pkg.mem = true := by rw [hmoved.mem]; exact hwf
  refine ⟨hmoved.hart, hmoved.core, ?_, lineData_putLine _ _ _ _ hwf', fun x hx => ?_, ?_, fun y hy => ?_⟩
  · exact (putLine_versions _ _ _ _).trans hmoved.versions
  · exact (read_putLine_apart _ _ _ _ hwf' hx).trans (read_congr hmoved.mem x 1)
  · rw [State.mapPkg_pkg, home_setHome, if_pos rfl]
  · obtain ⟨x, hx, hkey⟩ := hlines y hy
    rw [sendLine_lines] at hx
    exact ⟨x, hx, hkey⟩

end Sys2Proof.Machine
end

/-! Ways converted and released (08:R166, R178 to R181): the statuses, ways without an entry, the way of one dirty line, and the named
ways under their new mode; then the statement O36. -/

section
namespace Sys2Proof.Machine
open Claims

/-! ### Masks of ways (08:R179). -/

theorem badMask_iff (v : Word) : badMask v = true ↔ BadMask v := by
  have hhigh : v.extractLsb' 8 56 ≠ 0#56 ↔ 2 ^ 8 ≤ uv v := by
    rw [Ne, ← BitVec.toNat_inj, BitVec.extractLsb'_toNat, Nat.shiftRight_eq_div_pow]
    have hv := v.isLt
    simp only [uv, BitVec.toNat_ofNat]
    omega
  have hlow : uv v < 2 ^ 8 → (v.extractLsb' 0 8 = 0#8 ↔ v = 0#64) := by
    intro hv
    rw [← BitVec.toNat_inj, ← BitVec.toNat_inj, BitVec.extractLsb'_toNat, Nat.shiftRight_eq_div_pow]
    simp only [uv] at hv
    simp only [BitVec.toNat_ofNat]
    omega
  simp only [badMask, BadMask, Bool.or_eq_true, bne_iff_ne, hhigh, decide_eq_true_eq, or_assoc]
  by_cases hv : 2 ^ 8 ≤ uv v
  · exact iff_of_true (.inl hv) (.inl hv)
  · simp only [hv, false_or, hlow (by omega)]

theorem anyWay_iff (m : BitVec 8) (q : Nat → Bool) : anyWay m q = true ↔ SomeWay m (fun k => q k.val = true) := by
  simp only [anyWay, SomeWay, List.any_eq_true, List.mem_range, Bool.and_eq_true]
  exact ⟨fun ⟨k, hk, hm, hq⟩ => ⟨⟨k, hk⟩, hm, hq⟩, fun ⟨k, hm, hq⟩ => ⟨k.val, k.isLt, hm, hq⟩⟩

theorem modeOf_eq (c : Core) (k : Fin 8) : c.modeOf k.val = some c.ways[k].mode := by
  rw [Core.modeOf, Vector.getElem?_eq_getElem k.isLt]
  rfl

theorem anyWay_mode (m : BitVec 8) (c : Core) (w : WayMode) :
    anyWay m (fun k => c.modeOf k = some w) = true ↔ SomeWay m (fun k => c.ways[k].mode = w) := by
  rw [anyWay_iff]
  simp only [modeOf_eq, Option.some.injEq, decide_eq_true_eq]

theorem anyWay_otherMode (m : BitVec 8) (c : Core) (w : WayMode) :
    anyWay m (fun k => c.modeOf k != some w) = true ↔ SomeWay m (fun k => c.ways[k].mode ≠ w) := by
  rw [anyWay_iff]
  simp only [modeOf_eq, bne_iff_ne, ne_eq, Option.some.injEq]

/-- A version stands in a way of the mask. -/
def Version.InWays (v : Version) (m : BitVec 8) : Prop := ∃ w, v.place = .way w ∧ m.getLsbD w.toNat = true

theorem mem_versionsIn {s : State} {m : BitVec 8} {v : Version} : v ∈ s.versionsIn m ↔ v ∈ s.pkg.versions ∧ v.InWays m := by
  rw [State.versionsIn, List.mem_filter]
  refine and_congr_right fun _ => ?_
  unfold Version.InWays
  cases v.place <;> simp

theorem locksIn_iff (s : State) (m : BitVec 8) : s.locksIn m = true ↔
    (∃ x ∈ s.core.lines, m.getLsbD x.way.toNat = true ∧ x.lock ≠ []) ∨ ∃ x ∈ s.pkg.versions, x.lock ≠ [] ∧ x.InWays m := by
  have hlock (xs : List (BitVec 8)) : (!xs.isEmpty) = true ↔ xs ≠ [] := by cases xs <;> simp
  simp only [State.locksIn, Bool.or_eq_true, List.any_eq_true, Bool.and_eq_true, hlock, mem_versionsIn]
  exact or_congr_right ⟨fun ⟨x, ⟨hx, hin⟩, hl⟩ => ⟨x, hx, hl, hin⟩, fun ⟨x, hx, hl, hin⟩ => ⟨x, ⟨hx, hin⟩, hl⟩⟩

theorem versionsIn_none {s : State} {m : BitVec 8} (h : ∀ x ∈ s.pkg.versions, ∀ w, x.place = .way w → m.getLsbD w.toNat = false) :
    s.versionsIn m = [] := by
  rw [List.eq_nil_iff_forall_not_mem]
  intro x hx
  obtain ⟨hmem, w, hplace, hbit⟩ := mem_versionsIn.mp hx
  rw [h x hmem w hplace] at hbit
  exact Bool.false_ne_true hbit

/-! ### The statuses of wconv and wrel (08:R179). -/

theorem enginesQuiet_iff (s : State) : s.enginesQuiet = true ↔ s.core.units = [] ∧ ∀ o ∈ s.core.peel, o.out = true := by
  simp only [State.enginesQuiet, Bool.and_eq_true, List.isEmpty_iff, List.all_eq_true]

theorem not_enginesQuiet {s : State} (h : s.core.units ≠ [] ∨ ∃ o ∈ s.core.peel, o.out = false) : s.enginesQuiet = false := by
  rw [Bool.eq_false_iff, ne_eq, enginesQuiet_iff]
  rintro ⟨hunits, hout⟩
  rcases h with h | ⟨o, ho, hfalse⟩
  · exact h hunits
  · rw [hout o ho] at hfalse
    exact Bool.false_ne_true hfalse.symm

theorem wconv_status {s : State} {d a : GReg} {target : WayMode} {n : Nat} (hquiet : s.enginesQuiet = true)
    (hstatus : s.wconvStatus (s.g a) target = n) (hn : n ≠ 0) : s.wconv d a target = .next (s.result d (BitVec.ofNat 64 n)) := by
  simp [State.wconv, hquiet, hstatus, hn]

/-- The named ways emptied in their order. -/
def State.emptied (s : State) (m : BitVec 8) : State :=
  (natRange 1 7).foldl (fun s k => if m.getLsbD k then s.emptyWay k else s) s

/-- The named ways under the new mode. -/
def State.entered (s : State) (m : BitVec 8) (target : WayMode) (before : Bool) : State :=
  if target = .array then (s.enterMode m target).convertDirty before else s.enterMode m target

theorem wconv_zero {s : State} {d a : GReg} {target : WayMode} (hquiet : s.enginesQuiet = true)
    (hstatus : s.wconvStatus (s.g a) target = 0) : s.wconv d a target = .next (((s.emptied ((s.g a).setWidth 8)).entered
      ((s.g a).setWidth 8) target (anyWay s.hart.lanesWays (fun k => s.core.modeOf k = some .array))).result d 0) := by
  simp only [State.wconv, hquiet, hstatus, Bool.not_true, Bool.false_eq_true, if_false, bne_self_eq_false]
  rfl

/-! ### Ways emptied (08:R180). -/

theorem setsOf_none {s : State} {k : Nat} (hlines : s.core.lines.filter (fun l => l.way.toNat = k) = [])
    (hversions : s.versionsIn (BitVec.ofNat 8 (2 ^ k)) = []) : s.setsOf k = [] := by
  rw [State.setsOf, hlines, hversions]
  rfl

theorem sparseDrop_none {α : Type} (m : Sparse α) : sparseDrop (fun w => ([] : List Nat).contains (w / 8)) m = m := by
  simp [sparseDrop]

/-- A way without an entry is empty already. -/
theorem emptyWay_none {s : State} {k : Nat} (hlines : s.core.lines.filter (fun l => l.way.toNat = k) = [])
    (hversions : s.versionsIn (BitVec.ofNat 8 (2 ^ k)) = []) : s.emptyWay k = s := by
  simp only [State.emptyWay, setsOf_none hlines hversions, hlines, hversions, List.map_nil, List.append_nil, List.foldl_nil,
    sparseDrop_none]
  rfl

theorem getLsbD_oneWay {k j : Nat} (hk : k < 8) : (BitVec.ofNat 8 (2 ^ k)).getLsbD j = decide (j = k) := by
  rw [BitVec.getLsbD_ofNat, Nat.testBit_two_pow]
  by_cases h : k = j
  · simp [h, h ▸ hk]
  · simp [h, Ne.symm h]

theorem versionsIn_oneWay {s : State} {m : BitVec 8} {k : Nat} (hk : k < 8) (hm : m.getLsbD k = true)
    (h : ∀ x ∈ s.pkg.versions, ∀ w, x.place = .way w → m.getLsbD w.toNat = false) : s.versionsIn (BitVec.ofNat 8 (2 ^ k)) = [] := by
  refine versionsIn_none fun x hx w hplace => ?_
  rw [getLsbD_oneWay hk, decide_eq_false_iff_not]
  intro hw
  rw [← hw, h x hx w hplace] at hm
  exact Bool.false_ne_true hm

/-- Ways are emptied one after the other: where each step but one changes nothing, that one is made when it is named. -/
theorem foldl_single {α β : Type} [DecidableEq β] {f : α → β → α} {s t : α} {x : β} (hx : f s x = t)
    (hother : ∀ y, y ≠ x → f s y = s) (hafter : ∀ y, f t y = t) (ys : List β) :
    ys.foldl f s = if x ∈ ys then t else s := by
  have hrest (ys : List β) : ys.foldl f t = t := by
    induction ys with
    | nil => rfl
    | cons y ys ih => rw [List.foldl_cons, hafter, ih]
  induction ys with
  | nil => rfl
  | cons y ys ih =>
    by_cases hy : y = x
    · rw [List.foldl_cons, hy, hx, hrest, if_pos List.mem_cons_self]
    · rw [List.foldl_cons, hother y hy, ih]
      exact if_congr (by simp [Ne.symm hy]) rfl rfl

/-- No line and no version stands in the named ways. -/
structure WaysEmpty (s : State) (m : BitVec 8) : Prop where
  lines : ∀ x ∈ s.core.lines, m.getLsbD x.way.toNat = false
  versions : ∀ x ∈ s.pkg.versions, ∀ w, x.place = .way w → m.getLsbD w.toNat = false

theorem WaysEmpty.emptyWay {s : State} {m : BitVec 8} (h : WaysEmpty s m) {k : Nat} (hm : m.getLsbD k = true) : s.emptyWay k = s := by
  have hk : k < 8 := BitVec.lt_of_getLsbD hm
  refine emptyWay_none (List.filter_eq_nil_iff.mpr fun x hx hway => ?_) (versionsIn_oneWay hk hm h.versions)
  rw [← of_decide_eq_true hway, h.lines x hx] at hm
  exact Bool.false_ne_true hm

theorem WaysEmpty.emptied {s : State} {m : BitVec 8} (h : WaysEmpty s m) : s.emptied m = s := by
  unfold State.emptied
  generalize natRange 1 7 = ks
  induction ks with
  | nil => rfl
  | cons k ks ih =>
    rw [List.foldl_cons]
    split
    next hm => rw [h.emptyWay hm, ih]
    next => exact ih

theorem dropLines_home (s : State) (q : Line → Bool) (x : Nat) : (s.dropLines q).pkg.home x = s.pkg.home x :=
  foldl_keeps (fun s : State => s.pkg.home x) State.forgetSource (fun _ _ => rfl) _ (s.mapCore (·.dropLines q))

theorem lineData_congr {p q : Pkg} (h : q.mem = p.mem) (line : Nat) : q.lineData line = p.lineData line := by
  rw [Pkg.lineData, Pkg.lineData, read_congr h]

/-- The one dirty line of the core has left its way. -/
def State.lineSent (s : State) (l : Line) : State :=
  (s.writeBack l none).mapPkg (fun p => { p with races := sparseDrop (fun w => [l.line].contains (w / 8)) p.races })

theorem lineSent_lines {s : State} {l : Line} (hlines : s.core.lines = [l]) (hst : l.st = .d) (hwf : s.MemWf) :
    (s.lineSent l).core.lines = [] := by
  have htaken := homeTakes_taken l none hwf
  rw [State.lineSent, writeBack_dirty hst, State.mapPkg_core, State.dropLines_core]
  refine List.filter_eq_nil_iff.mpr fun y hy => ?_
  obtain ⟨x, hx, hline, hhyp⟩ := htaken.lines y hy
  rw [hlines, List.mem_singleton] at hx
  simp [hline, hhyp, hx]

/-- What the leaving of the line changes. -/
structure LineSent (l : Line) (s t : State) : Prop where
  hart : OnlyTimes s.hart t.hart
  core : OnlyCopies s.core t.core
  lines : t.core.lines = []
  versions : t.pkg.versions = s.pkg.versions
  data : t.pkg.lineData l.line = l.data
  owner : (t.pkg.home l.line).owner = none

theorem lineSent_sent {s : State} {l : Line} (hlines : s.core.lines = [l]) (hst : l.st = .d) (hwf : s.MemWf) :
    LineSent l s (s.lineSent l) := by
  have htaken := homeTakes_taken l none hwf
  have hdrop := dropLines_linesMoved (s.homeTakes l none) (fun x => x.line = l.line && x.hyp = l.hyp)
  have hhome := dropLines_home (s.homeTakes l none) (fun x => x.line = l.line && x.hyp = l.hyp) l.line
  have hempty := lineSent_lines hlines hst hwf
  rw [State.lineSent, writeBack_dirty hst] at hempty ⊢
  refine ⟨htaken.hart.trans hdrop.hart, htaken.core.trans hdrop.core, hempty, hdrop.versions.trans htaken.versions, ?_, ?_⟩
  · exact (lineData_congr hdrop.mem l.line).trans htaken.data
  · exact congrArg HomeLine.owner (hhome.trans htaken.home)

theorem emptyWay_dirty {s : State} {m : BitVec 8} {l : Line} (hlines : s.core.lines = [l]) (hm : m.getLsbD l.way.toNat = true)
    (hst : l.st = .d) (hversions : ∀ x ∈ s.pkg.versions, ∀ w, x.place = .way w → m.getLsbD w.toNat = false) :
    s.emptyWay l.way.toNat = s.lineSent l := by
  have hnone := versionsIn_oneWay l.way.isLt hm hversions
  simp only [State.emptyWay, State.setsOf, hlines, hnone, List.filter_singleton, decide_true, cond_true, List.map_cons, List.map_nil,
    List.append_nil, List.foldr_cons, List.foldr_nil, insertNat, List.foldl_cons, List.foldl_nil, State.convertSet,
    List.find?_singleton, Bool.and_self, if_true, State.convertLine, hst, reduceCtorEq, if_false]
  rfl

theorem emptied_dirty {s : State} {m : BitVec 8} {l : Line} (hlines : s.core.lines = [l]) (hm : m.getLsbD l.way.toNat = true)
    (hzero : m.getLsbD 0 = false) (hst : l.st = .d) (hwf : s.MemWf)
    (hversions : ∀ x ∈ s.pkg.versions, ∀ w, x.place = .way w → m.getLsbD w.toNat = false) : s.emptied m = s.lineSent l := by
  have hsent := lineSent_sent hlines hst hwf
  have hafter : WaysEmpty (s.lineSent l) m :=
    ⟨by rw [hsent.lines]; exact List.forall_mem_nil _, by rw [hsent.versions]; exact hversions⟩
  have hway : l.way.toNat ≠ 0 := by
    intro h
    rw [h, hzero] at hm
    exact Bool.false_ne_true hm
  unfold State.emptied
  rw [foldl_single (x := l.way.toNat) (t := s.lineSent l), if_pos]
  · exact mem_natRange.mpr (by have := l.way.isLt; omega)
  · rw [if_pos hm, emptyWay_dirty hlines hm hst hversions]
  · intro k hk
    split
    next hbit =>
      refine emptyWay_none ?_ (versionsIn_oneWay (BitVec.lt_of_getLsbD hbit) hbit hversions)
      rw [hlines, List.filter_singleton, decide_eq_false (Ne.symm hk), cond_false]
    next => rfl
  · intro k
    split
    next hbit => exact hafter.emptyWay hbit
    next => rfl

/-! ### Ways under a new mode (08:R180, R181). -/

/-- What the entry of the named ways into a mode leaves. -/
structure ModeEntered (m : BitVec 8) (array before : Bool) (s t : State) : Prop where
  pkg : t.pkg = s.pkg
  lines : t.core.lines = s.core.lines
  hart : t.hart = { s.hart with vdirty := t.hart.vdirty, pdirty := t.hart.pdirty }
  ways : ∀ k : Fin 8, t.core.ways[k] = if m.getLsbD k.val = true then
    { mode := if array = true then .array else .bench, ctx := s.hart.ctxid } else s.core.ways[k]
  byte : ∀ o, t.core.benchNat o 1 = if m.getLsbD (o / 2 ^ 20 + 1) = true then 0 else s.core.benchNat o 1
  rows : ∀ k, m.getLsbD (k / 2 ^ 14 % 8) = true → sparseGet 0#32 t.core.vrows k = 0#32
  first : array = true → before = false → t.hart.vdirty = 0#16 ∧ t.hart.pdirty = 0#32
  later : array = true → before = true → t.hart.vdirty = 0xFFFF#16 ∧ t.hart.pdirty = 0xFFFFFFFE#32
  bench : array = false → t.hart.vdirty = s.hart.vdirty ∧ t.hart.pdirty = s.hart.pdirty

theorem entered_entered {s : State} (m : BitVec 8) (array before : Bool) (hwf : BenchWf s) (hrows : sparseWf 0#32 s.core.vrows = true) :
    ModeEntered m array before s (s.entered m (if array = true then .array else .bench) before) := by
  have hbyte (o : Nat) : (s.enterMode m (if array = true then .array else .bench)).core.benchNat o 1 =
      if m.getLsbD (o / 2 ^ 20 + 1) = true then 0 else s.core.benchNat o 1 := by
    rw [benchNat_byte, benchNat_byte, cellGet, State.enterMode, State.mapCore_core, sparseGet_drop _ hwf.1]
    split <;> rfl
  have hways (k : Fin 8) : (s.enterMode m (if array = true then .array else .bench)).core.ways[k] =
      if m.getLsbD k.val = true then { mode := if array = true then .array else .bench, ctx := s.hart.ctxid } else s.core.ways[k] := by
    rw [State.enterMode, State.mapCore_core]
    exact Vector.getElem_ofFn k.isLt
  have hvrows (k : Nat) (hk : m.getLsbD (k / 2 ^ 14 % 8) = true) :
      sparseGet 0#32 (s.enterMode m (if array = true then .array else .bench)).core.vrows k = 0#32 := by
    rw [State.enterMode, State.mapCore_core, sparseGet_drop _ hrows]
    exact if_pos hk
  cases array with
  | false => exact ⟨rfl, rfl, rfl, hways, hbyte, hvrows, nofun, nofun, fun _ => ⟨rfl, rfl⟩⟩
  | true =>
    cases before with
    | false => exact ⟨rfl, rfl, rfl, hways, hbyte, hvrows, fun _ _ => ⟨rfl, rfl⟩, nofun, nofun⟩
    | true => exact ⟨rfl, rfl, rfl, hways, hbyte, hvrows, nofun, fun _ _ => ⟨rfl, rfl⟩, nofun⟩

theorem OnlyTimes.keeps {α : Type} {h k : Hart} (hk : OnlyTimes h k) (f : Hart → α)
    (hf : ∀ l w, f { h with ltime := l, maxRead := w } = f h) : f k = f h := by
  rw [hk]
  exact hf _ _

theorem OnlyCopies.ways {c e : Core} (h : OnlyCopies c e) : e.ways = c.ways := by rw [h]

theorem OnlyCopies.bench {c e : Core} (h : OnlyCopies c e) : e.bench = c.bench := by rw [h]

/-- The named ways stand under their new mode with zero contents, and wconv has given status 0. -/
def Converted (d : GReg) (m : BitVec 8) (array : Bool) (s t : State) : Prop :=
  RegsAfter d 0 s t ∧ Retired s t ∧
  (∀ k : Fin 8, t.core.ways[k] = if m.getLsbD k.val = true then
    { mode := if array = true then .array else .bench, ctx := s.hart.ctxid } else s.core.ways[k]) ∧
  (∀ o, m.getLsbD (o / 2 ^ 20 + 1) = true → o < 7 * 2 ^ 20 → t.core.benchNat o 1 = 0) ∧
  (∀ o, m.getLsbD (o / 2 ^ 20 + 1) = false → t.core.benchNat o 1 = s.core.benchNat o 1) ∧
  (∀ k, m.getLsbD (k / 2 ^ 14 % 8) = true → sparseGet 0#32 t.core.vrows k = 0#32) ∧
  (let before := SomeWay s.hart.lanesWays (fun k => s.core.ways[k].mode = .array);
    (array = true → ¬before → t.hart.vdirty = 0#16 ∧ t.hart.pdirty = 0#32) ∧
    (array = true → before → t.hart.vdirty = 0xFFFF#16 ∧ t.hart.pdirty = 0xFFFFFFFE#32) ∧
    (array = false → t.hart.vdirty = s.hart.vdirty ∧ t.hart.pdirty = s.hart.pdirty))

/-- An ARRAY way stands among the lanes that the context was granted. -/
def State.hadArray (s : State) : Bool := anyWay s.hart.lanesWays (fun k => s.core.modeOf k = some .array)

/-- Ways that have been emptied are converted when they enter their mode. -/
theorem converted_entered {s u : State} (d : GReg) (m : BitVec 8) (array : Bool) (hhart : OnlyTimes s.hart u.hart)
    (hcore : OnlyCopies s.core u.core) (hwf : BenchWf s) (hrows : sparseWf 0#32 s.core.vrows = true) :
    Converted d m array s ((u.entered m (if array = true then .array else .bench) s.hadArray).result d 0) ∧
      ((u.entered m (if array = true then .array else .bench) s.hadArray).result d 0).pkg = u.pkg ∧
      ((u.entered m (if array = true then .array else .bench) s.hadArray).result d 0).core.lines = u.core.lines := by
  have hbefore : s.hadArray = true ↔ SomeWay s.hart.lanesWays (fun k => s.core.ways[k].mode = .array) := anyWay_mode _ _ _
  have hwf' : BenchWf u := ⟨by rw [hcore]; exact hwf.1, by rw [hcore]; exact hwf.2⟩
  have hent := entered_entered m array s.hadArray hwf' (by rw [hcore]; exact hrows)
  generalize u.entered m (if array = true then .array else .bench) s.hadArray = t at hent ⊢
  have hctx : u.hart.ctxid = s.hart.ctxid := hhart.keeps Hart.ctxid fun _ _ => rfl
  have hways : u.core.ways = s.core.ways := hcore.ways
  have hbench (o : Nat) : u.core.benchNat o 1 = s.core.benchNat o 1 := by
    rw [benchNat_byte, benchNat_byte, hcore.bench]
  have hdirty : u.hart.vdirty = s.hart.vdirty ∧ u.hart.pdirty = s.hart.pdirty :=
    ⟨hhart.keeps Hart.vdirty fun _ _ => rfl, hhart.keeps Hart.pdirty fun _ _ => rfl⟩
  have hregs : RegsAfter d 0 s (t.result d 0) := by
    intro r
    rw [State.g_result, State.g, State.g, hent.hart]
    exact hhart.keeps (fun h => if r = 0#5 then (0 : Word) else if r = d then 0 else if r = 0#5 then 0 else h.g[r.toNat]) fun _ _ => rfl
  have hretired : Retired s (t.result d 0) := by
    constructor
    · rw [State.result_hart, hent.hart]
      exact hhart.keeps (fun h => h.pc + 4#48) fun _ _ => rfl
    · rw [State.result_hart, hent.hart]
      exact hhart.keeps (fun h => h.instret + 1#64) fun _ _ => rfl
  rw [State.result_pkg, State.result_core]
  refine ⟨⟨hregs, hretired, fun k => ?_, fun o hbit _ => ?_, fun o hbit => ?_, ?_, ?_, ?_, ?_⟩, hent.pkg, hent.lines⟩
  all_goals simp only [State.result_core, State.result_hart_vdirty, State.result_hart_pdirty]
  · rw [hent.ways, hctx, hways]
  · rw [hent.byte, if_pos hbit]
  · rw [hent.byte, if_neg (Bool.eq_false_iff.mp hbit), hbench]
  · exact hent.rows
  · exact fun harray hnone => hent.first harray (Bool.eq_false_iff.mpr fun h => hnone (hbefore.mp h))
  · exact fun harray hsome => hent.later harray (hbefore.mpr hsome)
  · exact fun harray => ⟨(hent.bench harray).1.trans hdirty.1, (hent.bench harray).2.trans hdirty.2⟩

/-! ### Ways released (08:R181). -/

theorem pinned_eq (s : State) (k : Fin 8) :
    s.pinned k.val = true ↔ s.core.ways[k].mode ≠ .cache ∧ s.core.ways[k].ctx ≠ s.hart.ctxid := by
  rw [State.pinned, Vector.getElem?_eq_getElem k.isLt]
  simp only [Option.map_some, Option.getD_some, Bool.and_eq_true, bne_iff_ne]
  rfl

theorem anyWay_pinned (m : BitVec 8) (s : State) :
    anyWay m s.pinned = true ↔ SomeWay m (fun k => s.core.ways[k].mode ≠ .cache ∧ s.core.ways[k].ctx ≠ s.hart.ctxid) := by
  rw [anyWay_iff]
  simp only [pinned_eq]

theorem and_ne_zero_iff (m n : BitVec 8) : (m &&& n != 0#8) = true ↔ SomeWay m (fun k => n.getLsbD k.val = true) := by
  rw [bne_iff_ne, ne_eq, BitVec.eq_of_getLsbD_eq_iff, not_forall]
  simp only [SomeWay, BitVec.getLsbD_and, BitVec.getLsbD_zero, Classical.not_imp, Bool.not_eq_false, Bool.and_eq_true]
  exact ⟨fun ⟨k, hk, h⟩ => ⟨⟨k, hk⟩, h⟩, fun ⟨k, h⟩ => ⟨k.val, k.isLt, h⟩⟩

theorem wrel_status {s : State} {d a : GReg} {n : Nat} (hquiet : s.enginesQuiet = true) (hstatus : s.wrelStatus (s.g a) = n)
    (hn : n ≠ 0) : execWrel d a s = .next (s.result d (BitVec.ofNat 64 n)) := by
  simp [execWrel, hquiet, hstatus, hn]

theorem wrel_zero {s : State} {d a : GReg} (hquiet : s.enginesQuiet = true) (hstatus : s.wrelStatus (s.g a) = 0) :
    execWrel d a s = .next ((s.releaseWays ((s.g a).setWidth 8)).result d 0) := by
  simp [execWrel, hquiet, hstatus]

/-- What the release of the named ways leaves. -/
structure WaysReleased (m : BitVec 8) (s t : State) : Prop where
  pkg : t.pkg = s.pkg
  lines : t.core.lines = s.core.lines
  hart : t.hart = { s.hart with vdirty := t.hart.vdirty, pdirty := t.hart.pdirty }
  ways : ∀ k : Fin 8, t.core.ways[k] = if m.getLsbD k.val = true ∧ s.core.ways[k].mode ≠ .cache then
    { mode := .cache, ctx := 0#8 } else s.core.ways[k]
  byte : ∀ o, m.getLsbD (o / 2 ^ 20 + 1) = false → t.core.benchNat o 1 = s.core.benchNat o 1
  array : SomeWay m (fun k => s.core.ways[k].mode = .array) → t.hart.vdirty = 0#16 ∧ t.hart.pdirty = 0#32
  other : ¬SomeWay m (fun k => s.core.ways[k].mode = .array) → t.hart.vdirty = s.hart.vdirty ∧ t.hart.pdirty = s.hart.pdirty

theorem wipeWays_ways (c : Core) (m : BitVec 8) (k : Fin 8) : (c.wipeWays m).ways[k] =
    if m.getLsbD k.val = true ∧ c.ways[k].mode ≠ .cache then { mode := .cache, ctx := 0#8 } else c.ways[k] := by
  refine (Vector.getElem_ofFn k.isLt).trans (if_congr ?_ rfl rfl)
  dsimp only
  rw [Vector.getElem?_eq_getElem k.isLt]
  simp only [Option.map_some, Bool.and_eq_true, bne_iff_ne, ne_eq, Option.some.injEq]
  rfl

theorem benchNat_bench {c e : Core} (h : e.bench = c.bench) (o : Nat) : e.benchNat o 1 = c.benchNat o 1 := by
  rw [benchNat_byte, benchNat_byte, h]

theorem wipeWays_byte {c : Core} {m : BitVec 8} {o : Nat} (hwf : sparseWf (0 : Byte) c.bench = true)
    (ho : m.getLsbD (o / 2 ^ 20 + 1) = false) : (c.wipeWays m).benchNat o 1 = c.benchNat o 1 := by
  rw [benchNat_byte, benchNat_byte, cellGet, Core.wipeWays, sparseGet_drop _ hwf, if_neg]
  · rfl
  · simp only [ho, Bool.false_and, Bool.false_eq_true, not_false_eq_true]

theorem releaseWays_released {s : State} (m : BitVec 8) (hwf : BenchWf s) : WaysReleased m s (s.releaseWays m) := by
  have harr : anyWay m (fun k => s.core.modeOf k = some .array) = true ↔ SomeWay m (fun k => s.core.ways[k].mode = .array) :=
    anyWay_mode _ _ _
  have hrelease : s.releaseWays m = if anyWay m (fun k => s.core.modeOf k = some .array) = true then
      { s with hart := { s.hart with vdirty := 0, pdirty := 0 }, core := { s.core.wipeWays m with vv := 0, pv := 0 } }
    else s.mapCore (fun c => c.wipeWays m) := rfl
  by_cases h : anyWay m (fun k => s.core.modeOf k = some .array) = true
  · rw [hrelease, if_pos h]
    exact {
      pkg := rfl
      lines := rfl
      hart := rfl
      ways := wipeWays_ways s.core m
      byte := fun o ho => (benchNat_bench (c := s.core.wipeWays m) rfl o).trans (wipeWays_byte hwf.1 ho)
      array := fun _ => ⟨rfl, rfl⟩
      other := fun hnone => absurd (harr.mp h) hnone }
  · rw [hrelease, if_neg h]
    exact {
      pkg := rfl
      lines := rfl
      hart := rfl
      ways := wipeWays_ways s.core m
      byte := fun o ho => (benchNat_bench (c := s.core.wipeWays m) rfl o).trans (wipeWays_byte hwf.1 ho)
      array := fun hsome => absurd (harr.mpr hsome) h
      other := fun _ => ⟨rfl, rfl⟩ }

end Sys2Proof.Machine
end

section
namespace Sys2Proof
open Machine Claims

/-- The conversions: the statuses in the order of the checks, ways without an entry, and the way of one dirty line. -/
theorem wayConversion : WayConversion := by
  intro d a l s v m wconv
  have key (i : Instr) (array : Bool) (hexec : exec i s = s.wconv d a (if array = true then .array else .bench)) :
      wconv i array := by
    set target : WayMode := if array = true then .array else .bench with htarget
    have hlanes (k : Nat) : (s.hart.lanesWays.getLsbD k != (target == .array)) = true ↔ s.hart.lanesWays.getLsbD k ≠ array := by
      rw [bne_iff_ne, htarget]
      cases array <;> rfl
    have hthree : anyWay m (fun k => s.hart.lanesWays.getLsbD k != (target == .array)) = true ↔
        SomeWay m (fun k => s.hart.lanesWays.getLsbD k.val ≠ array) := by
      rw [anyWay_iff]
      simp only [hlanes]
    have hone := badMask_iff v
    have htwo := anyWay_otherMode m s.core .cache
    have hfour := locksIn_iff s m
    have hstatus : s.wconvStatus v target = if badMask v = true then 1 else if anyWay m (fun k => s.core.modeOf k != some .cache) = true
      then 2 else if anyWay m (fun k => s.hart.lanesWays.getLsbD k != (target == .array)) = true then 3
      else if s.locksIn m = true then 4 else if (!s.spillsFit (s.versionsIn m)) = true then 5 else 0 := rfl
    refine ⟨fun hbusy => ?_, fun hunits hout => ?_⟩
    · rw [hexec, State.wconv, not_enginesQuiet hbusy]
      rfl
    have hquiet : s.enginesQuiet = true := (enginesQuiet_iff s).mpr ⟨hunits, hout⟩
    have gives (n : Nat) (hn : n ≠ 0) (h : s.wconvStatus v target = n) : Gives i d (BitVec.ofNat 64 n) s :=
      gives_of_result (hexec.trans (wconv_status hquiet h hn)) rfl
    refine ⟨fun h1 => gives 1 (by decide) ?_, fun h1 h2 => gives 2 (by decide) ?_, fun h1 h2 h3 => gives 3 (by decide) ?_,
      fun h1 h2 h3 h4 => gives 4 (by decide) ?_, fun h1 h2 h3 h4 h5 => gives 5 (by decide) ?_,
      fun h1 h2 h3 hversions hwf hrows => ?_⟩
    · rw [hstatus, if_pos (hone.mpr h1)]
    · rw [hstatus, if_neg (mt hone.mp h1), if_pos (htwo.mpr h2)]
    · rw [hstatus, if_neg (mt hone.mp h1), if_neg (mt htwo.mp h2), if_pos (hthree.mpr h3)]
    · rw [hstatus, if_neg (mt hone.mp h1), if_neg (mt htwo.mp h2), if_neg (mt hthree.mp h3), if_pos (hfour.mpr h4)]
    · rw [hstatus, if_neg (mt hone.mp h1), if_neg (mt htwo.mp h2), if_neg (mt hthree.mp h3), if_neg (mt hfour.mp h4), h5]
      rfl
    have hzero (hlocks : ∀ x ∈ s.core.lines, m.getLsbD x.way.toNat = true → x.lock = []) : exec i s =
        .next (((s.emptied m).entered m target s.hadArray).result d 0) := by
      refine hexec.trans (wconv_zero hquiet ?_)
      rw [hstatus, if_neg (mt hone.mp h1), if_neg (mt htwo.mp h2), if_neg (mt hthree.mp h3), if_neg (mt hfour.mp ?_), versionsIn_none hversions]
      · rfl
      · rintro (⟨x, hx, hbit, hlock⟩ | ⟨x, hx, -, w, hplace, hbit⟩)
        · exact hlock (hlocks x hx hbit)
        · rw [hversions x hx w hplace] at hbit
          exact Bool.false_ne_true hbit
    refine ⟨fun hclear => ?_, fun hlines hway hlock hst _ hmem => ?_⟩
    · have hexec0 := hzero fun x hx hbit => by rw [hclear x hx] at hbit; exact absurd hbit Bool.false_ne_true
      rw [WaysEmpty.emptied ⟨hclear, hversions⟩] at hexec0
      exact ⟨_, hexec0, converted_entered d m array (.refl _) (.refl _) hwf hrows⟩
    · have hfirst : m.getLsbD 0 = false := by
        have hbit : v.getLsbD 0 = false := Bool.eq_false_iff.mpr fun h => h1 (.inr (.inl h))
        change (v.setWidth 8).getLsbD 0 = false
        rw [BitVec.getLsbD_setWidth, hbit, Bool.and_false]
      have hexec0 := hzero fun x hx _ => by rw [hlines, List.mem_singleton] at hx; rw [hx, hlock]
      have hsent := lineSent_sent hlines hst hmem
      rw [emptied_dirty hlines hway hfirst hst hmem hversions] at hexec0
      obtain ⟨hconverted, hpkg, hrest⟩ := converted_entered d m array hsent.hart hsent.core hwf hrows
      refine ⟨_, hexec0, hconverted, hrest.trans hsent.lines, ?_, ?_⟩
      · exact (congrArg (fun p => p.lineData l.line) hpkg).trans hsent.data
      · exact (congrArg (fun p => (p.home l.line).owner) hpkg).trans hsent.owner
  exact ⟨key _ true rfl, key _ false rfl⟩

theorem wayRelease : WayRelease := by
  intro d a s v m i pinned racked array
  have hone := badMask_iff v
  have htwo := anyWay_pinned m s
  have hthree := and_ne_zero_iff m s.core.rackWays
  have hstatus : s.wrelStatus v = if badMask v = true then 1 else if anyWay m s.pinned = true then 2
    else if (m &&& s.core.rackWays != 0#8) = true then 3 else 0 := rfl
  refine ⟨fun hbusy => ?_, fun hunits hout => ?_⟩
  · change execWrel d a s = _
    rw [execWrel, not_enginesQuiet hbusy]
    rfl
  have hquiet : s.enginesQuiet = true := (enginesQuiet_iff s).mpr ⟨hunits, hout⟩
  have gives (n : Nat) (hn : n ≠ 0) (h : s.wrelStatus v = n) : Gives i d (BitVec.ofNat 64 n) s :=
    gives_of_result (wrel_status hquiet h hn) rfl
  refine ⟨fun h1 => gives 1 (by decide) ?_, fun h1 h2 => gives 2 (by decide) ?_, fun h1 h2 h3 => gives 3 (by decide) ?_,
    fun h1 h2 h3 hwf => ?_⟩
  · rw [hstatus, if_pos (hone.mpr h1)]
  · rw [hstatus, if_neg (mt hone.mp h1), if_pos (htwo.mpr h2)]
  · rw [hstatus, if_neg (mt hone.mp h1), if_neg (mt htwo.mp h2), if_pos (hthree.mpr h3)]
  · have hexec : exec i s = .next ((s.releaseWays m).result d 0) := wrel_zero hquiet (hstatus.trans (by
      rw [if_neg (mt hone.mp h1), if_neg (mt htwo.mp h2), if_neg (mt hthree.mp h3)]))
    have hreleased := releaseWays_released m hwf
    refine ⟨_, hexec, ?_, ?_, ?_, ?_, ?_, ?_, ?_, ?_⟩
    · intro r
      rw [State.g_result, State.g, State.g, hreleased.hart]
    · constructor
      all_goals rw [State.result_hart, hreleased.hart]
    · rw [State.result_pkg, hreleased.pkg]
    · rw [State.result_core, hreleased.lines]
    · rw [State.result_core]
      exact hreleased.ways
    · rw [State.result_hart_vdirty, State.result_hart_pdirty]
      exact hreleased.array
    · rw [State.result_hart_vdirty, State.result_hart_pdirty]
      exact hreleased.other
    · intro o _ ho
      rw [State.result_core, hreleased.byte o ho]

/-- Settles O36: the conversions and the release, each by its statuses and by what status 0 changes. -/
theorem ways : Obligations.Ways := ⟨wayConversion, wayRelease⟩

end Sys2Proof
end

/-! A vector store at a line of which the core has a copy (08:R169, 10:R226, 16:R301): a cached translation of one byte takes the store
over the end of its line, where the copy holds its first byte alone; then the statement O28. -/

section
namespace Sys2Proof.Machine
open Claims

/-- A vector store of one element of eight bytes, at an address on an eight-byte boundary. -/
def crossingStore : UnitOp :=
  { State.reset.sample (.vst 0 1) 0 0 0 0 0 with mode := 0xC0#21, ga := 0x10000#64, vl := 1 }

/-- A cached translation with a page of one byte; its target is the last byte of a line. -/
def bytePage : TlbEntry :=
  { ctx := 0#8, va := 0x10000, bits := 0, pa := 0x1003F, mt := 0#2, r := true, w := true, x := true, sysp := false, cnt := false,
    leaf := 0x20000, dirty := true }

/-- The line at DPA 0x10000, owned and zero. -/
def zeroLine : Line :=
  { way := 0#3, line := 0x400, hyp := 0#12, st := .d, wts := 3#16, rts := 3#16, data := 0, poison := 0#8, lock := [], use := 1 }

/-- A hart with way 1 in ARRAY mode, 2^32 in element 0 of v0, that line, that translation, and the store in its queue. -/
def crossingState : State :=
  { State.reset with
    core := { Core.reset with
      ways := Vector.ofFn (fun i : Fin 8 => { mode := if i.val = 1 then .array else .cache, ctx := 0#8 })
      vrows := [(rowKey 1 (State.reset.hart.spot 0), 1#32)], lines := [zeroLine], tlb1 := [bytePage], units := [crossingStore] } }

theorem crossingState_lanes : LanesWf crossingState := ⟨by decide +kernel, by decide +kernel, by decide +kernel, rfl⟩

theorem crossingState_ready : UnitReady crossingStore [] crossingState := ⟨rfl, rfl, rfl, rfl, rfl, rfl, rfl⟩

theorem crossingState_onlyElem : OnlyElem crossingStore 1 0 crossingState := by
  refine ⟨Nat.le_refl 0, Nat.one_pos, fun e _ he => ?_⟩
  obtain rfl : e = 0 := by omega
  exact iff_of_true (by decide +kernel) rfl

theorem crossingState_locate : crossingState.locate 0x10000#64 8 .write true = .ok (.mem 0x1003F .wb false) crossingState := rfl

/-- The event stores the element's lowest byte, and what lies under the others is not in the line. -/
theorem crossingState_slot : ∃ t, exec .kneaderSlot crossingState = .next t ∧ t.peek 0x1003F 8 = 0 := ⟨_, rfl, by decide +kernel⟩

theorem crossingState_vGet : crossingState.vGet 0#4 64 0 = 2 ^ 32 := by decide +kernel

end Sys2Proof.Machine
end

section
namespace Sys2Proof
open Machine Claims

/-- Refutes O28: nothing says that a cached translation's page holds the element whole. One of a single byte puts an aligned
element of eight bytes at the last byte of an owned line, and the copy takes its lowest byte alone. -/
theorem not_vectorMemoryAtLines : ¬Obligations.VectorMemoryAtLines := by
  unfold Obligations.VectorMemoryAtLines
  intro h
  obtain ⟨-, hstore⟩ := h 0#4 0#4 1#5 0#5 0 0x1003F false zeroLine crossingStore [] crossingState crossingState
    crossingState_lanes crossingState_ready rfl rfl (by decide) (by decide +kernel) rfl rfl rfl
  obtain ⟨t, hexec, hpeek, -⟩ := hstore (by decide) crossingState_onlyElem (by decide +kernel) rfl rfl crossingState_locate rfl rfl
  obtain ⟨t', hexec', hpeek'⟩ := crossingState_slot
  obtain rfl : t = t' := by
    rw [hexec] at hexec'
    exact Host.Outcome.next.inj hexec'
  rw [show (modeEt crossingStore.mode).sew = 64 from rfl, crossingState_vGet] at hpeek
  exact absurd (hpeek.symm.trans hpeek') (by decide)

end Sys2Proof
end

/-! What a home does with a line that no core owns (08:R169, R172, 09:R203): the recall that finds nothing, a slice with room for the
line, and the times of a read and of a write. -/

section
namespace Sys2Proof.Machine
open Claims

/-! ### A slice with room (08:R172). -/

theorem countP_sparseSet_le {α : Type} [DecidableEq α] (d : α) (m : Sparse α) (k : Nat) (v : α) (q : Nat × α → Bool) :
    (sparseSet d m k v).countP q ≤ m.countP q + 1 := by
  induction m with
  | nil =>
    unfold sparseSet
    split
    · exact Nat.zero_le _
    · exact List.countP_le_length
  | cons e m ih =>
    obtain ⟨j, x⟩ := e
    have hput (l : Sparse α) : ((k, v) :: l).countP q ≤ l.countP q + 1 := by
      rw [List.countP_cons]
      split <;> omega
    have hcons : m.countP q ≤ ((j, x) :: m).countP q := List.countP_cons ▸ Nat.le_add_right _ _
    unfold sparseSet
    split
    · simp only [List.countP_cons]
      omega
    · have h := hput m
      have h' := hput ((j, x) :: m)
      repeat' split
      all_goals omega

theorem atAdapter_setHome (p : Pkg) (line : Nat) (h : HomeLine) (x : Nat) : (p.setHome line h).atAdapter x = p.atAdapter x := rfl

/-- The record of one line adds at most one entry to a slice. -/
theorem sliceEntries_setHome_le (p : Pkg) (line : Nat) (h : HomeLine) (k : Nat) :
    ((p.setHome line h).sliceEntries k).length ≤ (p.sliceEntries k).length + 1 := by
  have hcount := countP_sparseSet_le none p.homes line (some h)
    (fun e => e.2.isSome && (regionOf (e.1 * 64) = some .hbm && homeOf e.1 = k && !p.atAdapter e.1))
  simp only [List.countP_eq_length_filter] at hcount
  simp only [Pkg.sliceEntries, atAdapter_setHome, List.length_append, List.length_map]
  change (List.filter _ (sparseSet none p.homes line (some h))).length + (List.filter _ p.versions).length ≤ _
  omega

theorem settle_room {s : State} {line : Nat} (h : (s.pkg.sliceEntries (homeOf line)).length ≤ 16) : s.settle line = s := by
  unfold State.settle
  split
  · rfl
  · cases (s.pkg.sliceEntries (homeOf line)).length with
    | zero => rfl
    | succ n => exact if_pos h

/-! ### A recall that finds nothing (09:R203, 21:R371). -/

theorem meetErrors_unspoilt {s : State} {line : Nat} (h : Unspoilt s line) (own : Bool) : s.meetErrors line own = s := by
  obtain ⟨hsoft, hhard, -⟩ := h
  have hsoft' : s.pkg.memSoft.filter (fun e => e.1 / 8 = line) = [] :=
    List.filter_eq_nil_iff.mpr fun e he => by simpa using hsoft e he
  have hhard' : s.pkg.memHard.any (fun e => e.1 / 8 = line) = false := by
    rw [List.any_eq_false]
    exact fun e he => by simpa using hhard e he
  simp only [State.meetErrors, hsoft', hhard', List.isEmpty_nil, Bool.not_false, Bool.and_self, if_true]

theorem recall_free {s : State} {line : Nat} (howner : (s.pkg.home line).owner = none) (h : Unspoilt s line) (own : Bool) :
    s.recall line own = some s := by
  simp only [State.recall, howner, meetErrors_unspoilt h]

theorem recallFor_free {s : State} {line : Nat} (howner : (s.pkg.home line).owner = none) (h : Unspoilt s line) (own : Bool) :
    s.recallFor line 0#12 own = some s := by
  rw [State.recallFor, recall_free howner h]
  rfl

theorem homedLine_of_device {line : Nat} (h : isDevice (line * 64) = true) : homedLine line = true := by
  unfold isDevice at h
  unfold homedLine
  split at h
  next heq => rw [heq]
  next heq => rw [heq]
  next => exact absurd h Bool.false_ne_true

theorem not_host_of_device {line : Nat} (h : isDevice (line * 64) = true) : regionOf (line * 64) ≠ some .host := by
  intro hhost
  rw [isDevice, hhost] at h
  exact Bool.false_ne_true h

theorem hostUcLine_of_device {p : Pkg} {line : Nat} (h : isDevice (line * 64) = true) : p.hostUcLine line = false := by
  simp [Pkg.hostUcLine, not_host_of_device h]

theorem lineType_of_device {p : Pkg} {line : Nat} (h : isDevice (line * 64) = true) : p.lineType line = .wb := by
  simp [Pkg.lineType, hostUcLine_of_device h, not_host_of_device h]

theorem inHostBias_of_atAdapter {s : State} {line : Nat} (h : s.pkg.atAdapter line = false) : s.inHostBias (line * 64) = false := by
  rw [Pkg.atAdapter, Bool.or_eq_false_iff] at h
  exact h.2

section
variable {s : State} {line : Nat} (hc : CalmLine s line)
include hc

theorem calmLine_recallFor (own : Bool) : s.recallFor line 0#12 own = some s := recallFor_free hc.free.owner hc.unspoilt own

theorem calmLine_atHome (own : Bool) (k : State → State) : s.atHome line 0#12 own k = .next (k s) := by
  simp only [State.atHome, homedLine_of_device hc.free.device, calmLine_recallFor hc, Bool.not_true, Bool.false_eq_true, if_false]

theorem calmLine_not_owned (core : BitVec 9) : s.ownsLine core line 0#12 = false := by
  simp [State.ownsLine, hc.free.owner]

theorem calmLine_ownable : s.ownable line = true := by
  rw [State.ownable, hc.free.device, inHostBias_of_atAdapter hc.free.bias]
  rfl

end

/-! ### Times at the home (09:R203). -/

/-- Of the package only the home of one line has changed, and the largest wts. -/
structure HomeServed (line : Nat) (h : HomeLine) (s t : State) : Prop where
  hart : t.hart = s.hart
  core : t.core = s.core
  pkg : t.pkg = { s.pkg with homes := t.pkg.homes, maxWts := t.pkg.maxWts }
  home : HomeNow line h s t

theorem HomeServed.mem {line : Nat} {h : HomeLine} {s t : State} (hs : HomeServed line h s t) : t.pkg.mem = s.pkg.mem := by
  rw [hs.pkg]

/-- The line serves a read or a write from its slice, which has room for it. -/
structure SliceServes (s : State) (line : Nat) : Prop where
  bias : s.pkg.atAdapter line = false
  room : RoomInSlice s line

theorem calmLine_serves {s : State} {line : Nat} (hc : CalmLine s line) : SliceServes s line := ⟨hc.free.bias, hc.room⟩

theorem takeIn_slice {s : State} {line : Nat} (h : s.pkg.atAdapter line = false) :
    s.takeIn line = s.mapPkg (fun p => p.setHome line (p.home line)) := by
  rw [State.takeIn, h]
  rfl

theorem home_setHome_self (p : Pkg) (line x : Nat) : (p.setHome line (p.home line)).home x = p.home x := by
  rw [home_setHome]
  split
  next h => rw [h]
  next => rfl

/-- The package when the home of a line has been taken in and then written, and the largest wts. -/
def Pkg.withHome (p : Pkg) (line : Nat) (h : HomeLine) (w : BitVec 16) : Pkg :=
  { (p.setHome line (p.home line)).setHome line h with maxWts := w }

theorem withHome_home (p : Pkg) (line : Nat) (h : HomeLine) (w : BitVec 16) (x : Nat) :
    (p.withHome line h w).home x = if x = line then h else p.home x := by
  change ((p.setHome line (p.home line)).setHome line h).home x = _
  rw [home_setHome, home_setHome_self]

theorem withHome_slice (p : Pkg) (line : Nat) (h : HomeLine) (w : BitVec 16) (k : Nat) :
    ((p.withHome line h w).sliceEntries k).length ≤ (p.sliceEntries k).length + 2 :=
  (sliceEntries_setHome_le (p.setHome line (p.home line)) line h k).trans
    (Nat.add_le_add_right (sliceEntries_setHome_le p line (p.home line) k) 1)

/-- The state when a home has served a line. -/
def State.withHome (s : State) (line : Nat) (h : HomeLine) (w : BitVec 16) : State := s.mapPkg (fun p => p.withHome line h w)

theorem settle_withHome {s : State} {line : Nat} (hroom : RoomInSlice s line) (h : HomeLine) (w : BitVec 16) :
    (s.withHome line h w).settle line = s.withHome line h w :=
  settle_room ((withHome_slice s.pkg line h w (homeOf line)).trans hroom)

theorem withHome_served (s : State) (line : Nat) (h : HomeLine) (w : BitVec 16) : HomeServed line h s (s.withHome line h w) where
  hart := rfl
  core := rfl
  pkg := rfl
  home := ⟨(withHome_home s.pkg line h w line).trans (if_pos rfl), fun x hx => (withHome_home s.pkg line h w x).trans (if_neg hx)⟩

theorem grantRts_slice {p : Pkg} {line : Nat} (h : p.atAdapter line = false) (r : BitVec 16) : p.grantRts line r = p := by
  rw [Pkg.grantRts, h]
  rfl

/-- The record that a read with time t and a lease leaves. -/
def readRecord (h : HomeLine) (t : BitVec 16) (lease : BitVec 8) : HomeLine :=
  { h with rts := serMax h.rts (serMax t h.wts + lease.setWidth 16) }

theorem homeReadTimes_slice {s : State} {line : Nat} (hs : SliceServes s line) (t : BitVec 16) (lease : BitVec 8) :
    s.homeReadTimes line t lease = (s.withHome line (readRecord (s.pkg.home line) t lease) s.pkg.maxWts,
      readRecord (s.pkg.home line) t lease) := by
  unfold State.homeReadTimes
  rw [takeIn_slice hs.bias]
  dsimp only
  rw [State.mapPkg_pkg, home_setHome_self]
  refine Prod.ext ?_ rfl
  refine Eq.trans (congrArg (fun u : State => u.settle line) ?_) (settle_withHome hs.room _ _)
  exact congrArg (fun p => ({ s with pkg := p } : State))
    (grantRts_slice (p := s.pkg.withHome line (readRecord (s.pkg.home line) t lease) s.pkg.maxWts) hs.bias _)

/-- The time that a write with time t takes. -/
def writeTime (h : HomeLine) (t : BitVec 16) : BitVec 16 := serMax t (h.rts + 1#16)

theorem homeWriteTimes_slice {s : State} {line : Nat} (hs : SliceServes s line) {t w : BitVec 16} (hw : writeTime (s.pkg.home line) t = w)
    (hnear : Near s w) (owner : Option (BitVec 9)) : s.homeWriteTimes line t owner =
      (s.withHome line { wts := w, rts := w, owner := owner } (serMax s.pkg.maxWts w), w) := by
  subst hw
  unfold State.homeWriteTimes
  rw [takeIn_slice hs.bias]
  dsimp only
  rw [State.mapPkg_pkg, home_setHome_self]
  refine Prod.ext ?_ rfl
  refine Eq.trans (congrArg (fun u : State => u.settle line) ?_) (settle_withHome hs.room _ _)
  have hassign := assign_near (s := s.mapPkg fun p => p.setHome line (p.home line)) (w := writeTime (s.pkg.home line) t) hnear
  rw [show serMax t ((s.pkg.home line).rts + 1#16) = writeTime (s.pkg.home line) t from rfl, hassign]
  exact congrArg (fun p => ({ s with pkg := p } : State))
    (grantRts_slice (p := s.pkg.withHome line { wts := writeTime (s.pkg.home line) t, rts := writeTime (s.pkg.home line) t, owner := owner }
      (serMax s.pkg.maxWts (writeTime (s.pkg.home line) t))) hs.bias _)

end Sys2Proof.Machine
end

/-! Requests of another core at a home (09:R198, R203, 16:R307, 16:R316): reads and ownership, the race records that they enter and the
counters that they reach. -/

section
namespace Sys2Proof.Machine
open Claims

/-! ### A read and an ownership of another core (09:R203). -/

theorem execHomeRead_other {s : State} {r : CoreRequest} {line : Nat} (hcore : r.core ≠ s.core.num) :
    ∀ i ∈ [Instr.homeRead (.other r) line, .homeAcquireRead (.other r) line], exec i s = s.otherRead r line := by
  intro i hi
  simp only [List.mem_cons, List.not_mem_nil, or_false] at hi
  rcases hi with rfl | rfl
  · exact if_neg hcore
  · exact if_neg hcore

/-- What the home does with a read under the root that it may serve. -/
def State.servesRead (s : State) (r : CoreRequest) (line : Nat) : State :=
  match s.enterMark r line false with
  | none => s
  | some u => ((u.countRequest r line false).homeReadTimes line r.t r.lease).1

theorem otherRead_calm {s : State} {r : CoreRequest} {line : Nat} (hc : CalmLine s line) (hhyp : r.hyp = 0#12) :
    s.otherRead r line = .next (s.servesRead r line) := by
  rw [State.otherRead, hhyp, calmLine_not_owned hc, calmLine_atHome hc, State.servesRead]
  cases s.enterMark r line false with
  | none => rfl
  | some u => simp only [hostUcLine_of_device hc.free.device, Bool.false_eq_true, if_false]

/-- What the home does with a request for ownership under the root that it may serve. -/
def State.servesOwner (s : State) (r : CoreRequest) (line : Nat) : State :=
  match s.enterMark r line true with
  | none => s
  | some u => (((u.countRequest r line true).homeWriteTimes line r.t (some r.core)).1).wakeLine line

theorem homeOwnership_calm {s : State} {r : CoreRequest} {line : Nat} (hc : CalmLine s line) (hcore : r.core ≠ s.core.num)
    (hhyp : r.hyp = 0#12) : exec (.homeOwnership (.other r) line) s = .next (s.servesOwner r line) := by
  have hopen : (s.pkg.hypEntry 0#12).st = .open := rfl
  change execHomeOwnership (.other r) line s = _
  simp only [execHomeOwnership, calmLine_ownable hc, hcore, hopen, hhyp, calmLine_not_owned hc, calmLine_atHome hc, State.otherOwns,
    State.servesOwner, Bool.not_true, bne_self_eq_false, decide_false, Bool.or_self, Bool.false_eq_true, if_false, if_true] <;> rfl

theorem homeOwnership_never {s : State} {who : Requester} {line : Nat}
    (h : isDevice (line * 64) = false ∨ natSetHas s.pkg.hostBias (line * 64 / 4096) = true) :
    exec (.homeOwnership who line) s = .next s := by
  have hown : s.ownable line = false := by
    rw [State.ownable, State.inHostBias]
    rcases h with h | h <;> simp [h]
  change execHomeOwnership who line s = _
  simp only [execHomeOwnership, hown, Bool.not_false, if_true]

/-! ### An idle hart is woken (16:R316). -/

theorem wakeLine_core (s : State) (line : Nat) : (s.wakeLine line).core = s.core := by
  unfold State.wakeLine
  repeat' split
  all_goals rfl

theorem hartWoken_wakeLine {s t : State} (h : t.hart = s.hart) (line : Nat) : HartWoken line s (t.wakeLine line) := by
  unfold State.wakeLine
  split
  next l hit hrun =>
    rw [h] at hrun
    split
    next heq =>
      subst heq
      refine ⟨by rw [State.mapHart_hart, h], fun _ _ => rfl, fun hno => absurd hrun (hno _)⟩
    next hne =>
      refine ⟨by rw [h], fun x hx => ?_, fun _ => by rw [h]⟩
      rw [hrun] at hx
      injection hx with hline
      exact absurd (Option.some.inj hline) hne
  next hno =>
    refine ⟨by rw [h], fun x hx => ?_, fun _ => by rw [h]⟩
    exact absurd (h ▸ hx) (hno line x)

/-! ### Requests that no record and no counter knows. -/

theorem enterMark_plain {s : State} {r : CoreRequest} (h : r.race = none) (line : Nat) (write : Bool) :
    s.enterMark r line write = some s := by
  rw [State.enterMark, h]

theorem countRequest_plain {s : State} {r : CoreRequest} (h : r.count = none) (line : Nat) (write : Bool) :
    s.countRequest r line write = s := by
  rw [State.countRequest, h]

theorem servesRead_plain {s : State} {r : CoreRequest} {line : Nat} (hc : CalmLine s line) (hr : PlainRequest s r) :
    s.servesRead r line = s.withHome line (readRecord (s.pkg.home line) r.t r.lease) s.pkg.maxWts := by
  rw [State.servesRead, enterMark_plain hr.race]
  simp only [countRequest_plain hr.count, homeReadTimes_slice (calmLine_serves hc)]

theorem servesOwner_plain {s : State} {r : CoreRequest} {line : Nat} {w : BitVec 16} (hc : CalmLine s line) (hr : PlainRequest s r)
    (hw : writeTime (s.pkg.home line) r.t = w) (hnear : Near s w) : s.servesOwner r line =
      (s.withHome line { wts := w, rts := w, owner := some r.core } (serMax s.pkg.maxWts w)).wakeLine line := by
  rw [State.servesOwner, enterMark_plain hr.race]
  simp only [countRequest_plain hr.count, homeWriteTimes_slice (calmLine_serves hc) hw hnear]

theorem homeNow_of_pkg {line : Nat} {h : HomeLine} {s t u : State} (hn : HomeNow line h s t) (hp : u.pkg = t.pkg) :
    HomeNow line h s u := by
  unfold HomeNow
  rw [hp]
  exact hn

/-- Reads and ownership of another core (09:R203). -/
theorem otherRequests_served {s : State} {r : CoreRequest} {line : Nat} (hc : CalmLine s line) (hr : PlainRequest s r) :
    (∀ i ∈ [Instr.homeRead (.other r) line, .homeAcquireRead (.other r) line], Completes i s (fun u =>
      u.hart = s.hart ∧ u.core = s.core ∧ u.pkg.mem = s.pkg.mem ∧ HomeNow line (readRecord (s.pkg.home line) r.t r.lease) s u)) ∧
    (Near s (writeTime (s.pkg.home line) r.t) → Completes (.homeOwnership (.other r) line) s (fun u => HartWoken line s u ∧
      u.core = s.core ∧ u.pkg.mem = s.pkg.mem ∧ HomeNow line { wts := writeTime (s.pkg.home line) r.t
                                                               rts := writeTime (s.pkg.home line) r.t, owner := some r.core } s u)) := by
  constructor
  · intro i hi
    have hserved := withHome_served s line (readRecord (s.pkg.home line) r.t r.lease) s.pkg.maxWts
    refine ⟨_, (execHomeRead_other hr.core i hi).trans ?_, hserved.hart, hserved.core, hserved.mem, hserved.home⟩
    rw [otherRead_calm hc hr.hyp, servesRead_plain hc hr]
  · intro hnear
    have hexec := homeOwnership_calm hc hr.core hr.hyp
    rw [servesOwner_plain hc hr rfl hnear] at hexec
    have hserved := withHome_served s line { wts := writeTime (s.pkg.home line) r.t, rts := writeTime (s.pkg.home line) r.t
                                             owner := some r.core } (serMax s.pkg.maxWts (writeTime (s.pkg.home line) r.t))
    refine ⟨_, hexec, hartWoken_wakeLine hserved.hart line, (wakeLine_core _ _).trans hserved.core, ?_,
      homeNow_of_pkg hserved.home (State.wakeLine_pkg _ _)⟩
    rw [State.wakeLine_pkg]
    exact hserved.mem

/-! ### Race records of another core's request (09:R198, R200). -/

/-- The side of a record that the request enters. -/
def raceSide (r : CoreRequest) (m : RaceMark) : RaceSide :=
  { core := r.core, stamp := m.stamp, mask := BitVec.ofNat 8 ((2 ^ m.n - 1) * 2 ^ (m.off % 8)), hyp := 0#12 }

/-- The recorded side and the request are a race. -/
def Meets (p : Pkg) (r : CoreRequest) (m : RaceMark) (e : RaceSide) : Prop :=
  e.core ≠ r.core ∧ e.stamp = m.stamp ∧ e.mask &&& (raceSide r m).mask ≠ 0#8 ∧ (p.stamp - e.stamp).toNat ≤ 2 ^ 19

theorem unrelated_root (p : Pkg) (h : BitVec 12) : p.unrelated h 0#12 = false := by
  simp [Pkg.unrelated, Pkg.isAncestor]

theorem conflicts_iff (p : Pkg) (r : CoreRequest) (m : RaceMark) (e : RaceSide) :
    e.conflicts p (raceSide r m) = true ↔ Meets p r m e := by
  simp only [RaceSide.conflicts, show (raceSide r m).hyp = 0#12 from rfl, unrelated_root, Meets, Bool.and_eq_true, bne_iff_ne,
    decide_eq_true_eq, Bool.not_false, and_true, and_assoc]
  rfl

/-- A side of the record is a race with the request. -/
def hitsSide (p : Pkg) (r : CoreRequest) (m : RaceMark) (o : Option RaceSide) : Bool :=
  match o with
  | some e => e.conflicts p (raceSide r m)
  | none => false

theorem hitsSide_iff (p : Pkg) (r : CoreRequest) (m : RaceMark) (o : Option RaceSide) :
    hitsSide p r m o = true ↔ ∃ e, o = some e ∧ Meets p r m e := by
  cases o with
  | none => exact iff_of_false Bool.false_ne_true (fun ⟨_, h, _⟩ => nomatch h)
  | some e => exact (conflicts_iff p r m e).trans ⟨fun h => ⟨e, rfl, h⟩, fun ⟨_, h, hm⟩ => Option.some.inj h ▸ hm⟩

theorem not_hitsSide {p : Pkg} {r : CoreRequest} {m : RaceMark} {o : Option RaceSide} (h : ∀ e, o = some e → ¬Meets p r m e) :
    hitsSide p r m o = false := by
  rw [Bool.eq_false_iff, ne_eq, hitsSide_iff]
  exact fun ⟨e, he, hm⟩ => h e he hm

/-- The record that the request leaves. -/
def RaceRec.enter (x : RaceRec) (me : RaceSide) (write : Bool) : RaceRec :=
  if write then { x with writer := some me } else { x with reader := some me }

theorem enterMark_race {s : State} {r : CoreRequest} {line : Nat} {m : RaceMark} (hdev : isDevice (line * 64) = true)
    (hhyp : r.hyp = 0#12) (hm : r.race = some m) (write : Bool) : s.enterMark r line write =
      let rec_ := sparseGet RaceRec.empty s.pkg.races (line * 8 + m.off / 8)
      if (hitsSide s.pkg r m rec_.writer || (write && hitsSide s.pkg r m rec_.reader)) = true then none
      else some { s with pkg := { s.pkg with
        races := sparseSet RaceRec.empty s.pkg.races (line * 8 + m.off / 8) (rec_.enter (raceSide r m) write) } } := by
  have hword : (line * 64 + m.off) / 8 = line * 8 + m.off / 8 := by omega
  have hbyte : (line * 64 + m.off) % 8 = m.off % 8 := by omega
  have hcheck : s.pkg.raceCheck r.core m.stamp 0#12 (line * 64 + m.off) m.n write =
      let rec_ := sparseGet RaceRec.empty s.pkg.races (line * 8 + m.off / 8)
      if (hitsSide s.pkg r m rec_.writer || (write && hitsSide s.pkg r m rec_.reader)) = true then none
      else some { s.pkg with
        races := sparseSet RaceRec.empty s.pkg.races (line * 8 + m.off / 8) (rec_.enter (raceSide r m) write) } := by
    rw [Pkg.raceCheck, hword, hbyte]
    rfl
  rw [State.enterMark, hm]
  simp only [hdev, if_true, hhyp, hcheck]
  split <;> rfl

theorem enter_ne_empty (x : RaceRec) (me : RaceSide) (write : Bool) : x.enter me write ≠ RaceRec.empty := by
  unfold RaceRec.enter
  split
  · exact fun h => nomatch congrArg RaceRec.writer h
  · exact fun h => nomatch congrArg RaceRec.reader h

/-- The request that no record stops, entered. -/
def State.entersRace (s : State) (r : CoreRequest) (line : Nat) (m : RaceMark) (write : Bool) : State :=
  s.mapPkg fun p => { p with
    races := sparseSet RaceRec.empty p.races (line * 8 + m.off / 8)
      ((sparseGet RaceRec.empty p.races (line * 8 + m.off / 8)).enter (raceSide r m) write) }

theorem entersRace_races (s : State) (r : CoreRequest) (line : Nat) (m : RaceMark) (write : Bool) (y : Nat) :
    sparseGet RaceRec.empty (s.entersRace r line m write).pkg.races y = if y = line * 8 + m.off / 8 then
      (sparseGet RaceRec.empty s.pkg.races (line * 8 + m.off / 8)).enter (raceSide r m) write
    else sparseGet RaceRec.empty s.pkg.races y :=
  sparseGet_set_present _ _ _ (enter_ne_empty _ _ _)

theorem entersRace_serves {s : State} {r : CoreRequest} {line : Nat} {m : RaceMark} {write : Bool} (h : SliceServes s line) :
    SliceServes (s.entersRace r line m write) line := ⟨h.bias, h.room⟩

/-- What the records do to a request of another core for a line that its home may serve (09:R198). -/
theorem otherRequests_race {s : State} {r : CoreRequest} {line : Nat} {m : RaceMark} (hc : CalmLine s line) (hcore : r.core ≠ s.core.num)
    (hhyp : r.hyp = 0#12) (hcount : r.count = none) (hm : r.race = some m) :
    let rec_ := sparseGet RaceRec.empty s.pkg.races (line * 8 + m.off / 8)
    let enters (i : Instr) (write : Bool) : Prop := Completes i s (fun u => ∀ y, sparseGet RaceRec.empty u.pkg.races y =
      if y = line * 8 + m.off / 8 then rec_.enter (raceSide r m) write else sparseGet RaceRec.empty s.pkg.races y)
    ((∃ e, rec_.writer = some e ∧ Meets s.pkg r m e) → exec (.homeRead (.other r) line) s = .next s ∧
      exec (.homeOwnership (.other r) line) s = .next s) ∧
    ((∃ e, rec_.reader = some e ∧ Meets s.pkg r m e) → exec (.homeOwnership (.other r) line) s = .next s) ∧
    ((∀ e, rec_.writer = some e → ¬Meets s.pkg r m e) → enters (.homeRead (.other r) line) false ∧
      ((∀ e, rec_.reader = some e → ¬Meets s.pkg r m e) → Near s (writeTime (s.pkg.home line) r.t) →
        enters (.homeOwnership (.other r) line) true)) := by
  intro rec_ enters
  have hread : exec (.homeRead (.other r) line) s = .next (s.servesRead r line) :=
    (execHomeRead_other hcore _ List.mem_cons_self).trans (otherRead_calm hc hhyp)
  have hown := homeOwnership_calm hc hcore hhyp
  have hmark (write : Bool) : s.enterMark r line write =
      if (hitsSide s.pkg r m rec_.writer || (write && hitsSide s.pkg r m rec_.reader)) = true then none
      else some (s.entersRace r line m write) := enterMark_race hc.free.device hhyp hm write
  rw [State.servesRead, hmark, Bool.false_and, Bool.or_false] at hread
  rw [State.servesOwner, hmark, Bool.true_and] at hown
  refine ⟨fun hwriter => ?_, fun hreader => ?_, fun hwriter => ⟨?_, fun hreader hnear => ?_⟩⟩
  · rw [(hitsSide_iff s.pkg r m rec_.writer).mpr hwriter] at hread hown
    exact ⟨hread, hown⟩
  · rw [(hitsSide_iff s.pkg r m rec_.reader).mpr hreader, Bool.or_true] at hown
    exact hown
  · rw [not_hitsSide hwriter, if_neg Bool.false_ne_true] at hread
    simp only [countRequest_plain hcount, homeReadTimes_slice (entersRace_serves (calmLine_serves hc))] at hread
    exact ⟨_, hread, entersRace_races s r line m false⟩
  · rw [not_hitsSide hwriter, not_hitsSide hreader, if_neg (by decide)] at hown
    simp only [countRequest_plain hcount, homeWriteTimes_slice (w := writeTime (s.pkg.home line) r.t)
      (entersRace_serves (calmLine_serves hc)) rfl hnear] at hown
    refine ⟨_, hown, fun y => ?_⟩
    rw [State.wakeLine_pkg]
    exact entersRace_races s r line m true y

/-! ### The counter of another core's read (16:R307). -/

theorem countRequest_below {s : State} {r : CoreRequest} {line : Nat} {m : CountMark} (hm : r.count = some m)
    (hregion : regionOf (line * 64) = some .pantry)
    (hbelow : 11 < m.acx.toNat ∨
      ((sparseGet Counter.zero s.pkg.counters (line * 64 / 65536)).n + 1#16).toNat < 2 ^ (m.acx.toNat + 4)) :
    s.countRequest r line false = s.mapPkg fun p => { p with
      counters := sparseSet Counter.zero p.counters (line * 64 / 65536)
        { sparseGet Counter.zero s.pkg.counters (line * 64 / 65536) with
          n := (sparseGet Counter.zero s.pkg.counters (line * 64 / 65536)).n + 1#16 } } := by
  have hno : (decide (m.acx.toNat ≤ 11) && decide (2 ^ (m.acx.toNat + 4) ≤
      ((sparseGet Counter.zero s.pkg.counters (line * 64 / 65536)).n + 1#16).toNat)) = false := by
    rw [Bool.and_eq_false_iff, decide_eq_false_iff_not, decide_eq_false_iff_not]
    omega
  rw [State.countRequest, hm]
  simp only [State.countMark, hregion, hno, decide_true, Bool.or_true, if_true, Bool.false_eq_true, if_false, Bool.or_false]

theorem otherRead_counts {s : State} {r : CoreRequest} {line : Nat} {m : CountMark} (hc : CalmLine s line) (hcore : r.core ≠ s.core.num)
    (hhyp : r.hyp = 0#12) (hrace : r.race = none) (hregion : regionOf (line * 64) = some .pantry)
    (hwf : sparseWf Counter.zero s.pkg.counters = true) (hm : r.count = some m) :
    let c := sparseGet Counter.zero s.pkg.counters (line * 64 / 65536)
    (11 < m.acx.toNat ∨ (c.n + 1#16).toNat < 2 ^ (m.acx.toNat + 4)) → Completes (.homeRead (.other r) line) s (fun u =>
      u.hart = s.hart ∧ ∀ y, sparseGet Counter.zero u.pkg.counters y =
        if y = line * 64 / 65536 then { c with n := c.n + 1#16 } else sparseGet Counter.zero s.pkg.counters y) := by
  intro c hbelow
  have hread : exec (.homeRead (.other r) line) s = .next (s.servesRead r line) :=
    (execHomeRead_other hcore _ List.mem_cons_self).trans (otherRead_calm hc hhyp)
  have hcounted := countRequest_below hm hregion hbelow
  have hserves : SliceServes (s.countRequest r line false) line := by
    rw [hcounted]
    exact ⟨hc.free.bias, hc.room⟩
  rw [State.servesRead, enterMark_plain hrace] at hread
  simp only [homeReadTimes_slice hserves] at hread
  refine ⟨_, hread, ?_, fun y => ?_⟩
  · rw [hcounted]
    rfl
  · rw [hcounted]
    exact sparseGet_set hwf _ y _

end Sys2Proof.Machine
end

/-! Requests of this core at a home (08:R167, R169, 09:R203, R208): a read, an ownership and the reply that fills a way, on an empty
cache; in the maintenance regime none of them. -/

section
namespace Sys2Proof.Machine
open Claims

/-! ### A way of an empty cache (08:R167). -/

theorem slotState_empty {s : State} (hlines : s.core.lines = []) (hversions : s.pkg.versions = []) (w : BitVec 3) (set : Nat) :
    s.slotState w set = .empty := by
  simp only [State.slotState, hlines, hversions, List.find?_nil]

theorem chooseWay_empty {s : State} (h : EmptyCache s) (set : Nat) : s.chooseWay set = some 0#3 := by
  obtain ⟨hlines, hversions, hmode⟩ := h
  have hmode0 : (s.core.ways[(BitVec.ofNat 3 0).toNat]).mode = .cache := hmode
  simp only [State.chooseWay, List.range_succ_eq_map, List.map_cons, List.filter_cons, hmode0, decide_true, if_true,
    List.find?_cons, slotState_empty hlines hversions]

theorem evict_empty {s : State} (h : EmptyCache s) (w : BitVec 3) (set : Nat) : s.evict w set = s := by
  obtain ⟨hlines, hversions, -⟩ := h
  simp only [State.evict, hlines, hversions, List.find?_nil]

theorem fill_empty {s : State} (h : EmptyCache s) (hinj : NoInjection s) (l : Line) :
    s.fill l = (s.mapCore (·.putLine { l with way := 0#3 }), true) := by
  have hfind : s.core.findLine l.line l.hyp = none := by rw [Core.findLine, h.1]; rfl
  have hinj' : s.core.injArm = false := hinj
  simp only [State.fill, hfind, chooseWay_empty h, evict_empty h, State.placeLine, hinj', Bool.false_and, Bool.false_eq_true, if_false]

/-- The only line of a cache that was empty. -/
theorem putLine_empty {c : Core} (h : c.lines = []) (l : Line) : (c.putLine l).lines = [{ l with use := c.useClock + 1 }] := by
  rw [Core.putLine, h]
  rfl

/-! ### Requests of this core (09:R203, R205). -/

theorem ownRead_calm {s : State} {line : Nat} (hc : CalmLine s line) (hmaint : s.hart.maint = false) (o : MemOrd) :
    s.ownRead line o = .next ((s.withHome line (readRecord (s.pkg.home line) s.hart.ltime s.hart.lease) s.pkg.maxWts).returned
      (some (s.pkg.home line).wts) o) := by
  rw [State.ownRead, calmLine_not_owned hc, hmaint, calmLine_atHome hc]
  simp only [hostUcLine_of_device hc.free.device, homeReadTimes_slice (calmLine_serves hc), Bool.or_self, Bool.false_eq_true, if_false]
  rfl

theorem homeOwnership_self_calm {s : State} {line : Nat} (hc : CalmLine s line) (hmaint : s.hart.maint = false) :
    exec (.homeOwnership .self line) s = .next (s.takeLine line) := by
  change execHomeOwnership .self line s = _
  simp only [execHomeOwnership, calmLine_ownable hc, calmLine_not_owned hc, hmaint, calmLine_atHome hc, Bool.not_true, Bool.or_self,
    Bool.false_eq_true, if_false]

/-- The line that this core takes from its home. -/
def takenLine (s : State) (line : Nat) (w : BitVec 16) : Line := copyOf line 0#12 .o w w (s.homeImage line)

theorem takeLine_empty {s : State} {line : Nat} {w : BitVec 16} (hc : CalmLine s line) (hw : writeTime (s.pkg.home line) s.hart.ltime = w)
    (hnear : Near s w) (hempty : EmptyCache s) (hinj : NoInjection s) : s.takeLine line =
      ((s.withHome line { wts := w, rts := w, owner := some s.core.num } (serMax s.pkg.maxWts w)).mapHart
        (fun h => { h with ltime := w })).mapCore (·.putLine (takenLine s line w)) := by
  unfold State.takeLine
  rw [homeWriteTimes_slice (calmLine_serves hc) hw hnear]
  dsimp only
  rw [fill_empty (s := (s.withHome line { wts := w, rts := w, owner := some s.core.num } (serMax s.pkg.maxWts w)).mapHart
        (fun h => { h with ltime := w })) hempty hinj]
  rfl

theorem owned_putLine_empty {c : Core} {l : Line} (h : c.lines = []) (hhyp : l.hyp = 0#12) (hst : l.st ≠ .v) :
    (c.putLine l).owned l.line = some { l with use := c.useClock + 1 } := by
  rw [Core.owned, putLine_empty h]
  simp [hhyp, hst]

theorem findLine_putLine_empty {c : Core} {l : Line} (h : c.lines = []) :
    (c.putLine l).findLine l.line l.hyp = some { l with use := c.useClock + 1 } := by
  rw [Core.findLine, putLine_empty h]
  simp

theorem lineFill_empty {s : State} {line : Nat} (hc : CalmLine s line) (hmaint : s.hart.maint = false) (hempty : EmptyCache s)
    (hinj : NoInjection s) : exec (.lineFill line) s = .next (s.mapCore
      (·.putLine (copyOf line 0#12 .v (s.pkg.home line).wts (s.pkg.home line).rts (s.homeImage line)))) := by
  have hfind : s.core.findLine line 0#12 = none := by rw [Core.findLine, hempty.1]; rfl
  change execLineFill line s = _
  simp only [execLineFill, homedLine_of_device hc.free.device, hmaint, hfind, hc.free.owner, inHostBias_of_atAdapter hc.free.bias,
    hostUcLine_of_device hc.free.device, meetErrors_unspoilt hc.unspoilt, hc.free.bias, fill_empty hempty hinj, Bool.not_true,
    Option.isSome_none, Bool.or_self, Bool.false_eq_true, if_false]
  rfl

theorem ownRequests_served {s : State} {line : Nat} (hc : CalmLine s line) (hmaint : s.hart.maint = false) :
    let h := s.pkg.home line
    let read := readRecord h s.hart.ltime s.hart.lease
    let w := writeTime h s.hart.ltime
    let noted := some (match s.hart.maxRead with | none => h.wts | some m => serMax m h.wts)
    Completes (.homeRead .self line) s (fun u => u.core = s.core ∧ u.pkg.mem = s.pkg.mem ∧ HomeNow line read s u ∧
      u.hart = { s.hart with maxRead := noted }) ∧
    Completes (.homeAcquireRead .self line) s (fun u => u.core = s.core ∧ u.pkg.mem = s.pkg.mem ∧ HomeNow line read s u ∧
      u.hart = { s.hart with ltime := serMax s.hart.ltime h.wts, maxRead := noted }) ∧
    (Near s w → EmptyCache s → NoInjection s → Completes (.homeOwnership .self line) s (fun u =>
      u.hart = { s.hart with ltime := w } ∧ u.pkg.mem = s.pkg.mem ∧ HomeNow line { wts := w, rts := w, owner := some s.core.num } s u ∧
      ∃ x, u.core.owned line = some x ∧ x.st = .o ∧ x.data = s.pkg.lineData line ∧ x.wts = w)) ∧
    (EmptyCache s → NoInjection s → Completes (.lineFill line) s (fun u => u.hart = s.hart ∧ u.pkg.mem = s.pkg.mem ∧ HomeNow line h s u ∧
      ∃ x, u.core.findLine line 0#12 = some x ∧ x.st = .v ∧ x.data = s.pkg.lineData line ∧ x.wts = h.wts ∧ x.rts = h.rts)) := by
  intro h read w noted
  have hserved := withHome_served s line read s.pkg.maxWts
  refine ⟨⟨_, ownRead_calm hc hmaint .rlx, rfl, rfl, hserved.home, rfl⟩, ⟨_, ownRead_calm hc hmaint .acq, rfl, rfl, hserved.home, rfl⟩,
    fun hnear hempty hinj => ?_, fun hempty hinj => ?_⟩
  · have hexec := homeOwnership_self_calm hc hmaint
    rw [takeLine_empty hc rfl hnear hempty hinj] at hexec
    have howned := withHome_served s line { wts := w, rts := w, owner := some s.core.num } (serMax s.pkg.maxWts w)
    exact ⟨_, hexec, rfl, rfl, howned.home, _, owned_putLine_empty hempty.1 rfl (by simp [takenLine, copyOf]), rfl, rfl, rfl⟩
  · exact ⟨_, lineFill_empty hc hmaint hempty hinj, rfl, rfl, ⟨rfl, fun _ _ => rfl⟩, _,
      findLine_putLine_empty (l := copyOf line 0#12 .v h.wts h.rts (s.homeImage line)) hempty.1, rfl, rfl, rfl, rfl⟩

theorem ownRequests_maint {s : State} {line : Nat} (hmaint : s.hart.maint = true) :
    ∀ i ∈ [Instr.homeRead .self line, .homeAcquireRead .self line, .homeOwnership .self line, .lineFill line],
      exec i s = .next s := by
  have hread (o : MemOrd) : s.ownRead line o = .next s := by
    rw [State.ownRead, hmaint, Bool.or_true]
    rfl
  have hown : execHomeOwnership .self line s = .next s := by
    simp only [execHomeOwnership, hmaint, Bool.or_true, if_true, ite_self]
  have hfill : execLineFill line s = .next s := by
    simp only [execLineFill, hmaint, Bool.or_true, Bool.true_or, if_true]
  intro i hi
  simp only [List.mem_cons, List.not_mem_nil, or_false] at hi
  rcases hi with rfl | rfl | rfl | rfl
  · exact hread .rlx
  · exact hread .acq
  · exact hown
  · exact hfill

end Sys2Proof.Machine
end

/-! An atomic at its home (10:R218 to R220), of another core and of this one: the old value is the line's, the new one that of the
table, and no other byte changes. -/

section
namespace Sys2Proof.Machine
open Claims

/-! ### Bytes of a line (08:R167). -/

theorem cellsNat_append (m : List Host.Cell) (a k n : Nat) :
    cellsNat m a (k + n) = cellsNat m a k + 2 ^ (8 * k) * cellsNat m (a + k) n := by
  induction k generalizing a with
  | zero => simp [cellsNat, cellsGet, ofBytes]
  | succ k ih =>
    have hstep (j : Nat) : cellsNat m a (j + 1) = (cellGet m a).toNat + 256 * cellsNat m (a + 1) j := rfl
    rw [show k + 1 + n = k + n + 1 by omega, hstep, hstep, ih, show a + 1 + k = a + (k + 1) by omega,
      show 8 * (k + 1) = 8 * k + 8 by omega, Nat.pow_add]
    ring

theorem cellsNat_lt (m : List Host.Cell) (a n : Nat) : cellsNat m a n < 2 ^ (8 * n) := by
  induction n generalizing a with
  | zero => exact Nat.one_pos
  | succ n ih =>
    have hbyte := (cellGet m a).isLt
    have hrest := ih (a + 1)
    change (cellGet m a).toNat + 256 * cellsNat m (a + 1) n < _
    rw [show 8 * (n + 1) = 8 * n + 8 by omega, Nat.pow_add]
    omega

theorem cellsNat_slice (m : List Host.Cell) (a : Nat) {o n len : Nat} (h : o + n ≤ len) :
    cellsNat m a len / 2 ^ (8 * o) % 2 ^ (8 * n) = cellsNat m (a + o) n := by
  obtain ⟨r, rfl⟩ := Nat.exists_eq_add_of_le h
  rw [Nat.add_assoc, cellsNat_append m a o (n + r), Nat.add_mul_div_left _ _ (Nat.two_pow_pos _), Nat.div_eq_of_lt (cellsNat_lt m a o),
    Nat.zero_add, cellsNat_append m (a + o) n r, Nat.add_mul_mod_self_left, Nat.mod_eq_of_lt (cellsNat_lt m (a + o) n)]

theorem toNat_ofNat_lt {w x : Nat} (h : x < 2 ^ w) : (BitVec.ofNat w x).toNat = x := by
  rw [BitVec.toNat_ofNat, Nat.mod_eq_of_lt h]

theorem lineNat_lineData (p : Pkg) {dpa n : Nat} (h : dpa % 64 + n ≤ 64) :
    lineNat (p.lineData (dpa / 64)) (dpa % 64) n = p.read dpa n := by
  have hlt := cellsNat_lt p.mem (dpa / 64 * 64) 64
  rw [show 8 * 64 = 512 from rfl] at hlt
  rw [lineNat, Pkg.lineData, Pkg.read, toNat_ofNat_lt hlt, cellsNat_slice _ _ h, Pkg.read,
    show dpa / 64 * 64 + dpa % 64 = dpa by omega]

/-! ### The table of atomics (10:R218). -/

theorem amoNew_eq_amoTable (op : AmoOp) {n : Nat} (hn : 0 < n) (old v cmp : Nat) : amoNew op n old v cmp = amoTable op n old v cmp := by
  have hv : BitVec.ofNat (8 * n) (v % 2 ^ (8 * n)) = BitVec.ofNat (8 * n) v := by
    rw [← BitVec.toNat_inj, BitVec.toNat_ofNat, BitVec.toNat_ofNat, Nat.mod_mod]
  have hbits : 0 < 8 * n := by omega
  cases op with
  | add => exact congrArg some (Nat.add_mod_mod _ _ _)
  | min => simp only [amoNew, amoTable, readInt_signed _ hbits, hv]
  | max => simp only [amoNew, amoTable, readInt_signed _ hbits, hv]
  | minu => rfl
  | maxu => exact congrArg some (max_comm _ _)
  | _ => rfl

theorem amoTable_lt {op : AmoOp} {n old v cmp w : Nat} (h : amoTable op n old v cmp = some w) (hold : old < 2 ^ (8 * n)) :
    w < 2 ^ (8 * n) := by
  have hv : v % 2 ^ (8 * n) < 2 ^ (8 * n) := Nat.mod_lt _ (Nat.two_pow_pos _)
  have hpick (c : Prop) [Decidable c] : (if c then old else v % 2 ^ (8 * n)) < 2 ^ (8 * n) := by
    split
    · exact hold
    · exact hv
  cases op with
  | ald => exact absurd h (by simp [amoTable])
  | cas =>
    simp only [amoTable] at h
    split at h
    · exact Option.some.inj h ▸ hv
    · exact absurd h (Option.some_ne_none w).symm
  | ast => exact Option.some.inj h ▸ hv
  | swap => exact Option.some.inj h ▸ hv
  | add => exact Option.some.inj h ▸ Nat.mod_lt _ (Nat.two_pow_pos _)
  | and => exact Option.some.inj h ▸ Nat.and_lt_two_pow _ hv
  | or => exact Option.some.inj h ▸ Nat.or_lt_two_pow hold hv
  | xor => exact Option.some.inj h ▸ Nat.xor_lt_two_pow hold hv
  | min => exact Option.some.inj h ▸ hpick _
  | max => exact Option.some.inj h ▸ hpick _
  | minu => exact Option.some.inj h ▸ hpick _
  | maxu => exact Option.some.inj h ▸ hpick _

/-! ### What an atomic leaves. -/

/-- The package with the new value of an atomic, where it has one. -/
def Pkg.atomically (p : Pkg) (dpa n : Nat) (new : Option Nat) : Pkg :=
  match new with
  | none => p
  | some w => p.writeNat dpa n w

/-- Memory holds the new value of an atomic; registers and bench are as before. -/
structure AtomicServed (dpa n : Nat) (new : Option Nat) (s u : State) : Prop where
  mem : u.pkg.mem = (s.pkg.atomically dpa n new).mem
  regs : u.hart.g = s.hart.g
  bench : u.core.bench = s.core.bench

theorem atomicServed_bytes {dpa n : Nat} {op : AmoOp} {v cmp : Nat} {s u : State} (hwf : s.MemWf)
    (h : AtomicServed dpa n (amoTable op n (s.pkg.read dpa n) v cmp) s u) :
    u.pkg.read dpa n = (amoTable op n (s.pkg.read dpa n) v cmp).getD (s.pkg.read dpa n) ∧
      (∀ x, (x < dpa ∨ dpa + n ≤ x) → u.pkg.read x 1 = s.pkg.read x 1) ∧ SameRegs s u ∧
      ∀ o, u.core.benchNat o 1 = s.core.benchNat o 1 := by
  obtain ⟨hmem, hregs, hbench⟩ := h
  have hwf' : Memory.wf s.pkg.mem = true := hwf
  refine ⟨?_, fun x hx => ?_, fun r => by rw [State.g, State.g, hregs], fun o => benchNat_bench hbench o⟩
  · rw [read_congr hmem]
    cases hnew : amoTable op n (s.pkg.read dpa n) v cmp with
    | none => rfl
    | some w =>
      exact (Pkg.read_writeNat_self _ _ _ _ hwf').trans (Nat.mod_eq_of_lt (amoTable_lt hnew (cellsNat_lt _ _ _)))
  · rw [read_congr hmem]
    cases amoTable op n (s.pkg.read dpa n) v cmp with
    | none => rfl
    | some w => exact Pkg.read_writeNat_apart _ _ _ _ _ _ hwf' (by omega)

/-! ### An atomic of another core (10:R219). -/

theorem noteStale_g (s : State) (dpa n : Nat) : (s.noteStale dpa n).hart.g = s.hart.g := by
  rw [noteStale_hart]

theorem wakeLine_g (s : State) (line : Nat) : (s.wakeLine line).hart.g = s.hart.g := by
  unfold State.wakeLine
  repeat' split
  all_goals rfl

/-- An aligned access of a line without an error, at a home that may serve it. -/
structure AtomicReady (dpa n : Nat) (s : State) : Prop where
  calm : CalmLine s (dpa / 64)
  fits : dpa % 64 + n ≤ 64
  size : 0 < n
  poison : s.pkg.linePoison (dpa / 64) = 0#8

theorem atomicReady_old {dpa n : Nat} {s : State} (h : AtomicReady dpa n s) (op : AmoOp) (v cmp : Nat) :
    amoNew op n (lineNat (s.homeImage (dpa / 64)).1 (dpa % 64) n) v cmp = amoTable op n (s.pkg.read dpa n) v cmp := by
  rw [amoNew_eq_amoTable op h.size]
  exact congrArg (fun x => amoTable op n x v cmp) (lineNat_lineData s.pkg h.fits)

theorem compose_root (s : State) (line : Nat) (base : BitVec 512 × BitVec 8) : s.compose line 0#12 base = base := rfl

theorem otherAtomic_served {s : State} {r : CoreRequest} {dpa n : Nat} {op : AmoOp} {v cmp : Nat} (h : AtomicReady dpa n s)
    (hr : PlainRequest s r) (hnear : Near s (writeTime (s.pkg.home (dpa / 64)) r.t)) :
    AtomicServed dpa n (amoTable op n (s.pkg.read dpa n) v cmp) s (s.otherAtomic r dpa n op v cmp) := by
  have hhyp : s.pkg.requestHyp r (dpa / 64) = 0#12 := by
    rw [Pkg.requestHyp, hr.hyp, ite_self]
  have hserves := calmLine_serves h.calm
  have hserves' : SliceServes (s.noteStale dpa n) (dpa / 64) := ⟨hserves.bias, hserves.room⟩
  have hnotHit : poisonHit (s.homeImage (dpa / 64)).2 (dpa % 64) n = false := by
    rw [State.homeImage, h.poison, poisonHit_zero]
  unfold State.otherAtomic
  simp only [hhyp, compose_root, hnotHit, atomicReady_old h, hostUcLine_of_device h.calm.free.device, enterMark_plain hr.race,
    countRequest_plain hr.count, Bool.not_false, Bool.false_eq_true, if_false, if_true]
  cases amoTable op n (s.pkg.read dpa n) v cmp with
  | none =>
    simp only [homeReadTimes_slice hserves]
    exact ⟨rfl, rfl, rfl⟩
  | some w =>
    simp only [homeWriteTimes_slice (w := writeTime (s.pkg.home (dpa / 64)) r.t) hserves' rfl hnear]
    refine ⟨?_, ?_, ?_⟩
    · rw [State.wakeLine_pkg]
      rfl
    · rw [wakeLine_g]
      exact noteStale_g s dpa n
    · rw [wakeLine_core]
      rfl

/-! ### An atomic of this core, on an empty cache. -/

theorem dropTagged_empty {s : State} (h : s.core.lines = []) (line : Nat) :
    s.dropTagged line = s.mapCore (·.dropLines fun l => (l.line = line && l.hyp != 0#12) && l.lock.isEmpty) := by
  simp only [State.dropTagged, State.refreshCopies, State.dropLines, h, List.filter_nil, List.map_nil, List.foldl_nil]

theorem route_calm {s : State} {dpa : Nat} (h : s.pkg.atAdapter (dpa / 64) = false) :
    s.route dpa .wb = if s.hart.maint = true then .plain else .cached := by
  have hbias := inHostBias_of_atAdapter h
  rw [State.inHostBias, show dpa / 64 * 64 / 4096 = dpa / 4096 by omega] at hbias
  simp only [State.route, State.inHostBias, hbias, Bool.false_eq_true, if_false]

theorem throughMesh_sound {s : State} (h : s.core.meshFault = false) (line : Nat) (q : BitVec 8) : s.throughMesh line q = (s, q) := by
  rw [State.throughMesh, h]
  rfl

theorem meshWrite_sound {s : State} {dpa n w : Nat} (h : s.core.meshFault = false) :
    s.meshWrite dpa n w = s.mapPkg (fun p => p.writeNat dpa n w) := by
  rw [State.meshWrite, h]
  rfl

/-- A write of this core at a home that may serve it. -/
theorem homeWrite_served {s : State} {dpa n w : Nat} {timed : Bool} (hc : CalmLine s (dpa / 64)) (hempty : EmptyCache s)
    (hnear : timed = true → Near s (writeTime (s.pkg.home (dpa / 64)) s.hart.ltime)) :
    ∃ u, (s.noteStale dpa n).homeWrite (dpa / 64) dpa n w timed false = some u ∧ AtomicServed dpa n (some w) s u := by
  have hserves := calmLine_serves hc
  have hltime : (s.noteStale dpa n).hart.ltime = s.hart.ltime := by rw [noteStale_hart]
  have hrecall : (s.noteStale dpa n).recall (dpa / 64) = some (s.noteStale dpa n) :=
    recall_free (s := s.noteStale dpa n) hc.free.owner hc.unspoilt true
  obtain ⟨-, -, hmesh⟩ := hc.unspoilt
  unfold State.homeWrite
  simp only [State.countAccess, Bool.false_eq_true, if_false, hrecall, Option.map_some]
  refine ⟨_, rfl, ?_⟩
  cases timed with
  | false =>
    simp only [Bool.false_eq_true, if_false]
    rw [meshWrite_sound, dropTagged_empty]
    · exact ⟨rfl, noteStale_g s dpa n, rfl⟩
    · exact hempty.1
    · exact hmesh
  | true =>
    have htimes := homeWriteTimes_slice (s := s.noteStale dpa n) (t := (s.noteStale dpa n).hart.ltime) ⟨hserves.bias, hserves.room⟩
      (congrArg (writeTime (s.pkg.home (dpa / 64))) hltime) (hnear rfl) none
    simp only [if_true, htimes]
    rw [meshWrite_sound, dropTagged_empty]
    · exact ⟨rfl, noteStale_g s dpa n, rfl⟩
    · exact hempty.1
    · exact hmesh

/-- A relaxed atomic's value counts as returned, which changes the hart's record of reads alone. -/
theorem atomicServed_returned {dpa n : Nat} {new : Option Nat} {s u : State} (h : AtomicServed dpa n new s u)
    (wts : Option (BitVec 16)) : AtomicServed dpa n new s (u.returned wts .rlx) := by
  obtain ⟨hmem, hregs, hbench⟩ := h
  cases wts with
  | some w => exact ⟨hmem, hregs, hbench⟩
  | none =>
    change AtomicServed dpa n new s u.noteOutside
    unfold State.noteOutside
    split
    · exact ⟨hmem, hregs, hbench⟩
    · exact ⟨hmem, hregs, hbench⟩

theorem atomicHome_served {s : State} {dpa n : Nat} {ea : Word} {op : AmoOp} {v cmp : Nat} (h : AtomicReady dpa n s)
    (hempty : EmptyCache s) (hinj : NoInjection s) (hnear : Near s (writeTime (s.pkg.home (dpa / 64)) s.hart.ltime)) :
    ∃ u, s.atomicHome dpa n .wb false 0#12 ea op .rlx v cmp = .ok (s.pkg.read dpa n) u ∧
      AtomicServed dpa n (amoTable op n (s.pkg.read dpa n) v cmp) s u := by
  have hserves := calmLine_serves h.calm
  have hnotHit : poisonHit (s.homeImage (dpa / 64)).2 (dpa % 64) n = false := by
    rw [State.homeImage, h.poison, poisonHit_zero]
  have hold : lineNat (s.homeImage (dpa / 64)).1 (dpa % 64) n = s.pkg.read dpa n := lineNat_lineData s.pkg h.fits
  have hnew := atomicReady_old h op v cmp
  have hroute := route_calm hserves.bias
  rw [hold] at hnew
  unfold State.atomicHome State.atomicWith
  simp only [if_true, calmLine_recallFor h.calm, compose_root, throughMesh_sound h.calm.unspoilt.2.2, hnotHit, hold, hnew, hroute,
    State.countAccess, Bool.false_eq_true, if_false]
  cases amoTable op n (s.pkg.read dpa n) v cmp with
  | none =>
    cases hmaint : s.hart.maint with
    | true =>
      simp only [bne_self_eq_false, if_true, Bool.false_eq_true, if_false]
      exact ⟨_, rfl, atomicServed_returned ⟨rfl, rfl, rfl⟩ none⟩
    | false =>
      simp only [Bool.false_eq_true, if_false, homeReadTimes_slice hserves]
      refine ⟨_, rfl, atomicServed_returned ?_ _⟩
      simp only [decide_true, Bool.true_and, show (!isAcquire .rlx) = true from rfl, if_true]
      rw [fill_empty]
      · exact ⟨rfl, rfl, rfl⟩
      · exact hempty
      · exact hinj
  | some w =>
    obtain ⟨u, hwrite, hserved⟩ := homeWrite_served (n := n) (w := w) (timed := s.route dpa .wb != .plain) h.calm hempty fun _ => hnear
    rw [hroute] at hwrite
    simp only [hwrite]
    exact ⟨_, rfl, atomicServed_returned hserved _⟩

/-! ### The requests (10:R219). -/

theorem homeAtomic_other {s : State} {r : CoreRequest} {dpa : Nat} {op : AmoOp} {w4 : Bool} {v cmp : Word}
    (h : AtomicReady dpa (amoSize w4) s) (haligned : dpa % amoSize w4 = 0) (hr : PlainRequest s r) :
    exec (.homeAtomic (.other r) dpa op w4 v cmp) s = .next (s.otherAtomic r dpa (amoSize w4) op v.toNat cmp.toNat) := by
  have hhyp : s.pkg.requestHyp r (dpa / 64) = 0#12 := by
    rw [Pkg.requestHyp, hr.hyp, ite_self]
  have hopen : (s.pkg.hypEntry 0#12).st = .open := rfl
  change execHomeAtomic (.other r) dpa op w4 v cmp s = _
  simp only [execHomeAtomic, haligned, hr.core, hr.hyp, hopen, hhyp, calmLine_atHome h.calm, bne_self_eq_false, decide_false, Bool.or_self,
    Bool.false_eq_true, if_false]

theorem homeAtomic_self {s : State} {dpa : Nat} {op : AmoOp} {w4 : Bool} {v cmp : Word}
    (h : AtomicReady dpa (amoSize w4) s) (haligned : dpa % amoSize w4 = 0) (hempty : EmptyCache s) (hinj : NoInjection s)
    (hnear : Near s (writeTime (s.pkg.home (dpa / 64)) s.hart.ltime)) :
    Completes (.homeAtomic .self dpa op w4 v cmp) s
      (AtomicServed dpa (amoSize w4) (amoTable op (amoSize w4) (s.pkg.read dpa (amoSize w4)) v.toNat cmp.toNat) s) := by
  obtain ⟨u, hatomic, hserved⟩ := atomicHome_served (ea := BitVec.ofNat 64 dpa) (op := op) (v := v.toNat) (cmp := cmp.toNat)
    h hempty hinj hnear
  refine ⟨u, ?_, hserved⟩
  change execHomeAtomic .self dpa op w4 v cmp s = _
  simp only [execHomeAtomic, haligned, calmLine_atHome h.calm, lineType_of_device h.calm.free.device, hatomic, bne_self_eq_false,
    Bool.false_eq_true, if_false]

end Sys2Proof.Machine
end

/-! Lines that come back to their homes (08:R167, R169, 09:R203, 21:R359): from another core, with and without data, and from this one,
whose copy goes or becomes V. -/

section
namespace Sys2Proof.Machine
open Claims

/-! ### Poison of a line put in memory (21:R359). -/

theorem natSetHas_setPoisons {p : Pkg} (q : BitVec 8) (line : Nat) (is : List Nat) (hwf : sparseWf false p.memPoison = true) (w : Nat) :
    natSetHas (is.foldl (fun p i => if q.getLsbD i then p.setPoison (line * 64 + i * 8) true else p) p).memPoison w =
      (natSetHas p.memPoison w || is.any (fun i => q.getLsbD i && decide (line * 8 + i = w))) := by
  induction is generalizing p with
  | nil => simp
  | cons i is ih =>
    rw [List.foldl_cons, List.any_cons]
    cases hq : q.getLsbD i with
    | false => simpa using ih hwf
    | true =>
      have hword : (line * 64 + i * 8) / 8 = line * 8 + i := by omega
      rw [if_pos rfl, ih (sparseWf_set _ _ _ _ hwf), Pkg.setPoison, hword, natSetHas_put _ _ _ _ hwf]
      by_cases hw : w = line * 8 + i
      · simp [hw]
      · simp [hw, Ne.symm hw]

theorem linePoison_of_words {p : Pkg} {line : Nat} {q : BitVec 8} (h : ∀ i < 8, natSetHas p.memPoison (line * 8 + i) = q.getLsbD i) :
    p.linePoison line = q := by
  have hbits : ∀ q : BitVec 8, BitVec.ofNat 8 ((List.range 8).foldl (fun n i => n + (if q.getLsbD i then 2 ^ i else 0)) 0) = q := by
    decide
  rw [Pkg.linePoison, ← hbits q]
  refine congrArg (BitVec.ofNat 8) (List.foldl_ext _ _ _ fun n i hi => ?_)
  rw [h i (List.mem_range.mp hi)]

theorem linePoison_putLine (p : Pkg) (line : Nat) (d : BitVec 512) (q : BitVec 8) (hwf : sparseWf false p.memPoison = true) :
    (p.putLine line d q).linePoison line = q := by
  refine linePoison_of_words fun i hi => ?_
  have hclear : natSetHas (p.writeNat (line * 64) 64 d.toNat).memPoison (line * 8 + i) = false := by
    rw [Pkg.writeNat, Pkg.write, natSetHas, sparseGet_drop _ hwf, if_pos]
    rw [leBytes_length, Bool.and_eq_true, decide_eq_true_eq, decide_eq_true_eq]
    omega
  have hdrop : sparseWf false (p.writeNat (line * 64) 64 d.toNat).memPoison = true := by
    rw [Pkg.writeNat, Pkg.write]
    dsimp only
    exact sparseWf_drop _ _ _ hwf
  rw [Pkg.putLine, natSetHas_setPoisons _ _ _ hdrop, hclear, Bool.false_or, Bool.eq_iff_iff, List.any_eq_true]
  simp only [List.mem_range, Bool.and_eq_true, decide_eq_true_eq]
  exact ⟨fun ⟨j, _, hq, hj⟩ => (show j = i by omega) ▸ hq, fun hq => ⟨i, hi, hq, rfl⟩⟩

/-! ### A line of another core comes back (09:R203). -/

theorem homeWriteBack_other {s : State} {r : CoreRequest} {line : Nat} (howner : (s.pkg.home line).owner = some r.core)
    (hr : PlainRequest s r) (data : Option LineImage) :
    exec (.homeWriteBack (.other r) line data) s = .next (s.otherReturns r line data) := by
  have hmark : s.markOnly r line data.isSome = s := by rw [State.markOnly, enterMark_plain hr.race]; rfl
  have howns : s.ownsLine r.core line 0#12 = true := by simp [State.ownsLine, howner]
  have hcore : (r.core != s.core.num) = true := bne_iff_ne.mpr hr.core
  change execHomeWriteBack (.other r) line data s = _
  simp only [execHomeWriteBack, hr.hyp, howns, hcore, hmark, Bool.and_self, if_true]

theorem otherReturns_served {s : State} {r : CoreRequest} {line : Nat} {w : BitVec 16} (hw : serMax (s.pkg.home line).wts r.t = w)
    (hwf : s.MemWf) (hnear : Near s w) :
    (let u := s.otherReturns r line none
     u.hart = s.hart ∧ u.core = s.core ∧ u.pkg.mem = s.pkg.mem ∧ HomeNow line (backHome w none) s u) ∧
    ∀ d, let u := s.otherReturns r line (some d)
      SameRegs s u ∧ u.core = s.core ∧ u.pkg.lineData line = d.data ∧ (∀ x, x / 64 ≠ line → u.pkg.read x 1 = s.pkg.read x 1) ∧
      (sparseWf false s.pkg.memPoison = true → u.pkg.linePoison line = d.poison) ∧ HomeNow line (backHome w none) s u := by
  subst hw
  constructor
  · intro u
    have hu : u = (s.mapPkg fun p => { p with maxWts := serMax p.maxWts (serMax (s.pkg.home line).wts r.t) }).mapPkg fun p =>
        p.setHome line (backHome (serMax (s.pkg.home line).wts r.t) none) :=
      congrArg (fun t : State => t.mapPkg fun p => p.setHome line (backHome (serMax (s.pkg.home line).wts r.t) none)) (assign_near hnear)
    rw [hu]
    exact ⟨rfl, rfl, rfl, (home_setHome _ _ _ _).trans (if_pos rfl), fun x hx => (home_setHome _ _ _ _).trans (if_neg hx)⟩
  · intro d u
    have hassign := assign_near (s := s.noteStale (line * 64) 64) (w := serMax (s.pkg.home line).wts r.t) hnear
    have hu : u = (((s.noteStale (line * 64) 64).assign (serMax (s.pkg.home line).wts r.t)).mapPkg fun p =>
        (p.putLine line d.data d.poison).setHome line (backHome (serMax (s.pkg.home line).wts r.t) none)).wakeLine line := rfl
    rw [hassign] at hu
    have hpkg : u.pkg = (({ s.pkg with maxWts := serMax s.pkg.maxWts (serMax (s.pkg.home line).wts r.t) } : Pkg).putLine line d.data
        d.poison).setHome line (backHome (serMax (s.pkg.home line).wts r.t) none) := by
      rw [hu, State.wakeLine_pkg]
      rfl
    have hwf' : Memory.wf s.pkg.mem = true := hwf
    refine ⟨fun x => ?_, ?_, ?_, fun x hx => ?_, fun hpoison => ?_, ?_, fun x hx => ?_⟩
    · rw [State.g, State.g, hu, wakeLine_g]
      exact congrArg (fun g : Vector Word 32 => if x = 0#5 then 0 else g[x.toNat]) (noteStale_g s _ _)
    · rw [hu, wakeLine_core]
      rfl
    · rw [hpkg]
      exact lineData_putLine _ _ _ _ hwf'
    · rw [hpkg]
      exact read_putLine_apart _ _ _ _ hwf' hx
    · rw [hpkg]
      exact linePoison_putLine _ _ _ _ hpoison
    · rw [hpkg, home_setHome, if_pos rfl]
    · rw [hpkg, home_setHome, if_neg hx, putLine_homes]
      rfl

/-! ### A line of this core comes back (08:R169). -/

theorem find?_of_find? {α : Type} {p q : α → Bool} {xs : List α} {a : α} (h : xs.find? p = some a) (hq : ∀ x, q x = true → p x = true)
    (ha : q a = true) : xs.find? q = some a := by
  induction xs with
  | nil => exact h
  | cons x xs ih =>
    rw [List.find?_cons] at h ⊢
    cases hp : p x with
    | true =>
      rw [hp] at h
      obtain rfl := Option.some.inj h
      rw [ha]
    | false =>
      rw [hp] at h
      have hx : q x = false := Bool.eq_false_iff.mpr fun hx => by rw [hq x hx] at hp; exact Bool.false_ne_true hp.symm
      rw [hx]
      exact ih h

theorem owned_of_findLine {c : Core} {line : Nat} {l : Line} (h : c.findLine line 0#12 = some l) (hst : l.st ≠ .v) :
    c.owned line = some l := by
  have hl := List.find?_some h
  refine find?_of_find? h (fun x hx => ?_) ?_
  · rw [Bool.and_eq_true] at hx
    exact hx.1
  · rw [Bool.and_eq_true]
    exact ⟨hl, bne_iff_ne.mpr hst⟩

/-- What the home's taking of a dirty line leaves when it may assign the time at once. -/
theorem homeTakes_near {s : State} {l : Line} {line : Nat} {w : BitVec 16} (hline : l.line = line)
    (hw : s.returnTime (s.pkg.home line).wts = w) (hnear : Near s w) :
    (s.homeTakes l none).hart = s.hart ∧ (s.homeTakes l none).core.lines = s.core.lines ∧
      HomeNow line (backHome w none) s (s.homeTakes l none) := by
  subst hline hw
  have hpkg := sendLine_pkg s l
  have hnear' : Near (s.sendLine l).1 (s.returnTime (s.pkg.home l.line).wts) := by
    unfold Near
    rw [hpkg]
    exact hnear
  unfold State.homeTakes
  rw [assign_near hnear']
  refine ⟨sendLine_hart s l, sendLine_lines s l, ?_, fun x hx => ?_⟩
  · exact (home_setHome _ _ _ _).trans (if_pos rfl)
  · refine (home_setHome _ _ _ _).trans ((if_neg hx).trans ((putLine_homes _ _ _ _ _).trans ?_))
    rw [State.mapPkg_pkg, hpkg]
    rfl

/-- A copy of the line under the root. -/
def isCopy (line : Nat) (x : Line) : Bool := x.line = line && x.hyp = 0#12

/-- The copies of a dirty line become V with its new times. -/
theorem writeBack_shared {s : State} {l : Line} (hst : l.st = .d) : s.writeBack l (some .v) =
    (s.homeTakes l none).mapCore (fun c => { c with lines := c.lines.map (fun x => if x.line = l.line && x.hyp = l.hyp then
      { x with st := .v, wts := s.returnTime (s.pkg.home l.line).wts, rts := s.returnTime (s.pkg.home l.line).wts } else x) }) := by
  unfold State.writeBack
  simp only [hst, if_true]
  rfl

/-- The dirty line has come back to its home from this core. -/
structure CameBack (line : Nat) (w : BitVec 16) (l : Line) (s u : State) : Prop where
  hart : u.hart = s.hart
  data : u.pkg.lineData line = l.data
  others : ∀ x, x / 64 ≠ line → u.pkg.read x 1 = s.pkg.read x 1
  home : HomeNow line (backHome w none) s u
  owned : u.core.owned line = none

theorem writeBack_gone {s : State} {l : Line} {line : Nat} {w : BitVec 16} (hl : s.core.findLine line 0#12 = some l) (hst : l.st = .d)
    (hwf : s.MemWf) (hw : s.returnTime (s.pkg.home line).wts = w) (hnear : Near s w) : CameBack line w l s (s.writeBack l none) := by
  obtain ⟨hline, hhyp⟩ := Core.findLine_key hl
  obtain ⟨hhart, hlines, hhome⟩ := homeTakes_near hline hw hnear
  have htaken := homeTakes_taken l none hwf
  have hdrop := dropLines_linesMoved (s.homeTakes l none) (fun x => x.line = l.line && x.hyp = l.hyp)
  rw [writeBack_dirty hst]
  refine ⟨(State.dropLines_hart _ _).trans hhart, ?_, fun x hx => ?_, ⟨?_, fun x hx => ?_⟩, ?_⟩
  · rw [lineData_congr hdrop.mem, ← hline]
    exact htaken.data
  · rw [read_congr hdrop.mem]
    exact htaken.others x (hline ▸ hx)
  · rw [dropLines_home, hhome.1]
  · rw [dropLines_home, hhome.2 x hx]
  · rw [State.dropLines_core, Core.owned, List.find?_eq_none]
    intro x hx
    have hkeep := (List.mem_filter.mp hx).2
    rw [hline, hhyp] at hkeep
    intro hkey
    rw [Bool.and_eq_true] at hkey
    dsimp only at hkeep
    rw [hkey.1] at hkeep
    exact Bool.false_ne_true hkeep

theorem writeBack_shares {s : State} {l : Line} {line : Nat} {w : BitVec 16} (hl : s.core.findLine line 0#12 = some l) (hst : l.st = .d)
    (hwf : s.MemWf) (hw : s.returnTime (s.pkg.home line).wts = w) (hnear : Near s w) : CameBack line w l s (s.writeBack l (some .v)) ∧
      (s.writeBack l (some .v)).core.findLine line 0#12 = some { l with st := .v, wts := w, rts := w } := by
  obtain ⟨hline, hhyp⟩ := Core.findLine_key hl
  obtain ⟨hhart, hlines, hhome⟩ := homeTakes_near hline hw hnear
  have htaken := homeTakes_taken l none hwf
  have hkeys : (s.writeBack l (some .v)).core.lines = s.core.lines.map (fun x => if isCopy line x then
      { x with st := .v, wts := w, rts := w } else x) := by
    rw [writeBack_shared hst, State.mapCore_core, hlines, hline, hhyp, hw]
    rfl
  have hkey (x : Line) : isCopy line (if isCopy line x then { x with st := .v, wts := w, rts := w } else x) = isCopy line x := by
    split <;> rfl
  refine ⟨⟨?_, ?_, fun x hx => ?_, ?_, ?_⟩, ?_⟩
  · rw [writeBack_shared hst]
    exact hhart
  · rw [writeBack_shared hst, ← hline]
    exact htaken.data
  · rw [writeBack_shared hst]
    exact htaken.others x (hline ▸ hx)
  · rw [writeBack_shared hst]
    exact hhome
  · rw [Core.owned, hkeys, List.find?_eq_none]
    intro x hx
    obtain ⟨y, -, rfl⟩ := List.mem_map.mp hx
    intro hown
    rw [Bool.and_eq_true] at hown
    have hcopy : isCopy line y = true := (hkey y).symm.trans hown.1
    rw [if_pos hcopy] at hown
    exact absurd hown.2 (by simp)
  · rw [Core.findLine, hkeys, List.find?_map]
    have hfind : s.core.lines.find? (fun x => isCopy line (if isCopy line x then { x with st := .v, wts := w, rts := w } else x)) =
        some l := by
      rw [funext hkey]
      exact hl
    refine (congrArg (Option.map _) hfind).trans ?_
    rw [Option.map_some, if_pos (show isCopy line l = true by simp [isCopy, hline, hhyp])]

end Sys2Proof.Machine
end

/-! The horizon broadcast, the race sweeps and the scrub (09:R200, R206, 21:R358); then the statement O47. -/

section
namespace Sys2Proof.Machine
open Claims

/-! ### A line of this core comes back by request or by recall (08:R167, R169). -/

theorem homeWriteBack_self {s : State} {line : Nat} {l : Line} (howned : s.core.owned line = some l) (hlock : l.lock = [])
    (data : Option LineImage) : exec (.homeWriteBack .self line data) s = .next (s.writeBack l none) := by
  change execHomeWriteBack .self line data s = _
  simp only [execHomeWriteBack, howned, hlock, List.isEmpty_nil, if_true]

theorem homeWriteBack_locked {s : State} {line : Nat} {l : Line} (howned : s.core.owned line = some l) (hlock : l.lock ≠ [])
    (data : Option LineImage) : exec (.homeWriteBack .self line data) s = .next s := by
  have hempty : l.lock.isEmpty = false := Bool.eq_false_iff.mpr fun h => hlock (List.isEmpty_iff.mp h)
  change execHomeWriteBack .self line data s = _
  simp only [execHomeWriteBack, howned, hempty, Bool.false_eq_true, if_false]

theorem ownerRecall_owned {s : State} {line : Nat} {l : Line} (howned : s.core.owned line = some l) :
    exec (.ownerRecall line) s = .next (s.writeBack l (some .v)) := by
  change execOwnerRecall line s = _
  simp only [execOwnerRecall, howned]

theorem ownLine_comesBack {s : State} {line : Nat} {l : Line} {d : LineImage} (hl : s.core.findLine line 0#12 = some l)
    (hst : l.st = .d) (hlock : l.lock = []) (hwf : s.MemWf) (hmaint : s.hart.maint = false)
    (hnear : Near s (serMax (s.pkg.home line).wts s.hart.ltime)) :
    ∀ i ∈ [Instr.homeWriteBack .self line (some d), .ownerRecall line], Completes i s (fun u => u.hart = s.hart ∧
      u.pkg.lineData line = l.data ∧ (∀ x, x / 64 ≠ line → u.pkg.read x 1 = s.pkg.read x 1) ∧
      HomeNow line { wts := serMax (s.pkg.home line).wts s.hart.ltime, rts := serMax (s.pkg.home line).wts s.hart.ltime, owner := none }
        s u ∧ u.core.owned line = none ∧
      (i = .ownerRecall line → ∃ x, u.core.findLine line 0#12 = some x ∧ x.st = .v ∧ x.data = l.data)) := by
  have howned := owned_of_findLine hl (by rw [hst]; decide)
  have hw : s.returnTime (s.pkg.home line).wts = serMax (s.pkg.home line).wts s.hart.ltime := by
    rw [State.returnTime, hmaint]
    rfl
  intro i hi
  simp only [List.mem_cons, List.not_mem_nil, or_false] at hi
  rcases hi with rfl | rfl
  · obtain ⟨hhart, hdata, hothers, hhome, hgone⟩ := writeBack_gone hl hst hwf hw hnear
    exact ⟨_, homeWriteBack_self howned hlock _, hhart, hdata, hothers, hhome, hgone, fun h => nomatch h⟩
  · obtain ⟨⟨hhart, hdata, hothers, hhome, hgone⟩, hshared⟩ := writeBack_shares hl hst hwf hw hnear
    exact ⟨_, ownerRecall_owned howned, hhart, hdata, hothers, hhome, hgone, fun _ => ⟨_, hshared, rfl, rfl⟩⟩

/-! ### The broadcast (09:R206). -/

theorem sliceOf_lt (x : Nat) : sliceOf x < 40 := by
  have h (a b : Nat) (ha : a < 2 ^ 5) (hb : b < 2 ^ 5) : a ^^^ b < 2 ^ 5 := Nat.xor_lt_two_pow ha hb
  have hlt : sliceOf x < 2 ^ 5 := h _ _ (h _ _ (h _ _ (h _ _ (h _ _ (by omega) (by omega)) (by omega)) (by omega)) (by omega)) (by omega)
  omega

theorem homeOf_lt (line : Nat) : homeOf line < 40 := by
  have h (a b : Nat) (ha : a < 2 ^ 3) (hb : b < 2 ^ 3) : a ^^^ b < 2 ^ 3 := Nat.xor_lt_two_pow ha hb
  have hpantry : pantryOf (line * 64) < 2 ^ 3 := h _ _ (h _ _ (by omega) (by omega)) (by omega)
  have hslice := sliceOf_lt (line * 64)
  unfold homeOf
  split <;> omega

theorem sparseGet_map {α : Type} (d : α) (f : α → α) (hd : f d = d) (m : Sparse α) (k : Nat) :
    sparseGet d (m.map fun e => (e.1, f e.2)) k = f (sparseGet d m k) := by
  induction m with
  | nil => exact hd.symm
  | cons e m ih =>
    simp only [List.map_cons, sparseGet]
    split
    · exact ih
    · split
      · rfl
      · exact hd.symm

/-- A home at a broadcast that lags: its times rise. -/
def liftHome (p low : BitVec 16) (h : HomeLine) : HomeLine :=
  if serBehind p h.rts 0x2000 = true then { wts := low, rts := low, owner := h.owner } else h

theorem dropLines_pkg (s : State) (q : Line → Bool) :
    (s.dropLines q).pkg = { s.pkg with poisonSrc := (s.dropLines q).pkg.poisonSrc } :=
  congrArg (fun p : Pkg => { p with poisonSrc := (s.dropLines q).pkg.poisonSrc })
    (foldl_keeps (fun s : State => { s.pkg with poisonSrc := [] }) State.forgetSource (fun _ _ => rfl) _ (s.mapCore (·.dropLines q)))

/-- The copies that a broadcast drops: V copies without a lock whose lease lags. -/
def Lapsed (p : BitVec 16) (l : Line) : Bool := l.st = .v && serBehind p l.rts 0x2000 && l.lock.isEmpty

/-- P after a broadcast. -/
def State.risen (s : State) : BitVec 16 := serMax s.pkg.horizon s.pkg.maxWts

theorem broadcast_pkg (s : State) : s.broadcast.pkg = { s.pkg with
    poisonSrc := (s.dropLines (Lapsed s.risen)).pkg.poisonSrc
    horizon := s.risen
    floors := s.pkg.floors.map (fun f => if serBehind s.risen f 0x2000 then s.risen - 0x2000#16 else f)
    homes := s.pkg.homes.map (fun e => (e.1, e.2.map (liftHome s.risen (s.risen - 0x2000#16)))) } := by
  have hdrop := dropLines_pkg s (Lapsed s.risen)
  change ({ (s.dropLines (Lapsed s.risen)).pkg with
    horizon := s.risen
    floors := (s.dropLines (Lapsed s.risen)).pkg.floors.map (fun f => if serBehind s.risen f 0x2000 then s.risen - 0x2000#16 else f)
    homes := (s.dropLines (Lapsed s.risen)).pkg.homes.map
      (fun e => (e.1, e.2.map (liftHome s.risen (s.risen - 0x2000#16)))) } : Pkg) = _
  rw [hdrop]

theorem floorOf_map (p : Pkg) (f : BitVec 16 → BitVec 16) (x : Nat) :
    ({ p with floors := p.floors.map f } : Pkg).floorOf x = f (p.floorOf x) := by
  have hx := homeOf_lt x
  simp only [Pkg.floorOf, Vector.getElem?_eq_getElem hx, Vector.getElem_map, Option.getD_some]

theorem broadcast_home (s : State) (x : Nat) :
    s.broadcast.pkg.home x = liftHome s.risen (s.risen - 0x2000#16) (s.pkg.home x) := by
  have hfloor := floorOf_map s.pkg (fun f => if serBehind s.risen f 0x2000 then s.risen - 0x2000#16 else f) x
  have hget := sparseGet_map none (Option.map (liftHome s.risen (s.risen - 0x2000#16))) rfl s.pkg.homes x
  have hhome : s.broadcast.pkg.home x =
      (sparseGet none (s.pkg.homes.map fun e => (e.1, e.2.map (liftHome s.risen (s.risen - 0x2000#16)))) x).getD
        { wts := ({ s.pkg with floors := s.pkg.floors.map (fun f => if serBehind s.risen f 0x2000 then s.risen - 0x2000#16 else f) } :
            Pkg).floorOf x
          rts := ({ s.pkg with floors := s.pkg.floors.map (fun f => if serBehind s.risen f 0x2000 then s.risen - 0x2000#16 else f) } :
            Pkg).floorOf x
          owner := none } := by
    rw [broadcast_pkg]
    rfl
  rw [hhome, hget, hfloor, Pkg.home]
  cases sparseGet none s.pkg.homes x with
  | some h => rfl
  | none =>
    simp only [Option.map_none, Option.getD_none, liftHome]
    split <;> rfl

theorem broadcast_hart (s : State) : s.broadcast.hart = { s.hart with
    ltime := if s.hart.maint = false ∧ serBehind s.risen s.hart.ltime 0x2000 = true then s.risen - 0x2000#16 else s.hart.ltime
    maxRead := s.hart.maxRead.map (fun x => if serBehind s.risen x 0x2000 = true then s.risen - 0x2000#16 else x) } := by
  change ({ (s.dropLines (Lapsed s.risen)).hart with
    ltime := if (!(s.dropLines (Lapsed s.risen)).hart.maint && serBehind s.risen (s.dropLines (Lapsed s.risen)).hart.ltime 0x2000) = true
      then s.risen - 0x2000#16 else (s.dropLines (Lapsed s.risen)).hart.ltime
    maxRead := (s.dropLines (Lapsed s.risen)).hart.maxRead.map
      (fun x => if serBehind s.risen x 0x2000 = true then s.risen - 0x2000#16 else x) } : Hart) = _
  rw [State.dropLines_hart]
  simp only [Bool.and_eq_true, Bool.not_eq_true']

theorem lift_eq (y : Line) (p low : BitVec 16) : y.lift p low = if serBehind p y.rts 0x2000 = true then
    { y with wts := low, rts := if y.st = .v then low - 1#16 else low } else y := by
  unfold Line.lift
  by_cases h : serBehind p y.rts 0x2000 = true
  · simp only [h, Bool.not_true, Bool.false_eq_true, if_false, if_true]
    split <;> rfl
  · simp only [h, Bool.not_false, if_true, Bool.false_eq_true, if_false]

theorem mem_broadcast_lines (s : State) (x : Line) : x ∈ s.broadcast.core.lines ↔
    ∃ y ∈ s.core.lines, ¬(y.st = .v ∧ serBehind s.risen y.rts 0x2000 = true ∧ y.lock = []) ∧
      x = if serBehind s.risen y.rts 0x2000 = true then
        { y with wts := s.risen - 0x2000#16, rts := if y.st = .v then s.risen - 0x2000#16 - 1#16 else s.risen - 0x2000#16 } else y := by
  have hlines : s.broadcast.core.lines =
      (s.dropLines (Lapsed s.risen)).core.lines.map (fun l => l.lift s.risen (s.risen - 0x2000#16)) := rfl
  have hlapsed (y : Line) : Lapsed s.risen y = false ↔ ¬(y.st = .v ∧ serBehind s.risen y.rts 0x2000 = true ∧ y.lock = []) := by
    rw [Bool.eq_false_iff, ne_eq, Lapsed, Bool.and_eq_true, Bool.and_eq_true, decide_eq_true_eq, List.isEmpty_iff, and_assoc]
  rw [hlines, State.dropLines_core, List.mem_map]
  refine exists_congr fun y => ?_
  rw [Core.dropLines, List.mem_filter, Bool.not_eq_true', hlapsed, lift_eq, and_assoc, eq_comm (b := x)]

/-! ### Race sweeps (09:R200). -/

/-- A head that is left out where it is the default reads as a head. -/
theorem sparseGet_head {α : Type} [DecidableEq α] {d g : α} {r : Sparse α} {j k : Nat} (hbelow : k ≤ j → sparseGet d r k = d) :
    sparseGet d (if (g != d) = true then (j, g) :: r else r) k = if j < k then sparseGet d r k else if j = k then g else d := by
  by_cases hg : g = d
  · rw [if_neg (by simpa using hg)]
    split
    · rfl
    next hjk => rw [hbelow (Nat.not_lt.mp hjk), hg, ite_self]
  · rw [if_pos (by simpa using hg)]
    rfl

theorem sparseGet_sweep {α : Type} [DecidableEq α] {d : α} (q : Nat → Bool) (f : α → α) (hd : f d = d) {m : Sparse α}
    (hwf : sparseWf d m = true) (k : Nat) :
    sparseGet d ((m.map fun e => if q e.1 then (e.1, f e.2) else e).filter fun e => e.2 != d) k =
      if q k = true then f (sparseGet d m k) else sparseGet d m k := by
  unfold sparseWf at hwf
  generalize 0 = a at hwf
  induction m generalizing a with
  | nil => simp [sparseGet, hd]
  | cons e m ih =>
    obtain ⟨j, x⟩ := e
    simp only [sparseWfFrom, Bool.and_eq_true, decide_eq_true_eq] at hwf
    have hrest := ih (j + 1) hwf.2
    have hbelow (h : k ≤ j) : sparseGet d m k = d := sparseGet_below d m hwf.2 (Nat.lt_succ_of_le h)
    have hhead : (if q j = true then (j, f x) else (j, x)) = (j, if q j = true then f x else x) := by split <;> rfl
    rw [List.map_cons, hhead, List.filter_cons, sparseGet_head fun h => by rw [hrest, hbelow h, hd, ite_self], hrest]
    simp only [sparseGet]
    rcases Nat.lt_trichotomy j k with h | h | h
    · simp only [if_pos h]
    · subst h
      simp only [Nat.lt_irrefl, if_true, if_false]
    · simp only [if_neg (Nat.lt_asymm h), if_neg (Nat.ne_of_gt h), hd, ite_self]

theorem sweep_races (p : Pkg) (q : Nat → Bool) (hwf : sparseWf RaceRec.empty p.races = true) (w : Nat) :
    sparseGet RaceRec.empty (p.sweep q).races w = if q w = true then RaceRec.sweep p.stamp (sparseGet RaceRec.empty p.races w)
      else sparseGet RaceRec.empty p.races w :=
  sparseGet_sweep q (RaceRec.sweep p.stamp) rfl hwf w

theorem sweep_eq (x : RaceRec) (stamp : BitVec 20) : RaceRec.sweep stamp x =
    { writer := x.writer.filter (fun e => !decide (2 ^ 18 < (stamp - e.stamp).toNat))
      reader := x.reader.filter (fun e => !decide (2 ^ 18 < (stamp - e.stamp).toNat)) } := by
  have hside (e : Option RaceSide) : sweepSide stamp e = e.filter (fun e => !decide (2 ^ 18 < (stamp - e.stamp).toNat)) := by
    rw [sweepSide]
    congr 1
    funext e
    rw [← decide_not]
    exact decide_eq_decide.mpr Nat.not_lt.symm
  rw [RaceRec.sweep, hside, hside]

/-- A sweep of the words that a test selects, by a step that makes it. -/
theorem completes_sweep {s : State} {i : Instr} {q : Nat → Bool} {chosen : Nat → Prop}
    (hexec : exec i s = .next (s.mapPkg fun p => p.sweep q)) (hq : ∀ w, q w = true ↔ chosen w)
    (hwf : sparseWf RaceRec.empty s.pkg.races = true) : Completes i s (fun u =>
      u.hart = s.hart ∧ u.core = s.core ∧ u.pkg = { s.pkg with races := u.pkg.races } ∧ ∀ w,
        (chosen w → sparseGet RaceRec.empty u.pkg.races w = RaceRec.sweep s.pkg.stamp (sparseGet RaceRec.empty s.pkg.races w)) ∧
        (¬chosen w → sparseGet RaceRec.empty u.pkg.races w = sparseGet RaceRec.empty s.pkg.races w)) :=
  ⟨_, hexec, rfl, rfl, rfl, fun w => ⟨fun h => (sweep_races s.pkg q hwf w).trans (if_pos ((hq w).mpr h)),
    fun h => (sweep_races s.pkg q hwf w).trans (if_neg (mt (hq w).mp h))⟩⟩

/-! ### The scrub (21:R358). -/

theorem clearErrors_gone (p : Pkg) (line : Nat) :
    ∀ e ∈ (p.clearErrors line).memSoft ++ (p.clearErrors line).memHard, e.1 / 8 ≠ line := by
  intro e he
  rcases List.mem_append.mp he with h | h
  · simpa using (List.mem_filter.mp h).2
  · simpa using (List.mem_filter.mp h).2

theorem clearErrors_poison (p : Pkg) (line : Nat) (hwf : sparseWf false p.memPoison = true) (w : Nat) :
    natSetHas (p.clearErrors line).memPoison w =
      (natSetHas p.memPoison w || p.memHard.any (fun e => e.1 = w && e.1 / 8 = line)) := by
  have hput := natSetHas_putAll ((p.memHard.filter fun e => e.1 / 8 = line).map Prod.fst) true hwf w
  rw [List.foldl_map] at hput
  refine hput.trans ?_
  have hmem : w ∈ (p.memHard.filter fun e => e.1 / 8 = line).map Prod.fst ↔
      p.memHard.any (fun e => e.1 = w && e.1 / 8 = line) = true := by
    simp only [List.mem_map, List.mem_filter, List.any_eq_true, Bool.and_eq_true, decide_eq_true_eq]
    exact ⟨fun ⟨e, ⟨he, hl⟩, hw⟩ => ⟨e, he, hw, hl⟩, fun ⟨e, he, hw, hl⟩ => ⟨e, ⟨he, hl⟩, hw⟩⟩
  split
  next h => rw [hmem.mp h, Bool.or_true]
  next h => rw [Bool.eq_false_iff.mpr (mt hmem.mpr h), Bool.or_false]

theorem hbmScrub_eq (s : State) (line : Nat) : exec (.hbmScrub line) s =
    if regionOf (line * 64) = some .hbm then .next (s.mapPkg (·.clearErrors line)) else .next s := rfl

theorem atomicReady_of_aligned {s : State} {dpa : Nat} {w4 : Bool} (hc : CalmLine s (dpa / 64)) (haligned : dpa % amoSize w4 = 0)
    (hpoison : s.pkg.linePoison (dpa / 64) = 0#8) : AtomicReady dpa (amoSize w4) s where
  calm := hc
  fits := by
    cases w4
    all_goals
      simp only [amoSize, Bool.false_eq_true, if_false, if_true] at haligned ⊢
      omega
  size := by cases w4 <;> decide
  poison := hpoison

end Sys2Proof.Machine
end

section
namespace Sys2Proof
open Machine Claims

/-- Settles O47: each request is served by the home's times, records and data, and the broadcast, the sweeps and the scrub change
what they name. -/
theorem homesServeRequests : Obligations.HomesServeRequests := by
  unfold Obligations.HomesServeRequests
  intro line r op w4 dpa v cmp d l s h n other readBy newWts same
  have same_of {i : Instr} (hexec : exec i s = .next s) : same i := ⟨s, hexec, rfl⟩
  refine ⟨otherRequests_served, ownRequests_served, fun hmaint i hi => same_of (ownRequests_maint hmaint i hi),
    fun hnever => ⟨same_of (homeOwnership_never hnever), same_of (homeOwnership_never hnever)⟩,
    fun hc hcore hhyp hcount m hm _ => ?_, fun hc hcore hhyp hrace hregion hwf m hm => otherRead_counts hc hcore hhyp hrace hregion hwf hm,
    fun hc haligned hpoison hr hempty hinj i hi hnear => ?_, fun howner hr hwf hnear => ?_, ownLine_comesBack,
    fun hl hst hlock => same_of (homeWriteBack_locked (owned_of_findLine hl hst) hlock _), ?_, fun hwf => ?_,
    fun hregion hwf => ?_, fun hregion => same_of ((hbmScrub_eq s line).trans (if_neg hregion))⟩
  · obtain ⟨hwriter, hreader, hnone⟩ := otherRequests_race hc hcore hhyp hcount hm
    exact ⟨fun h => ⟨same_of (hwriter h).1, same_of (hwriter h).2⟩, fun h => same_of (hreader h), hnone⟩
  · have hready := atomicReady_of_aligned hc haligned hpoison
    simp only [List.mem_cons, List.not_mem_nil, or_false] at hi
    rcases hi with rfl | rfl
    · rw [if_neg (by simp [other])] at hnear
      exact ⟨_, homeAtomic_other hready haligned hr, atomicServed_bytes hc.free.wf (otherAtomic_served hready hr hnear)⟩
    · rw [if_pos rfl] at hnear
      obtain ⟨u, hexec, hserved⟩ := homeAtomic_self (op := op) (v := v) (cmp := cmp) hready haligned hempty hinj hnear
      exact ⟨u, hexec, atomicServed_bytes hc.free.wf hserved⟩
  · obtain ⟨hnone, hdata⟩ := otherReturns_served (r := r) rfl hwf hnear
    exact ⟨⟨_, homeWriteBack_other howner hr none, hnone⟩, ⟨_, homeWriteBack_other howner hr (some d), hdata d⟩⟩
  · exact ⟨_, rfl, congrArg Pkg.horizon (broadcast_pkg s), State.broadcast_mem s, broadcast_hart s, mem_broadcast_lines s, broadcast_home s⟩
  · have hline (w : Nat) : decide (w / 8 = line) = true ↔ w / 8 = line := decide_eq_true_iff
    have hheld (w : Nat) : s.core.lines.any (fun x => x.line = w / 8) = true ↔ ∃ x ∈ s.core.lines, x.line = w / 8 := by
      simp only [List.any_eq_true, decide_eq_true_eq]
    have hslice := completes_sweep (i := .sliceRaceSweep line) rfl hline hwf
    have hcore := completes_sweep (i := .coreRaceSweep) rfl hheld hwf
    simp only [sweep_eq] at hslice hcore
    exact ⟨hslice, hcore⟩
  · rw [Completes, hbmScrub_eq, if_pos hregion]
    exact ⟨_, rfl, rfl, rfl, rfl, clearErrors_gone s.pkg line, clearErrors_poison s.pkg line hwf⟩

end Sys2Proof
end
